-- ==== Sys2Proof/Word.lean ====
section
/-! DEFINITION. The unit of stored and transmitted data, and the numbers computed from it.

R25: values travel as bytes, multi-byte values little-endian. A byte is a bit vector; quantities, counts,
addresses and positions are `Nat` or `Int`, computed exactly and narrowed where a rule names a width. -/

namespace Sys2Proof

/-- One byte, the unit in which values travel and are stored (R25). -/
abbrev Byte := BitVec 8

/-- One byte of memory at an address, as the cellar and the attic hold it. -/
abbrev Cell := Nat × Byte

/-- Key and value pairs: every sparse store of the machine. -/
abbrev Kv (α : Type) := List (Nat × α)

end Sys2Proof
end

