-- ==== Sys2Proof/Syntax.lean ====
section
/-! DEFINITION. The commands: one constructor per row of spec/opcode_table.json, with the row's operands, and the
operand types. The table gives no fields, so the operands are those the row's rule names (log entry 5). -/

namespace Sys2Proof

/-- A YDP frame as received (R43): the way it came in (0 FP0, 1 FP1, 2 mailbox), the sender's MAC address, IPv4 address
and UDP port (12 bytes, empty for the mailbox), the header fields but the opcode, which the row fixes, and the payload. -/
structure Frame where
  path : Nat
  peer : List Byte
  magic : Nat
  version : Nat
  session : Nat
  flags : Nat
  seq : Nat
  tag : Nat
  length : Nat
  status : Nat
  payload : List Byte
  deriving DecidableEq, Repr

/-- A single-entry WRITE request of a session to the object its row names: session number, sequence and tag, and the path it comes
by (0 FP0, 1 FP1, 2 mailbox) with the peer's MAC address, IPv4 address and UDP port (R43, R47, R360). -/
structure Req where
  session : Nat
  seq : Nat
  tag : Nat
  path : Nat
  peer : List Byte
  deriving DecidableEq, Repr

/-- A ring tail written through its BAR0 register or through its object (R66, R372). -/
inductive TailWrite
  | reg (value : Nat)
  | obj (r : Req) (value : Nat)
  deriving DecidableEq, Repr

/-- A read of the host port: of BAR0 from an offset, with the byte enables of each dword in ascending order, or of a dword of
configuration space (R368, R370). -/
inductive HostRead
  | bar0 (offset : Nat) (enables : List Nat)
  | config (offset : Nat)
  deriving DecidableEq, Repr

/-- A write of the host port's configuration or MSI-X table (R368, R373): none; the Command register; the MSI-X message control; the
power management control and status; the device control's payload size; a BAR dword; a dword of the MSI-X table at an offset. -/
inductive HostWrite
  | nothing
  | command (value : Nat)
  | msixControl (value : Nat)
  | power (value : Nat)
  | payload (value : Nat)
  | bar (dword value : Nat)
  | table (offset value : Nat)
  deriving DecidableEq, Repr

/-- What a wake source sees in SLEEP (R406): a link that comes up; PCI Express; WAKE_N low for so many ns; net forward ENC0 counts since
SLEEP; the alarm. -/
inductive WakeEvent
  | field
  | pcie
  | wakeN (low : Nat)
  | motion (counts : Int)
  | alarm
  deriving DecidableEq, Repr

/-- Who claims or completes: BAR0, which needs no session, or a session (R380, R381). -/
inductive Accessor
  | bar0
  | dict (r : Req)
  deriving DecidableEq, Repr

/-- Two samples of one fault source's rails, 4 ns apart (R458): T and C of each, and the source's number. -/
structure RailSample where
  source : Nat
  t0 : Bool
  c0 : Bool
  t1 : Bool
  c1 : Bool
  deriving DecidableEq, Repr

/-- A frame received from a chain (R150): the lane it came in on, and what came between its SOF and EOF: header, payload and CRC. -/
structure HeadFrame where
  lane : Nat
  bytes : List Byte
  deriving DecidableEq, Repr

/-- A frame received from a camera, striped over its lanes (R191, R239): the index since the last SKIP of the first word between its SOF
and EOF, the delay of each lane's SKIP in code groups, and the bytes that came on each lane, by bond index. -/
structure CamFrame where
  camera : Nat
  first : Nat
  skews : List Nat
  parts : List (List Byte)
  deriving DecidableEq, Repr

/-- A regulator's telemetry (R410, R411): attempts of a transaction that ended in a NACK or a PEC error; the words of READ_VOUT in
LINEAR16, READ_IOUT and READ_TEMPERATURE_1 in LINEAR11, and STATUS_WORD. -/
structure PmbusReading where
  regulator : Nat
  failures : Nat
  vout : Nat
  iout : Nat
  temperature : Nat
  status : Nat
  deriving DecidableEq, Repr

/-- What a start-up finds on the attic's pins (R422, R427): whether SFDP answers, the capacity in MiB, DTR support, the JEDEC
identity, and what the slots hold where the attic is not the one of before. -/
structure AtticFound where
  answers : Bool
  capacity : Nat
  dtr : Bool
  id : List Byte
  contents : Option (Kv (List Byte))
  deriving DecidableEq, Repr

/-- What training finds (R333 to R335): ranks and density in Gb of every channel, whether the channels are alike and of a supported type,
and the step that failed for each controller as 2820+m:02 shows it, 0 for none. -/
structure CellarFound where
  ranks : Nat
  density : Nat
  alike : Bool
  fault0 : Nat
  fault1 : Nat
  deriving DecidableEq, Repr

/-- The sources of the cellar's requests (R344). `cropRing`, `recordView` and `monitorView` are a camera's outputs, `tables` library, table
and appearance loads and exports. -/
inductive CellarSource
  | printFetch | fireRecord | arrayLoad
  | inspectFetch | cropRing | recordView | monitorView | encoder | decoder
  | bar2 | header | verify | packer | loopRing | tables
  | scrub | wipe
  deriving DecidableEq, Repr

/-- An error that freezes a controller (R340, R342): an uncorrectable error in the block at an address, with its syndrome, the command that
read it and that command's source; or a parity error of a command at a channel, rank, bank and row. -/
inductive FreezeEvent
  | ue (source : CellarSource) (address syndrome command : Nat)
  | parity (channel rank bank row command : Nat) (source : CellarSource)
  deriving DecidableEq, Repr

/-- A memory access of the host through BAR2 (R355): a read of some bytes, with the address of a block in which an error was
corrected if one was, or a write of bytes. -/
inductive Bar2
  | read (address bytes : Nat) (corrected : Option Nat)
  | write (address : Nat) (data : List Byte)
  deriving DecidableEq, Repr

/-- An Announce (R364): the port it came in on, and its grandmaster's priority1, class, accuracy, variance, priority2 and identity,
steps removed, the identity of its sender's clock and port, and the UTC offset it announces. -/
structure Announce where
  port : Nat
  priority1 : Nat
  clockClass : Nat
  accuracy : Nat
  variance : Nat
  priority2 : Nat
  grandmaster : Nat
  steps : Nat
  sender : Nat
  senderPort : Nat
  utcOffset : Int
  deriving DecidableEq, Repr

/-- One command a row of the opcode table. -/
inductive Instr
  /-- DISCOVER (R43): A DISCOVER frame is answered with the identity entries, without opening a session. -/
  | discover (f : Frame)
  /-- OPEN (R36): An OPEN frame opens a session at the lower of the requested role and the path's role ceiling, and returns its number and tag. -/
  | openSession (f : Frame)
  /-- CLOSE (R40): A CLOSE frame closes the session and, if it held the control grant, releases the grant and closes admission. -/
  | close (f : Frame)
  /-- KEEPALIVE (R41): A KEEPALIVE frame keeps the session alive and restarts its idle time. -/
  | keepalive (f : Frame)
  /-- CHALLENGE (R37): A CHALLENGE frame returns a fresh 16-byte nonce, valid for 10 s and for that session only. -/
  | challenge (f : Frame)
  /-- PROVE (R37): A PROVE frame is judged against the session's outstanding nonce; a matching proof raises the session to SERVICE. -/
  | prove (f : Frame)
  /-- READ (R46): A READ frame returns the values of up to 32 entries after the checks of R33. -/
  | read (f : Frame)
  /-- WRITE (R47): A WRITE frame checks every entry and then applies all of them, or none, at rank 6; this row covers writes to objects that have no row of their own. -/
  | write (f : Frame)
  /-- DESCRIBE (R49): A DESCRIBE frame returns the 74-byte descriptor of an object, or of the next object in index order. -/
  | describe (f : Frame)
  /-- SEG_WRITE (R50): A SEG_WRITE segment is added to the shared staging buffer; the last segment checks the whole value and applies it. -/
  | segWrite (f : Frame)
  /-- SEG_READ (R50): A SEG_READ returns one chunk; the read at offset 0 copies the whole value into the buffer in one cycle. -/
  | segRead (f : Frame)
  /-- SUBSCRIBE (R52): A SUBSCRIBE frame sets or cancels a publish set of up to 32 references for the session. -/
  | subscribe (f : Frame)
  /-- EVENT_ACK (R54): An EVENT_ACK acknowledges the EVENT frame in flight whose sequence it names, with no response. -/
  | eventAck (f : Frame)
  /-- PUBLISH (R53): At each whole multiple of a set's period, all the set's values are sampled in one cycle and sent as a PUBLISH frame. -/
  | publish (session set : Nat)
  /-- EVENT (R54): Queued bell records are sent to a session as an EVENT frame once no other frame of that session is in flight. -/
  | event (session : Nat)
  /-- EVENT_RESEND (R54): Every 20 ms an unacknowledged EVENT frame is resent; after the fifth resend it is discarded and its records counted as lost. -/
  | eventResend (session : Nat)
  /-- SESSION_SILENT (R41): A session with no valid frame for session_timeout is closed; if it held the grant, admission closes and the ceiling follows the horizon. -/
  | sessionSilent (session : Nat)
  /-- SEGMENT_ABANDON (R50): A segmented transfer with no segment for 2,000 ms is abandoned and the staging buffer is freed. -/
  | segmentAbandon
  /-- NONCE_EXPIRE (R37): A nonce outstanding for 10 s becomes invalid. -/
  | nonceExpire (session : Nat)
  /-- SERVICE_LOCKOUT_END (R38): After 60 s the SERVICE suspension ends and the failure count returns to 0. -/
  | serviceLockoutEnd
  /-- POST (R51): Writing POST in MBX_CTRL submits the frame in the mailbox request buffer, sets BUSY and later fills the response buffer. -/
  | post (buffer : List Byte)
  /-- MBX_EVT_TAIL_WRITE (R51): Advancing MBX_EVT_TAIL frees event ring slots and acknowledges the EVENT frames passed. -/
  | mbxEvtTailWrite (value : Nat)
  /-- TAKE_CONTROL (R40): take_control gives the session the control grant, or moves it to a SERVICE session with force 1. -/
  | takeControl (r : Req) (arg : Nat)
  /-- RELEASE_CONTROL (R40): release_control releases the grant and closes admission with CLOSED_SESSION. -/
  | releaseControl (r : Req) (arg : Nat)
  /-- HAND_OVER (R40): hand_over moves the grant to another open session in one cycle and leaves admission as it was. -/
  | handOver (r : Req) (arg : Nat)
  /-- CLOSE_SESSION (R40): close_session closes the named session and releases its grant if it holds one. -/
  | closeSession (r : Req) (arg : Nat)
  /-- SAVE_PERSISTENT (R55): save_persistent writes the live values of all persistent objects to the attic as one record set. -/
  | savePersistent (r : Req) (arg : Nat)
  /-- RESTORE_DEFAULTS (R56): restore_defaults voids the saved persistent record set, so defaults apply from the next reset. -/
  | restoreDefaults (r : Req) (arg : Nat)
  /-- ATTIC_WRITE_DONE (R425): An attic program or erase ends; the new record is committed and the previous slot erased, or the failure is counted. -/
  | atticWriteDone (ok : Bool)
  /-- FORMAT_ATTIC (R427): format_attic erases the attic, writes a DIRECTORY record and makes the attic READY. -/
  | formatAttic (r : Req) (arg : Nat)
  /-- SEAL_SLOT (R62): seal_slot sets seal_hold and seals a valid job slot. -/
  | sealSlot (r : Req) (slot arg : Nat)
  /-- UNSEAL_SLOT (R62): unseal_slot clears seal_hold, so the slot unseals once no ticket is outstanding. -/
  | unsealSlot (r : Req) (slot arg : Nat)
  /-- CLEAR_SLOT (R62): clear_slot returns every subindex of an unsealed slot to its default and makes it EMPTY. -/
  | clearSlot (r : Req) (slot arg : Nat)
  /-- OPEN_ADMISSION (R71): open_admission starts the print ride if needed and opens admission unless the cause of closure still holds. -/
  | openAdmission (r : Req) (arg : Nat)
  /-- CLOSE_ADMISSION (R71): close_admission closes admission with CLOSED_COMMAND without ending any ticket. -/
  | closeAdmission (r : Req) (arg : Nat)
  /-- WITHDRAW_FROM (R82): withdraw_from ends the named ticket and later unfired tickets as WITHDRAWN, stopping before the stopping distance. -/
  | withdrawFrom (r : Req) (arg : Nat)
  /-- PAGE_DOORBELL (R66): A write of SUBMIT_TAIL or 6000:0B advances the submit tail after BAR2 writes complete, or is refused and rings ADMIT_RING_ERROR. -/
  | pageDoorbell (w : TailWrite)
  /-- CONSUMER_TAIL_WRITE (R372): A write of a consumer ring tail, by register or object, frees entries if it does not pass the head, or is ignored and counted. -/
  | consumerTailWrite (ring : Nat) (w : TailWrite)
  /-- ADMIT_DESCRIPTOR (R72): While admission is open, the sequencer takes the descriptor at the head of the submit ring and checks it in order. -/
  | admitDescriptor
  /-- ADMISSION_WAIT_END (R73): When the last wait condition of a waiting descriptor ends, steps 10 and 11 are evaluated and the page is ticketed or refused. -/
  | admissionWaitEnd
  /-- ARRAY_PLACE_LOAD (R20): When a threshold-array place becomes free for a waiting page, the sequencer loads the page's array into the place freed longest ago. -/
  | arrayPlaceLoad
  /-- CEILING_RECOMPUTE (R86): Every 50 µs the speed ceiling is recomputed from the horizon and page-cap constraint points. -/
  | ceilingRecompute
  /-- CUE_EDGE (R216): A qualified edge on CUE[1:0] is time-stamped and its print position interpolated. -/
  | cueEdge (input : Nat) (rising : Bool) (at250ps : Nat)
  /-- CUE_MARK_QUALIFIED (R89): A cue edge followed by cue_min_width of web qualifies a mark, which places the waiting cue page if it falls in its window. -/
  | cueMarkQualified (input : Nat)
  /-- CUE_WINDOW_CLOSE (R90): When the cue sensor passes the end of the window with no mark, the page ends NOT_DELIVERED(CUE). -/
  | cueWindowClose (ticket : Nat)
  /-- TICKET_END_POST (R68): Once a ticket's reads have ended, its ENDED entry is posted in ticket order, and its slot may unseal. -/
  | ticketEndPost
  /-- PRINT_FETCH_BAND (R107): At 208 lines before a bar's offset, the print fetch starts decoding a band's crates and delivers assembled lines to the chains. -/
  | printFetchBand (ticket bar band : Nat)
  /-- FETCH_DEADLINE_MISS (R109): A line not delivered by its deadline is omitted as OVERSPEED above the page cap, or else raises FETCH_UNDERRUN. -/
  | fetchDeadlineMiss (ticket bar line : Nat)
  /-- INSPECT_FETCH (R110): At the latch pair that puts a line pair under a streaming camera, the inspection fetch decodes the crates into quarter-area means. -/
  | inspectFetch (ticket bar line camera : Nat)
  /-- SCREEN_LINE (R133): At 48 lines before the bar's offset, the bar's screener turns one line of contone into drop levels under the care epoch in force. -/
  | screenLine (bar : Nat)
  /-- NOZZLE_ENTRY_WRITE (R127): Writes of nozzle entries through 3500 are validated against the running order and staged as one commit per bar. -/
  | nozzleEntryWrite (r : Req) (entries : List (Nat × Nat))
  /-- TONE_CURVE_WRITE (R121): A write of a tone curve loads it unless the curve is IN_USE. -/
  | toneCurveWrite (r : Req) (curve : Nat) (value : List Byte)
  /-- ARRAY_LOAD (R122): array_load reads a threshold array from the crate region, checks its CRC and plane order, and copies it into the library. -/
  | arrayLoad (r : Req) (value : List Byte)
  /-- ARRAY_CLEAR (R123): array_clear empties an array that is not IN_USE and frees any resident place. -/
  | arrayClear (r : Req) (arg : Nat)
  /-- CURVE_CLEAR (R123): curve_clear empties a tone curve that is not IN_USE. -/
  | curveClear (r : Req) (arg : Nat)
  /-- LOAD_TABLE (R129): load_table reads nozzle entries from the cellar, validates them whole, and forms one commit per bar. -/
  | loadTable (r : Req) (value : List Byte)
  /-- EXPORT_TABLE (R129): export_table writes the nozzle entries, as they stood at acceptance, to the cellar. -/
  | exportTable (r : Req) (value : List Byte)
  /-- SAVE_CARE (R142): save_care writes the whole nozzle table to the attic's care region as one record. -/
  | saveCare (r : Req) (arg : Nat)
  /-- DISCOVER_CHAIN (R163): discover_chain finds the heads of a chain, assigns positions, reads and checks capability, authenticates and configures them. -/
  | discoverChain (r : Req) (chain arg : Nat)
  /-- HEADS_IN (R174): heads_in starts head_in for every DISCOVERED and BENCHED head of the chain in position order. -/
  | headsIn (r : Req) (chain arg : Nat)
  /-- HEAD_IN (R174): head_in configures and syncs a head and requests its head-back change for the next page boundary. -/
  | headIn (r : Req) (head arg : Nat)
  /-- HEAD_OUT (R175): head_out requests a head-out change at the next line while the head fires the lines already dispatched. -/
  | headOut (r : Req) (head arg : Nat)
  /-- HEAD_OUT_COMPLETE (R175): When the head has fired every dispatched line, or 10 ms after the effect line, HALT is sent and the head becomes REMOVED. -/
  | headOutComplete (head : Nat)
  /-- CHALLENGE_USAGE (R179): challenge_usage sends a USAGE_CHALLENGE with a fresh nonce to a head. -/
  | challengeUsage (r : Req) (head arg : Nat)
  /-- DISPATCH_LINE (R145): Once a line is screened and its group fire point is within 48 lines, the chain manager sends DATA or DATA_ZERO frames for it. -/
  | dispatchLine (chain line group : Nat)
  /-- STATUS (R161): A received head STATUS updates the head's objects and may declare it dead, bench it, split the chain or confirm lines. -/
  | status (m : HeadFrame)
  /-- LINE_REPORT (R162): A received LINE_REPORT is counted and may declare the head DEAD with MISSING. -/
  | lineReport (m : HeadFrame)
  /-- DISCOVER_REPLY (R149): A received DISCOVER_REPLY records a head at its hop for position assignment. -/
  | discoverReply (m : HeadFrame)
  /-- CAPABILITY (R167): A received capability record is checked, and the head is accepted or REFUSED. -/
  | capability (m : HeadFrame)
  /-- CONFIG_ACK (R168): A received CONFIG_ACK accepts or rejects the head's configuration. -/
  | configAck (m : HeadFrame)
  /-- USAGE_RECORD (R179): A received head usage record has its mac checked, and the result goes into auth_state. -/
  | usageRecord (m : HeadFrame)
  /-- HEAD_REPLY_TIMEOUT (R163): A head with no reply within 1 ms to CAP_REQUEST or CONFIG, or 2 ms to USAGE_CHALLENGE, times out. -/
  | headReplyTimeout (head : Nat)
  /-- HEAD_TIMEOUT (R171): A head with no valid STATUS for head_timeout is declared DEAD with TIMEOUT. -/
  | headTimeout (head : Nat)
  /-- TICK (R160): At least every 50 µs the chain manager sends TICK on each path in use. -/
  | tick (chain : Nat)
  /-- CHAIN_HEAL (R148): Once every port at the break has been up for heal_hold, the chain is served from the primary end again. -/
  | chainHeal (chain : Nat)
  /-- HOT_DISCOVERY (R176): Every 100 ms, and after a port-up, a serving chain sends DISCOVER and assigns positions to new heads. -/
  | hotDiscovery (chain : Nat)
  /-- QUAD_PLL_LOCKED (R197): A quad PLL judged stable lets the quad's lanes transmit IDLE at preset 1. -/
  | quadPllLocked (quad : Nat)
  /-- RX_ALIGNED (R187): A receiver that finds three K28.5 at one phase aligns and starts training. -/
  | rxAligned (lane : Nat) (symbols : List Nat)
  /-- ALIGN_LOSS (R187): The error count of an aligned receiver reaching 4 loses alignment and takes the lane DOWN with ALIGN. -/
  | alignLoss (lane : Nat) (symbols : List Nat)
  /-- TRAIN_REQ (R195): A received TRAIN_REQ is applied by its owner, removed by its requester, or forwarded or relayed. -/
  | trainReq (lane target request : Nat)
  /-- TRAIN_RSP (R194): A received TRAIN_RSP echo lets the requester issue its next request. -/
  | trainRsp (lane echo status : Nat)
  /-- TRAIN_TIMEOUT (R196): A controller receiver not trained within 6 ms of alignment sets RX_READY and the lane goes DOWN with TRAIN_TIMEOUT. -/
  | trainTimeout (lane : Nat)
  /-- LANE_LOSS (R198): Loss of signal or of lock on a receiver takes the lane DOWN and rings LANE_DOWN. -/
  | laneLoss (lane : Nat) (lockLost : Bool)
  /-- LANE_RECOVER (R199): After 10 µs of signal a DOWN receiver re-acquires and returns to ACTIVE without training. -/
  | laneRecover (lane : Nat) (symbols : List Nat)
  /-- SKIP_SEND (R189): After 11,520 code groups a transmitter sends a SKIP at the next free word boundary. -/
  | skipSend (lane : Nat)
  /-- SKIP_RECEIVED (R190): A received SKIP is deleted, doubled or passed to keep the elastic buffer centred. -/
  | skipReceived (lane held : Nat)
  /-- SLEEP_RECEIVED (R200): On the second SLEEP set received, the receiver enters SLEEP and arms its signal detector. -/
  | sleepReceived (lane : Nat)
  /-- LANE_WAKE (R200): A sleeping receiver that detects signal aligns and returns to its state before sleep without training. -/
  | laneWake (lane : Nat) (symbols : List Nat)
  /-- WAKE_ALIGN_TIMEOUT (R200): A waking receiver not aligned within 100 µs goes DOWN with ALIGN. -/
  | wakeAlignTimeout (lane : Nat)
  /-- TX_SLEEP_WRITE (R201): A write of tx_sleep puts a transmitter to sleep with 16 SLEEP sets, or wakes it. -/
  | txSleepWrite (r : Req) (lane arg : Nat)
  /-- LANE_ROLE_WRITE (R202): A write of lane_role assigns a lane's role unless the lane is in use. -/
  | laneRoleWrite (r : Req) (lane arg : Nat)
  /-- QUAD_RATE_WRITE (R202): A write of quad_rate changes the quad's symbol rate and restarts its lanes. -/
  | quadRateWrite (r : Req) (quad arg : Nat)
  /-- RETRAIN (R205): retrain sends RETRAIN_ALL on the lane's paths and waits for the lane to be ACTIVE again. -/
  | retrain (r : Req) (lane arg : Nat)
  /-- CALIBRATE_SLICER (R203): calibrate_slicer wakes a spare's slicer on the lane's input to carry traffic while the lane's slicer is swept. -/
  | calibrateSlicer (r : Req) (lane arg : Nat)
  /-- CAL_SWITCH_TO_SPARE (R204): After 4,096 matching code groups the lane's output switches to the spare and rx_state becomes CAL. -/
  | calSwitchToSpare (lane : Nat)
  /-- CAL_HISTOGRAMS_DONE (R204): After the five histograms, the new thresholds and DFE taps are loaded into the lane. -/
  | calHistogramsDone (lane : Nat) (levels : List (List Nat)) (pairs : List (List Nat × List Nat))
  /-- CAL_SWITCH_BACK (R204): After 4,096 matching groups the output switches back, the spare sleeps and the command is DONE. -/
  | calSwitchBack (lane : Nat)
  /-- CAL_DIVERGE_TIMEOUT (R204): A lane not matching within 1 ms of loading restores its values and ends FAILED with CAL_DIVERGED. -/
  | calDivergeTimeout (lane : Nat)
  /-- CAL_SPARE_LOST (R204): A spare that loses alignment while serving makes the lane restore its values and switch back at once, ending CAL_ABORTED. -/
  | calSpareLost (lane lost : Nat)
  /-- CLEAR_COUNTERS (R205): clear_counters zeroes the lane's counters. -/
  | clearCounters (r : Req) (lane arg : Nat)
  /-- ENCODER_COUNT (R214): A qualified count of ENC0 updates the position in ticks and latches a latch pair. -/
  | encoderCount (samples : List (Bool × Bool)) (at250ps : Nat)
  /-- ENC1_COUNT (R210): A qualified count of the check encoder updates the check deviation against ENC0. -/
  | enc1Count (samples : List (Bool × Bool))
  /-- INDEX_PULSE (R210): A rising edge of ENC0_Z is checked against the A/B state and the index period. -/
  | indexPulse (samples : List Bool)
  /-- VALIDATE_POSITION (R212): validate_position sets position_valid, clears loss counts and re-bases the check deviation. -/
  | validatePosition (r : Req) (arg : Nat)
  /-- OBSERVER_UPDATE (R215): Every 8 ns the observer updates position, speed and acceleration from the latest latch pair. -/
  | observerUpdate
  /-- STROBE_ARM (R219): At t_p − 64 ns the prediction of a strobe line is frozen and its arm word is sent. -/
  | strobeArm (pair : Nat)
  /-- STROBE_FIRE (R219): At the placed time the fire edge of a strobe line leaves its pair, and a commit word is written. -/
  | strobeFire (pair : Nat)
  /-- OVERSPEED_EPISODE_END (R225): After 64 lines of travel with no omission, the overspeed episode ends. -/
  | overspeedEpisodeEnd
  /-- OVERSPEED_HOLD (R225): An episode longer than overspeed_limit lines enters HOLD, in which every pair fires nothing. -/
  | overspeedHold
  /-- HOLD_END (R225): When the hold distance counts down to 0, firing resumes with the next strobe line. -/
  | holdEnd
  /-- RM_SELF_CHECK (R227): At the end of each 1.024 µs interval, each ringmaster's self-check passes or fails. -/
  | rmSelfCheck (a b : Nat)
  /-- RM_SYNC_START (R229): A RECOVERING ringmaster with 1,024 clean checks enters SYNCING and copies the line state. -/
  | rmSyncStart (rm : Nat)
  /-- RM_SYNC_DONE (R229): When the copy ends, the ringmaster becomes STANDBY and RM_STATE rings. -/
  | rmSyncDone (rm : Nat)
  /-- RM_RETAKE (R233): With auto_retake, the preferred STANDBY ringmaster takes control back in a quiet 64 ns interval. -/
  | rmRetake
  /-- RETAKE_WAIT_EXPIRY (R233): With no quiet interval within retake_wait, the changeover happens under the gap rule. -/
  | retakeWaitExpiry
  /-- REQUEST_SWITCH (R233): request_switch hands control to the STANDBY ringmaster for test. -/
  | requestSwitch (r : Req) (arg : Nat)
  /-- SSI_READ (R217): Every ssi_period an SSI input is clocked, read and checked. -/
  | ssiRead (input : Nat) (raw : Nat) (ok : Bool)
  /-- CAMERA_ENABLE (R260): A write of camera_enable 1 is checked for lanes, geometry, rates and budget, then starts the rides and lanes. -/
  | cameraEnable (r : Req) (camera arg : Nat)
  /-- OUTPUT_VIEW_WRITE (R258): A write of a record or monitor view, or a measurement or crop setting, is checked and takes effect at the next exposure. -/
  | outputViewWrite (r : Req) (camera sub : Nat) (value : List Byte)
  /-- FLAT_FIELD_WRITE (R265): A flat_field write fills the idle bank, switches at the next Frame Start and is kept as a calibration record. -/
  | flatFieldWrite (r : Req) (tile : Nat) (value : List Byte)
  /-- EXPOSURE_TRIGGER (R245): When travel brings an exposure due, a TRIGGER frame is placed so that its EOF leaves at t_s. -/
  | exposureTrigger (camera : Nat)
  /-- EXPOSURE_TAG (R246): Once the exposure centre has passed, its tag is interpolated from the measured latch pairs. -/
  | exposureTag (camera exposure : Nat)
  /-- CSI (R240): A received CSI frame continues a CSI-2 packet, whose rows are checked and stitched into the strip. -/
  | csi (f : CamFrame)
  /-- FRAME_TIMEOUT (R242): A frame whose Frame Start does not arrive within frame_timeout of its TRIGGER is missing whole. -/
  | frameTimeout (camera sensor : Nat)
  /-- BRIDGE_STATUS (R239): A received BRIDGE_STATUS updates the camera's state and may make it LOST. -/
  | bridgeStatus (f : CamFrame)
  /-- BRIDGE_STATUS_TIMEOUT (R262): With no valid BRIDGE_STATUS for 1 ms, the camera becomes LOST. -/
  | bridgeStatusTimeout (camera : Nat)
  /-- CAMERA_LOST_CLEAR (R262): Once its cause has been clear for 10 ms, a LOST camera returns to IDLE or STREAMING. -/
  | cameraLostClear (camera : Nat)
  /-- CCI_TRANSFER (R243): cci_transfer sends a CCI_REQUEST to the camera bridge and waits for its reply. -/
  | cciTransfer (r : Req) (camera : Nat) (value : List Byte)
  /-- CCI_REPLY (R243): A received CCI_REPLY ends the transfer with its status. -/
  | cciReply (f : CamFrame)
  /-- CCI_TIMEOUT (R243): With no CCI_REPLY within 10 ms, the transfer fails with CCI_TIMEOUT. -/
  | cciTimeout (camera : Nat)
  /-- CAMERA_IDLE_SLEEP (R263): After idle_sleep with no TRIGGER or CCI request, the downstream transmitter sleeps. -/
  | cameraIdleSleep (camera : Nat)
  /-- MONITOR_FRAME (R258): At each multiple of 1/rate, the monitor output writes a frame to its ring and rings MON_FRAME. -/
  | monitorFrame (camera : Nat)
  /-- RECORD_FRAME (R258): At each multiple of 1/rate, the record output passes a frame with its displacement to the encoder stream. -/
  | recordFrame (camera : Nat)
  /-- LOOP_BAND_MEASURE (R280): Once a band's rows and contone are in, the loop aligns, compares tiles and writes defect and summary records. -/
  | loopBandMeasure (camera : Nat)
  /-- LOOP_ACTION_ENTRY (R293): A loop entry that reaches its owner is applied with an ACTION record, or discarded with a DISCARD record. -/
  | loopActionEntry
  /-- APPEARANCE_LOAD (R270): appearance_load reads, checks and copies an appearance table into a place. -/
  | appearanceLoad (r : Req) (value : List Byte)
  /-- APPEARANCE_CLEAR (R270): appearance_clear empties a place that is not IN_USE. -/
  | appearanceClear (r : Req) (arg : Nat)
  /-- CAL_FLAT_FIELD (R299): cal_flat_field collects unprinted sensor rows for the named tiles. -/
  | calFlatField (r : Req) (value : List Byte)
  /-- CAL_FLAT_DONE (R299): When every sensor row has N samples, the flat-field gains are computed and fill the idle bank, or fail FLAT_RANGE. -/
  | calFlatDone
  /-- CAL_REGISTRATION (R300): cal_registration waits for a page gap that qualifies for a mark zone. -/
  | calRegistration (r : Req) (value : List Byte)
  /-- CAL_MARK_ZONE (R300): In a qualifying gap, the mark blocks are placed in the shelves and fired, and their centroids are measured. -/
  | calMarkZone
  /-- CAL_WAIT_EXPIRY (R298): A queued calibration not finished within cal_wait_limit ends FAILED with CAL_NO_GAP. -/
  | calWaitExpiry
  /-- CLEAR_CAL_RECORDS (R303): clear_cal_records voids every calibration record. -/
  | clearCalRecords (r : Req) (arg : Nat)
  /-- STREAM_ENABLE (R308): A write of stream_enable 1 is checked for view, format, throughput, level, pool and budget. -/
  | streamEnable (r : Req) (stream arg : Nat)
  /-- ENCODE_PICTURE (R315): A waiting record frame is coded as an H.265 picture under rate control and written to the output ring. -/
  | encodePicture (stream : Nat)
  /-- MARK_LONG_TERM (R313): mark_long_term marks the next reconstructed picture long-term in a place. -/
  | markLongTerm (r : Req) (stream arg : Nat)
  /-- RELEASE_LONG_TERM (R313): release_long_term frees a long-term place. -/
  | releaseLongTerm (r : Req) (stream arg : Nat)
  /-- FORCE_IDR (R311): force_idr makes the next picture an IDR with parameter sets. -/
  | forceIdr (r : Req) (stream arg : Nat)
  /-- DECODE (R318): decode starts replaying a byte stream from the cellar into an output ring. -/
  | decode (r : Req) (value : List Byte)
  /-- DECODE_PICTURE (R320): When the ring has room and the rate allows, one picture is decoded, concealed if needed, and written to the ring. -/
  | decodePicture (concealed : Nat)
  /-- DECODE_STOP (R318): decode_stop ends a running decode early. -/
  | decodeStop (r : Req) (arg : Nat)
  /-- CAPTURE (R329): capture queues a raw capture of crop-ring rows. -/
  | capture (r : Req) (value : List Byte)
  /-- CAPTURE_PACK (R329): Once the ring holds the capture's last row, it is packed as a CAPTURE item and the command is DONE. -/
  | capturePack
  /-- CAPTURE_TIMEOUT (R329): A capture whose rows do not arrive within 10 s fails CAPTURE_GONE. -/
  | captureTimeout
  /-- CROP_CUT (R328): Once the crop ring holds a defect crop's last row, the packer cuts it into crates. -/
  | cropCut
  /-- PACK_CRATE_CHECK (R323): A check engine's decode of a packer crate keeps it on a match, or rewrites it STORED on a mismatch. -/
  | packCrateCheck
  /-- CRATE_UNCHECKED (R323): A crate held for two bands without a check is written STORED and counted. -/
  | crateUnchecked
  /-- FIRE_RECORD_COMPLETE (R327): Once every recorded line has its outcome, the fire record item is complete and posted. -/
  | fireRecordComplete
  /-- CELLAR_TRAIN (R335): On the cellar ride's first start after reset, the devices are initialised, checked and trained at both rates. -/
  | cellarTrain (found : CellarFound)
  /-- CELLAR_WIPE (R354): After training, every group is written with zeros and correct check words. -/
  | cellarWipe
  /-- CELLAR_RETRAIN (R335): cellar_retrain repeats training and wipe when the cellar is not in use. -/
  | cellarRetrain (r : Req) (arg : Nat)
  /-- DQS_OSCILLATOR_READ (R336): Every oscillator_period, the DQS oscillators are read and write timing corrected for drift. -/
  | dqsOscillatorRead
  /-- PATROL_SCRUB (R339): The scrub reads every group once per scrub_period, writing back corrected groups. -/
  | patrolScrub (block : Option Nat)
  /-- CELLAR_FREEZE (R341): An uncorrectable error or CA parity error freezes the memory controller, latches its record and raises its fault. -/
  | cellarFreeze (controller : Nat) (e : FreezeEvent)
  /-- CELLAR_RESUME (R343): cellar_resume takes a frozen controller out of self-refresh, repairs the block and makes it READY. -/
  | cellarResume (r : Req) (controller arg : Nat)
  /-- WIPE_RANGE (R354): wipe_range zeros a range of the general area at BACKGROUND class. -/
  | wipeRange (r : Req) (value : List Byte)
  /-- RATE_SELECT (R350): A write of rate_select requests the other timing set, refused for a lower rate while in use. -/
  | rateSelect (r : Req) (arg : Nat)
  /-- RATE_SWITCH (R349): Once the panic level is 0, both controllers switch data rate through self-refresh. -/
  | rateSwitch
  /-- SELF_REFRESH_ENTRY (R351): After idle_time without a request, and with nothing active, every channel enters self-refresh. -/
  | selfRefreshEntry
  /-- BAR2_ACCESS (R355): A host read or write through BAR2 is served, discarded or answered as the area and controller state require. -/
  | bar2Access (access : Bar2)
  /-- ETHERNET_FRAME (R359): A frame received on a field port is delivered locally, forwarded or dropped. -/
  | ethernetFrame (port : Nat) (bytes : List Byte)
  /-- FP_LINK_CHANGE (R358): A field-port link comes up or goes down, sending a gratuitous ARP on link-up. -/
  | fpLinkChange (port : Nat) (up : Bool) (reason : Nat)
  /-- PTP_SYNC (R366): A Sync received in SLAVE state drives the servo to slew or step the local clock. -/
  | ptpSync (offset delay : Int)
  /-- PTP_ANNOUNCE (R364): An Announce is taken into the best master clock algorithm. -/
  | ptpAnnounce (a : Announce)
  /-- PTP_DELAY_REQ (R364): At the delay request interval, the ordinary clock sends Delay_Req. -/
  | ptpDelayReq
  /-- ANNOUNCE_TIMEOUT (R366): When Announce receipt times out, the clock enters HOLDOVER and keeps its addend. -/
  | announceTimeout
  /-- SET_TIME (R363): set_time steps the local clock to a value, judged against step_limit. -/
  | setTime (r : Req) (value : List Byte)
  /-- STEP_TIME (R363): step_time steps the local clock by an offset, judged against step_limit. -/
  | stepTime (r : Req) (value : List Byte)
  /-- ACCEPT_STEP (R363): accept_step lets the servo's next refused step through as a forced step. -/
  | acceptStep (r : Req) (arg : Nat)
  /-- PULSE_ARM (R367): pulse_arm arms a pulse output for a one-shot or periodic run. -/
  | pulseArm (r : Req) (output arg : Nat)
  /-- PULSE_EDGE (R367): At a pulse's start or end instant of the local clock, the output changes level. -/
  | pulseEdge (output : Nat)
  /-- HOST_PORT_RESET (R369): PCIE_PERST_N, hot reset, link-down or FLR resets only the host port and silences the mailbox session. -/
  | hostPortReset (kind speed width : Nat)
  /-- TIME_NS_READ (R371): A read of TIME_NS returns nanoseconds and latches the seconds of the same instant. -/
  | timeNsRead (read : HostRead)
  /-- MSIX_SEND (R373): A pending MSI-X message is sent once no mask or enable holds it back. -/
  | msixSend (vector : Nat) (write : HostWrite)
  /-- BELL_RING (R376): A write of BELL_RING rings the named software source. -/
  | bellRing (value : Nat)
  /-- RING_SOFTWARE (R376): ring_software rings a software source through the dictionary. -/
  | ringSoftware (r : Req) (arg : Nat)
  /-- CLAIM (R380): A read of CLAIM[t] or 1920+t:01 claims the delivered source and pushes it onto the target's stack. -/
  | claim (by_ : Accessor) (target : Nat)
  /-- COMPLETE (R381): A completion pops the top-of-stack source, or raises BELL_ORDER when it names another source. -/
  | complete (by_ : Accessor) (target source : Nat)
  /-- RESET_TARGET (R381): reset_target empties a target's stack and makes its ACTIVE sources PENDING. -/
  | resetTarget (r : Req) (target arg : Nat)
  /-- CLEAR_PENDING (R383): clear_pending clears PENDING of an EVENT source. -/
  | clearPending (r : Req) (arg : Nat)
  /-- PENDING_W1C (R384): Writing 1 to a bit of PENDING[w] clears an EVENT source's PENDING. -/
  | pendingW1c (word value : Nat)
  /-- SOURCE_CONFIG_WRITE (R377): A write of a source's configuration word changes its target, level or enable. -/
  | sourceConfigWrite (r : Req) (x value : Nat)
  /-- CLOCK_WINDOW (R391): At the end of each comparison window, a starting or running clock is judged stable, failed or out of lock. -/
  | clockWindow (clock : Nat) (deviation : Int)
  /-- REF_DEVIATION_WINDOW (R395): At each 1 s window, reference deviations set VALID, WARNING or OUT and may deselect the selected input. -/
  | refDeviationWindow (other alref0 alref1 : Int)
  /-- REF_LOST (R394): A reference with no edge for 200 ns is lost, and the selected REF25 switches hitlessly if it can. -/
  | refLost (input : Nat)
  /-- REF_RESTORED (R397): A returned input VALID for 1 s relocks coasting PLLs. -/
  | refRestored (input : Nat)
  /-- REF_REVERT (R395): A preferred input held VALID for 60 s is selected again when revertive. -/
  | refRevert
  /-- SELECT_REFERENCE (R395): select_reference moves the selection hitlessly to a held-valid input. -/
  | selectReference (r : Req) (arg : Nat)
  /-- BOOTH_CALIBRATE (R400): Each 1 s window trims the RC and updates the crystal deviation against a standard. -/
  | boothCalibrate (rc xtal : Int)
  /-- XTAL_JUDGEMENT (R399): A crystal and RC that disagree within 2.0 s leave the booth running on the RC alone. -/
  | xtalJudgement (rcCycles : Nat)
  /-- RIDE_STARTED (R401): A starting ride whose voltage and PLL are ready runs and releases held requests. -/
  | rideStarted (ride voutWord : Nat)
  /-- RIDE_IDLE_STOP (R401): A ride idle for its stop time stops, and VDD_CORE falls once no ride needs it. -/
  | rideIdleStop (ride : Nat)
  /-- POWER_STATE_REQUEST (R404): A write of power_state_request sets the requested state; SLEEP is checked and begins sleep entry. -/
  | powerStateRequest (r : Req) (arg : Nat)
  /-- WAKE (R407): An enabled wake source raises the rails and runs the wake start-up to STANDBY. -/
  | wake (event : WakeEvent)
  /-- RAIL_ENABLE (R408): 100 µs after the previous power good, the sequencer raises the next enable. -/
  | railEnable (rose : Nat)
  /-- PG_FAIL (R409): A power good not rising within 3 ms, or low for 10 µs, powers the controller down into SLEEP. -/
  | pgFail (step : Nat)
  /-- PMBUS_TELEMETRY (R411): Every telemetry_period, or on PMB_ALERT_N falling, the regulators are read. -/
  | pmbusTelemetry (readings : List PmbusReading)
  /-- VCORE_SCALE_TIMEOUT (R412): A VDD_CORE raise not confirmed within 500 µs raises VCORE_SCALE and leaves the ride stopped. -/
  | vcoreScaleTimeout
  /-- POWER_ON (R500): The booth rails pass their thresholds for 1 ms and the booth leaves power-on reset. -/
  | powerOn
  /-- RESET_N (R417): RESET_N low for 100 ns is qualified: strobes go low, the axis bus stops and everything outside the booth is held in reset. -/
  | resetN
  /-- STARTUP (R418): On release of reset the start-up sequence runs through rails, SRAM, attic, cellar and care to STANDBY. -/
  | startup (attic : AtticFound) (fusesOk boothOk : Bool) (voutModes : List Nat)
  /-- ATTIC_BACKGROUND_ERASE (R425): After STANDBY, uncommitted attic slots that hold any byte other than 0xFF are erased. -/
  | atticBackgroundErase
  /-- RESET_CONTROLLER (R432): reset_controller resets the controller 1 ms after its response. -/
  | resetController (r : Req) (arg : Nat)
  /-- LIFECYCLE_TRANSITION (R431): lifecycle_transition records, wipes, burns fuses and resets into the target state. -/
  | lifecycleTransition (r : Req) (value : List Byte)
  /-- AXIS_BUS_CYCLE (R437): Every 50 µs the axis sequencer updates trajectories and sends a command slot to each stage. -/
  | axisBusCycle
  /-- AXIS_REPLY (R439): A stage reply is checked and judged for flags, stall and drift. -/
  | axisReply (axis reply : Nat)
  /-- STAGE_TIMEOUT (R442): After stage_timeout cycles without a valid reply, the axis becomes LOST with BUS. -/
  | stageTimeout (axis : Nat)
  /-- AXIS_ENABLE (R455): A write of axis_enable enables an axis at hold current, or stops and disables it. -/
  | axisEnable (r : Req) (axis arg : Nat)
  /-- AXIS_TARGET (R446): A write of target replans the axis toward the new position. -/
  | axisTarget (r : Req) (axis : Nat) (value : Int)
  /-- STOP (R447): stop ends the move with the normal profile. -/
  | stop (r : Req) (axis arg : Nat)
  /-- HOME (R451): home runs the homing sequence of the axis's home_mode and sets homed. -/
  | home (r : Req) (axis arg : Nat)
  /-- CLEAR_ERROR (R453): clear_error returns an axis to STANDSTILL once its stage flags are gone. -/
  | clearError (r : Req) (axis arg : Nat)
  /-- STANDSTILL_DELAY (R448): After standstill_delay, the axis takes its standstill mode. -/
  | standstillDelay (axis : Nat)
  /-- LIMIT_SWITCH_INPUT (R449): A change on a LIM input updates its chatter count and state, and may trip a limit. -/
  | limitSwitchInput (input : Nat) (level : Bool)
  /-- LIM_FILTER_EXPIRY (R449): An input active for filter_time becomes TRIPPED, stopping axes moving toward it. -/
  | limFilterExpiry (input : Nat)
  /-- LIM_RELEASE_EXPIRY (R449): An input inactive for release_time becomes CLEAR. -/
  | limReleaseExpiry (input : Nat)
  /-- FAULT_LATCH (R459): A fault report or a rail mismatch held for 8 ns latches the source. -/
  | faultLatch (samples : List RailSample)
  /-- CLEAR_FAULTS (R465): clear_faults clears the named sources whose cause is gone, ending the safe stop with the last. -/
  | clearFaults (r : Req) (arg : Nat)
  /-- FORCE_WRITE (R468): A write of the force bits drives a source's rails with a fault or mismatch for test. -/
  | forceWrite (r : Req) (word value : Nat)
  /-- HEARTBEAT_LOSS (R469): A collector heartbeat absent or mismatched for 100 µs stops the carousel. -/
  | heartbeatLoss
  /-- CAROUSEL_TOGGLE (R469): Every 20,000 RC cycles a healthy controller toggles CAROUSEL. -/
  | carouselToggle
  /-- DIE_TEMP_READ (R461): Every 1 ms both die sensors are read and warnings or faults raised. -/
  | dieTempRead (a b : Int)
  /-- PERIOD_CLOSE (R477): When a period has run period_length powered seconds, heads are challenged and its usage records are signed and stored. -/
  | periodClose
  /-- CLOSE_PERIOD (R487): close_period closes the open billing period now. -/
  | closePeriod (r : Req) (arg : Nat)
  /-- USAGE_TAIL_WRITE (R482): A write of usage_tail collects records and lets fully collected sectors be erased. -/
  | usageTailWrite (r : Req) (arg : Nat)
  /-- STAGE_SERVICE_KEY (R486): stage_service_key stages a wrapped service key in a new KEYS record. -/
  | stageServiceKey (r : Req) (value : List Byte)
  /-- SET_FAMILY_KEY (R486): set_family_key sets a head-family key in a place. -/
  | setFamilyKey (r : Req) (value : List Byte)
  /-- CLEAR_FAMILY_KEY (R486): clear_family_key empties a head-family key place. -/
  | clearFamilyKey (r : Req) (arg : Nat)
  /-- VDD_BOOTHIO_SAG (R500): A fall of VDD_BOOTHIO below 1.65 V while the booth is powered starts the ordered power-down of R408 with cause PG_LOST. -/
  | vddBoothioSag
  /-- PTP_MASTER_SYNC (R364): While the ordinary clock is MASTER, it sends a two-step Sync and Follow_Up at each logSyncInterval. -/
  | ptpMasterSync
  /-- PTP_MASTER_ANNOUNCE (R364): While the ordinary clock is MASTER, it sends Announce at each logAnnounceInterval. -/
  | ptpMasterAnnounce
  /-- CLOCK_RECOVERY_LOCK (R197): At bring-up a receiver detects signal and its clock recovery locks, moving rx_state from ACQUIRE to ALIGN. -/
  | clockRecoveryLock (lane : Nat)
  deriving DecidableEq, Repr

end Sys2Proof
end

