-- ==== Sys2Proof/Machine/Codes.lean ====
section
/-! DEFINITION. Status and reason codes (R34 and the code tables of the chapters), and the bell's source numbers (R375). -/

namespace Sys2Proof.Machine.St

/-- chapter 02 -/
abbrev OK : Nat := 0x0000
/-- chapter 02 -/
abbrev STARTED : Nat := 0x0001
/-- chapter 02 -/
abbrev NO_OBJECT : Nat := 0x0101
/-- chapter 02 -/
abbrev NO_SUBINDEX : Nat := 0x0102
/-- chapter 02 -/
abbrev TYPE_MISMATCH : Nat := 0x0103
/-- chapter 02 -/
abbrev OUT_OF_RANGE : Nat := 0x0104
/-- chapter 02 -/
abbrev READ_ONLY : Nat := 0x0105
/-- chapter 02 -/
abbrev WRITE_ONLY : Nat := 0x0106
/-- chapter 02 -/
abbrev ROLE_TOO_LOW : Nat := 0x0107
/-- chapter 02 -/
abbrev NO_CONTROL : Nat := 0x0108
/-- chapter 02 -/
abbrev PRINT_RUNNING : Nat := 0x0109
/-- chapter 02 -/
abbrev SLOT_SEALED : Nat := 0x010A
/-- chapter 02 -/
abbrev BUSY : Nat := 0x010B
/-- chapter 02 -/
abbrev NOT_APPLIED : Nat := 0x010C
/-- chapter 02 -/
abbrev TOO_LARGE : Nat := 0x010D
/-- chapter 02 -/
abbrev LIFECYCLE : Nat := 0x010E
/-- chapter 02 -/
abbrev RIDE_STOPPED : Nat := 0x010F
/-- chapter 02 -/
abbrev SESSION_UNKNOWN : Nat := 0x0110
/-- chapter 02 -/
abbrev SEQUENCE : Nat := 0x0111
/-- chapter 02 -/
abbrev NO_SESSION_FREE : Nat := 0x0112
/-- chapter 02 -/
abbrev CHALLENGE_FAILED : Nat := 0x0113
/-- chapter 02 -/
abbrev LOCKED_OUT : Nat := 0x0114
/-- chapter 02 -/
abbrev NO_KEY : Nat := 0x0115
/-- chapter 02 -/
abbrev BAD_FRAME : Nat := 0x0116
/-- chapter 02 -/
abbrev ASLEEP : Nat := 0x0117
/-- chapter 02 -/
abbrev SEGMENT : Nat := 0x0118
/-- chapter 02 -/
abbrev CONTROL_HELD : Nat := 0x0119
/-- chapter 03 -/
abbrev CLOSED_RESET : Nat := 0x0210
/-- chapter 03 -/
abbrev CLOSED_COMMAND : Nat := 0x0211
/-- chapter 03 -/
abbrev CLOSED_REFUSAL : Nat := 0x0212
/-- chapter 03 -/
abbrev CLOSED_SESSION : Nat := 0x0213
/-- chapter 03 -/
abbrev CLOSED_FAULT : Nat := 0x0214
/-- chapter 03 -/
abbrev FAULT_ACTIVE : Nat := 0x0215
/-- chapter 03 -/
abbrev RING_NOT_SET : Nat := 0x0216
/-- chapter 03 -/
abbrev CLOSED_ENCODER : Nat := 0x0217
/-- chapter 03 -/
abbrev ENCODER_INVALID : Nat := 0x0218
/-- chapter 03 -/
abbrev COMPLETION_SPACE : Nat := 0x0221
/-- chapter 03 -/
abbrev ARRAY_PLACE : Nat := 0x0222
/-- chapter 03 -/
abbrev VERIFYING : Nat := 0x0223
/-- chapter 03 -/
abbrev LEDGER_RANGE : Nat := 0x0224
/-- chapter 03 -/
abbrev OVERSPEED : Nat := 0x0231
/-- chapter 03 -/
abbrev ENCODER : Nat := 0x0232
/-- chapter 03 -/
abbrev FAULT : Nat := 0x0233
/-- chapter 03 -/
abbrev HEADS : Nat := 0x0234
/-- chapter 03 -/
abbrev DATA : Nat := 0x0235
/-- chapter 03 -/
abbrev CUE : Nat := 0x0236
/-- chapter 03 -/
abbrev WITHDRAWN : Nat := 0x0237
/-- chapter 03 -/
abbrev SWITCHOVER : Nat := 0x0238
/-- chapter 05 -/
abbrev STAGE_FULL : Nat := 0x0240
/-- chapter 05 -/
abbrev ORDER_INVALID : Nat := 0x0241
/-- chapter 05 -/
abbrev LIBRARY_IN_USE : Nat := 0x0242
/-- chapter 05 -/
abbrev ARRAY_ORDER : Nat := 0x0243
/-- chapter 05 -/
abbrev ARRAY_CRC : Nat := 0x0244
/-- chapter 05 -/
abbrev RETIRED_LOCKED : Nat := 0x0245
/-- chapter 05 -/
abbrev LOAD_ADDRESS : Nat := 0x0246
/-- chapter 06 -/
abbrev HEAD_STATE : Nat := 0x0250
/-- chapter 06 -/
abbrev HEAD_LEVELS : Nat := 0x0251
/-- chapter 06 -/
abbrev HEAD_RATE : Nat := 0x0252
/-- chapter 06 -/
abbrev CHAIN_LANES : Nat := 0x0253
/-- chapter 06 -/
abbrev CHAIN_RUNNING : Nat := 0x0254
/-- chapter 06 -/
abbrev CONFIG_NACK : Nat := 0x0255
/-- chapter 06 -/
abbrev CHAIN_TOO_LONG : Nat := 0x0256
/-- chapter 06 -/
abbrev CHAIN_NO_BAR : Nat := 0x0257
/-- chapter 07 -/
abbrev LANE_IN_USE : Nat := 0x0260
/-- chapter 07 -/
abbrev RATE_MISMATCH : Nat := 0x0261
/-- chapter 07 -/
abbrev BUSY_NO_SPARE : Nat := 0x0262
/-- chapter 07 -/
abbrev LANE_DOWN : Nat := 0x0263
/-- chapter 07 -/
abbrev CAL_ABORTED : Nat := 0x0264
/-- chapter 07 -/
abbrev CAL_DIVERGED : Nat := 0x0265
/-- chapter 07 -/
abbrev LANE_BUSY : Nat := 0x0266
/-- chapter 07 -/
abbrev TRAIN_TIMEOUT : Nat := 0x0267
/-- chapter 08 -/
abbrev WEB_MOVING : Nat := 0x0270
/-- chapter 08 -/
abbrev ENCODER_FAULTY : Nat := 0x0271
/-- chapter 08 -/
abbrev NO_STANDBY : Nat := 0x0272
/-- chapter 08 -/
abbrev SSI_TIMING : Nat := 0x0273
/-- chapter 09 -/
abbrev CAM_ENABLED : Nat := 0x0280
/-- chapter 09 -/
abbrev CAM_LANES : Nat := 0x0281
/-- chapter 09 -/
abbrev CAM_AREA : Nat := 0x0282
/-- chapter 09 -/
abbrev CAM_RATE : Nat := 0x0283
/-- chapter 09 -/
abbrev LINK_RATE : Nat := 0x0284
/-- chapter 09 -/
abbrev ISO_BUDGET : Nat := 0x0285
/-- chapter 09 -/
abbrev CAM_GEOMETRY : Nat := 0x0286
/-- chapter 09 -/
abbrev CAM_MONO : Nat := 0x0287
/-- chapter 09 -/
abbrev CAM_STREAMING : Nat := 0x0288
/-- chapter 09 -/
abbrev CCI_NACK : Nat := 0x0289
/-- chapter 09 -/
abbrev CCI_TIMEOUT : Nat := 0x028A
/-- chapter 09 -/
abbrev CCI_BUS_ERROR : Nat := 0x028B
/-- chapter 09 -/
abbrev CAM_NOT_READY : Nat := 0x028C
/-- chapter 09 -/
abbrev DEFECT_ORDER : Nat := 0x028D
/-- chapter 09 -/
abbrev VIEW_INVALID : Nat := 0x028E
/-- chapter 10 -/
abbrev APPEARANCE_IN_USE : Nat := 0x0290
/-- chapter 10 -/
abbrev TABLE_CRC : Nat := 0x0291
/-- chapter 10 -/
abbrev TABLE_FORMAT : Nat := 0x0292
/-- chapter 10 -/
abbrev CAL_NO_CAMERA : Nat := 0x0293
/-- chapter 10 -/
abbrev CAL_NO_GAP : Nat := 0x0294
/-- chapter 10 -/
abbrev CAL_INTERRUPTED : Nat := 0x0295
/-- chapter 10 -/
abbrev FLAT_RANGE : Nat := 0x0296
/-- chapter 10 -/
abbrev MARKS_NOT_FOUND : Nat := 0x0297
/-- chapter 11 -/
abbrev REC_NO_VIEW : Nat := 0x02A0
/-- chapter 11 -/
abbrev REC_FORMAT : Nat := 0x02A1
/-- chapter 11 -/
abbrev REC_THROUGHPUT : Nat := 0x02A2
/-- chapter 11 -/
abbrev REC_POOL : Nat := 0x02A3
/-- chapter 11 -/
abbrev REC_LEVEL : Nat := 0x02A4
/-- chapter 11 -/
abbrev REC_ENABLED : Nat := 0x02A5
/-- chapter 11 -/
abbrev LT_FULL : Nat := 0x02A6
/-- chapter 11 -/
abbrev DEC_UNSUPPORTED : Nat := 0x02A7
/-- chapter 11 -/
abbrev CAPTURE_GONE : Nat := 0x02A8
/-- chapter 12 -/
abbrev CELLAR_IN_USE : Nat := 0x02B0
/-- chapter 12 -/
abbrev CELLAR_NOT_FROZEN : Nat := 0x02B1
/-- chapter 05 -/
abbrev CELLAR_FROZEN : Nat := 0x02B2
/-- chapter 12 -/
abbrev CELLAR_NOT_READY : Nat := 0x02B3
/-- chapter 13 -/
abbrev TIME_STEP_REFUSED : Nat := 0x02C0
/-- chapter 13 -/
abbrev PULSE_PAST : Nat := 0x02C1
/-- chapter 13 -/
abbrev PULSE_SETTINGS : Nat := 0x02C2
/-- chapter 13 -/
abbrev PTP_NO_STEP : Nat := 0x02C3
/-- chapter 14 -/
abbrev BELL_ACTIVE : Nat := 0x02D0
/-- chapter 14 -/
abbrev BELL_NOT_EVENT : Nat := 0x02D1
/-- chapter 14 -/
abbrev BELL_NOT_SOFTWARE : Nat := 0x02D2
/-- chapter 15 -/
abbrev POWER_TICKETS : Nat := 0x02E0
/-- chapter 15 -/
abbrev POWER_AXES : Nat := 0x02E1
/-- chapter 15 -/
abbrev NO_WAKE_SOURCE : Nat := 0x02E2
/-- chapter 15 -/
abbrev REF_NOT_VALID : Nat := 0x02E3
/-- chapter 16 -/
abbrev RESET_TICKETS : Nat := 0x02F0
/-- chapter 16 -/
abbrev LIFECYCLE_STEP : Nat := 0x02F1
/-- chapter 16 -/
abbrev LIFECYCLE_CONFIRM : Nat := 0x02F2
/-- chapter 16 -/
abbrev USAGE_UNCOLLECTED : Nat := 0x02F3
/-- chapter 16 -/
abbrev NO_SERVICE_KEY : Nat := 0x02F4
/-- chapter 16 -/
abbrev ATTIC_NOT_READY : Nat := 0x02F5
/-- chapter 16 -/
abbrev ATTIC_WRITE : Nat := 0x02F6
/-- chapter 16 -/
abbrev LIFECYCLE_ACTIVE : Nat := 0x02F7
/-- chapter 16 -/
abbrev ATTIC_READY : Nat := 0x02F8
/-- chapter 17 -/
abbrev AXIS_NOT_HOMED : Nat := 0x0300
/-- chapter 17 -/
abbrev AXIS_SOFT_LIMIT : Nat := 0x0301
/-- chapter 17 -/
abbrev AXIS_LIMIT_TRIPPED : Nat := 0x0302
/-- chapter 17 -/
abbrev AXIS_HOMING : Nat := 0x0303
/-- chapter 17 -/
abbrev AXIS_STOPPING : Nat := 0x0304
/-- chapter 17 -/
abbrev AXIS_ERROR_ACTIVE : Nat := 0x0305
/-- chapter 17 -/
abbrev AXIS_MOVING : Nat := 0x0306
/-- chapter 17 -/
abbrev AXIS_HOME_CONFIG : Nat := 0x0307
/-- chapter 17 -/
abbrev AXIS_INTERLOCK : Nat := 0x0308
/-- chapter 17 -/
abbrev AXIS_NO_STAGE : Nat := 0x0309
/-- chapter 17 -/
abbrev AXIS_ENABLED : Nat := 0x030A
/-- chapter 17 -/
abbrev HOME_LIMIT : Nat := 0x030B
/-- chapter 17 -/
abbrev HOME_NOT_FOUND : Nat := 0x030C
/-- chapter 17 -/
abbrev AXIS_DISABLED : Nat := 0x030D
/-- chapter 18 -/
abbrev FAULT_PRESENT : Nat := 0x0320
/-- chapter 18 -/
abbrev FAULT_HARD_LATCHED : Nat := 0x0321
/-- chapter 19 -/
abbrev USAGE_STORE_FULL : Nat := 0x0330
/-- chapter 19 -/
abbrev USAGE_NO_RECORD : Nat := 0x0331
/-- chapter 19 -/
abbrev KEY_CHECK : Nat := 0x0332
/-- chapter 19 -/
abbrev KEY_STATE : Nat := 0x0333
/-- chapter 19 -/
abbrev KEY_FAMILY : Nat := 0x0334

end Sys2Proof.Machine.St

namespace Sys2Proof.Machine.Src

abbrev YDP_CONTROL : Nat := 0
abbrev YDP_SESSION : Nat := 1
abbrev MBX_RESPONSE : Nat := 2
abbrev MBX_EVENT : Nat := 3
abbrev PERSIST_CMD_DONE : Nat := 4
abbrev HOST_RESET : Nat := 5
abbrev HOST_DOORBELL_ERROR : Nat := 6
abbrev FP_LINK : Nat := 7
abbrev PTP_STATE : Nat := 8
abbrev TIME_STEPPED : Nat := 9
abbrev TIME_STEP_REFUSED : Nat := 10
abbrev TIME_CMD_DONE : Nat := 11
abbrev ADMIT_COMPLETION : Nat := 16
abbrev ADMIT_RING_ERROR : Nat := 17
abbrev ADMIT_CLOSED : Nat := 18
abbrev ADMIT_WAIT : Nat := 19
abbrev ADMIT_STARVED : Nat := 20
abbrev ADMIT_CMD_DONE : Nat := 21
abbrev FETCH_DATA_ERROR : Nat := 22
abbrev INSPECT_DATA_ERROR : Nat := 23
abbrev CARE_CMD_DONE : Nat := 48
abbrev CARE_RESTORED : Nat := 49
abbrev CHAIN_CMD_DONE : Nat := 192
abbrev LANE_SLIP : Nat := 193
abbrev LANE_CMD_DONE : Nat := 194
abbrev ENC_ERROR : Nat := 288
abbrev ENC_LOST : Nat := 289
abbrev POSITION_VALID : Nat := 290
abbrev OVERSPEED : Nat := 291
abbrev OVERSPEED_HOLD : Nat := 292
abbrev RM_SWITCH : Nat := 293
abbrev RM_RETAKE : Nat := 294
abbrev RM_STATE : Nat := 295
abbrev SSI_ERROR : Nat := 296
abbrev FIRE_CMD_DONE : Nat := 297
abbrev LOOP_RECORD : Nat := 320
abbrev LOOP_ALIGN : Nat := 321
abbrev LOOP_ACTION : Nat := 322
abbrev LOOP_PROPOSAL : Nat := 323
abbrev LOOP_DISCARD : Nat := 324
abbrev LOOP_CMD_DONE : Nat := 325
abbrev CAL_CMD_DONE : Nat := 326
abbrev CAL_RECORD_BAD : Nat := 327
abbrev REC_SKIP : Nat := 340
abbrev REC_CAP_EXCEEDED : Nat := 341
abbrev DEC_FRAME : Nat := 342
abbrev DEC_ERROR : Nat := 343
abbrev PACK_ITEM : Nat := 344
abbrev PACK_MISMATCH : Nat := 345
abbrev PACK_STORE_FULL : Nat := 346
abbrev REC_CMD_DONE : Nat := 347
abbrev CELLAR_CE : Nat := 352
abbrev CELLAR_FREEZE : Nat := 353
abbrev CELLAR_RATE : Nat := 354
abbrev CELLAR_BAR2_DENIED : Nat := 355
abbrev CELLAR_CMD_DONE : Nat := 356
abbrev SAFE_STOP : Nat := 432
abbrev SAFE_STOP_END : Nat := 433
abbrev TEMP_WARNING : Nat := 434
abbrev CAROUSEL_STATE : Nat := 435
abbrev FAULT_CMD_DONE : Nat := 436
abbrev FORCE_CHANGE : Nat := 437
abbrev REF_WARN : Nat := 360
abbrev REF_OUT : Nat := 361
abbrev REF_SWITCH : Nat := 362
abbrev REF_LOST : Nat := 363
abbrev REF_RESTORED : Nat := 364
abbrev PLL_COAST : Nat := 365
abbrev XTAL_FAIL : Nat := 366
abbrev RIDE_STATE : Nat := 367
abbrev POWER_STATE : Nat := 368
abbrev WAKE : Nat := 369
abbrev PMBUS_STATUS : Nat := 370
abbrev PMBUS_ERROR : Nat := 371
abbrev POWER_CMD_DONE : Nat := 372
abbrev STARTUP : Nat := 384
abbrev ATTIC_RECORD_BAD : Nat := 385
abbrev ATTIC_STATE : Nat := 386
abbrev ATTIC_ERROR : Nat := 387
abbrev LIFECYCLE_RESUMED : Nat := 388
abbrev LIM_CHANGE : Nat := 408
abbrev AXIS_BUS : Nat := 409
abbrev AXIS_CMD_DONE : Nat := 410
abbrev USAGE_RECORD : Nat := 416
abbrev USAGE_STORE : Nat := 417
abbrev USAGE_INTERRUPTED : Nat := 418
abbrev KEY_CHANGE : Nat := 419
abbrev USAGE_CMD_DONE : Nat := 420
abbrev AXIS_EVENT (a : Nat) : Nat := 400 + a
abbrev PULSE_DONE (q : Nat) : Nat := 12 + q
abbrev CARE_COMMIT (b : Nat) : Nat := 32 + b
abbrev CARE_GAP (b : Nat) : Nat := 40 + b
/-- Per-chain sources, k: 0 HEAD_FOUND, 1 HEAD_REFUSED, 2 HEAD_RUNNING, 3 HEAD_DEAD, 4 HEAD_BENCHED, 5 HEAD_REMOVED, 6 CHAIN_SPLIT, 7 CHAIN_HEALED. -/
abbrev CHAIN (c k : Nat) : Nat := 64 + 8 * c + k
abbrev LANE_DOWN (l : Nat) : Nat := 224 + l
abbrev LANE_UP (l : Nat) : Nat := 256 + l
/-- Per-camera sources, j: 0 CAM_STATE, 1 CAM_FRAME_ERROR, 2 MON_FRAME, 3 CAM_CMD_DONE. -/
abbrev CAM (k j : Nat) : Nat := 304 + 4 * k + j
abbrev REC_INDEX (i : Nat) : Nat := 336 + i
abbrev FAULT_SOURCE (f : Nat) : Nat := 512 + f
abbrev SOFTWARE (n : Nat) : Nat := 960 + n

end Sys2Proof.Machine.Src
end

