-- ==== Sys2Proof/Config.lean ====
section
/-! DEFINITION. What one controller fixes (fuses) and the FREE VALUES the spec leaves open.

Nothing here has a body: no proof can see a value, and a claim is true whatever the value is. -/

namespace Sys2Proof.Config

/-- The device identity fused into this controller, unique per controller (R58, 1000:04; R428). -/
opaque deviceId : Nat

/-- The device key fused into this controller, 32 bytes, readable by no object (R484). -/
opaque deviceKey : Nat → Nat

/-- A service key fused before this model's reset, 32 bytes (R485): the fuses' content. -/
opaque fusedServiceKey : Nat → Nat

/-- The RC trim fused into this controller (R414, 2100:06). -/
opaque rcTrim : Nat

/-- Whether a higher RC trim code makes the RC faster (R400, log entry 98): its lowest bit is used. -/
opaque rcTrimUp : Nat

/-- The payload the packer's DEFLATE coder makes of a filtered stream (R323): any stream of RFC 1951 may decode to it. -/
opaque deflated : List Nat → List Nat

/-- Which way a mean that ends in a half goes (log entry 61): its lowest bit is used. -/
opaque halfOf : Nat → Nat

/-- Which way an inexact quotient is rounded where the rules leave it open (log entry 61): 0 down, 1 up, by its lowest bit. -/
opaque roundsUp : Nat → Nat → Nat

/-- A threshold or a tap of a slicer in the unit of its object, from the sampler steps of its histograms' medians: their sum, to be
halved (2), or their difference, of which one sixth is taken (6): what a step is in mV is open (R204; log entry 153). -/
opaque sweepValue : Nat → Int → Int

/-- Where a byte of a YCBCR422_8 frame comes from among its Y, Cb and Cr samples in that order, from the number of bytes and the byte's
place: their arrangement is open (R258; log entry 61). -/
opaque order422 : Nat → Nat → Nat

/-- A pixel of a row that never came, where a neighbour's window takes it (log entry 61). -/
opaque lostPixel : Nat → Nat

/-- How far a component of a measured (0) or expected (1) L*a*b* lies from the exact one, from X, Y, Z given as numerators and
denominators: any amount within the bound of R255 or R271 (log entry 93). -/
opaque labSlip : Nat → Nat → List Int → Nat

/-- Which of the two multiples of 0.01 around an exact colour difference is reported, from the means (R276; log entry 93). -/
opaque deSlip : List Int → Nat

/-- A value of a video header that the rules leave open, by its place (R311; log entry 160). -/
opaque headerChoice : Nat → Nat

/-- The mode decision of a picture at a block of a size: whether it is split, and its shape (R310; log entry 78). -/
opaque modeChoice : Nat → Nat → Nat → Nat → Nat

/-- A luma sample of a picture as coding rebuilt it, by the picture and the sample's place (R310, R314; log entry 78). -/
opaque rebuilt : Nat → Nat → Nat

/-- What the bits of a vector cost at a QP beside a sum of absolute differences (R314; log entry 78). -/
opaque vectorCost : Nat → Int → Int → Nat

/-- Whether a channel lets a request to an open row pass, by the time and how many have passed in a row (R345): its lowest bit. -/
opaque rowHit : Nat → Nat → Nat

/-- The ordinary clock's own clockAccuracy (0), offsetScaledLogVariance (1) and clockIdentity (2) (R364; log entry 105). -/
opaque ptpOwn : Nat → Nat

/-- How long a frame stays in its port's receive queue, by the time it came and its sequence: 200 us at most (R45, log entry 137). -/
opaque serveNs : Nat → Nat → Nat

/-- A fresh free value: the model applies it to the counter `free` of the state and advances the counter.
Used for values drawn from the random generator (session tags R36, nonces R37 and R179, transaction tags)
and for every number the spec leaves open. Log entry 2. -/
opaque freeNat : Nat → Nat

/-- The gap_stretch an entry shows for a stretch of 2^32 ticks or more, which its 32 bits cannot hold (R75). -/
opaque wideStretch : Nat → Nat

end Sys2Proof.Config
end

