-- ==== Sys2Proof/Machine/Bytes.lean ====
section
/-! DEFINITION. Byte order, bit fields and sign extension (R25, R17), and the default contents of the octet objects
whose default is a formula. -/

namespace Sys2Proof.Machine

/-- The value `v` as `n` bytes, little-endian (R25). -/
def le : Nat → Nat → List Byte
  | 0, _ => []
  | n + 1, v => BitVec.ofNat 8 v :: le n (v / 256)

/-- The number little-endian bytes hold (R25). -/
def leVal : List Byte → Nat
  | [] => 0
  | b :: r => b.toNat + 256 * leVal r

/-- The value `v` as `n` bytes, most significant first. -/
def be (n v : Nat) : List Byte := (le n v).reverse

/-- The number big-endian bytes hold. -/
def beVal (b : List Byte) : Nat := leVal b.reverse

/-- `n` bytes from offset `o`. -/
def slice (b : List Byte) (o n : Nat) : List Byte := (b.drop o).take n

/-- The unsigned little-endian field of `n` bytes at offset `o`. -/
def fld (b : List Byte) (o n : Nat) : Nat := leVal (slice b o n)

/-- Two's complement reading of a `w`-bit number (R25). -/
def sgn (w v : Nat) : Int := if v < 2 ^ (w - 1) then (v : Int) else (v : Int) - 2 ^ w

/-- The `w`-bit pattern of an integer (R25). -/
def uns (w : Nat) (i : Int) : Nat := (i % 2 ^ w).toNat

/-- The signed little-endian field of `n` bytes at offset `o`. -/
def sfld (b : List Byte) (o n : Nat) : Int := sgn (8 * n) (fld b o n)

/-- Bits `hi` to `lo` of a number. -/
def bits (v hi lo : Nat) : Nat := v / 2 ^ lo % 2 ^ (hi + 1 - lo)

/-- Bit `i` of a number. -/
def bit (v i : Nat) : Bool := v / 2 ^ i % 2 == 1

/-- A number with bit `i` set to `b`. -/
def setBit (v i : Nat) (b : Bool) : Nat := v - v / 2 ^ i % 2 * 2 ^ i + (if b then 2 ^ i else 0)

/-- Zero bytes. -/
def zeros (n : Nat) : List Byte := List.replicate n 0

/-- A list of bytes cut or filled with zeros to `n` bytes. -/
def padTo (n : Nat) (b : List Byte) : List Byte := (b ++ zeros n).take n

/-- Bytes with `v` written over the bytes at offset `o`. -/
def splice (b : List Byte) (o : Nat) (v : List Byte) : List Byte := b.take o ++ v ++ b.drop (o + v.length)

/-- `v` rounded up to a multiple of `k`. -/
def roundUp (v k : Nat) : Nat := (v + k - 1) / k * k

/-- Quotient rounded to nearest, a half going up. -/
def divRound (a b : Nat) : Nat := (2 * a + b) / (2 * b)

/-- Signed quotient rounded to nearest, a half going away from zero. -/
def sdivRound (a : Int) (b : Nat) : Int :=
  if a < 0 then -((divRound a.natAbs b : Nat) : Int) else ((divRound a.natAbs b : Nat) : Int)

/-- A number held between two bounds. -/
def clampI (lo hi v : Int) : Int := if v < lo then lo else if hi < v then hi else v

/-- The entry of a list with the least cost, the first of several. -/
def argLeast {α : Type} (cost : α → Nat) (l : List α) : Option α :=
  (l.foldl (fun (b : Option (α × Nat)) x =>
    let n := cost x
    match b with
    | some y => if n < y.2 then some (x, n) else some y
    | none => some (x, n)) none).map (·.1)

/-- Pairs of whole numbers from -n to n. -/
def shiftsWithin (n : Nat) : List (Int × Int) :=
  ((List.range (2 * n + 1)).map fun (y : Nat) => (List.range (2 * n + 1)).map fun (x : Nat) => ((x : Int) - n, (y : Int) - n)).flatten

/-- Integer square root, rounded down, by bisection over `f` bits. -/
def isqrtAux : Nat → Nat → Nat → Nat
  | 0, _, r => r
  | f + 1, n, r => let r' := r + 2 ^ f; isqrtAux f n (if r' * r' ≤ n then r' else r)

/-- Integer square root, rounded down, for numbers below 2^256. -/
def isqrt (n : Nat) : Nat := isqrtAux 128 n 0

/-! ### Defaults given as formulas -/

/-- R265: every flat-field gain is 0x4000 (1.0 in Q2.14). -/
def flatFieldDefault : List Byte := (List.replicate 16640 [0x00, 0x40]).flatten

/-- R266: white balance 3 x 0x1000. -/
def whiteBalanceDefault : List Byte := [0x00, 0x10, 0x00, 0x10, 0x00, 0x10]

/-- R266: the identity matrix in Q16.16, nine I32. -/
def matrixDefault : List Byte :=
  let one : List Byte := [0, 0, 1, 0]
  let z : List Byte := [0, 0, 0, 0]
  one ++ z ++ z ++ z ++ one ++ z ++ z ++ z ++ one

/-- R266: each curve entry e = s >> 2, three curves of 4,096 U16. -/
def curvesDefault : List Byte :=
  let c := ((List.range 4096).map fun s => le 2 (s / 4)).flatten
  c ++ c ++ c

/-- R266: identity nodes of the 33 x 33 x 33 table, three U16 in 1/32,768 a node, first index slowest. -/
def xyzTableDefault : List Byte :=
  ((List.range 35937).map fun i =>
    le 2 (i / 1089 * 1024) ++ le 2 (i / 33 % 33 * 1024) ++ le 2 (i % 33 * 1024)).flatten

/-- R360: 0x02, then device_id [39:0], most significant byte first. -/
def macDefault : List Byte := 0x02 :: be 5 (Config.deviceId % 2 ^ 40)

/-- The smallest of a list, 0 of none. -/
def minOf : List Nat → Nat
  | [] => 0
  | [x] => x
  | x :: y :: r => min x (minOf (y :: r))

/-- The largest of a list, 0 of none. -/
def maxOf (l : List Nat) : Nat := l.foldl max 0

end Sys2Proof.Machine
end

