-- ==== Sys2Proof/Machine/DictTypes.lean ====
section
/-! DEFINITION. What an object of the dictionary is (R24 to R28): its type, access right, range and value. -/

namespace Sys2Proof.Machine

/-- The data types of R25, in the order of their codes. -/
inductive Ty
  | bool | u8 | u16 | u32 | u64 | i16 | i32 | i64 | i8 | q16 | str | octets | time
  deriving DecidableEq, Repr

/-- The access rights of R26. -/
inductive Acc
  | ro | wo | rw | rwStop | rwSeal | cmd
  deriving DecidableEq, Repr

/-- A value held by an object: a number (TIME is held as nanoseconds) or a string of bytes (R25). -/
inductive Val
  | num (n : Int)
  | oct (b : List Byte)
  deriving DecidableEq, Repr

/-- The range column of an object table (R28). -/
inductive Rng
  | span (lo hi : Int) (step : Nat)
  | spanOr (lo hi : Int) (step : Nat) (others : List Int)
  | oneOf (values : List Int)
  | pow2 (lo hi : Int)
  | rates
  | bytes (lo hi : Nat)
  | entries (max size : Nat)
  | text (max : Nat)
  | any
  deriving DecidableEq, Repr

/-- One row of an object table: `count` consecutive indices from `base`, `subs` subindices from `sub`, `subStep`
apart. For a CMD object `ty` is the type of the argument (R31). `role` is the write role (R27). -/
structure ObjRow where
  base : Nat
  count : Nat
  sub : Nat
  subs : Nat
  subStep : Nat
  name : String
  ty : Ty
  acc : Acc
  role : Nat
  persistent : Bool
  windowed : Bool
  dflt : Val
  rng : Rng
  unit : String
  deriving DecidableEq, Repr

end Sys2Proof.Machine
end

