-- ==== Sys2Proof/Machine/Obj.lean ====
section
/-! DEFINITION. The names of the dictionary's objects (R24): each object table of spec/ gives an index, a subindex
and a name, and the object's key in the store is index x 256 + subindex. A per-unit object takes the unit's number. -/

namespace Sys2Proof.Machine.Obj

/-- 1100:01 (R42) -/
abbrev ydp_udp_port : Nat := 0x110001
/-- 1100:02 (R42) -/
abbrev session_timeout : Nat := 0x110002
/-- 1100:03 (R42) -/
abbrev role_ceiling_field : Nat := 0x110003
/-- 1100:04 (R42) -/
abbrev role_ceiling_mailbox : Nat := 0x110004
/-- 1100:05 (R42) -/
abbrev controlling_session : Nat := 0x110005
/-- 1100:06 (R42) -/
abbrev take_control : Nat := 0x110006
/-- 1100:07 (R42) -/
abbrev release_control : Nat := 0x110007
/-- 1100:08 (R42) -/
abbrev hand_over : Nat := 0x110008
/-- 1100:09 (R42) -/
abbrev ydp_frames_dropped : Nat := 0x110009
/-- 1100:0A (R42) -/
abbrev service_failures : Nat := 0x11000A
/-- 1100:0B (R42) -/
abbrev service_lockout : Nat := 0x11000B
/-- 1100:0C (R42) -/
abbrev close_session : Nat := 0x11000C
/-- 1100+n:01 (R42) -/
abbrev session_state (n : Nat) : Nat := (0x1100 + n) * 256 + 0x01
/-- 1100+n:02 (R42) -/
abbrev session_role (n : Nat) : Nat := (0x1100 + n) * 256 + 0x02
/-- 1100+n:03 (R42) -/
abbrev session_path (n : Nat) : Nat := (0x1100 + n) * 256 + 0x03
/-- 1100+n:04 (R42) -/
abbrev session_peer (n : Nat) : Nat := (0x1100 + n) * 256 + 0x04
/-- 1100+n:05 (R42) -/
abbrev session_idle_time (n : Nat) : Nat := (0x1100 + n) * 256 + 0x05
/-- 1100+n:06 (R42) -/
abbrev events_enable (n : Nat) : Nat := (0x1100 + n) * 256 + 0x06
/-- 1100+n:07 (R42) -/
abbrev events_lost (n : Nat) : Nat := (0x1100 + n) * 256 + 0x07
/-- 1200:01 (R56) -/
abbrev save_persistent : Nat := 0x120001
/-- 1200:02 (R56) -/
abbrev restore_defaults : Nat := 0x120002
/-- 1200:03 (R56) -/
abbrev last_save_time : Nat := 0x120003
/-- 1200:04 (R56) -/
abbrev save_count : Nat := 0x120004
/-- 1200:05 (R56) -/
abbrev unsaved_changes : Nat := 0x120005
/-- 1000:01 (R58) -/
abbrev vendor_name : Nat := 0x100001
/-- 1000:02 (R58) -/
abbrev product_name : Nat := 0x100002
/-- 1000:03 (R58) -/
abbrev stepping : Nat := 0x100003
/-- 1000:04 (R58) -/
abbrev device_id : Nat := 0x100004
/-- 1000:05 (R58) -/
abbrev dictionary_version : Nat := 0x100005
/-- 1000:06 (R58) -/
abbrev ydp_version : Nat := 0x100006
/-- 1001:01 (R58) -/
abbrev max_bars : Nat := 0x100101
/-- 1001:02 (R58) -/
abbrev max_chains : Nat := 0x100102
/-- 1001:03 (R58) -/
abbrev max_heads : Nat := 0x100103
/-- 1001:04 (R58) -/
abbrev max_nozzles : Nat := 0x100104
/-- 1001:05 (R58) -/
abbrev max_line_rate : Nat := 0x100105
/-- 1001:06 (R58) -/
abbrev link_lanes : Nat := 0x100106
/-- 1001:07 (R58) -/
abbrev max_symbol_rate : Nat := 0x100107
/-- 1001:08 (R58) -/
abbrev image_pipelines : Nat := 0x100108
/-- 1001:09 (R58) -/
abbrev max_cellar : Nat := 0x100109
/-- 1001:0A (R58) -/
abbrev sram_size : Nat := 0x10010A
/-- 1001:0B (R58) -/
abbrev job_slots : Nat := 0x10010B
/-- 1001:0C (R58) -/
abbrev submit_ring_entries : Nat := 0x10010C
/-- 3000:01 (R59) -/
abbrev bar_count : Nat := 0x300001
/-- 3000:02 (R59) -/
abbrev column_pitch : Nat := 0x300002
/-- 3000:03 (R59) -/
abbrev drive_deceleration : Nat := 0x300003
/-- 3000:04 (R59) -/
abbrev stop_margin : Nat := 0x300004
/-- 3000:05 (R59) -/
abbrev head_line_rate_max : Nat := 0x300005
/-- 3000:06 (R59) -/
abbrev cue0_distance : Nat := 0x300006
/-- 3000:07 (R59) -/
abbrev cue1_distance : Nat := 0x300007
/-- 3000:08 (R59) -/
abbrev cue_polarity : Nat := 0x300008
/-- 3000:09 (R59) -/
abbrev cue_min_width : Nat := 0x300009
/-- 3000:0A (R59) -/
abbrev admission_lead : Nat := 0x30000A
/-- 3010+b:01 (R59) -/
abbrev bar_columns (b : Nat) : Nat := (0x3010 + b) * 256 + 0x01
/-- 3010+b:02 (R59) -/
abbrev bar_offset (b : Nat) : Nat := (0x3010 + b) * 256 + 0x02
/-- 3010+b:03 (R59) -/
abbrev column_offset (b : Nat) : Nat := (0x3010 + b) * 256 + 0x03
/-- 3010+b:04 (R59) -/
abbrev bar_reach (b : Nat) : Nat := (0x3010 + b) * 256 + 0x04
/-- 5000+n:01 (R62) -/
abbrev slot_state (n : Nat) : Nat := (0x5000 + n) * 256 + 0x01
/-- 5000+n:02 (R62) -/
abbrev tickets_outstanding (n : Nat) : Nat := (0x5000 + n) * 256 + 0x02
/-- 5000+n:03 (R62) -/
abbrev line_pitch (n : Nat) : Nat := (0x5000 + n) * 256 + 0x03
/-- 5000+n:04 (R62) -/
abbrev speed_max (n : Nat) : Nat := (0x5000 + n) * 256 + 0x04
/-- 5000+n:05 (R62) -/
abbrev bar_mask (n : Nat) : Nat := (0x5000 + n) * 256 + 0x05
/-- 5000+n:06 (R62) -/
abbrev cue_mode (n : Nat) : Nat := (0x5000 + n) * 256 + 0x06
/-- 5000+n:07 (R62) -/
abbrev cue_offset (n : Nat) : Nat := (0x5000 + n) * 256 + 0x07
/-- 5000+n:08 (R62) -/
abbrev cue_window (n : Nat) : Nat := (0x5000 + n) * 256 + 0x08
/-- 5000+n:09 (R62) -/
abbrev verify (n : Nat) : Nat := (0x5000 + n) * 256 + 0x09
/-- 5000+n:0B (R62) -/
abbrev page_cap (n : Nat) : Nat := (0x5000 + n) * 256 + 0x0B
/-- 5000+n:0C (R62) -/
abbrev validation (n : Nat) : Nat := (0x5000 + n) * 256 + 0x0C
/-- 5000+n:0D (R62) -/
abbrev seal_hold (n : Nat) : Nat := (0x5000 + n) * 256 + 0x0D
/-- 5000+n:0E (R62) -/
abbrev seal_slot (n : Nat) : Nat := (0x5000 + n) * 256 + 0x0E
/-- 5000+n:0F (R62) -/
abbrev unseal_slot (n : Nat) : Nat := (0x5000 + n) * 256 + 0x0F
/-- 5000+n:10 (R62) -/
abbrev clear_slot (n : Nat) : Nat := (0x5000 + n) * 256 + 0x10
/-- 5000+n:20+4b (R62) -/
abbrev slot_screen (n b : Nat) : Nat := (0x5000 + n) * 256 + 0x20 + 4 * b
/-- 5000+n:21+4b (R62) -/
abbrev slot_tone_curve (n b : Nat) : Nat := (0x5000 + n) * 256 + 0x21 + 4 * b
/-- 5000+n:22+4b (R62) -/
abbrev drop_volumes (n b : Nat) : Nat := (0x5000 + n) * 256 + 0x22 + 4 * b
/-- 5000+n:23+4b (R62) -/
abbrev drop_limit (n b : Nat) : Nat := (0x5000 + n) * 256 + 0x23 + 4 * b
/-- 6000:08 (R64) -/
abbrev submit_ring_base : Nat := 0x600008
/-- 6000:09 (R64) -/
abbrev completion_ring_base : Nat := 0x600009
/-- 6000:0A (R64) -/
abbrev submit_head : Nat := 0x60000A
/-- 6000:0B (R64) -/
abbrev submit_tail : Nat := 0x60000B
/-- 6000:0C (R64) -/
abbrev completion_head : Nat := 0x60000C
/-- 6000:0D (R64) -/
abbrev completion_tail : Nat := 0x60000D
/-- 6000:01 (R70) -/
abbrev speed_ceiling : Nat := 0x600001
/-- 6000:02 (R70) -/
abbrev print_position : Nat := 0x600002
/-- 6000:03 (R70) -/
abbrev horizon_end : Nat := 0x600003
/-- 6000:04 (R70) -/
abbrev admission_state : Nat := 0x600004
/-- 6000:05 (R70) -/
abbrev open_admission : Nat := 0x600005
/-- 6000:06 (R70) -/
abbrev close_admission : Nat := 0x600006
/-- 6000:07 (R70) -/
abbrev refusal_policy : Nat := 0x600007
/-- 6000:0E (R70) -/
abbrev last_ticket : Nat := 0x60000E
/-- 6000:0F (R70) -/
abbrev all_tickets_outstanding : Nat := 0x60000F
/-- 6000:10 (R70) -/
abbrev wait_reason : Nat := 0x600010
/-- 6000:11 (R70) -/
abbrev starved_ticks : Nat := 0x600011
/-- 6000:12 (R70) -/
abbrev starved : Nat := 0x600012
/-- 6000:13 (R70) -/
abbrev withdraw_from : Nat := 0x600013
/-- 6000:14 (R70) -/
abbrev closed_reason : Nat := 0x600014
/-- 6000:15 (R70) -/
abbrev ceiling_binding : Nat := 0x600015
/-- 6000:16 (R70) -/
abbrev fetch_budget : Nat := 0x600016
/-- 6000:20 (R117) -/
abbrev engines_print : Nat := 0x600020
/-- 6000:21 (R117) -/
abbrev engines_inspect : Nat := 0x600021
/-- 6000:22 (R117) -/
abbrev engines_check : Nat := 0x600022
/-- 6000:23 (R117) -/
abbrev crate_errors_print : Nat := 0x600023
/-- 6000:24 (R117) -/
abbrev crate_errors_inspect : Nat := 0x600024
/-- 6000:25 (R117) -/
abbrev crate_errors_verify : Nat := 0x600025
/-- 6000:26 (R117) -/
abbrev last_crate_error : Nat := 0x600026
/-- 6000:27 (R117) -/
abbrev fetch_lead_min : Nat := 0x600027
/-- 6000:28 (R117) -/
abbrev late_lines : Nat := 0x600028
/-- 6000:29 (R117) -/
abbrev verify_backlog : Nat := 0x600029
/-- 4000:01 (R120) -/
abbrev array_load : Nat := 0x400001
/-- 4000:02 (R120) -/
abbrev array_clear : Nat := 0x400002
/-- 4000:03 (R120) -/
abbrev curve_clear : Nat := 0x400003
/-- 4000:04 (R120) -/
abbrev resident_arrays : Nat := 0x400004
/-- 4000:05 (R120) -/
abbrev library_fault : Nat := 0x400005
/-- 4001:01–4001:40 (R120) -/
abbrev array_state (x : Nat) : Nat := 0x4001 * 256 + 0x01 + x
/-- 4002:01–4002:80 (R120) -/
abbrev tone_curve (x : Nat) : Nat := 0x4002 * 256 + 0x01 + x
/-- 4003:01–4003:80 (R120) -/
abbrev curve_state (x : Nat) : Nat := 0x4003 * 256 + 0x01 + x
/-- 3500:01–3500:80 (R128) -/
abbrev nozzle_entry (x : Nat) : Nat := 0x3500 * 256 + 0x01 + x
/-- 3501:01–3501:80 (R128) -/
abbrev nozzle_effective (x : Nat) : Nat := 0x3501 * 256 + 0x01 + x
/-- 3410+b:01 (R135) -/
abbrev care_epoch (b : Nat) : Nat := (0x3410 + b) * 256 + 0x01
/-- 3410+b:02 (R135) -/
abbrev pending_commits (b : Nat) : Nat := (0x3410 + b) * 256 + 0x02
/-- 3410+b:03 (R135) -/
abbrev neighbour_weights (b : Nat) : Nat := (0x3410 + b) * 256 + 0x03
/-- 3410+b:04 (R135) -/
abbrev weak_drop_limit (b : Nat) : Nat := (0x3410 + b) * 256 + 0x04
/-- 3410+b:05 (R135) -/
abbrev screen_origin (b : Nat) : Nat := (0x3410 + b) * 256 + 0x05
/-- 3410+b:06 (R135) -/
abbrev uncovered_columns (b : Nat) : Nat := (0x3410 + b) * 256 + 0x06
/-- 3410+b:07 (R135) -/
abbrev unassigned_columns (b : Nat) : Nat := (0x3410 + b) * 256 + 0x07
/-- 3410+b:08 (R135) -/
abbrev stand_ins_active (b : Nat) : Nat := (0x3410 + b) * 256 + 0x08
/-- 3410+b:09 (R135) -/
abbrev gap_runs (b : Nat) : Nat := (0x3410 + b) * 256 + 0x09
/-- 3410+b:0A (R135) -/
abbrev first_gap_column (b : Nat) : Nat := (0x3410 + b) * 256 + 0x0A
/-- 3410+b:0B (R135) -/
abbrev pages_gapped (b : Nat) : Nat := (0x3410 + b) * 256 + 0x0B
/-- 3410+b:0C (R135) -/
abbrev last_effect_position (b : Nat) : Nat := (0x3410 + b) * 256 + 0x0C
/-- 3400:01 (R141) -/
abbrev nozzle_window : Nat := 0x340001
/-- 3400:02 (R141) -/
abbrev commit_boundary : Nat := 0x340002
/-- 3400:03 (R141) -/
abbrev staging_free : Nat := 0x340003
/-- 3400:04 (R141) -/
abbrev order_fault : Nat := 0x340004
/-- 3400:10 (R141) -/
abbrev load_table : Nat := 0x340010
/-- 3400:11 (R141) -/
abbrev export_table : Nat := 0x340011
/-- 3400:12 (R141) -/
abbrev save_care : Nat := 0x340012
/-- 3400:13 (R141) -/
abbrev care_saved_time : Nat := 0x340013
/-- 3400:14 (R141) -/
abbrev care_restored : Nat := 0x340014
/-- 3100:01 (R180) -/
abbrev unauth_policy : Nat := 0x310001
/-- 3100:02 (R180) -/
abbrev hot_discovery : Nat := 0x310002
/-- 3100:03 (R180) -/
abbrev heal_hold : Nat := 0x310003
/-- 3110+c:01 (R180) -/
abbrev chain_bar (c : Nat) : Nat := (0x3110 + c) * 256 + 0x01
/-- 3110+c:02 (R180) -/
abbrev chain_mode (c : Nat) : Nat := (0x3110 + c) * 256 + 0x02
/-- 3110+c:03 (R180) -/
abbrev primary_lane (c : Nat) : Nat := (0x3110 + c) * 256 + 0x03
/-- 3110+c:04 (R180) -/
abbrev secondary_lane (c : Nat) : Nat := (0x3110 + c) * 256 + 0x04
/-- 3110+c:05 (R180) -/
abbrev head_timeout (c : Nat) : Nat := (0x3110 + c) * 256 + 0x05
/-- 3110+c:06 (R180) -/
abbrev chain_state (c : Nat) : Nat := (0x3110 + c) * 256 + 0x06
/-- 3110+c:07 (R180) -/
abbrev heads_found (c : Nat) : Nat := (0x3110 + c) * 256 + 0x07
/-- 3110+c:08 (R180) -/
abbrev split_after (c : Nat) : Nat := (0x3110 + c) * 256 + 0x08
/-- 3110+c:09 (R180) -/
abbrev discover_chain (c : Nat) : Nat := (0x3110 + c) * 256 + 0x09
/-- 3110+c:0A (R180) -/
abbrev heads_in (c : Nat) : Nat := (0x3110 + c) * 256 + 0x0A
/-- 3110+c:0B (R180) -/
abbrev chain_frames_bad (c : Nat) : Nat := (0x3110 + c) * 256 + 0x0B
/-- 3110+c:0C (R180) -/
abbrev lines_lost (c : Nat) : Nat := (0x3110 + c) * 256 + 0x0C
/-- 3110+c:0D (R180) -/
abbrev splits (c : Nat) : Nat := (0x3110 + c) * 256 + 0x0D
/-- 3110+c:0E (R180) -/
abbrev heads_excess (c : Nat) : Nat := (0x3110 + c) * 256 + 0x0E
/-- 3180+b:01–04 (R180) -/
abbrev group_distance (b x : Nat) : Nat := (0x3180 + b) * 256 + 0x01 + x
/-- 3200+h:01 (R181) -/
abbrev head_state (h : Nat) : Nat := (0x3200 + h) * 256 + 0x01
/-- 3200+h:02 (R181) -/
abbrev serial (h : Nat) : Nat := (0x3200 + h) * 256 + 0x02
/-- 3200+h:03 (R181) -/
abbrev head_family (h : Nat) : Nat := (0x3200 + h) * 256 + 0x03
/-- 3200+h:04 (R181) -/
abbrev capability (h : Nat) : Nat := (0x3200 + h) * 256 + 0x04
/-- 3200+h:05 (R181) -/
abbrev expected_serial (h : Nat) : Nat := (0x3200 + h) * 256 + 0x05
/-- 3200+h:06 (R181) -/
abbrev row_groups (h : Nat) : Nat := (0x3200 + h) * 256 + 0x06
/-- 3200+h:07 (R181) -/
abbrev auth_state (h : Nat) : Nat := (0x3200 + h) * 256 + 0x07
/-- 3200+h:08 (R181) -/
abbrev out_reason (h : Nat) : Nat := (0x3200 + h) * 256 + 0x08
/-- 3200+h:09 (R181) -/
abbrev head_temperature (h : Nat) : Nat := (0x3200 + h) * 256 + 0x09
/-- 3200+h:0A (R181) -/
abbrev status_flags (h : Nat) : Nat := (0x3200 + h) * 256 + 0x0A
/-- 3200+h:0B (R181) -/
abbrev last_fired (h : Nat) : Nat := (0x3200 + h) * 256 + 0x0B
/-- 3200+h:0C (R181) -/
abbrev lines_missing (h : Nat) : Nat := (0x3200 + h) * 256 + 0x0C
/-- 3200+h:0D (R181) -/
abbrev head_usage_record (h : Nat) : Nat := (0x3200 + h) * 256 + 0x0D
/-- 3200+h:0E (R181) -/
abbrev head_in (h : Nat) : Nat := (0x3200 + h) * 256 + 0x0E
/-- 3200+h:0F (R181) -/
abbrev head_out (h : Nat) : Nat := (0x3200 + h) * 256 + 0x0F
/-- 3200+h:10 (R181) -/
abbrev challenge_usage (h : Nat) : Nat := (0x3200 + h) * 256 + 0x10
/-- 3200+h:11 (R181) -/
abbrev pending_in (h : Nat) : Nat := (0x3200 + h) * 256 + 0x11
/-- 3140+l:01 (R205) -/
abbrev lane_role (l : Nat) : Nat := (0x3140 + l) * 256 + 0x01
/-- 3140+l:02 (R205) -/
abbrev rx_state (l : Nat) : Nat := (0x3140 + l) * 256 + 0x02
/-- 3140+l:03 (R205) -/
abbrev tx_state (l : Nat) : Nat := (0x3140 + l) * 256 + 0x03
/-- 3140+l:04 (R205) -/
abbrev lane_down_reason (l : Nat) : Nat := (0x3140 + l) * 256 + 0x04
/-- 3140+l:05 (R205) -/
abbrev hop_received (l : Nat) : Nat := (0x3140 + l) * 256 + 0x05
/-- 3140+l:06 (R205) -/
abbrev tx_taps (l : Nat) : Nat := (0x3140 + l) * 256 + 0x06
/-- 3140+l:07 (R205) -/
abbrev rx_thresholds (l : Nat) : Nat := (0x3140 + l) * 256 + 0x07
/-- 3140+l:08 (R205) -/
abbrev rx_dfe (l : Nat) : Nat := (0x3140 + l) * 256 + 0x08
/-- 3140+l:09 (R205) -/
abbrev groups_received (l : Nat) : Nat := (0x3140 + l) * 256 + 0x09
/-- 3140+l:0A (R205) -/
abbrev code_errors (l : Nat) : Nat := (0x3140 + l) * 256 + 0x0A
/-- 3140+l:0B (R205) -/
abbrev align_losses (l : Nat) : Nat := (0x3140 + l) * 256 + 0x0B
/-- 3140+l:0C (R205) -/
abbrev los_events (l : Nat) : Nat := (0x3140 + l) * 256 + 0x0C
/-- 3140+l:0D (R205) -/
abbrev lol_events (l : Nat) : Nat := (0x3140 + l) * 256 + 0x0D
/-- 3140+l:0E (R205) -/
abbrev skips_deleted (l : Nat) : Nat := (0x3140 + l) * 256 + 0x0E
/-- 3140+l:0F (R205) -/
abbrev skips_inserted (l : Nat) : Nat := (0x3140 + l) * 256 + 0x0F
/-- 3140+l:10 (R205) -/
abbrev elastic_overruns (l : Nat) : Nat := (0x3140 + l) * 256 + 0x10
/-- 3140+l:11 (R205) -/
abbrev train_timeouts (l : Nat) : Nat := (0x3140 + l) * 256 + 0x11
/-- 3140+l:12 (R205) -/
abbrev tx_sleep (l : Nat) : Nat := (0x3140 + l) * 256 + 0x12
/-- 3140+l:13 (R205) -/
abbrev retrain (l : Nat) : Nat := (0x3140 + l) * 256 + 0x13
/-- 3140+l:14 (R205) -/
abbrev calibrate_slicer (l : Nat) : Nat := (0x3140 + l) * 256 + 0x14
/-- 3140+l:15 (R205) -/
abbrev cal_spare (l : Nat) : Nat := (0x3140 + l) * 256 + 0x15
/-- 3140+l:16 (R205) -/
abbrev last_cal_time (l : Nat) : Nat := (0x3140 + l) * 256 + 0x16
/-- 3140+l:17 (R205) -/
abbrev clear_counters (l : Nat) : Nat := (0x3140 + l) * 256 + 0x17
/-- 3160+q:01 (R206) -/
abbrev quad_rate (q : Nat) : Nat := (0x3160 + q) * 256 + 0x01
/-- 3160+q:02 (R206) -/
abbrev quad_state (q : Nat) : Nat := (0x3160 + q) * 256 + 0x02
/-- 3160+q:03 (R206) -/
abbrev quad_reference (q : Nat) : Nat := (0x3160 + q) * 256 + 0x03
/-- 3160+q:04 (R206) -/
abbrev lane_net_rate (q : Nat) : Nat := (0x3160 + q) * 256 + 0x04
/-- 6100:01 (R235) -/
abbrev active_ringmaster : Nat := 0x610001
/-- 6100:02 (R235) -/
abbrev fire_mode : Nat := 0x610002
/-- 6100:03 (R235) -/
abbrev enc0_pitch : Nat := 0x610003
/-- 6100:04 (R235) -/
abbrev enc0_direction : Nat := 0x610004
/-- 6100:05 (R235) -/
abbrev enc_filter : Nat := 0x610005
/-- 6100:06 (R235) -/
abbrev enc1_mode : Nat := 0x610006
/-- 6100:07 (R235) -/
abbrev enc1_pitch : Nat := 0x610007
/-- 6100:08 (R235) -/
abbrev enc1_direction : Nat := 0x610008
/-- 6100:09 (R235) -/
abbrev check_limit : Nat := 0x610009
/-- 6100:0A (R235) -/
abbrev transition_limit : Nat := 0x61000A
/-- 6100:0B (R235) -/
abbrev index_period : Nat := 0x61000B
/-- 6100:0C (R235) -/
abbrev index_tolerance : Nat := 0x61000C
/-- 6100:0D (R235) -/
abbrev observer_bandwidth : Nat := 0x61000D
/-- 6100:0E (R235) -/
abbrev reverse_tolerance : Nat := 0x61000E
/-- 6100:0F (R235) -/
abbrev overspeed_limit : Nat := 0x61000F
/-- 6100:10 (R235) -/
abbrev auto_retake : Nat := 0x610010
/-- 6100:11 (R235) -/
abbrev preferred_ringmaster : Nat := 0x610011
/-- 6100:12 (R235) -/
abbrev retake_wait : Nat := 0x610012
/-- 6100:13 (R235) -/
abbrev validate_position : Nat := 0x610013
/-- 6100:14 (R235) -/
abbrev request_switch : Nat := 0x610014
/-- 6100:20 (R235) -/
abbrev position_valid : Nat := 0x610020
/-- 6100:21 (R235) -/
abbrev loss_reason : Nat := 0x610021
/-- 6100:22 (R235) -/
abbrev web_speed : Nat := 0x610022
/-- 6100:23 (R235) -/
abbrev web_acceleration : Nat := 0x610023
/-- 6100:24 (R235) -/
abbrev datum_line_rate : Nat := 0x610024
/-- 6100:25 (R235) -/
abbrev enc0_counts : Nat := 0x610025
/-- 6100:26 (R235) -/
abbrev enc1_counts : Nat := 0x610026
/-- 6100:27 (R235) -/
abbrev impossible_transitions : Nat := 0x610027
/-- 6100:28 (R235) -/
abbrev index_errors : Nat := 0x610028
/-- 6100:29 (R235) -/
abbrev check_deviation : Nat := 0x610029
/-- 6100:2A (R235) -/
abbrev high_water : Nat := 0x61002A
/-- 6100:2B (R235) -/
abbrev overspeed_state : Nat := 0x61002B
/-- 6100:2C (R235) -/
abbrev overspeed_lines : Nat := 0x61002C
/-- 6100:2D (R235) -/
abbrev hold_remaining : Nat := 0x61002D
/-- 6100:2E (R235) -/
abbrev rm_state_a : Nat := 0x61002E
/-- 6100:2F (R235) -/
abbrev rm_state_b : Nat := 0x61002F
/-- 6100:30 (R235) -/
abbrev rm_clean_a : Nat := 0x610030
/-- 6100:31 (R235) -/
abbrev rm_clean_b : Nat := 0x610031
/-- 6100:32 (R235) -/
abbrev rm_fail_cause_a : Nat := 0x610032
/-- 6100:33 (R235) -/
abbrev rm_fail_cause_b : Nat := 0x610033
/-- 6100:34 (R235) -/
abbrev switchovers : Nat := 0x610034
/-- 6100:35 (R235) -/
abbrev switchover_log : Nat := 0x610035
/-- 6120+s:01 (R236) -/
abbrev tap_trim (s : Nat) : Nat := (0x6120 + s) * 256 + 0x01
/-- 6120+s:02 (R236) -/
abbrev pair_spacing (s : Nat) : Nat := (0x6120 + s) * 256 + 0x02
/-- 6120+s:03 (R236) -/
abbrev strobes_fired (s : Nat) : Nat := (0x6120 + s) * 256 + 0x03
/-- 6120+s:04 (R236) -/
abbrev pair_lines_omitted (s : Nat) : Nat := (0x6120 + s) * 256 + 0x04
/-- 6120+s:05 (R236) -/
abbrev lines_withheld (s : Nat) : Nat := (0x6120 + s) * 256 + 0x05
/-- 6120+s:06 (R236) -/
abbrev last_tag (s : Nat) : Nat := (0x6120 + s) * 256 + 0x06
/-- 6140+i:01 (R236) -/
abbrev ssi_bits (i : Nat) : Nat := (0x6140 + i) * 256 + 0x01
/-- 6140+i:02 (R236) -/
abbrev ssi_clock (i : Nat) : Nat := (0x6140 + i) * 256 + 0x02
/-- 6140+i:03 (R236) -/
abbrev ssi_code (i : Nat) : Nat := (0x6140 + i) * 256 + 0x03
/-- 6140+i:04 (R236) -/
abbrev ssi_period (i : Nat) : Nat := (0x6140 + i) * 256 + 0x04
/-- 6140+i:05 (R236) -/
abbrev ssi_max_step (i : Nat) : Nat := (0x6140 + i) * 256 + 0x05
/-- 6140+i:06 (R236) -/
abbrev ssi_value (i : Nat) : Nat := (0x6140 + i) * 256 + 0x06
/-- 6140+i:07 (R236) -/
abbrev ssi_time (i : Nat) : Nat := (0x6140 + i) * 256 + 0x07
/-- 6140+i:08 (R236) -/
abbrev ssi_errors (i : Nat) : Nat := (0x6140 + i) * 256 + 0x08
/-- 6140+i:09 (R236) -/
abbrev ssi_state (i : Nat) : Nat := (0x6140 + i) * 256 + 0x09
/-- 6400:01 (R264) -/
abbrev iso_committed : Nat := 0x640001
/-- 6400:02 (R264) -/
abbrev iso_limit : Nat := 0x640002
/-- 6410+k:01 (R264) -/
abbrev camera_enable (k : Nat) : Nat := (0x6410 + k) * 256 + 0x01
/-- 6410+k:02 (R264) -/
abbrev camera_state (k : Nat) : Nat := (0x6410 + k) * 256 + 0x02
/-- 6410+k:03 (R264) -/
abbrev camera_lanes (k : Nat) : Nat := (0x6410 + k) * 256 + 0x03
/-- 6410+k:04 (R264) -/
abbrev camera_distance (k : Nat) : Nat := (0x6410 + k) * 256 + 0x04
/-- 6410+k:05 (R264) -/
abbrev image_pitch_x (k : Nat) : Nat := (0x6410 + k) * 256 + 0x05
/-- 6410+k:06 (R264) -/
abbrev image_pitch_y (k : Nat) : Nat := (0x6410 + k) * 256 + 0x06
/-- 6410+k:07 (R264) -/
abbrev image_origin (k : Nat) : Nat := (0x6410 + k) * 256 + 0x07
/-- 6410+k:09 (R264) -/
abbrev reference_row (k : Nat) : Nat := (0x6410 + k) * 256 + 0x09
/-- 6410+k:0A (R264) -/
abbrev advance_rows (k : Nat) : Nat := (0x6410 + k) * 256 + 0x0A
/-- 6410+k:0B (R264) -/
abbrev design_speed (k : Nat) : Nat := (0x6410 + k) * 256 + 0x0B
/-- 6410+k:0C (R264) -/
abbrev exposure_time (k : Nat) : Nat := (0x6410 + k) * 256 + 0x0C
/-- 6410+k:0D (R264) -/
abbrev flash_time (k : Nat) : Nat := (0x6410 + k) * 256 + 0x0D
/-- 6410+k:0E (R264) -/
abbrev trigger_delay (k : Nat) : Nat := (0x6410 + k) * 256 + 0x0E
/-- 6410+k:0F (R264) -/
abbrev min_exposure_period (k : Nat) : Nat := (0x6410 + k) * 256 + 0x0F
/-- 6410+k:10 (R264) -/
abbrev frame_timeout (k : Nat) : Nat := (0x6410 + k) * 256 + 0x10
/-- 6410+k:11 (R264) -/
abbrev idle_sleep (k : Nat) : Nat := (0x6410 + k) * 256 + 0x11
/-- 6410+k:12 (R264) -/
abbrev cci_transfer (k : Nat) : Nat := (0x6410 + k) * 256 + 0x12
/-- 6410+k:13 (R264) -/
abbrev cci_result (k : Nat) : Nat := (0x6410 + k) * 256 + 0x13
/-- 6410+k:14 (R264) -/
abbrev exposures (k : Nat) : Nat := (0x6410 + k) * 256 + 0x14
/-- 6410+k:15 (R264) -/
abbrev exposures_late (k : Nat) : Nat := (0x6410 + k) * 256 + 0x15
/-- 6410+k:16 (R264) -/
abbrev frames_discarded (k : Nat) : Nat := (0x6410 + k) * 256 + 0x16
/-- 6410+k:17 (R264) -/
abbrev packets_bad (k : Nat) : Nat := (0x6410 + k) * 256 + 0x17
/-- 6410+k:18 (R264) -/
abbrev rows_missing (k : Nat) : Nat := (0x6410 + k) * 256 + 0x18
/-- 6410+k:19 (R264) -/
abbrev last_exposure (k : Nat) : Nat := (0x6410 + k) * 256 + 0x19
/-- 6410+k:1A (R264) -/
abbrev stitched_width (k : Nat) : Nat := (0x6410 + k) * 256 + 0x1A
/-- 6410+k:1B (R264) -/
abbrev field_first (k : Nat) : Nat := (0x6410 + k) * 256 + 0x1B
/-- 6410+k:1C (R264) -/
abbrev field_last (k : Nat) : Nat := (0x6410 + k) * 256 + 0x1C
/-- 6410+k:1D (R264) -/
abbrev bridge_status (k : Nat) : Nat := (0x6410 + k) * 256 + 0x1D
/-- 6410+k:1E (R264) -/
abbrev pixel_rate (k : Nat) : Nat := (0x6410 + k) * 256 + 0x1E
/-- 6410+k:1F (R264) -/
abbrev lost_reason (k : Nat) : Nat := (0x6410 + k) * 256 + 0x1F
/-- 6420+4k+v:01 (R265) -/
abbrev tile_enable (t : Nat) : Nat := (0x6420 + t) * 256 + 0x01
/-- 6420+4k+v:02 (R265) -/
abbrev data_type (t : Nat) : Nat := (0x6420 + t) * 256 + 0x02
/-- 6420+4k+v:03 (R265) -/
abbrev tile_width (t : Nat) : Nat := (0x6420 + t) * 256 + 0x03
/-- 6420+4k+v:04 (R265) -/
abbrev sensor_rows (t : Nat) : Nat := (0x6420 + t) * 256 + 0x04
/-- 6420+4k+v:05 (R265) -/
abbrev sensor_area (t : Nat) : Nat := (0x6420 + t) * 256 + 0x05
/-- 6420+4k+v:06 (R265) -/
abbrev bayer (t : Nat) : Nat := (0x6420 + t) * 256 + 0x06
/-- 6420+4k+v:07 (R265) -/
abbrev tile_x (t : Nat) : Nat := (0x6420 + t) * 256 + 0x07
/-- 6420+4k+v:08 (R265) -/
abbrev tile_y (t : Nat) : Nat := (0x6420 + t) * 256 + 0x08
/-- 6420+4k+v:09 (R265) -/
abbrev seam (t : Nat) : Nat := (0x6420 + t) * 256 + 0x09
/-- 6420+4k+v:0A (R265) -/
abbrev black_level (t : Nat) : Nat := (0x6420 + t) * 256 + 0x0A
/-- 6420+4k+v:0B (R265) -/
abbrev defect_list (t : Nat) : Nat := (0x6420 + t) * 256 + 0x0B
/-- 6420+4k+v:0C (R265) -/
abbrev flat_field (t : Nat) : Nat := (0x6420 + t) * 256 + 0x0C
/-- 6420+4k+v:0D (R265) -/
abbrev dynamic_defect (t : Nat) : Nat := (0x6420 + t) * 256 + 0x0D
/-- 6430+k:01 (R266) -/
abbrev wb_a (k : Nat) : Nat := (0x6430 + k) * 256 + 0x01
/-- 6430+k:02 (R266) -/
abbrev matrix_a (k : Nat) : Nat := (0x6430 + k) * 256 + 0x02
/-- 6430+k:03 (R266) -/
abbrev curves_a (k : Nat) : Nat := (0x6430 + k) * 256 + 0x03
/-- 6430+k:04 (R266) -/
abbrev wb_b (k : Nat) : Nat := (0x6430 + k) * 256 + 0x04
/-- 6430+k:05 (R266) -/
abbrev matrix_b (k : Nat) : Nat := (0x6430 + k) * 256 + 0x05
/-- 6430+k:06 (R266) -/
abbrev curves_b (k : Nat) : Nat := (0x6430 + k) * 256 + 0x06
/-- 6430+k:07 (R266) -/
abbrev xyz_matrix (k : Nat) : Nat := (0x6430 + k) * 256 + 0x07
/-- 6430+k:08 (R266) -/
abbrev xyz_table (k : Nat) : Nat := (0x6430 + k) * 256 + 0x08
/-- 6440+k:01 (R267) -/
abbrev measurement (k : Nat) : Nat := (0x6440 + k) * 256 + 0x01
/-- 6440+k:02 (R267) -/
abbrev record_view (k : Nat) : Nat := (0x6440 + k) * 256 + 0x02
/-- 6440+k:03 (R267) -/
abbrev crop_ring (k : Nat) : Nat := (0x6440 + k) * 256 + 0x03
/-- 6440+k:04 (R267) -/
abbrev monitor_view (k : Nat) : Nat := (0x6440 + k) * 256 + 0x04
/-- 6440+k:05 (R267) -/
abbrev crop_ring_rows (k : Nat) : Nat := (0x6440 + k) * 256 + 0x05
/-- 6440+k:06 (R267) -/
abbrev crop_rows_written (k : Nat) : Nat := (0x6440 + k) * 256 + 0x06
/-- 6440+k:07 (R267) -/
abbrev monitor_slot (k : Nat) : Nat := (0x6440 + k) * 256 + 0x07
/-- 6440+k:08 (R267) -/
abbrev iso_demand (k : Nat) : Nat := (0x6440 + k) * 256 + 0x08
/-- 5000+n:40 (R294) -/
abbrev inspect (n : Nat) : Nat := (0x5000 + n) * 256 + 0x40
/-- 5000+n:41 (R294) -/
abbrev appearance_place (n : Nat) : Nat := (0x5000 + n) * 256 + 0x41
/-- 5000+n:42 (R294) -/
abbrev autonomy (n : Nat) : Nat := (0x5000 + n) * 256 + 0x42
/-- 5000+n:43 (R294) -/
abbrev defect_threshold (n : Nat) : Nat := (0x5000 + n) * 256 + 0x43
/-- 5000+n:44 (R294) -/
abbrev fail_tiles (n : Nat) : Nat := (0x5000 + n) * 256 + 0x44
/-- 5000+n:45 (R294) -/
abbrev incomplete_tiles (n : Nat) : Nat := (0x5000 + n) * 256 + 0x45
/-- 5000+n:46 (R294) -/
abbrev de_factors (n : Nat) : Nat := (0x5000 + n) * 256 + 0x46
/-- 5000+n:47 (R294) -/
abbrev density_channel (n : Nat) : Nat := (0x5000 + n) * 256 + 0x47
/-- 5000+n:48 (R294) -/
abbrev solo_tones (n : Nat) : Nat := (0x5000 + n) * 256 + 0x48
/-- 5000+n:49 (R294) -/
abbrev evidence_min (n : Nat) : Nat := (0x5000 + n) * 256 + 0x49
/-- 5000+n:4A (R294) -/
abbrev corr_deadband (n : Nat) : Nat := (0x5000 + n) * 256 + 0x4A
/-- 5000+n:4B (R294) -/
abbrev corr_step (n : Nat) : Nat := (0x5000 + n) * 256 + 0x4B
/-- 5000+n:4C (R294) -/
abbrev corr_limit (n : Nat) : Nat := (0x5000 + n) * 256 + 0x4C
/-- 5000+n:4D (R294) -/
abbrev weak_threshold (n : Nat) : Nat := (0x5000 + n) * 256 + 0x4D
/-- 5000+n:4E (R294) -/
abbrev dead_threshold (n : Nat) : Nat := (0x5000 + n) * 256 + 0x4E
/-- 5000+n:4F (R294) -/
abbrev state_changes_max (n : Nat) : Nat := (0x5000 + n) * 256 + 0x4F
/-- 5000+n:50 (R294) -/
abbrev trim_step (n : Nat) : Nat := (0x5000 + n) * 256 + 0x50
/-- 5000+n:51 (R294) -/
abbrev reg_deadband (n : Nat) : Nat := (0x5000 + n) * 256 + 0x51
/-- 5000+n:52 (R294) -/
abbrev fiducials (n : Nat) : Nat := (0x5000 + n) * 256 + 0x52
/-- 5000+n:53 (R294) -/
abbrev defect_records_max (n : Nat) : Nat := (0x5000 + n) * 256 + 0x53
/-- 6500:02 (R296) -/
abbrev loop_ring_base : Nat := 0x650002
/-- 6500:03 (R296) -/
abbrev loop_ring_entries : Nat := 0x650003
/-- 6500:04 (R296) -/
abbrev loop_head : Nat := 0x650004
/-- 6500:05 (R296) -/
abbrev loop_tail : Nat := 0x650005
/-- 6500:06 (R296) -/
abbrev records_lost : Nat := 0x650006
/-- 6500:07 (R296) -/
abbrev discards : Nat := 0x650007
/-- 6500:08 (R296) -/
abbrev samples_stale : Nat := 0x650008
/-- 6500:09 (R296) -/
abbrev residual_window : Nat := 0x650009
/-- 6501:01 (R296) -/
abbrev appearance_load : Nat := 0x650101
/-- 6501:02 (R296) -/
abbrev appearance_clear : Nat := 0x650102
/-- 6501:03 (R296) -/
abbrev appearance_state : Nat := 0x650103
/-- 6550:01–6550:80 (R296) -/
abbrev column_residual (x : Nat) : Nat := 0x6550 * 256 + 0x01 + x
/-- 6510+k:01 (R297) -/
abbrev align_state (k : Nat) : Nat := (0x6510 + k) * 256 + 0x01
/-- 6510+k:02 (R297) -/
abbrev align_dx (k : Nat) : Nat := (0x6510 + k) * 256 + 0x02
/-- 6510+k:03 (R297) -/
abbrev align_dy (k : Nat) : Nat := (0x6510 + k) * 256 + 0x03
/-- 6510+k:04 (R297) -/
abbrev align_score (k : Nat) : Nat := (0x6510 + k) * 256 + 0x04
/-- 6510+k:05 (R297) -/
abbrev bands_unaligned (k : Nat) : Nat := (0x6510 + k) * 256 + 0x05
/-- 6510+k:06 (R297) -/
abbrev tiles_compared (k : Nat) : Nat := (0x6510 + k) * 256 + 0x06
/-- 6510+k:07 (R297) -/
abbrev tiles_excluded (k : Nat) : Nat := (0x6510 + k) * 256 + 0x07
/-- 6510+k:08 (R297) -/
abbrev defect_tiles (k : Nat) : Nat := (0x6510 + k) * 256 + 0x08
/-- 6510+k:09 (R297) -/
abbrev columns_per_pixel (k : Nat) : Nat := (0x6510 + k) * 256 + 0x09
/-- 6510+k:0A (R297) -/
abbrev align_min_score (k : Nat) : Nat := (0x6510 + k) * 256 + 0x0A
/-- 6510+k:0B (R297) -/
abbrev align_min_contrast (k : Nat) : Nat := (0x6510 + k) * 256 + 0x0B
/-- 6520+b:01 (R297) -/
abbrev bins_ready (b : Nat) : Nat := (0x6520 + b) * 256 + 0x01
/-- 6520+b:02 (R297) -/
abbrev worst_residual (b : Nat) : Nat := (0x6520 + b) * 256 + 0x02
/-- 6520+b:03 (R297) -/
abbrev worst_column (b : Nat) : Nat := (0x6520 + b) * 256 + 0x03
/-- 6520+b:04 (R297) -/
abbrev cross_error (b : Nat) : Nat := (0x6520 + b) * 256 + 0x04
/-- 6520+b:05 (R297) -/
abbrev along_error (b : Nat) : Nat := (0x6520 + b) * 256 + 0x05
/-- 6520+b:06 (R297) -/
abbrev actions (b : Nat) : Nat := (0x6520 + b) * 256 + 0x06
/-- 6520+b:07 (R297) -/
abbrev proposals (b : Nat) : Nat := (0x6520 + b) * 256 + 0x07
/-- 6520+b:08 (R297) -/
abbrev registration_discards (b : Nat) : Nat := (0x6520 + b) * 256 + 0x08
/-- 6530:01 (R303) -/
abbrev cal_flat_field : Nat := 0x653001
/-- 6530:02 (R303) -/
abbrev cal_registration : Nat := 0x653002
/-- 6530:03 (R303) -/
abbrev cal_wait_limit : Nat := 0x653003
/-- 6530:04 (R303) -/
abbrev registration_result : Nat := 0x653004
/-- 6530:05 (R303) -/
abbrev slicer_records : Nat := 0x653005
/-- 6530:06 (R303) -/
abbrev flat_records : Nat := 0x653006
/-- 6530:07 (R303) -/
abbrev registration_record : Nat := 0x653007
/-- 6530:08 (R303) -/
abbrev cal_records_bad : Nat := 0x653008
/-- 6530:09 (R303) -/
abbrev clear_cal_records : Nat := 0x653009
/-- 5000+n:60 (R305) -/
abbrev qp_target (n : Nat) : Nat := (0x5000 + n) * 256 + 0x60
/-- 5000+n:61 (R305) -/
abbrev qp_max (n : Nat) : Nat := (0x5000 + n) * 256 + 0x61
/-- 5000+n:62 (R305) -/
abbrev fire_bars (n : Nat) : Nat := (0x5000 + n) * 256 + 0x62
/-- 5000+n:63 (R305) -/
abbrev fire_pages (n : Nat) : Nat := (0x5000 + n) * 256 + 0x63
/-- 5000+n:64 (R305) -/
abbrev fire_every (n : Nat) : Nat := (0x5000 + n) * 256 + 0x64
/-- 5000+n:65 (R305) -/
abbrev crop_cameras (n : Nat) : Nat := (0x5000 + n) * 256 + 0x65
/-- 5000+n:66 (R305) -/
abbrev crop_width (n : Nat) : Nat := (0x5000 + n) * 256 + 0x66
/-- 5000+n:67 (R305) -/
abbrev crop_height (n : Nat) : Nat := (0x5000 + n) * 256 + 0x67
/-- 5000+n:68 (R305) -/
abbrev crops_max (n : Nat) : Nat := (0x5000 + n) * 256 + 0x68
/-- 6610+i:01 (R330) -/
abbrev stream_enable (i : Nat) : Nat := (0x6610 + i) * 256 + 0x01
/-- 6610+i:02 (R330) -/
abbrev profile (i : Nat) : Nat := (0x6610 + i) * 256 + 0x02
/-- 6610+i:03 (R330) -/
abbrev refs (i : Nat) : Nat := (0x6610 + i) * 256 + 0x03
/-- 6610+i:04 (R330) -/
abbrev idr_period (i : Nat) : Nat := (0x6610 + i) * 256 + 0x04
/-- 6610+i:05 (R330) -/
abbrev cap (i : Nat) : Nat := (0x6610 + i) * 256 + 0x05
/-- 6610+i:06 (R330) -/
abbrev idle_qp (i : Nat) : Nat := (0x6610 + i) * 256 + 0x06
/-- 6610+i:07 (R330) -/
abbrev out_ring_base (i : Nat) : Nat := (0x6610 + i) * 256 + 0x07
/-- 6610+i:08 (R330) -/
abbrev index_ring_base (i : Nat) : Nat := (0x6610 + i) * 256 + 0x08
/-- 6610+i:09 (R330) -/
abbrev index_entries (i : Nat) : Nat := (0x6610 + i) * 256 + 0x09
/-- 6610+i:0A (R330) -/
abbrev index_head (i : Nat) : Nat := (0x6610 + i) * 256 + 0x0A
/-- 6610+i:0B (R330) -/
abbrev index_tail (i : Nat) : Nat := (0x6610 + i) * 256 + 0x0B
/-- 6610+i:0C (R330) -/
abbrev out_ring_bytes (i : Nat) : Nat := (0x6610 + i) * 256 + 0x0C
/-- 6610+i:0D (R330) -/
abbrev level (i : Nat) : Nat := (0x6610 + i) * 256 + 0x0D
/-- 6610+i:0E (R330) -/
abbrev pictures (i : Nat) : Nat := (0x6610 + i) * 256 + 0x0E
/-- 6610+i:0F (R330) -/
abbrev pictures_skipped (i : Nat) : Nat := (0x6610 + i) * 256 + 0x0F
/-- 6610+i:10 (R330) -/
abbrev cap_excess_bits (i : Nat) : Nat := (0x6610 + i) * 256 + 0x10
/-- 6610+i:11 (R330) -/
abbrev mark_long_term (i : Nat) : Nat := (0x6610 + i) * 256 + 0x11
/-- 6610+i:12 (R330) -/
abbrev release_long_term (i : Nat) : Nat := (0x6610 + i) * 256 + 0x12
/-- 6610+i:13 (R330) -/
abbrev force_idr (i : Nat) : Nat := (0x6610 + i) * 256 + 0x13
/-- 6610+i:14 (R330) -/
abbrev iso_commit (i : Nat) : Nat := (0x6610 + i) * 256 + 0x14
/-- 6610+i:15 (R330) -/
abbrev pool_bytes (i : Nat) : Nat := (0x6610 + i) * 256 + 0x15
/-- 6620:01 (R330) -/
abbrev decode : Nat := 0x662001
/-- 6620:02 (R330) -/
abbrev decoder_state : Nat := 0x662002
/-- 6620:03 (R330) -/
abbrev pictures_decoded : Nat := 0x662003
/-- 6620:04 (R330) -/
abbrev decode_errors : Nat := 0x662004
/-- 6620:05 (R330) -/
abbrev ctbs_concealed : Nat := 0x662005
/-- 6620:06 (R330) -/
abbrev dec_head : Nat := 0x662006
/-- 6620:07 (R330) -/
abbrev dec_tail : Nat := 0x662007
/-- 6620:08 (R330) -/
abbrev decode_stop : Nat := 0x662008
/-- 6600:01 (R331) -/
abbrev store_base : Nat := 0x660001
/-- 6600:02 (R331) -/
abbrev store_bytes : Nat := 0x660002
/-- 6600:03 (R331) -/
abbrev item_ring_base : Nat := 0x660003
/-- 6600:04 (R331) -/
abbrev item_entries : Nat := 0x660004
/-- 6600:05 (R331) -/
abbrev item_head : Nat := 0x660005
/-- 6600:06 (R331) -/
abbrev item_tail : Nat := 0x660006
/-- 6600:07 (R331) -/
abbrev items_dropped : Nat := 0x660007
/-- 6600:08 (R331) -/
abbrev pack_store_free : Nat := 0x660008
/-- 6600:09 (R331) -/
abbrev crates_mismatched : Nat := 0x660009
/-- 6600:0A (R331) -/
abbrev crates_unchecked : Nat := 0x66000A
/-- 6600:0B (R331) -/
abbrev capture : Nat := 0x66000B
/-- 6600:0C (R331) -/
abbrev fire_lines_lost : Nat := 0x66000C
/-- 2800:01 (R356) -/
abbrev capacity_expected : Nat := 0x280001
/-- 2800:02 (R356) -/
abbrev capacity : Nat := 0x280002
/-- 2800:03 (R356) -/
abbrev rate_a : Nat := 0x280003
/-- 2800:04 (R356) -/
abbrev rate_b : Nat := 0x280004
/-- 2800:05 (R356) -/
abbrev age_iso : Nat := 0x280005
/-- 2800:06 (R356) -/
abbrev age_bulk : Nat := 0x280006
/-- 2800:07 (R356) -/
abbrev age_background : Nat := 0x280007
/-- 2800:08 (R356) -/
abbrev panic_lead_1 : Nat := 0x280008
/-- 2800:09 (R356) -/
abbrev panic_lead_2 : Nat := 0x280009
/-- 2800:0A (R356) -/
abbrev panic_3_entries : Nat := 0x28000A
/-- 2800:0B (R356) -/
abbrev oscillator_period : Nat := 0x28000B
/-- 2800:0C (R356) -/
abbrev scrub_period : Nat := 0x28000C
/-- 2800:0D (R356) -/
abbrev cellar_idle_time : Nat := 0x28000D
/-- 2800:0E (R356) -/
abbrev bar2_discarded : Nat := 0x28000E
/-- 2800:10 (R356) -/
abbrev cellar_retrain : Nat := 0x280010
/-- 2800:11 (R356) -/
abbrev wipe_range : Nat := 0x280011
/-- 2800:12 (R356) -/
abbrev rate_select : Nat := 0x280012
/-- 2800:13 (R356) -/
abbrev data_rate : Nat := 0x280013
/-- 2800:14 (R356) -/
abbrev usable_bytes : Nat := 0x280014
/-- 2810:01 (R356) -/
abbrev crate_base : Nat := 0x281001
/-- 2810:02 (R356) -/
abbrev crate_bytes : Nat := 0x281002
/-- 2810:03 (R356) -/
abbrev pool_area_bytes : Nat := 0x281003
/-- 2820+m:01 (R356) -/
abbrev mc_state (m : Nat) : Nat := (0x2820 + m) * 256 + 0x01
/-- 2820+m:02 (R356) -/
abbrev training_fault (m : Nat) : Nat := (0x2820 + m) * 256 + 0x02
/-- 2820+m:03 (R356) -/
abbrev scrub_passes (m : Nat) : Nat := (0x2820 + m) * 256 + 0x03
/-- 2820+m:04 (R356) -/
abbrev corrected_errors (m : Nat) : Nat := (0x2820 + m) * 256 + 0x04
/-- 2820+m:05 (R356) -/
abbrev last_ce_address (m : Nat) : Nat := (0x2820 + m) * 256 + 0x05
/-- 2820+m:06 (R356) -/
abbrev freezes (m : Nat) : Nat := (0x2820 + m) * 256 + 0x06
/-- 2820+m:07 (R356) -/
abbrev blocks_zeroed (m : Nat) : Nat := (0x2820 + m) * 256 + 0x07
/-- 2820+m:08 (R356) -/
abbrev freeze_record (m : Nat) : Nat := (0x2820 + m) * 256 + 0x08
/-- 2820+m:09 (R356) -/
abbrev cellar_resume (m : Nat) : Nat := (0x2820 + m) * 256 + 0x09
/-- 2500:01 (R360) -/
abbrev mac_address : Nat := 0x250001
/-- 2500:02 (R360) -/
abbrev ipv4_address : Nat := 0x250002
/-- 2500:03 (R360) -/
abbrev ipv4_netmask : Nat := 0x250003
/-- 2500:04 (R360) -/
abbrev bridge : Nat := 0x250004
/-- 2500:05 (R360) -/
abbrev broadcast_limit : Nat := 0x250005
/-- 2500:06 (R360) -/
abbrev icmp_echo : Nat := 0x250006
/-- 2510+p:01 (R360) -/
abbrev port_mode (p : Nat) : Nat := (0x2510 + p) * 256 + 0x01
/-- 2510+p:02 (R360) -/
abbrev autoneg (p : Nat) : Nat := (0x2510 + p) * 256 + 0x02
/-- 2510+p:03 (R360) -/
abbrev fp_link_state (p : Nat) : Nat := (0x2510 + p) * 256 + 0x03
/-- 2510+p:04 (R360) -/
abbrev fp_down_reason (p : Nat) : Nat := (0x2510 + p) * 256 + 0x04
/-- 2510+p:05 (R360) -/
abbrev ingress_latency (p : Nat) : Nat := (0x2510 + p) * 256 + 0x05
/-- 2510+p:06 (R360) -/
abbrev egress_latency (p : Nat) : Nat := (0x2510 + p) * 256 + 0x06
/-- 2510+p:07 (R360) -/
abbrev frames_received (p : Nat) : Nat := (0x2510 + p) * 256 + 0x07
/-- 2510+p:08 (R360) -/
abbrev frames_sent (p : Nat) : Nat := (0x2510 + p) * 256 + 0x08
/-- 2510+p:09 (R360) -/
abbrev fp_frames_bad (p : Nat) : Nat := (0x2510 + p) * 256 + 0x09
/-- 2510+p:0A (R360) -/
abbrev frames_forwarded (p : Nat) : Nat := (0x2510 + p) * 256 + 0x0A
/-- 2510+p:0B (R360) -/
abbrev fp_frames_dropped (p : Nat) : Nat := (0x2510 + p) * 256 + 0x0B
/-- 2400:01 (R367) -/
abbrev local_time : Nat := 0x240001
/-- 2400:02 (R367) -/
abbrev compact_time : Nat := 0x240002
/-- 2400:03 (R367) -/
abbrev clock_status : Nat := 0x240003
/-- 2400:04 (R367) -/
abbrev set_time : Nat := 0x240004
/-- 2400:05 (R367) -/
abbrev step_time : Nat := 0x240005
/-- 2400:06 (R367) -/
abbrev step_limit : Nat := 0x240006
/-- 2400:07 (R367) -/
abbrev steps_refused : Nat := 0x240007
/-- 2400:08 (R367) -/
abbrev steps_forced : Nat := 0x240008
/-- 2400:09 (R367) -/
abbrev last_step : Nat := 0x240009
/-- 2400:0A (R367) -/
abbrev frequency_adjust : Nat := 0x24000A
/-- 2400:10 (R367) -/
abbrev ptp_enable : Nat := 0x240010
/-- 2400:11 (R367) -/
abbrev ptp_transport : Nat := 0x240011
/-- 2400:12 (R367) -/
abbrev ptp_domain : Nat := 0x240012
/-- 2400:13 (R367) -/
abbrev priority1 : Nat := 0x240013
/-- 2400:14 (R367) -/
abbrev priority2 : Nat := 0x240014
/-- 2400:15 (R367) -/
abbrev slave_only : Nat := 0x240015
/-- 2400:16 (R367) -/
abbrev log_announce_interval : Nat := 0x240016
/-- 2400:17 (R367) -/
abbrev log_sync_interval : Nat := 0x240017
/-- 2400:18 (R367) -/
abbrev log_delay_req_interval : Nat := 0x240018
/-- 2400:19 (R367) -/
abbrev announce_timeout : Nat := 0x240019
/-- 2400:1A (R367) -/
abbrev ptp_port_state : Nat := 0x24001A
/-- 2400:1B (R367) -/
abbrev ptp_parent_port : Nat := 0x24001B
/-- 2400:1C (R367) -/
abbrev offset_from_master : Nat := 0x24001C
/-- 2400:1D (R367) -/
abbrev mean_path_delay : Nat := 0x24001D
/-- 2400:1E (R367) -/
abbrev grandmaster_identity : Nat := 0x24001E
/-- 2400:1F (R367) -/
abbrev utc_offset : Nat := 0x24001F
/-- 2400:20 (R367) -/
abbrev slew_window : Nat := 0x240020
/-- 2400:21 (R367) -/
abbrev locked_threshold : Nat := 0x240021
/-- 2400:22 (R367) -/
abbrev accept_step : Nat := 0x240022
/-- 2400:23 (R367) -/
abbrev time_stepped : Nat := 0x240023
/-- 2400:24 (R367) -/
abbrev residence_max : Nat := 0x240024
/-- 2410+q:01 (R367) -/
abbrev pulse_mode (q : Nat) : Nat := (0x2410 + q) * 256 + 0x01
/-- 2410+q:02 (R367) -/
abbrev pulse_start (q : Nat) : Nat := (0x2410 + q) * 256 + 0x02
/-- 2410+q:03 (R367) -/
abbrev pulse_period (q : Nat) : Nat := (0x2410 + q) * 256 + 0x03
/-- 2410+q:04 (R367) -/
abbrev pulse_width (q : Nat) : Nat := (0x2410 + q) * 256 + 0x04
/-- 2410+q:05 (R367) -/
abbrev pulse_polarity (q : Nat) : Nat := (0x2410 + q) * 256 + 0x05
/-- 2410+q:06 (R367) -/
abbrev pulse_arm (q : Nat) : Nat := (0x2410 + q) * 256 + 0x06
/-- 2410+q:07 (R367) -/
abbrev pulse_state (q : Nat) : Nat := (0x2410 + q) * 256 + 0x07
/-- 2410+q:08 (R367) -/
abbrev pulses_emitted (q : Nat) : Nat := (0x2410 + q) * 256 + 0x08
/-- 2600:01 (R373) -/
abbrev host_link_state : Nat := 0x260001
/-- 2600:02 (R373) -/
abbrev link_speed : Nat := 0x260002
/-- 2600:03 (R373) -/
abbrev link_width : Nat := 0x260003
/-- 2600:04 (R373) -/
abbrev bar2_size : Nat := 0x260004
/-- 2600:05 (R373) -/
abbrev subsystem_vendor : Nat := 0x260005
/-- 2600:06 (R373) -/
abbrev subsystem_id : Nat := 0x260006
/-- 2600:07 (R373) -/
abbrev doorbell_errors : Nat := 0x260007
/-- 2600:08 (R373) -/
abbrev host_resets : Nat := 0x260008
/-- 2600:09 (R373) -/
abbrev correctable_errors : Nat := 0x260009
/-- 2600:0A (R373) -/
abbrev uncorrectable_errors : Nat := 0x26000A
/-- 2600:0B (R373) -/
abbrev msix_enabled : Nat := 0x26000B
/-- 2600:0C (R373) -/
abbrev max_payload : Nat := 0x26000C
/-- 1900:01 (R388) -/
abbrev bell_window : Nat := 0x190001
/-- 1900:02 (R388) -/
abbrev ring_software : Nat := 0x190002
/-- 1900:03 (R388) -/
abbrev clear_pending : Nat := 0x190003
/-- 1900:04 (R388) -/
abbrev rings_total : Nat := 0x190004
/-- 1900:05 (R388) -/
abbrev order_faults : Nat := 0x190005
/-- 1910:01–1910:80 (R388) -/
abbrev source_config (x : Nat) : Nat := 0x1910 * 256 + 0x01 + x
/-- 1920+t:01 (R388) -/
abbrev claim (t : Nat) : Nat := (0x1920 + t) * 256 + 0x01
/-- 1920+t:02 (R388) -/
abbrev complete (t : Nat) : Nat := (0x1920 + t) * 256 + 0x02
/-- 1920+t:03 (R388) -/
abbrev stack_depth (t : Nat) : Nat := (0x1920 + t) * 256 + 0x03
/-- 1920+t:04 (R388) -/
abbrev stack_top (t : Nat) : Nat := (0x1920 + t) * 256 + 0x04
/-- 1920+t:05 (R388) -/
abbrev reset_target (t : Nat) : Nat := (0x1920 + t) * 256 + 0x05
/-- 2000:01 (R413) -/
abbrev power_state_request : Nat := 0x200001
/-- 2000:02 (R413) -/
abbrev power_state : Nat := 0x200002
/-- 2000:03 (R413) -/
abbrev wake_enable : Nat := 0x200003
/-- 2000:04 (R413) -/
abbrev wake_alarm : Nat := 0x200004
/-- 2000:05 (R413) -/
abbrev wake_counts : Nat := 0x200005
/-- 2000:06 (R413) -/
abbrev wake_cause : Nat := 0x200006
/-- 2000:07 (R413) -/
abbrev print_idle_stop : Nat := 0x200007
/-- 2000:08 (R413) -/
abbrev cellar_stop_time : Nat := 0x200008
/-- 2000:09 (R413) -/
abbrev record_idle_stop : Nat := 0x200009
/-- 2000:0A (R413) -/
abbrev powered_seconds : Nat := 0x20000A
/-- 2000:0B (R413) -/
abbrev sleeps : Nat := 0x20000B
/-- 2000:0C (R413) -/
abbrev power_fail_record : Nat := 0x20000C
/-- 2010:01–0F (R413) -/
abbrev ride_state (x : Nat) : Nat := 0x2010 * 256 + 0x01 + x
/-- 2020:01 (R413) -/
abbrev vcore_run : Nat := 0x202001
/-- 2020:02 (R413) -/
abbrev vcore_standby : Nat := 0x202002
/-- 2020:03 (R413) -/
abbrev vcore_now : Nat := 0x202003
/-- 2020:05 (R413) -/
abbrev pmbus_errors : Nat := 0x202005
/-- 2020:06 (R413) -/
abbrev iout_warn : Nat := 0x202006
/-- 2020:07 (R413) -/
abbrev telemetry_period : Nat := 0x202007
/-- 2030+r:01 (R413) -/
abbrev pmbus_address (r : Nat) : Nat := (0x2030 + r) * 256 + 0x01
/-- 2030+r:02 (R413) -/
abbrev regulator_step (r : Nat) : Nat := (0x2030 + r) * 256 + 0x02
/-- 2030+r:03 (R413) -/
abbrev vout (r : Nat) : Nat := (0x2030 + r) * 256 + 0x03
/-- 2030+r:04 (R413) -/
abbrev iout (r : Nat) : Nat := (0x2030 + r) * 256 + 0x04
/-- 2030+r:05 (R413) -/
abbrev reg_temperature (r : Nat) : Nat := (0x2030 + r) * 256 + 0x05
/-- 2030+r:06 (R413) -/
abbrev status_word (r : Nat) : Nat := (0x2030 + r) * 256 + 0x06
/-- 2100:01 (R414) -/
abbrev ref_selected : Nat := 0x210001
/-- 2100:02 (R414) -/
abbrev ref_preferred : Nat := 0x210002
/-- 2100:03 (R414) -/
abbrev ref_revertive : Nat := 0x210003
/-- 2100:04 (R414) -/
abbrev ref_tolerance : Nat := 0x210004
/-- 2100:05 (R414) -/
abbrev judging_standard : Nat := 0x210005
/-- 2100:06 (R414) -/
abbrev rc_trim : Nat := 0x210006
/-- 2100:07 (R414) -/
abbrev rc_deviation : Nat := 0x210007
/-- 2100:08 (R414) -/
abbrev xtal_deviation : Nat := 0x210008
/-- 2100:09 (R414) -/
abbrev booth_clock : Nat := 0x210009
/-- 2100:0A (R414) -/
abbrev ref_switches : Nat := 0x21000A
/-- 2100:0B (R414) -/
abbrev select_reference : Nat := 0x21000B
/-- 2110+i:01 (R414) -/
abbrev input_state (i : Nat) : Nat := (0x2110 + i) * 256 + 0x01
/-- 2110+i:02 (R414) -/
abbrev deviation (i : Nat) : Nat := (0x2110 + i) * 256 + 0x02
/-- 2110+i:03 (R414) -/
abbrev windows_out (i : Nat) : Nat := (0x2110 + i) * 256 + 0x03
/-- 2110+i:04 (R414) -/
abbrev held_time (i : Nat) : Nat := (0x2110 + i) * 256 + 0x04
/-- 2110+i:05 (R414) -/
abbrev losses (i : Nat) : Nat := (0x2110 + i) * 256 + 0x05
/-- 2120+p:01 (R414) -/
abbrev pll_state (p : Nat) : Nat := (0x2120 + p) * 256 + 0x01
/-- 2200:01 (R432) -/
abbrev reset_controller : Nat := 0x220001
/-- 2200:02 (R432) -/
abbrev reset_cause : Nat := 0x220002
/-- 2200:03 (R432) -/
abbrev resets : Nat := 0x220003
/-- 2200:04 (R432) -/
abbrev startup_time : Nat := 0x220004
/-- 2200:05 (R432) -/
abbrev lifecycle_state : Nat := 0x220005
/-- 2200:06 (R432) -/
abbrev lifecycle_transition : Nat := 0x220006
/-- 2200:07 (R432) -/
abbrev lifecycle_pending : Nat := 0x220007
/-- 2200:08 (R432) -/
abbrev fuse_integrity : Nat := 0x220008
/-- 1200:10 (R433) -/
abbrev attic_state : Nat := 0x120010
/-- 1200:11 (R433) -/
abbrev attic_capacity : Nat := 0x120011
/-- 1200:12 (R433) -/
abbrev attic_id : Nat := 0x120012
/-- 1200:13 (R433) -/
abbrev region_state : Nat := 0x120013
/-- 1200:14 (R433) -/
abbrev attic_records_bad : Nat := 0x120014
/-- 1200:15 (R433) -/
abbrev attic_errors : Nat := 0x120015
/-- 1200:16 (R433) -/
abbrev format_attic : Nat := 0x120016
/-- 1200:17 (R433) -/
abbrev attic_read_rate : Nat := 0x120017
/-- 6A00+a:01 (R455) -/
abbrev axis_enable (a : Nat) : Nat := (0x6A00 + a) * 256 + 0x01
/-- 6A00+a:02 (R455) -/
abbrev axis_state (a : Nat) : Nat := (0x6A00 + a) * 256 + 0x02
/-- 6A00+a:03 (R455) -/
abbrev axis_error (a : Nat) : Nat := (0x6A00 + a) * 256 + 0x03
/-- 6A00+a:04 (R455) -/
abbrev target (a : Nat) : Nat := (0x6A00 + a) * 256 + 0x04
/-- 6A00+a:05 (R455) -/
abbrev stop (a : Nat) : Nat := (0x6A00 + a) * 256 + 0x05
/-- 6A00+a:06 (R455) -/
abbrev home (a : Nat) : Nat := (0x6A00 + a) * 256 + 0x06
/-- 6A00+a:07 (R455) -/
abbrev clear_error (a : Nat) : Nat := (0x6A00 + a) * 256 + 0x07
/-- 6A00+a:08 (R455) -/
abbrev position (a : Nat) : Nat := (0x6A00 + a) * 256 + 0x08
/-- 6A00+a:09 (R455) -/
abbrev speed (a : Nat) : Nat := (0x6A00 + a) * 256 + 0x09
/-- 6A00+a:0A (R455) -/
abbrev homed (a : Nat) : Nat := (0x6A00 + a) * 256 + 0x0A
/-- 6A00+a:0B (R455) -/
abbrev load_angle (a : Nat) : Nat := (0x6A00 + a) * 256 + 0x0B
/-- 6A00+a:0C (R455) -/
abbrev bemf_amplitude (a : Nat) : Nat := (0x6A00 + a) * 256 + 0x0C
/-- 6A00+a:10 (R455) -/
abbrev max_speed (a : Nat) : Nat := (0x6A00 + a) * 256 + 0x10
/-- 6A00+a:11 (R455) -/
abbrev max_accel (a : Nat) : Nat := (0x6A00 + a) * 256 + 0x11
/-- 6A00+a:12 (R455) -/
abbrev max_decel (a : Nat) : Nat := (0x6A00 + a) * 256 + 0x12
/-- 6A00+a:13 (R455) -/
abbrev max_jerk (a : Nat) : Nat := (0x6A00 + a) * 256 + 0x13
/-- 6A00+a:14 (R455) -/
abbrev emergency_decel (a : Nat) : Nat := (0x6A00 + a) * 256 + 0x14
/-- 6A00+a:15 (R455) -/
abbrev position_min (a : Nat) : Nat := (0x6A00 + a) * 256 + 0x15
/-- 6A00+a:16 (R455) -/
abbrev position_max (a : Nat) : Nat := (0x6A00 + a) * 256 + 0x16
/-- 6A00+a:17 (R455) -/
abbrev run_current (a : Nat) : Nat := (0x6A00 + a) * 256 + 0x17
/-- 6A00+a:18 (R455) -/
abbrev hold_current (a : Nat) : Nat := (0x6A00 + a) * 256 + 0x18
/-- 6A00+a:19 (R455) -/
abbrev standstill_mode (a : Nat) : Nat := (0x6A00 + a) * 256 + 0x19
/-- 6A00+a:1A (R455) -/
abbrev standstill_delay (a : Nat) : Nat := (0x6A00 + a) * 256 + 0x1A
/-- 6A00+a:1B (R455) -/
abbrev silent_action (a : Nat) : Nat := (0x6A00 + a) * 256 + 0x1B
/-- 6A00+a:1C (R455) -/
abbrev index_offset (a : Nat) : Nat := (0x6A00 + a) * 256 + 0x1C
/-- 6A00+a:1D (R455) -/
abbrev direction (a : Nat) : Nat := (0x6A00 + a) * 256 + 0x1D
/-- 6A00+a:20 (R455) -/
abbrev lim_negative (a : Nat) : Nat := (0x6A00 + a) * 256 + 0x20
/-- 6A00+a:21 (R455) -/
abbrev lim_positive (a : Nat) : Nat := (0x6A00 + a) * 256 + 0x21
/-- 6A00+a:22 (R455) -/
abbrev home_input (a : Nat) : Nat := (0x6A00 + a) * 256 + 0x22
/-- 6A00+a:23 (R455) -/
abbrev home_mode (a : Nat) : Nat := (0x6A00 + a) * 256 + 0x23
/-- 6A00+a:24 (R455) -/
abbrev home_speed (a : Nat) : Nat := (0x6A00 + a) * 256 + 0x24
/-- 6A00+a:25 (R455) -/
abbrev home_creep (a : Nat) : Nat := (0x6A00 + a) * 256 + 0x25
/-- 6A00+a:26 (R455) -/
abbrev home_travel (a : Nat) : Nat := (0x6A00 + a) * 256 + 0x26
/-- 6A00+a:27 (R455) -/
abbrev home_position (a : Nat) : Nat := (0x6A00 + a) * 256 + 0x27
/-- 6A00+a:28 (R455) -/
abbrev stall_angle (a : Nat) : Nat := (0x6A00 + a) * 256 + 0x28
/-- 6A00+a:29 (R455) -/
abbrev stall_cycles (a : Nat) : Nat := (0x6A00 + a) * 256 + 0x29
/-- 6A00+a:2A (R455) -/
abbrev stall_min_speed (a : Nat) : Nat := (0x6A00 + a) * 256 + 0x2A
/-- 6A00+a:2B (R455) -/
abbrev bemf_min (a : Nat) : Nat := (0x6A00 + a) * 256 + 0x2B
/-- 6A00+a:2C (R455) -/
abbrev ssi_input (a : Nat) : Nat := (0x6A00 + a) * 256 + 0x2C
/-- 6A00+a:2D (R455) -/
abbrev ssi_ratio (a : Nat) : Nat := (0x6A00 + a) * 256 + 0x2D
/-- 6A00+a:2E (R455) -/
abbrev following_limit (a : Nat) : Nat := (0x6A00 + a) * 256 + 0x2E
/-- 6A00+a:2F (R455) -/
abbrev fault_mask (a : Nat) : Nat := (0x6A00 + a) * 256 + 0x2F
/-- 6A00+a:30 (R455) -/
abbrev interlock_bar (a : Nat) : Nat := (0x6A00 + a) * 256 + 0x30
/-- 6A00+a:31 (R455) -/
abbrev bus_errors (a : Nat) : Nat := (0x6A00 + a) * 256 + 0x31
/-- 6A00+a:32 (R455) -/
abbrev stage_flags (a : Nat) : Nat := (0x6A00 + a) * 256 + 0x32
/-- 6A00+a:33 (R455) -/
abbrev stalls (a : Nat) : Nat := (0x6A00 + a) * 256 + 0x33
/-- 6A00+⌊i/2⌋:40/48 (R456) -/
abbrev lim_active_level (i : Nat) : Nat := (0x6A00 + i / 2) * 256 + 0x40 + 8 * (i % 2)
/-- 6A00+⌊i/2⌋:41/49 (R456) -/
abbrev lim_filter (i : Nat) : Nat := (0x6A00 + i / 2) * 256 + 0x41 + 8 * (i % 2)
/-- 6A00+⌊i/2⌋:42/4A (R456) -/
abbrev lim_chatter_count (i : Nat) : Nat := (0x6A00 + i / 2) * 256 + 0x42 + 8 * (i % 2)
/-- 6A00+⌊i/2⌋:43/4B (R456) -/
abbrev lim_chatter_window (i : Nat) : Nat := (0x6A00 + i / 2) * 256 + 0x43 + 8 * (i % 2)
/-- 6A00+⌊i/2⌋:44/4C (R456) -/
abbrev lim_release (i : Nat) : Nat := (0x6A00 + i / 2) * 256 + 0x44 + 8 * (i % 2)
/-- 6A00+⌊i/2⌋:45/4D (R456) -/
abbrev lim_state (i : Nat) : Nat := (0x6A00 + i / 2) * 256 + 0x45 + 8 * (i % 2)
/-- 6A00:50 (R456) -/
abbrev bus_enable : Nat := 0x6A0050
/-- 6A00:51 (R456) -/
abbrev bus_cycles : Nat := 0x6A0051
/-- 6A00:52 (R456) -/
abbrev stage_timeout : Nat := 0x6A0052
/-- 1800:01 (R471) -/
abbrev fault_summary : Nat := 0x180001
/-- 1800:02 (R471) -/
abbrev faults_latched : Nat := 0x180002
/-- 1800:03 (R471) -/
abbrev clear_faults : Nat := 0x180003
/-- 1800:04 (R471) -/
abbrev first_fault : Nat := 0x180004
/-- 1800:05 (R471) -/
abbrev safe_stops : Nat := 0x180005
/-- 1800:06 (R471) -/
abbrev carousel_state : Nat := 0x180006
/-- 1800:07 (R471) -/
abbrev force_kind : Nat := 0x180007
/-- 1800:08–0A (R471) -/
abbrev latched (x : Nat) : Nat := 0x1800 * 256 + 0x08 + x
/-- 1800:0B–0D (R471) -/
abbrev cause_present (x : Nat) : Nat := 0x1800 * 256 + 0x0B + x
/-- 1800:0E–10 (R471) -/
abbrev force (x : Nat) : Nat := 0x1800 * 256 + 0x0E + x
/-- 1800:20 (R471) -/
abbrev temp_limit : Nat := 0x180020
/-- 1800:21 (R471) -/
abbrev temp_warning : Nat := 0x180021
/-- 1800:22 (R471) -/
abbrev die_temp_a : Nat := 0x180022
/-- 1800:23 (R471) -/
abbrev die_temp_b : Nat := 0x180023
/-- 1810:01–1810:C0 (R471) -/
abbrev source_cause (x : Nat) : Nat := 0x1810 * 256 + 0x01 + x
/-- 1811:01–1811:C0 (R471) -/
abbrev source_raises (x : Nat) : Nat := 0x1811 * 256 + 0x01 + x
/-- 6C00:01 (R487) -/
abbrev usage_head : Nat := 0x6C0001
/-- 6C00:02 (R487) -/
abbrev usage_tail : Nat := 0x6C0002
/-- 6C00:03 (R487) -/
abbrev record_window : Nat := 0x6C0003
/-- 6C00:04 (R487) -/
abbrev usage_record : Nat := 0x6C0004
/-- 6C00:05 (R487) -/
abbrev period_length : Nat := 0x6C0005
/-- 6C00:06 (R487) -/
abbrev period_number : Nat := 0x6C0006
/-- 6C00:07 (R487) -/
abbrev period_start : Nat := 0x6C0007
/-- 6C00:08 (R487) -/
abbrev close_period : Nat := 0x6C0008
/-- 6C00:09 (R487) -/
abbrev usage_store_free : Nat := 0x6C0009
/-- 6C00:0A (R487) -/
abbrev store_state : Nat := 0x6C000A
/-- 6C00:0B (R487) -/
abbrev low_water : Nat := 0x6C000B
/-- 6C00:20 (R487) -/
abbrev stage_service_key : Nat := 0x6C0020
/-- 6C00:21 (R487) -/
abbrev service_key_state : Nat := 0x6C0021
/-- 6C00:22 (R487) -/
abbrev service_key_check : Nat := 0x6C0022
/-- 6C00:23 (R487) -/
abbrev set_family_key : Nat := 0x6C0023
/-- 6C00:24 (R487) -/
abbrev clear_family_key : Nat := 0x6C0024
/-- 6C00:25 (R487) -/
abbrev device_key_state : Nat := 0x6C0025
/-- 6C10:01–6C10:08 (R487) -/
abbrev bar_ink (x : Nat) : Nat := 0x6C10 * 256 + 0x01 + x
/-- 6C11:01 (R487) -/
abbrev head_window : Nat := 0x6C1101
/-- 6C11:02–6C11:08 (R487) -/
abbrev head_drops (x : Nat) : Nat := 0x6C11 * 256 + 0x02 + x
/-- 6C11:09 (R487) -/
abbrev head_strobes : Nat := 0x6C1109
/-- 6C12:01 (R487) -/
abbrev slot_window : Nat := 0x6C1201
/-- 6C12:02 (R487) -/
abbrev slot_delivered : Nat := 0x6C1202
/-- 6C12:03 (R487) -/
abbrev slot_not_delivered : Nat := 0x6C1203
/-- 6C40+j:01 (R487) -/
abbrev key_family (j : Nat) : Nat := (0x6C40 + j) * 256 + 0x01
/-- 6C40+j:02 (R487) -/
abbrev family_key_check (j : Nat) : Nat := (0x6C40 + j) * 256 + 0x02

end Sys2Proof.Machine.Obj
end

