-- ==== Sys2Proof/Machine/DictTables.lean ====
section
/-! DEFINITION. The object tables of spec/ as data (R24, R26, R27, R57): for every object its index, subindices, type,
access, write role, persistence, default and range. One page per index base; a row may cover consecutive indices
(one per unit) and consecutive subindices. -/

namespace Sys2Proof.Machine

/-- Index 0x1000 on: 02 R58. -/
def objects1000 : List ObjRow := [
  ⟨0x1000, 1, 0x01, 1, 1, "vendor_name", .str, .ro, 2, false, false, .oct [89, 111, 114, 100, 97, 99, 105, 97, 32, 77, 105, 99, 114, 111, 115, 121, 115, 116, 101, 109, 115], .text 32, ""⟩,
  ⟨0x1000, 1, 0x02, 1, 1, "product_name", .str, .ro, 2, false, false, .oct [83, 112, 97, 105, 114, 114, 105, 107, 32, 80, 66, 67, 45, 57, 52, 53, 48], .text 32, ""⟩,
  ⟨0x1000, 1, 0x03, 1, 1, "stepping", .str, .ro, 2, false, false, .oct [66, 49], .text 4, ""⟩,
  ⟨0x1000, 1, 0x04, 1, 1, "device_id", .u64, .ro, 2, false, false, .num (Config.deviceId % 2 ^ 64), .span 0 18446744073709551615 1, ""⟩,
  ⟨0x1000, 1, 0x05, 1, 1, "dictionary_version", .u32, .ro, 2, false, false, .num 65536, .span 0 4294967295 1, ""⟩,
  ⟨0x1000, 1, 0x06, 1, 1, "ydp_version", .u8, .ro, 2, false, false, .num 1, .span 1 1 1, ""⟩]

/-- Index 0x1001 on: 02 R58. -/
def objects1001 : List ObjRow := [
  ⟨0x1001, 1, 0x01, 1, 1, "max_bars", .u8, .ro, 2, false, false, .num 8, .span 8 8 1, "bars"⟩,
  ⟨0x1001, 1, 0x02, 1, 1, "max_chains", .u8, .ro, 2, false, false, .num 16, .span 16 16 1, "chains"⟩,
  ⟨0x1001, 1, 0x03, 1, 1, "max_heads", .u16, .ro, 2, false, false, .num 256, .span 256 256 1, "heads"⟩,
  ⟨0x1001, 1, 0x04, 1, 1, "max_nozzles", .u32, .ro, 2, false, false, .num 524288, .span 524288 524288 1, "nozzles"⟩,
  ⟨0x1001, 1, 0x05, 1, 1, "max_line_rate", .u32, .ro, 2, false, false, .num 192000, .span 192000 192000 1, "lines/s"⟩,
  ⟨0x1001, 1, 0x06, 1, 1, "link_lanes", .u8, .ro, 2, false, false, .num 32, .span 32 32 1, "lane pai"⟩,
  ⟨0x1001, 1, 0x07, 1, 1, "max_symbol_rate", .u8, .ro, 2, false, false, .num 28, .span 28 28 1, "GBd"⟩,
  ⟨0x1001, 1, 0x08, 1, 1, "image_pipelines", .u8, .ro, 2, false, false, .num 4, .span 4 4 1, "pipeline"⟩,
  ⟨0x1001, 1, 0x09, 1, 1, "max_cellar", .u16, .ro, 2, false, false, .num 64, .span 64 64 1, "GiB"⟩,
  ⟨0x1001, 1, 0x0A, 1, 1, "sram_size", .u32, .ro, 2, false, false, .num 65536, .span 65536 65536 1, "KiB"⟩,
  ⟨0x1001, 1, 0x0B, 1, 1, "job_slots", .u16, .ro, 2, false, false, .num 256, .span 256 256 1, "slots"⟩,
  ⟨0x1001, 1, 0x0C, 1, 1, "submit_ring_entries", .u16, .ro, 2, false, false, .num 4096, .span 4096 4096 1, "entries"⟩]

/-- Index 0x1100 on: 02 R42. -/
def objects1100 : List ObjRow := [
  ⟨0x1100, 1, 0x01, 1, 1, "ydp_udp_port", .u16, .rwStop, 2, true, false, .num 47730, .span 1024 65535 1, ""⟩,
  ⟨0x1100, 1, 0x02, 1, 1, "session_timeout", .u32, .rw, 2, true, false, .num 2000, .span 100 60000 1, "ms"⟩,
  ⟨0x1100, 1, 0x03, 1, 1, "role_ceiling_field", .u8, .rw, 3, true, false, .num 2, .span 1 2 1, "role cod"⟩,
  ⟨0x1100, 1, 0x04, 1, 1, "role_ceiling_mailbox", .u8, .rw, 3, true, false, .num 2, .span 1 2 1, "role cod"⟩,
  ⟨0x1100, 1, 0x05, 1, 1, "controlling_session", .u8, .ro, 2, false, false, .num 0, .span 0 8 1, ""⟩,
  ⟨0x1100, 1, 0x06, 1, 1, "take_control", .u8, .cmd, 1, false, false, .num 0, .span 0 1 1, ""⟩,
  ⟨0x1100, 1, 0x07, 1, 1, "release_control", .u8, .cmd, 1, false, false, .num 0, .span 0 0 1, ""⟩,
  ⟨0x1100, 1, 0x08, 1, 1, "hand_over", .u8, .cmd, 1, false, false, .num 0, .span 1 8 1, "session"⟩,
  ⟨0x1100, 1, 0x09, 1, 1, "frames_dropped", .u32, .ro, 2, false, false, .num 0, .span 0 4294967295 1, "frames"⟩,
  ⟨0x1100, 1, 0x0A, 1, 1, "service_failures", .u8, .ro, 2, false, false, .num 0, .span 0 3 1, ""⟩,
  ⟨0x1100, 1, 0x0B, 1, 1, "service_lockout", .u32, .ro, 2, false, false, .num 0, .span 0 60000 1, "ms"⟩,
  ⟨0x1100, 1, 0x0C, 1, 1, "close_session", .u8, .cmd, 3, false, false, .num 0, .span 1 8 1, "session"⟩]

/-- Index 0x1101 on: 02 R42. -/
def objects1101 : List ObjRow := [
  ⟨0x1101, 8, 0x01, 1, 1, "state", .u8, .ro, 2, false, false, .num 0, .span 0 1 1, ""⟩,
  ⟨0x1101, 8, 0x02, 1, 1, "role", .u8, .ro, 2, false, false, .num 0, .span 0 3 1, "role cod"⟩,
  ⟨0x1101, 8, 0x03, 1, 1, "path", .u8, .ro, 2, false, false, .num 0, .span 0 2 1, ""⟩,
  ⟨0x1101, 8, 0x04, 1, 1, "peer", .octets, .ro, 2, false, false, .oct (List.replicate 6 0), .bytes 6 6, ""⟩,
  ⟨0x1101, 8, 0x05, 1, 1, "idle_time", .u32, .ro, 2, false, false, .num 0, .span 0 60000 1, "ms"⟩,
  ⟨0x1101, 8, 0x06, 1, 1, "events_enable", .bool, .rw, 1, false, false, .num 0, .span 0 1 1, ""⟩,
  ⟨0x1101, 8, 0x07, 1, 1, "events_lost", .u32, .ro, 2, false, false, .num 0, .span 0 4294967295 1, "records"⟩]

/-- Index 0x1200 on: 02 R56, 16 R433. -/
def objects1200 : List ObjRow := [
  ⟨0x1200, 1, 0x01, 1, 1, "save_persistent", .u8, .cmd, 2, false, false, .num 0, .span 0 0 1, ""⟩,
  ⟨0x1200, 1, 0x02, 1, 1, "restore_defaults", .u8, .cmd, 2, false, false, .num 0, .span 0 0 1, ""⟩,
  ⟨0x1200, 1, 0x03, 1, 1, "last_save_time", .time, .ro, 2, false, false, .num 0, .any, ""⟩,
  ⟨0x1200, 1, 0x04, 1, 1, "save_count", .u32, .ro, 2, false, false, .num 0, .span 0 4294967295 1, "saves"⟩,
  ⟨0x1200, 1, 0x05, 1, 1, "unsaved_changes", .bool, .ro, 2, false, false, .num 0, .span 0 1 1, ""⟩,
  ⟨0x1200, 1, 0x10, 1, 1, "attic_state", .u8, .ro, 2, false, false, .num 0, .span 0 4 1, ""⟩,
  ⟨0x1200, 1, 0x11, 1, 1, "attic_capacity", .u16, .ro, 2, false, false, .num 0, .span 0 4096 1, "MiB"⟩,
  ⟨0x1200, 1, 0x12, 1, 1, "attic_id", .octets, .ro, 2, false, false, .oct (List.replicate 3 0), .bytes 3 3, ""⟩,
  ⟨0x1200, 1, 0x13, 1, 1, "region_state", .octets, .ro, 2, false, false, .oct (List.replicate 8 0), .bytes 8 8, ""⟩,
  ⟨0x1200, 1, 0x14, 1, 1, "records_bad", .u32, .ro, 2, false, false, .num 0, .span 0 4294967295 1, "records"⟩,
  ⟨0x1200, 1, 0x15, 1, 1, "attic_errors", .u32, .ro, 2, false, false, .num 0, .span 0 4294967295 1, ""⟩,
  ⟨0x1200, 1, 0x16, 1, 1, "format_attic", .u8, .cmd, 3, false, false, .num 0, .span 0 0 1, ""⟩,
  ⟨0x1200, 1, 0x17, 1, 1, "attic_read_rate", .u16, .ro, 2, false, false, .num 0, .span 0 65535 1, "MB/s"⟩]

/-- Index 0x1800 on: 18 R471. -/
def objects1800 : List ObjRow := [
  ⟨0x1800, 1, 0x01, 1, 1, "fault_summary", .u32, .ro, 2, false, false, .num 0, .span 0 4294967295 1, ""⟩,
  ⟨0x1800, 1, 0x02, 1, 1, "faults_latched", .u16, .ro, 2, false, false, .num 0, .span 0 192 1, "sources"⟩,
  ⟨0x1800, 1, 0x03, 1, 1, "clear_faults", .u16, .cmd, 1, false, false, .num 0, .spanOr 0 191 1 [65535], "source"⟩,
  ⟨0x1800, 1, 0x04, 1, 1, "first_fault", .octets, .ro, 2, false, false, .oct (List.replicate 32 0), .bytes 32 32, ""⟩,
  ⟨0x1800, 1, 0x05, 1, 1, "safe_stops", .u32, .ro, 2, false, false, .num 0, .span 0 4294967295 1, ""⟩,
  ⟨0x1800, 1, 0x06, 1, 1, "carousel_state", .u8, .ro, 2, false, false, .num 0, .span 0 1 1, ""⟩,
  ⟨0x1800, 1, 0x07, 1, 1, "force_kind", .u8, .rw, 3, false, false, .num 0, .span 0 1 1, ""⟩,
  ⟨0x1800, 1, 0x08, 3, 1, "latched", .u64, .ro, 2, false, false, .num 0, .span 0 18446744073709551615 1, ""⟩,
  ⟨0x1800, 1, 0x0B, 3, 1, "cause_present", .u64, .ro, 2, false, false, .num 0, .span 0 18446744073709551615 1, ""⟩,
  ⟨0x1800, 1, 0x0E, 3, 1, "force", .u64, .rw, 3, false, false, .num 0, .span 0 18446744073709551615 1, ""⟩,
  ⟨0x1800, 1, 0x20, 1, 1, "temp_limit", .u16, .rw, 3, true, false, .num 110, .span 100 115 1, "degC"⟩,
  ⟨0x1800, 1, 0x21, 1, 1, "temp_warning", .u16, .rw, 2, true, false, .num 100, .span 80 110 1, "degC"⟩,
  ⟨0x1800, 1, 0x22, 1, 1, "die_temp_a", .i16, .ro, 2, false, false, .num 0, .span (-400) 1500 1, "0.1 degC"⟩,
  ⟨0x1800, 1, 0x23, 1, 1, "die_temp_b", .i16, .ro, 2, false, false, .num 0, .span (-400) 1500 1, "0.1 degC"⟩]

/-- Index 0x1810 on: 18 R471. -/
def objects1810 : List ObjRow := [
  ⟨0x1810, 1, 0x01, 192, 1, "source_cause", .u8, .ro, 2, false, false, .num 0, .span 0 3 1, ""⟩]

/-- Index 0x1811 on: 18 R471. -/
def objects1811 : List ObjRow := [
  ⟨0x1811, 1, 0x01, 192, 1, "source_raises", .u16, .ro, 2, false, false, .num 0, .span 0 65535 1, ""⟩]

/-- Index 0x1900 on: 14 R388. -/
def objects1900 : List ObjRow := [
  ⟨0x1900, 1, 0x01, 1, 1, "bell_window", .u16, .rw, 1, false, false, .num 0, .span 0 896 128, "source"⟩,
  ⟨0x1900, 1, 0x02, 1, 1, "ring_software", .u16, .cmd, 1, false, false, .num 0, .span 0 1023 1, "source"⟩,
  ⟨0x1900, 1, 0x03, 1, 1, "clear_pending", .u16, .cmd, 1, false, false, .num 0, .span 0 1023 1, "source"⟩,
  ⟨0x1900, 1, 0x04, 1, 1, "rings_total", .u64, .ro, 2, false, false, .num 0, .span 0 18446744073709551615 1, "rings"⟩,
  ⟨0x1900, 1, 0x05, 1, 1, "order_faults", .u32, .ro, 2, false, false, .num 0, .span 0 4294967295 1, ""⟩]

/-- Index 0x1910 on: 14 R388. -/
def objects1910 : List ObjRow := [
  ⟨0x1910, 1, 0x01, 128, 1, "source_config", .u32, .rw, 2, true, true, .num 0, .span 0 4294967295 1, ""⟩]

/-- Index 0x1920 on: 14 R388. -/
def objects1920 : List ObjRow := [
  ⟨0x1920, 3, 0x01, 1, 1, "claim", .u32, .ro, 2, false, false, .num 0, .span 0 4294967295 1, ""⟩,
  ⟨0x1920, 3, 0x02, 1, 1, "complete", .u16, .cmd, 1, false, false, .num 0, .span 0 1023 1, "source"⟩,
  ⟨0x1920, 3, 0x03, 1, 1, "stack_depth", .u8, .ro, 2, false, false, .num 0, .span 0 16 1, "entries"⟩,
  ⟨0x1920, 3, 0x04, 1, 1, "stack_top", .u32, .ro, 2, false, false, .num 0, .span 0 4294967295 1, ""⟩,
  ⟨0x1920, 3, 0x05, 1, 1, "reset_target", .u8, .cmd, 3, false, false, .num 0, .span 0 0 1, ""⟩]

/-- Index 0x2000 on: 15 R413. -/
def objects2000 : List ObjRow := [
  ⟨0x2000, 1, 0x01, 1, 1, "power_state_request", .u8, .rw, 1, false, false, .num 1, .span 0 2 1, ""⟩,
  ⟨0x2000, 1, 0x02, 1, 1, "power_state", .u8, .ro, 2, false, false, .num 1, .span 0 3 1, ""⟩,
  ⟨0x2000, 1, 0x03, 1, 1, "wake_enable", .u8, .rw, 2, true, false, .num 7, .span 0 255 1, ""⟩,
  ⟨0x2000, 1, 0x04, 1, 1, "wake_alarm", .time, .rw, 2, false, false, .num 0, .any, ""⟩,
  ⟨0x2000, 1, 0x05, 1, 1, "wake_counts", .u32, .rw, 2, true, false, .num 64, .span 1 65535 1, "counts"⟩,
  ⟨0x2000, 1, 0x06, 1, 1, "wake_cause", .u8, .ro, 2, false, false, .num 0, .span 0 5 1, ""⟩,
  ⟨0x2000, 1, 0x07, 1, 1, "print_idle_stop", .u32, .rw, 2, true, false, .num 1000, .span 0 3600000 1, "ms"⟩,
  ⟨0x2000, 1, 0x08, 1, 1, "cellar_stop_time", .u32, .rw, 2, true, false, .num 10, .span 1 60000 1, "ms"⟩,
  ⟨0x2000, 1, 0x09, 1, 1, "record_idle_stop", .u32, .rw, 2, true, false, .num 10, .span 1 60000 1, "ms"⟩,
  ⟨0x2000, 1, 0x0A, 1, 1, "powered_seconds", .u64, .ro, 2, false, false, .num 0, .span 0 18446744073709551615 1, "s"⟩,
  ⟨0x2000, 1, 0x0B, 1, 1, "sleeps", .u32, .ro, 2, false, false, .num 0, .span 0 4294967295 1, ""⟩,
  ⟨0x2000, 1, 0x0C, 1, 1, "power_fail_record", .octets, .ro, 2, false, false, .oct (List.replicate 16 0), .bytes 16 16, ""⟩]

/-- Index 0x2010 on: 15 R413. -/
def objects2010 : List ObjRow := [
  ⟨0x2010, 1, 0x01, 15, 1, "ride_state", .u8, .ro, 2, false, false, .num 0, .span 0 4 1, ""⟩]

/-- Index 0x2020 on: 15 R413. -/
def objects2020 : List ObjRow := [
  ⟨0x2020, 1, 0x01, 1, 1, "vcore_run", .u16, .rwStop, 2, true, false, .num 750, .span 735 800 1, "mV"⟩,
  ⟨0x2020, 1, 0x02, 1, 1, "vcore_standby", .u16, .rwStop, 2, true, false, .num 700, .span 650 750 1, "mV"⟩,
  ⟨0x2020, 1, 0x03, 1, 1, "vcore_now", .u16, .ro, 2, false, false, .num 0, .span 0 1000 1, "mV"⟩,
  ⟨0x2020, 1, 0x05, 1, 1, "pmbus_errors", .u32, .ro, 2, false, false, .num 0, .span 0 4294967295 1, ""⟩,
  ⟨0x2020, 1, 0x06, 1, 1, "iout_warn", .u32, .rw, 2, true, false, .num 60000, .span 1000 62000 1, "mA"⟩,
  ⟨0x2020, 1, 0x07, 1, 1, "telemetry_period", .u16, .rw, 2, true, false, .num 10, .span 1 1000 1, "ms"⟩]

/-- Index 0x2030 on: 15 R413. -/
def objects2030 : List ObjRow := [
  ⟨0x2030, 8, 0x01, 1, 1, "pmbus_address", .u8, .rwStop, 2, true, false, .num 64, .spanOr 8 119 1 [0], ""⟩,
  ⟨0x2030, 8, 0x02, 1, 1, "regulator_step", .u8, .rwStop, 2, true, false, .num 2, .span 0 8 1, ""⟩,
  ⟨0x2030, 8, 0x03, 1, 1, "vout", .u16, .ro, 2, false, false, .num 0, .span 0 65535 1, "mV"⟩,
  ⟨0x2030, 8, 0x04, 1, 1, "iout", .u32, .ro, 2, false, false, .num 0, .span 0 4294967295 1, "mA"⟩,
  ⟨0x2030, 8, 0x05, 1, 1, "temperature", .i16, .ro, 2, false, false, .num 0, .span (-400) 1500 1, "0.1 degC"⟩,
  ⟨0x2030, 8, 0x06, 1, 1, "status_word", .u16, .ro, 2, false, false, .num 0, .span 0 65535 1, ""⟩]

/-- Index 0x2100 on: 15 R414. -/
def objects2100 : List ObjRow := [
  ⟨0x2100, 1, 0x01, 1, 1, "ref_selected", .u8, .ro, 2, false, false, .num 0, .span 0 2 1, ""⟩,
  ⟨0x2100, 1, 0x02, 1, 1, "ref_preferred", .u8, .rw, 2, true, false, .num 0, .span 0 1 1, ""⟩,
  ⟨0x2100, 1, 0x03, 1, 1, "ref_revertive", .bool, .rw, 2, true, false, .num 1, .span 0 1 1, ""⟩,
  ⟨0x2100, 1, 0x04, 1, 1, "ref_tolerance", .u32, .rw, 2, true, false, .num 100000, .span 10000 300000 1, "0.001 pp"⟩,
  ⟨0x2100, 1, 0x05, 1, 1, "judging_standard", .u8, .ro, 2, false, false, .num 1, .span 0 2 1, ""⟩,
  ⟨0x2100, 1, 0x06, 1, 1, "rc_trim", .u16, .ro, 2, false, false, .num (Config.rcTrim % 1024), .span 0 1023 1, ""⟩,
  ⟨0x2100, 1, 0x07, 1, 1, "rc_deviation", .i32, .ro, 2, false, false, .num 0, .span (-2147483648) 2147483647 1, "0.001 pp"⟩,
  ⟨0x2100, 1, 0x08, 1, 1, "xtal_deviation", .i32, .ro, 2, false, false, .num 0, .span (-2147483648) 2147483647 1, "0.001 pp"⟩,
  ⟨0x2100, 1, 0x09, 1, 1, "booth_clock", .u8, .ro, 2, false, false, .num 0, .span 0 1 1, ""⟩,
  ⟨0x2100, 1, 0x0A, 1, 1, "ref_switches", .u32, .ro, 2, false, false, .num 0, .span 0 4294967295 1, ""⟩,
  ⟨0x2100, 1, 0x0B, 1, 1, "select_reference", .u8, .cmd, 3, false, false, .num 0, .span 0 1 1, ""⟩]

/-- Index 0x2110 on: 15 R414. -/
def objects2110 : List ObjRow := [
  ⟨0x2110, 4, 0x01, 1, 1, "input_state", .u8, .ro, 2, false, false, .num 0, .span 0 5 1, ""⟩,
  ⟨0x2110, 4, 0x02, 1, 1, "deviation", .i32, .ro, 2, false, false, .num 0, .span (-2147483648) 2147483647 1, "0.001 pp"⟩,
  ⟨0x2110, 4, 0x03, 1, 1, "windows_out", .u8, .ro, 2, false, false, .num 0, .span 0 255 1, "windows"⟩,
  ⟨0x2110, 4, 0x04, 1, 1, "held_time", .u32, .ro, 2, false, false, .num 0, .span 0 4294967295 1, "s"⟩,
  ⟨0x2110, 4, 0x05, 1, 1, "losses", .u32, .ro, 2, false, false, .num 0, .span 0 4294967295 1, ""⟩]

/-- Index 0x2120 on: 15 R414. -/
def objects2120 : List ObjRow := [
  ⟨0x2120, 8, 0x01, 1, 1, "pll_state", .u8, .ro, 2, false, false, .num 0, .span 0 3 1, ""⟩]

/-- Index 0x2200 on: 16 R432. -/
def objects2200 : List ObjRow := [
  ⟨0x2200, 1, 0x01, 1, 1, "reset_controller", .u8, .cmd, 2, false, false, .num 0, .span 0 1 1, ""⟩,
  ⟨0x2200, 1, 0x02, 1, 1, "reset_cause", .u8, .ro, 2, false, false, .num 1, .span 1 5 1, ""⟩,
  ⟨0x2200, 1, 0x03, 1, 1, "resets", .u32, .ro, 2, false, false, .num 0, .span 0 4294967295 1, ""⟩,
  ⟨0x2200, 1, 0x04, 1, 1, "startup_time", .u32, .ro, 2, false, false, .num 0, .span 0 4294967295 1, "us"⟩,
  ⟨0x2200, 1, 0x05, 1, 1, "lifecycle_state", .u8, .ro, 2, false, false, .num 0, .span 0 4 1, ""⟩,
  ⟨0x2200, 1, 0x06, 1, 1, "lifecycle_transition", .octets, .cmd, 3, false, false, .num 0, .bytes 8 8, ""⟩,
  ⟨0x2200, 1, 0x07, 1, 1, "lifecycle_pending", .u8, .ro, 2, false, false, .num 255, .spanOr 0 4 1 [255], ""⟩,
  ⟨0x2200, 1, 0x08, 1, 1, "fuse_integrity", .bool, .ro, 2, false, false, .num 1, .span 0 1 1, ""⟩]

/-- Index 0x2400 on: 13 R367. -/
def objects2400 : List ObjRow := [
  ⟨0x2400, 1, 0x01, 1, 1, "local_time", .time, .ro, 2, false, false, .num 0, .any, ""⟩,
  ⟨0x2400, 1, 0x02, 1, 1, "compact_time", .u32, .ro, 2, false, false, .num 0, .span 0 4294967295 1, "ns"⟩,
  ⟨0x2400, 1, 0x03, 1, 1, "clock_status", .u8, .ro, 2, false, false, .num 0, .span 0 5 1, ""⟩,
  ⟨0x2400, 1, 0x04, 1, 1, "set_time", .octets, .cmd, 2, false, false, .num 0, .bytes 12 12, ""⟩,
  ⟨0x2400, 1, 0x05, 1, 1, "step_time", .octets, .cmd, 2, false, false, .num 0, .bytes 12 12, ""⟩,
  ⟨0x2400, 1, 0x06, 1, 1, "step_limit", .u32, .rw, 2, true, false, .num 1000000, .span 1000 1000000000 1, "ns"⟩,
  ⟨0x2400, 1, 0x07, 1, 1, "steps_refused", .u32, .ro, 2, false, false, .num 0, .span 0 4294967295 1, ""⟩,
  ⟨0x2400, 1, 0x08, 1, 1, "steps_forced", .u32, .ro, 2, false, false, .num 0, .span 0 4294967295 1, ""⟩,
  ⟨0x2400, 1, 0x09, 1, 1, "last_step", .octets, .ro, 2, false, false, .oct (List.replicate 24 0), .bytes 24 24, ""⟩,
  ⟨0x2400, 1, 0x0A, 1, 1, "frequency_adjust", .i32, .ro, 2, false, false, .num 0, .span (-500000) 500000 1, "0.001 pp"⟩,
  ⟨0x2400, 1, 0x10, 1, 1, "ptp_enable", .bool, .rw, 2, true, false, .num 0, .span 0 1 1, ""⟩,
  ⟨0x2400, 1, 0x11, 1, 1, "ptp_transport", .u8, .rwStop, 2, true, false, .num 0, .span 0 1 1, ""⟩,
  ⟨0x2400, 1, 0x12, 1, 1, "ptp_domain", .u8, .rwStop, 2, true, false, .num 0, .span 0 127 1, ""⟩,
  ⟨0x2400, 1, 0x13, 1, 1, "priority1", .u8, .rw, 2, true, false, .num 128, .span 0 255 1, ""⟩,
  ⟨0x2400, 1, 0x14, 1, 1, "priority2", .u8, .rw, 2, true, false, .num 128, .span 0 255 1, ""⟩,
  ⟨0x2400, 1, 0x15, 1, 1, "slave_only", .bool, .rw, 2, true, false, .num 1, .span 0 1 1, ""⟩,
  ⟨0x2400, 1, 0x16, 1, 1, "log_announce_interval", .i16, .rw, 2, true, false, .num 1, .span (-3) 4 1, "log2 s"⟩,
  ⟨0x2400, 1, 0x17, 1, 1, "log_sync_interval", .i16, .rw, 2, true, false, .num 0, .span (-7) 1 1, "log2 s"⟩,
  ⟨0x2400, 1, 0x18, 1, 1, "log_delay_req_interval", .i16, .rw, 2, true, false, .num 0, .span (-7) 5 1, "log2 s"⟩,
  ⟨0x2400, 1, 0x19, 1, 1, "announce_timeout", .u8, .rw, 2, true, false, .num 3, .span 2 255 1, "interval"⟩,
  ⟨0x2400, 1, 0x1A, 1, 1, "ptp_port_state", .u8, .ro, 2, false, false, .num 3, .span 0 255 1, ""⟩,
  ⟨0x2400, 1, 0x1B, 1, 1, "ptp_parent_port", .u8, .ro, 2, false, false, .num 255, .span 0 1 1, ""⟩,
  ⟨0x2400, 1, 0x1C, 1, 1, "offset_from_master", .i64, .ro, 2, false, false, .num 0, .span (-9223372036854775808) 9223372036854775807 1, "ns"⟩,
  ⟨0x2400, 1, 0x1D, 1, 1, "mean_path_delay", .i64, .ro, 2, false, false, .num 0, .span (-9223372036854775808) 9223372036854775807 1, "ns"⟩,
  ⟨0x2400, 1, 0x1E, 1, 1, "grandmaster_identity", .octets, .ro, 2, false, false, .oct (List.replicate 8 0), .bytes 8 8, ""⟩,
  ⟨0x2400, 1, 0x1F, 1, 1, "utc_offset", .i16, .ro, 2, false, false, .num 0, .span (-32768) 32767 1, "s"⟩,
  ⟨0x2400, 1, 0x20, 1, 1, "slew_window", .u32, .rw, 2, true, false, .num 100000, .span 1000 1000000000 1, "ns"⟩,
  ⟨0x2400, 1, 0x21, 1, 1, "locked_threshold", .u32, .rw, 2, true, false, .num 1000, .span 10 1000000 1, "ns"⟩,
  ⟨0x2400, 1, 0x22, 1, 1, "accept_step", .u8, .cmd, 2, false, false, .num 0, .span 0 0 1, ""⟩,
  ⟨0x2400, 1, 0x23, 1, 1, "time_stepped", .bool, .ro, 2, false, false, .num 0, .span 0 1 1, ""⟩,
  ⟨0x2400, 1, 0x24, 1, 1, "residence_max", .u32, .ro, 2, false, false, .num 0, .span 0 4294967295 1, "ns"⟩]

/-- Index 0x2410 on: 13 R367. -/
def objects2410 : List ObjRow := [
  ⟨0x2410, 4, 0x01, 1, 1, "pulse_mode", .u8, .rw, 2, true, false, .num 0, .span 0 2 1, ""⟩,
  ⟨0x2410, 4, 0x02, 1, 1, "pulse_start", .time, .rw, 2, false, false, .num 0, .any, ""⟩,
  ⟨0x2410, 4, 0x03, 1, 1, "pulse_period", .u64, .rw, 2, true, false, .num 1000000000, .span 1000 1000000000000 1, "ns"⟩,
  ⟨0x2410, 4, 0x04, 1, 1, "pulse_width", .u32, .rw, 2, true, false, .num 1000, .span 8 999999999 1, "ns"⟩,
  ⟨0x2410, 4, 0x05, 1, 1, "pulse_polarity", .u8, .rw, 2, true, false, .num 0, .span 0 1 1, ""⟩,
  ⟨0x2410, 4, 0x06, 1, 1, "pulse_arm", .u8, .cmd, 2, false, false, .num 0, .span 0 0 1, ""⟩,
  ⟨0x2410, 4, 0x07, 1, 1, "pulse_state", .u8, .ro, 2, false, false, .num 0, .span 0 4 1, ""⟩,
  ⟨0x2410, 4, 0x08, 1, 1, "pulses_emitted", .u64, .ro, 2, false, false, .num 0, .span 0 18446744073709551615 1, ""⟩]

/-- Index 0x2500 on: 13 R360. -/
def objects2500 : List ObjRow := [
  ⟨0x2500, 1, 0x01, 1, 1, "mac_address", .octets, .rwStop, 2, true, false, .oct macDefault, .bytes 6 6, ""⟩,
  ⟨0x2500, 1, 0x02, 1, 1, "ipv4_address", .octets, .rwStop, 2, true, false, .oct [192, 168, 94, 50], .bytes 4 4, ""⟩,
  ⟨0x2500, 1, 0x03, 1, 1, "ipv4_netmask", .octets, .rwStop, 2, true, false, .oct [255, 255, 255, 0], .bytes 4 4, ""⟩,
  ⟨0x2500, 1, 0x04, 1, 1, "bridge", .bool, .rw, 2, true, false, .num 1, .span 0 1 1, ""⟩,
  ⟨0x2500, 1, 0x05, 1, 1, "broadcast_limit", .u32, .rw, 2, true, false, .num 10000, .spanOr 1 1000000 1 [0], "frames/s"⟩,
  ⟨0x2500, 1, 0x06, 1, 1, "icmp_echo", .bool, .rw, 2, true, false, .num 1, .span 0 1 1, ""⟩]

/-- Index 0x2510 on: 13 R360. -/
def objects2510 : List ObjRow := [
  ⟨0x2510, 2, 0x01, 1, 1, "port_mode", .u8, .rwStop, 2, true, false, .num 1, .span 0 2 1, ""⟩,
  ⟨0x2510, 2, 0x02, 1, 1, "autoneg", .bool, .rwStop, 2, true, false, .num 1, .span 0 1 1, ""⟩,
  ⟨0x2510, 2, 0x03, 1, 1, "link_state", .u8, .ro, 2, false, false, .num 0, .span 0 1 1, ""⟩,
  ⟨0x2510, 2, 0x04, 1, 1, "down_reason", .u8, .ro, 2, false, false, .num 1, .span 0 5 1, ""⟩,
  ⟨0x2510, 2, 0x05, 1, 1, "ingress_latency", .u16, .rw, 2, true, false, .num 0, .span 0 2000 1, "ns"⟩,
  ⟨0x2510, 2, 0x06, 1, 1, "egress_latency", .u16, .rw, 2, true, false, .num 0, .span 0 2000 1, "ns"⟩,
  ⟨0x2510, 2, 0x07, 1, 1, "frames_received", .u64, .ro, 2, false, false, .num 0, .span 0 18446744073709551615 1, "frames"⟩,
  ⟨0x2510, 2, 0x08, 1, 1, "frames_sent", .u64, .ro, 2, false, false, .num 0, .span 0 18446744073709551615 1, "frames"⟩,
  ⟨0x2510, 2, 0x09, 1, 1, "frames_bad", .u32, .ro, 2, false, false, .num 0, .span 0 4294967295 1, "frames"⟩,
  ⟨0x2510, 2, 0x0A, 1, 1, "frames_forwarded", .u64, .ro, 2, false, false, .num 0, .span 0 18446744073709551615 1, "frames"⟩,
  ⟨0x2510, 2, 0x0B, 1, 1, "frames_dropped", .u32, .ro, 2, false, false, .num 0, .span 0 4294967295 1, "frames"⟩]

/-- Index 0x2600 on: 13 R373. -/
def objects2600 : List ObjRow := [
  ⟨0x2600, 1, 0x01, 1, 1, "link_state", .u8, .ro, 2, false, false, .num 0, .span 0 2 1, ""⟩,
  ⟨0x2600, 1, 0x02, 1, 1, "link_speed", .u8, .ro, 2, false, false, .num 0, .span 0 0 1, ""⟩,
  ⟨0x2600, 1, 0x03, 1, 1, "link_width", .u8, .ro, 2, false, false, .num 0, .span 0 255 1, "lanes"⟩,
  ⟨0x2600, 1, 0x04, 1, 1, "bar2_size", .u8, .rwStop, 2, true, false, .num 64, .oneOf [8, 16, 32, 64], "GiB"⟩,
  ⟨0x2600, 1, 0x05, 1, 1, "subsystem_vendor", .u16, .rwStop, 3, true, false, .num 7996, .span 0 65535 1, ""⟩,
  ⟨0x2600, 1, 0x06, 1, 1, "subsystem_id", .u16, .rwStop, 3, true, false, .num 0, .span 0 65535 1, ""⟩,
  ⟨0x2600, 1, 0x07, 1, 1, "doorbell_errors", .u32, .ro, 2, false, false, .num 0, .span 0 4294967295 1, "writes"⟩,
  ⟨0x2600, 1, 0x08, 1, 1, "host_resets", .u32, .ro, 2, false, false, .num 0, .span 0 4294967295 1, ""⟩,
  ⟨0x2600, 1, 0x09, 1, 1, "correctable_errors", .u32, .ro, 2, false, false, .num 0, .span 0 4294967295 1, ""⟩,
  ⟨0x2600, 1, 0x0A, 1, 1, "uncorrectable_errors", .u32, .ro, 2, false, false, .num 0, .span 0 4294967295 1, ""⟩,
  ⟨0x2600, 1, 0x0B, 1, 1, "msix_enabled", .bool, .ro, 2, false, false, .num 0, .span 0 1 1, ""⟩,
  ⟨0x2600, 1, 0x0C, 1, 1, "max_payload", .u16, .ro, 2, false, false, .num 128, .span 0 65535 1, "bytes"⟩]

/-- Index 0x2800 on: 12 R356. -/
def objects2800 : List ObjRow := [
  ⟨0x2800, 1, 0x01, 1, 1, "capacity_expected", .u16, .rwStop, 2, true, false, .num 0, .spanOr 8 64 1 [0], "GiB"⟩,
  ⟨0x2800, 1, 0x02, 1, 1, "capacity", .u16, .ro, 2, false, false, .num 0, .spanOr 8 64 1 [0], "GiB"⟩,
  ⟨0x2800, 1, 0x03, 1, 1, "rate_a", .u16, .rwStop, 2, true, false, .num 9600, .rates, "MT/s"⟩,
  ⟨0x2800, 1, 0x04, 1, 1, "rate_b", .u16, .rwStop, 2, true, false, .num 4266, .rates, "MT/s"⟩,
  ⟨0x2800, 1, 0x05, 1, 1, "age_iso", .u32, .rw, 2, true, false, .num 2000, .span 100 100000 1, "ns"⟩,
  ⟨0x2800, 1, 0x06, 1, 1, "age_bulk", .u32, .rw, 2, true, false, .num 20000, .span 1000 1000000 1, "ns"⟩,
  ⟨0x2800, 1, 0x07, 1, 1, "age_background", .u32, .rw, 2, true, false, .num 200000, .span 10000 10000000 1, "ns"⟩,
  ⟨0x2800, 1, 0x08, 1, 1, "panic_lead_1", .u16, .rw, 2, true, false, .num 96, .span 65 176 1, "lines"⟩,
  ⟨0x2800, 1, 0x09, 1, 1, "panic_lead_2", .u16, .rw, 2, true, false, .num 64, .span 33 175 1, "lines"⟩,
  ⟨0x2800, 1, 0x0A, 1, 1, "panic_3_entries", .u32, .ro, 2, false, false, .num 0, .span 0 4294967295 1, ""⟩,
  ⟨0x2800, 1, 0x0B, 1, 1, "oscillator_period", .u16, .rw, 2, true, false, .num 4, .span 1 100 1, "ms"⟩,
  ⟨0x2800, 1, 0x0C, 1, 1, "scrub_period", .u16, .rw, 2, true, false, .num 24, .span 1 168 1, "h"⟩,
  ⟨0x2800, 1, 0x0D, 1, 1, "idle_time", .u32, .rw, 2, true, false, .num 100, .span 10 1000000 1, "us"⟩,
  ⟨0x2800, 1, 0x0E, 1, 1, "bar2_discarded", .u32, .ro, 2, false, false, .num 0, .span 0 4294967295 1, "writes"⟩,
  ⟨0x2800, 1, 0x10, 1, 1, "cellar_retrain", .u8, .cmd, 3, false, false, .num 0, .span 0 0 1, ""⟩,
  ⟨0x2800, 1, 0x11, 1, 1, "wipe_range", .octets, .cmd, 2, false, false, .num 0, .bytes 16 16, ""⟩,
  ⟨0x2800, 1, 0x12, 1, 1, "rate_select", .u8, .rw, 2, true, false, .num 0, .span 0 1 1, ""⟩,
  ⟨0x2800, 1, 0x13, 1, 1, "data_rate", .u16, .ro, 2, false, false, .num 0, .oneOf [0, 2133, 3200, 4266, 5500, 6400, 7500, 8533, 9600], "MT/s"⟩,
  ⟨0x2800, 1, 0x14, 1, 1, "usable_bytes", .u64, .ro, 2, false, false, .num 0, .span 0 66571993088 1, "bytes"⟩]

/-- Index 0x2810 on: 12 R356. -/
def objects2810 : List ObjRow := [
  ⟨0x2810, 1, 0x01, 1, 1, "crate_base", .u64, .rwStop, 2, true, false, .num 0, .span 0 18446744073709551615 4096, "bytes"⟩,
  ⟨0x2810, 1, 0x02, 1, 1, "crate_bytes", .u64, .rwStop, 2, true, false, .num 0, .span 0 18446744073709551615 4096, "bytes"⟩,
  ⟨0x2810, 1, 0x03, 1, 1, "pool_area_bytes", .u64, .rwStop, 2, true, false, .num 0, .span 0 18446744073709551615 1048576, "bytes"⟩]

/-- Index 0x2820 on: 12 R356. -/
def objects2820 : List ObjRow := [
  ⟨0x2820, 2, 0x01, 1, 1, "mc_state", .u8, .ro, 2, false, false, .num 0, .span 0 5 1, ""⟩,
  ⟨0x2820, 2, 0x02, 1, 1, "training_fault", .u8, .ro, 2, false, false, .num 0, .span 0 6 1, ""⟩,
  ⟨0x2820, 2, 0x03, 1, 1, "scrub_passes", .u32, .ro, 2, false, false, .num 0, .span 0 4294967295 1, ""⟩,
  ⟨0x2820, 2, 0x04, 1, 1, "corrected_errors", .u32, .ro, 2, false, false, .num 0, .span 0 4294967295 1, ""⟩,
  ⟨0x2820, 2, 0x05, 1, 1, "last_ce_address", .u64, .ro, 2, false, false, .num 0, .span 0 18446744073709551615 1, "bytes"⟩,
  ⟨0x2820, 2, 0x06, 1, 1, "freezes", .u32, .ro, 2, false, false, .num 0, .span 0 4294967295 1, ""⟩,
  ⟨0x2820, 2, 0x07, 1, 1, "blocks_zeroed", .u32, .ro, 2, false, false, .num 0, .span 0 4294967295 1, "blocks"⟩,
  ⟨0x2820, 2, 0x08, 1, 1, "freeze_record", .octets, .ro, 2, false, false, .oct (List.replicate 40 0), .bytes 40 40, ""⟩,
  ⟨0x2820, 2, 0x09, 1, 1, "cellar_resume", .u8, .cmd, 2, false, false, .num 0, .span 0 0 1, ""⟩]

/-- Index 0x3000 on: 03 R59. -/
def objects3000 : List ObjRow := [
  ⟨0x3000, 1, 0x01, 1, 1, "bar_count", .u8, .rwStop, 2, true, false, .num 1, .span 1 8 1, "bars"⟩,
  ⟨0x3000, 1, 0x02, 1, 1, "column_pitch", .u16, .rwStop, 2, true, false, .num 1200, .oneOf [600, 1200, 2400], "columns/"⟩,
  ⟨0x3000, 1, 0x03, 1, 1, "drive_deceleration", .u32, .rwStop, 2, true, false, .num 2000000, .span 10000 50000000 1, "um/s2"⟩,
  ⟨0x3000, 1, 0x04, 1, 1, "stop_margin", .u32, .rwStop, 2, true, false, .num 15000, .span 0 1000000 1, "um"⟩,
  ⟨0x3000, 1, 0x05, 1, 1, "head_line_rate_max", .u32, .ro, 2, false, false, .num 192000, .span 1 192000 1, "lines/s"⟩,
  ⟨0x3000, 1, 0x06, 1, 1, "cue0_distance", .u32, .rwStop, 2, true, false, .num 0, .span 0 4000000000 1, "nm upstr"⟩,
  ⟨0x3000, 1, 0x07, 1, 1, "cue1_distance", .u32, .rwStop, 2, true, false, .num 0, .span 0 4000000000 1, "nm upstr"⟩,
  ⟨0x3000, 1, 0x08, 1, 1, "cue_polarity", .u8, .rwStop, 2, true, false, .num 0, .span 0 3 1, ""⟩,
  ⟨0x3000, 1, 0x09, 1, 1, "cue_min_width", .u32, .rwStop, 2, true, false, .num 200, .span 1 100000 1, "um"⟩,
  ⟨0x3000, 1, 0x0A, 1, 1, "admission_lead", .u32, .ro, 2, false, false, .num 16384, .span 16384 16384 1, "ticks"⟩]

/-- Index 0x3010 on: 03 R59. -/
def objects3010 : List ObjRow := [
  ⟨0x3010, 8, 0x01, 1, 1, "bar_columns", .u32, .rwStop, 2, true, false, .num 65536, .span 256 65536 256, "columns"⟩,
  ⟨0x3010, 8, 0x02, 1, 1, "bar_offset", .u32, .rwStop, 2, true, false, .num 0, .span 0 4000000000 1, "nm downs"⟩,
  ⟨0x3010, 8, 0x03, 1, 1, "column_offset", .i16, .rw, 2, true, false, .num 0, .span (-1024) 1024 1, "columns"⟩,
  ⟨0x3010, 8, 0x04, 1, 1, "bar_reach", .u32, .ro, 2, false, false, .num 0, .span 0 4294967295 1, "nm downs"⟩]

/-- Index 0x3100 on: 06 R180. -/
def objects3100 : List ObjRow := [
  ⟨0x3100, 1, 0x01, 1, 1, "unauth_policy", .u8, .rw, 2, true, false, .num 0, .span 0 1 1, ""⟩,
  ⟨0x3100, 1, 0x02, 1, 1, "hot_discovery", .bool, .rw, 2, true, false, .num 1, .span 0 1 1, ""⟩,
  ⟨0x3100, 1, 0x03, 1, 1, "heal_hold", .u16, .rw, 2, true, false, .num 1000, .span 10 60000 1, "ms"⟩]

/-- Index 0x3110 on: 06 R180. -/
def objects3110 : List ObjRow := [
  ⟨0x3110, 16, 0x01, 1, 1, "chain_bar", .u8, .rwStop, 2, true, false, .num 255, .spanOr 0 7 1 [255], "bar"⟩,
  ⟨0x3110, 16, 0x02, 1, 1, "chain_mode", .u8, .rwStop, 2, true, false, .num 0, .span 0 1 1, ""⟩,
  ⟨0x3110, 16, 0x03, 1, 1, "primary_lane", .u8, .rwStop, 2, true, false, .num 255, .spanOr 0 31 1 [255], "lane"⟩,
  ⟨0x3110, 16, 0x04, 1, 1, "secondary_lane", .u8, .rwStop, 2, true, false, .num 255, .spanOr 0 31 1 [255], "lane"⟩,
  ⟨0x3110, 16, 0x05, 1, 1, "head_timeout", .u32, .rw, 2, true, false, .num 100, .span 40 10000 1, "us"⟩,
  ⟨0x3110, 16, 0x06, 1, 1, "chain_state", .u8, .ro, 2, false, false, .num 0, .span 0 4 1, ""⟩,
  ⟨0x3110, 16, 0x07, 1, 1, "heads_found", .u8, .ro, 2, false, false, .num 0, .span 0 16 1, "heads"⟩,
  ⟨0x3110, 16, 0x08, 1, 1, "split_after", .u8, .ro, 2, false, false, .num 255, .spanOr 0 14 1 [255], "position"⟩,
  ⟨0x3110, 16, 0x09, 1, 1, "discover_chain", .u8, .cmd, 2, false, false, .num 0, .span 0 0 1, ""⟩,
  ⟨0x3110, 16, 0x0A, 1, 1, "heads_in", .u8, .cmd, 2, false, false, .num 0, .span 0 0 1, ""⟩,
  ⟨0x3110, 16, 0x0B, 1, 1, "frames_bad", .u32, .ro, 2, false, false, .num 0, .span 0 4294967295 1, "frames"⟩,
  ⟨0x3110, 16, 0x0C, 1, 1, "lines_lost", .u32, .ro, 2, false, false, .num 0, .span 0 4294967295 1, "line-gro"⟩,
  ⟨0x3110, 16, 0x0D, 1, 1, "splits", .u32, .ro, 2, false, false, .num 0, .span 0 4294967295 1, ""⟩,
  ⟨0x3110, 16, 0x0E, 1, 1, "heads_excess", .u8, .ro, 2, false, false, .num 0, .span 0 255 1, "heads"⟩]

/-- Index 0x3140 on: 07 R205. -/
def objects3140 : List ObjRow := [
  ⟨0x3140, 32, 0x01, 1, 1, "lane_role", .u8, .rwStop, 2, true, false, .num 0, .span 0 3 1, ""⟩,
  ⟨0x3140, 32, 0x02, 1, 1, "rx_state", .u8, .ro, 2, false, false, .num 0, .span 0 7 1, ""⟩,
  ⟨0x3140, 32, 0x03, 1, 1, "tx_state", .u8, .ro, 2, false, false, .num 0, .span 0 2 1, ""⟩,
  ⟨0x3140, 32, 0x04, 1, 1, "down_reason", .u8, .ro, 2, false, false, .num 0, .span 0 5 1, ""⟩,
  ⟨0x3140, 32, 0x05, 1, 1, "hop_received", .u8, .ro, 2, false, false, .num 255, .span 0 255 1, ""⟩,
  ⟨0x3140, 32, 0x06, 1, 1, "tx_taps", .u32, .ro, 2, false, false, .num 16266492, .span 0 4294967295 1, "1/64"⟩,
  ⟨0x3140, 32, 0x07, 1, 1, "rx_thresholds", .octets, .ro, 2, false, false, .oct (List.replicate 6 0), .bytes 6 6, "0.25 mV"⟩,
  ⟨0x3140, 32, 0x08, 1, 1, "rx_dfe", .u32, .ro, 2, false, false, .num 0, .span 0 4294967295 1, "0.5 mV"⟩,
  ⟨0x3140, 32, 0x09, 1, 1, "groups_received", .u64, .ro, 2, false, false, .num 0, .span 0 18446744073709551615 1, "code gro"⟩,
  ⟨0x3140, 32, 0x0A, 1, 1, "code_errors", .u32, .ro, 2, false, false, .num 0, .span 0 4294967295 1, "code gro"⟩,
  ⟨0x3140, 32, 0x0B, 1, 1, "align_losses", .u32, .ro, 2, false, false, .num 0, .span 0 4294967295 1, ""⟩,
  ⟨0x3140, 32, 0x0C, 1, 1, "los_events", .u32, .ro, 2, false, false, .num 0, .span 0 4294967295 1, ""⟩,
  ⟨0x3140, 32, 0x0D, 1, 1, "lol_events", .u32, .ro, 2, false, false, .num 0, .span 0 4294967295 1, ""⟩,
  ⟨0x3140, 32, 0x0E, 1, 1, "skips_deleted", .u32, .ro, 2, false, false, .num 0, .span 0 4294967295 1, ""⟩,
  ⟨0x3140, 32, 0x0F, 1, 1, "skips_inserted", .u32, .ro, 2, false, false, .num 0, .span 0 4294967295 1, ""⟩,
  ⟨0x3140, 32, 0x10, 1, 1, "elastic_overruns", .u32, .ro, 2, false, false, .num 0, .span 0 4294967295 1, ""⟩,
  ⟨0x3140, 32, 0x11, 1, 1, "train_timeouts", .u32, .ro, 2, false, false, .num 0, .span 0 4294967295 1, ""⟩,
  ⟨0x3140, 32, 0x12, 1, 1, "tx_sleep", .bool, .rw, 2, false, false, .num 0, .span 0 1 1, ""⟩,
  ⟨0x3140, 32, 0x13, 1, 1, "retrain", .u8, .cmd, 2, false, false, .num 0, .span 0 0 1, ""⟩,
  ⟨0x3140, 32, 0x14, 1, 1, "calibrate_slicer", .u8, .cmd, 2, false, false, .num 0, .spanOr 0 31 1 [255], "lane"⟩,
  ⟨0x3140, 32, 0x15, 1, 1, "cal_spare", .u8, .ro, 2, false, false, .num 255, .spanOr 0 31 1 [255], "lane"⟩,
  ⟨0x3140, 32, 0x16, 1, 1, "last_cal_time", .time, .ro, 2, false, false, .num 0, .any, ""⟩,
  ⟨0x3140, 32, 0x17, 1, 1, "clear_counters", .u8, .cmd, 2, false, false, .num 0, .span 0 0 1, ""⟩]

/-- Index 0x3160 on: 07 R206. -/
def objects3160 : List ObjRow := [
  ⟨0x3160, 8, 0x01, 1, 1, "quad_rate", .u16, .rwStop, 2, true, false, .num 160, .span 80 280 5, "0.1 GBd"⟩,
  ⟨0x3160, 8, 0x02, 1, 1, "quad_state", .u8, .ro, 2, false, false, .num 0, .span 0 3 1, ""⟩,
  ⟨0x3160, 8, 0x03, 1, 1, "quad_reference", .u8, .ro, 2, false, false, .num 0, .span 0 1 1, ""⟩,
  ⟨0x3160, 8, 0x04, 1, 1, "lane_net_rate", .u32, .ro, 2, false, false, .num 25600, .span 12800 44800 1, "Mb/s"⟩]

/-- Index 0x3180 on: 06 R180. -/
def objects3180 : List ObjRow := [
  ⟨0x3180, 8, 0x01, 4, 1, "group_distance", .u32, .rwStop, 2, true, false, .num 0, .span 0 1693333 1, "nm downs"⟩]

/-- Index 0x3200 on: 06 R181. -/
def objects3200 : List ObjRow := [
  ⟨0x3200, 256, 0x01, 1, 1, "head_state", .u8, .ro, 2, false, false, .num 0, .span 0 6 1, ""⟩,
  ⟨0x3200, 256, 0x02, 1, 1, "serial", .u64, .ro, 2, false, false, .num 0, .span 0 18446744073709551615 1, ""⟩,
  ⟨0x3200, 256, 0x03, 1, 1, "family", .u16, .ro, 2, false, false, .num 0, .span 0 65535 1, ""⟩,
  ⟨0x3200, 256, 0x04, 1, 1, "capability", .octets, .ro, 2, false, false, .oct (List.replicate 128 0), .bytes 128 128, ""⟩,
  ⟨0x3200, 256, 0x05, 1, 1, "expected_serial", .u64, .rwStop, 2, true, false, .num 0, .spanOr 1 18446744073709551615 1 [0], ""⟩,
  ⟨0x3200, 256, 0x06, 1, 1, "row_groups", .u16, .rwStop, 2, true, false, .num 0, .span 0 65535 1, ""⟩,
  ⟨0x3200, 256, 0x07, 1, 1, "auth_state", .u8, .ro, 2, false, false, .num 0, .span 0 5 1, ""⟩,
  ⟨0x3200, 256, 0x08, 1, 1, "out_reason", .u8, .ro, 2, false, false, .num 0, .span 0 11 1, ""⟩,
  ⟨0x3200, 256, 0x09, 1, 1, "temperature", .i16, .ro, 2, false, false, .num 0, .span (-400) 1500 1, "0.1 degC"⟩,
  ⟨0x3200, 256, 0x0A, 1, 1, "status_flags", .u16, .ro, 2, false, false, .num 8192, .span 0 65535 1, ""⟩,
  ⟨0x3200, 256, 0x0B, 1, 1, "last_fired", .octets, .ro, 2, false, false, .oct (List.replicate 8 255), .bytes 8 8, ""⟩,
  ⟨0x3200, 256, 0x0C, 1, 1, "lines_missing", .u32, .ro, 2, false, false, .num 0, .span 0 4294967295 1, "reports"⟩,
  ⟨0x3200, 256, 0x0D, 1, 1, "usage_record", .octets, .ro, 2, false, false, .oct (List.replicate 112 0), .bytes 112 112, ""⟩,
  ⟨0x3200, 256, 0x0E, 1, 1, "head_in", .u8, .cmd, 2, false, false, .num 0, .span 0 0 1, ""⟩,
  ⟨0x3200, 256, 0x0F, 1, 1, "head_out", .u8, .cmd, 2, false, false, .num 0, .span 0 0 1, ""⟩,
  ⟨0x3200, 256, 0x10, 1, 1, "challenge_usage", .u8, .cmd, 2, false, false, .num 0, .span 0 0 1, ""⟩,
  ⟨0x3200, 256, 0x11, 1, 1, "pending_in", .bool, .ro, 2, false, false, .num 0, .span 0 1 1, ""⟩]

/-- Index 0x3400 on: 05 R141. -/
def objects3400 : List ObjRow := [
  ⟨0x3400, 1, 0x01, 1, 1, "nozzle_window", .u32, .rw, 1, false, false, .num 0, .span 0 524160 128, "nozzle"⟩,
  ⟨0x3400, 1, 0x02, 1, 1, "commit_boundary", .u8, .rw, 2, true, false, .num 0, .span 0 1 1, ""⟩,
  ⟨0x3400, 1, 0x03, 1, 1, "staging_free", .u32, .ro, 2, false, false, .num 262144, .span 0 262144 1, "entries"⟩,
  ⟨0x3400, 1, 0x04, 1, 1, "order_fault", .octets, .ro, 2, false, false, .oct (List.replicate 8 0), .bytes 8 8, ""⟩,
  ⟨0x3400, 1, 0x10, 1, 1, "load_table", .octets, .cmd, 2, false, false, .num 0, .bytes 16 16, ""⟩,
  ⟨0x3400, 1, 0x11, 1, 1, "export_table", .octets, .cmd, 2, false, false, .num 0, .bytes 16 16, ""⟩,
  ⟨0x3400, 1, 0x12, 1, 1, "save_care", .u8, .cmd, 2, false, false, .num 0, .span 0 0 1, ""⟩,
  ⟨0x3400, 1, 0x13, 1, 1, "care_saved_time", .time, .ro, 2, false, false, .num 0, .any, ""⟩,
  ⟨0x3400, 1, 0x14, 1, 1, "care_restored", .bool, .ro, 2, false, false, .num 0, .span 0 1 1, ""⟩]

/-- Index 0x3410 on: 05 R135. -/
def objects3410 : List ObjRow := [
  ⟨0x3410, 8, 0x01, 1, 1, "care_epoch", .u32, .ro, 2, false, false, .num 1, .span 1 4294967295 1, ""⟩,
  ⟨0x3410, 8, 0x02, 1, 1, "pending_commits", .u8, .ro, 2, false, false, .num 0, .span 0 16 1, "commits"⟩,
  ⟨0x3410, 8, 0x03, 1, 1, "neighbour_weights", .u16, .rw, 2, true, false, .num 20528, .span 0 65535 1, "1/256"⟩,
  ⟨0x3410, 8, 0x04, 1, 1, "weak_drop_limit", .u8, .rw, 2, true, false, .num 7, .span 1 7 1, "level"⟩,
  ⟨0x3410, 8, 0x05, 1, 1, "screen_origin", .u16, .rw, 2, true, false, .num 0, .span 0 65535 1, ""⟩,
  ⟨0x3410, 8, 0x06, 1, 1, "uncovered_columns", .u32, .ro, 2, false, false, .num 65536, .span 0 65536 1, "columns"⟩,
  ⟨0x3410, 8, 0x07, 1, 1, "unassigned_columns", .u32, .ro, 2, false, false, .num 65536, .span 0 65536 1, "columns"⟩,
  ⟨0x3410, 8, 0x08, 1, 1, "stand_ins_active", .u32, .ro, 2, false, false, .num 0, .span 0 65536 1, "nozzles"⟩,
  ⟨0x3410, 8, 0x09, 1, 1, "gap_runs", .u16, .ro, 2, false, false, .num 0, .span 0 65535 1, "runs"⟩,
  ⟨0x3410, 8, 0x0A, 1, 1, "first_gap_column", .u32, .ro, 2, false, false, .num 4294967295, .spanOr 0 65535 1 [4294967295], "page col"⟩,
  ⟨0x3410, 8, 0x0B, 1, 1, "pages_gapped", .u32, .ro, 2, false, false, .num 0, .span 0 4294967295 1, "pages"⟩,
  ⟨0x3410, 8, 0x0C, 1, 1, "last_effect_position", .u64, .ro, 2, false, false, .num 0, .span 0 18446744073709551615 1, "ticks"⟩]

/-- Index 0x3500 on: 05 R128. -/
def objects3500 : List ObjRow := [
  ⟨0x3500, 1, 0x01, 128, 1, "nozzle_entry", .u32, .rw, 1, false, true, .num 0, .span 0 4294967295 1, ""⟩]

/-- Index 0x3501 on: 05 R128. -/
def objects3501 : List ObjRow := [
  ⟨0x3501, 1, 0x01, 128, 1, "nozzle_effective", .u32, .ro, 2, false, true, .num 0, .span 0 4294967295 1, ""⟩]

/-- Index 0x4000 on: 05 R120. -/
def objects4000 : List ObjRow := [
  ⟨0x4000, 1, 0x01, 1, 1, "array_load", .octets, .cmd, 2, false, false, .num 0, .bytes 16 16, ""⟩,
  ⟨0x4000, 1, 0x02, 1, 1, "array_clear", .u8, .cmd, 2, false, false, .num 0, .span 0 63 1, "array"⟩,
  ⟨0x4000, 1, 0x03, 1, 1, "curve_clear", .u8, .cmd, 2, false, false, .num 0, .span 0 127 1, "curve"⟩,
  ⟨0x4000, 1, 0x04, 1, 1, "resident_arrays", .octets, .ro, 2, false, false, .oct (List.replicate 10 255), .bytes 10 10, ""⟩,
  ⟨0x4000, 1, 0x05, 1, 1, "library_fault", .octets, .ro, 2, false, false, .oct (List.replicate 8 0), .bytes 8 8, ""⟩]

/-- Index 0x4001 on: 05 R120. -/
def objects4001 : List ObjRow := [
  ⟨0x4001, 1, 0x01, 64, 1, "array_state", .u8, .ro, 2, false, false, .num 0, .span 0 2 1, ""⟩]

/-- Index 0x4002 on: 05 R120. -/
def objects4002 : List ObjRow := [
  ⟨0x4002, 1, 0x01, 128, 1, "tone_curve", .octets, .rw, 2, false, false, .oct (List.replicate 512 0), .bytes 512 512, ""⟩]

/-- Index 0x4003 on: 05 R120. -/
def objects4003 : List ObjRow := [
  ⟨0x4003, 1, 0x01, 128, 1, "curve_state", .u8, .ro, 2, false, false, .num 0, .span 0 2 1, ""⟩]

/-- Index 0x5000 on: 03 R62, 10 R294, 11 R305. -/
def objects5000 : List ObjRow := [
  ⟨0x5000, 256, 0x01, 1, 1, "slot_state", .u8, .ro, 2, false, false, .num 0, .span 0 2 1, ""⟩,
  ⟨0x5000, 256, 0x02, 1, 1, "tickets_outstanding", .u16, .ro, 2, false, false, .num 0, .span 0 4095 1, "tickets"⟩,
  ⟨0x5000, 256, 0x03, 1, 1, "line_pitch", .u16, .rwSeal, 2, false, false, .num 1200, .span 300 2400 1, "lpi"⟩,
  ⟨0x5000, 256, 0x04, 1, 1, "speed_max", .u32, .rwSeal, 2, false, false, .num 1000000, .span 1000 16256000 1, "um/s"⟩,
  ⟨0x5000, 256, 0x05, 1, 1, "bar_mask", .u8, .rwSeal, 2, false, false, .num 0, .span 0 255 1, ""⟩,
  ⟨0x5000, 256, 0x06, 1, 1, "cue_mode", .u8, .rwSeal, 2, false, false, .num 0, .span 0 2 1, ""⟩,
  ⟨0x5000, 256, 0x07, 1, 1, "cue_offset", .i32, .rwSeal, 2, false, false, .num 0, .span (-2147483648) 2147483647 1, "ticks"⟩,
  ⟨0x5000, 256, 0x08, 1, 1, "cue_window", .u32, .rwSeal, 2, false, false, .num 65536, .span 64 2147483648 1, "ticks"⟩,
  ⟨0x5000, 256, 0x09, 1, 1, "verify", .bool, .rwSeal, 2, false, false, .num 0, .span 0 1 1, ""⟩,
  ⟨0x5000, 256, 0x0B, 1, 1, "page_cap", .u32, .ro, 2, false, false, .num 1000000, .span 0 16256000 1, "um/s"⟩,
  ⟨0x5000, 256, 0x0C, 1, 1, "validation", .u16, .ro, 2, false, false, .num 1, .span 0 9 1, ""⟩,
  ⟨0x5000, 256, 0x0D, 1, 1, "seal_hold", .bool, .ro, 2, false, false, .num 0, .span 0 1 1, ""⟩,
  ⟨0x5000, 256, 0x0E, 1, 1, "seal_slot", .u8, .cmd, 1, false, false, .num 0, .span 0 0 1, ""⟩,
  ⟨0x5000, 256, 0x0F, 1, 1, "unseal_slot", .u8, .cmd, 1, false, false, .num 0, .span 0 0 1, ""⟩,
  ⟨0x5000, 256, 0x10, 1, 1, "clear_slot", .u8, .cmd, 2, false, false, .num 0, .span 0 0 1, ""⟩,
  ⟨0x5000, 256, 0x20, 8, 4, "screen", .u8, .rwSeal, 2, false, false, .num 0, .span 0 63 1, "array"⟩,
  ⟨0x5000, 256, 0x21, 8, 4, "tone_curve", .u8, .rwSeal, 2, false, false, .num 0, .span 0 127 1, "curve"⟩,
  ⟨0x5000, 256, 0x22, 8, 4, "drop_volumes", .octets, .rwSeal, 2, false, false, .oct (List.replicate 14 0), .bytes 14 14, "0.01 pL"⟩,
  ⟨0x5000, 256, 0x23, 8, 4, "drop_limit", .u8, .rwSeal, 2, false, false, .num 7, .span 1 7 1, "level"⟩,
  ⟨0x5000, 256, 0x40, 1, 1, "inspect", .bool, .rwSeal, 2, false, false, .num 0, .span 0 1 1, ""⟩,
  ⟨0x5000, 256, 0x41, 1, 1, "appearance_place", .u8, .rwSeal, 2, false, false, .num 255, .spanOr 0 3 1 [255], ""⟩,
  ⟨0x5000, 256, 0x42, 1, 1, "autonomy", .u8, .rwSeal, 2, false, false, .num 0, .span 0 2 1, ""⟩,
  ⟨0x5000, 256, 0x43, 1, 1, "defect_threshold", .u16, .rwSeal, 2, false, false, .num 300, .span 10 10000 1, "0.01 dE0"⟩,
  ⟨0x5000, 256, 0x44, 1, 1, "fail_tiles", .u32, .rwSeal, 2, false, false, .num 0, .span 0 4294967295 1, "tiles"⟩,
  ⟨0x5000, 256, 0x45, 1, 1, "incomplete_tiles", .u32, .rwSeal, 2, false, false, .num 0, .span 0 4294967295 1, "tiles"⟩,
  ⟨0x5000, 256, 0x46, 1, 1, "de_factors", .octets, .rwSeal, 2, false, false, .oct [100, 0, 100, 0, 100, 0], .bytes 6 6, "0.01"⟩,
  ⟨0x5000, 256, 0x47, 1, 1, "density_channel", .octets, .rwSeal, 2, false, false, .oct [1, 1, 1, 1, 1, 1, 1, 1], .bytes 8 8, ""⟩,
  ⟨0x5000, 256, 0x48, 1, 1, "solo_tones", .u16, .rwSeal, 2, false, false, .num 8196, .span 0 65535 1, "contone"⟩,
  ⟨0x5000, 256, 0x49, 1, 1, "evidence_min", .u32, .rwSeal, 2, false, false, .num 4096, .span 256 16777216 1, "samples"⟩,
  ⟨0x5000, 256, 0x4A, 1, 1, "corr_deadband", .u8, .rwSeal, 2, false, false, .num 8, .span 1 100 1, "0.1%"⟩,
  ⟨0x5000, 256, 0x4B, 1, 1, "corr_step", .u8, .rwSeal, 2, false, false, .num 10, .span 1 50 1, "0.1%"⟩,
  ⟨0x5000, 256, 0x4C, 1, 1, "corr_limit", .u8, .rwSeal, 2, false, false, .num 50, .span 1 127 1, "0.1%"⟩,
  ⟨0x5000, 256, 0x4D, 1, 1, "weak_threshold", .u16, .rwSeal, 2, false, false, .num 150, .span 1 1000 1, "0.1%"⟩,
  ⟨0x5000, 256, 0x4E, 1, 1, "dead_threshold", .u16, .rwSeal, 2, false, false, .num 600, .span 1 1000 1, "0.1%"⟩,
  ⟨0x5000, 256, 0x4F, 1, 1, "state_changes_max", .u8, .rwSeal, 2, false, false, .num 4, .span 0 64 1, "per bar "⟩,
  ⟨0x5000, 256, 0x50, 1, 1, "trim_step", .u16, .rwSeal, 2, false, false, .num 16, .span 0 1023 1, "taps"⟩,
  ⟨0x5000, 256, 0x51, 1, 1, "reg_deadband", .u16, .rwSeal, 2, false, false, .num 64, .span 1 65535 1, "1/256 ti"⟩,
  ⟨0x5000, 256, 0x52, 1, 1, "fiducials", .octets, .rwSeal, 2, false, false, .oct [], .entries 256 16, ""⟩,
  ⟨0x5000, 256, 0x53, 1, 1, "defect_records_max", .u16, .rwSeal, 2, false, false, .num 64, .span 0 65535 1, "records"⟩,
  ⟨0x5000, 256, 0x60, 1, 1, "qp_target", .u8, .rwSeal, 2, false, false, .num 30, .span 0 51 1, "QP"⟩,
  ⟨0x5000, 256, 0x61, 1, 1, "qp_max", .u8, .rwSeal, 2, false, false, .num 45, .span 0 51 1, "QP"⟩,
  ⟨0x5000, 256, 0x62, 1, 1, "fire_bars", .u8, .rwSeal, 2, false, false, .num 0, .span 0 255 1, ""⟩,
  ⟨0x5000, 256, 0x63, 1, 1, "fire_pages", .u8, .rwSeal, 2, false, false, .num 0, .span 0 2 1, ""⟩,
  ⟨0x5000, 256, 0x64, 1, 1, "fire_every", .u16, .rwSeal, 2, false, false, .num 1, .span 1 65535 1, "pages"⟩,
  ⟨0x5000, 256, 0x65, 1, 1, "crop_cameras", .u8, .rwSeal, 2, false, false, .num 0, .span 0 15 1, ""⟩,
  ⟨0x5000, 256, 0x66, 1, 1, "crop_width", .u16, .rwSeal, 2, false, false, .num 256, .span 16 4096 16, "strip pi"⟩,
  ⟨0x5000, 256, 0x67, 1, 1, "crop_height", .u16, .rwSeal, 2, false, false, .num 256, .span 16 4096 16, "strip ro"⟩,
  ⟨0x5000, 256, 0x68, 1, 1, "crops_max", .u16, .rwSeal, 2, false, false, .num 16, .span 0 65535 1, "crops pe"⟩]

/-- Index 0x6000 on: 03 R64, 03 R70, 04 R117. -/
def objects6000 : List ObjRow := [
  ⟨0x6000, 1, 0x01, 1, 1, "speed_ceiling", .u32, .ro, 2, false, false, .num 0, .span 0 16256000 1, "um/s"⟩,
  ⟨0x6000, 1, 0x02, 1, 1, "print_position", .u64, .ro, 2, false, false, .num 0, .span 0 18446744073709551615 1, "ticks"⟩,
  ⟨0x6000, 1, 0x03, 1, 1, "horizon_end", .u64, .ro, 2, false, false, .num 0, .span 0 18446744073709551615 1, "ticks"⟩,
  ⟨0x6000, 1, 0x04, 1, 1, "admission_state", .u8, .ro, 2, false, false, .num 0, .span 0 1 1, ""⟩,
  ⟨0x6000, 1, 0x05, 1, 1, "open_admission", .u8, .cmd, 1, false, false, .num 0, .span 0 0 1, ""⟩,
  ⟨0x6000, 1, 0x06, 1, 1, "close_admission", .u8, .cmd, 1, false, false, .num 0, .span 0 0 1, ""⟩,
  ⟨0x6000, 1, 0x07, 1, 1, "refusal_policy", .u8, .rw, 2, true, false, .num 0, .span 0 1 1, ""⟩,
  ⟨0x6000, 1, 0x08, 1, 1, "submit_ring_base", .u64, .rwStop, 2, false, false, .num 0, .span 0 18446744073709551615 4096, "bytes"⟩,
  ⟨0x6000, 1, 0x09, 1, 1, "completion_ring_base", .u64, .rwStop, 2, false, false, .num 0, .span 0 18446744073709551615 4096, "bytes"⟩,
  ⟨0x6000, 1, 0x0A, 1, 1, "submit_head", .u16, .ro, 2, false, false, .num 0, .span 0 8191 1, "index"⟩,
  ⟨0x6000, 1, 0x0B, 1, 1, "submit_tail", .u16, .rw, 1, false, false, .num 0, .span 0 8191 1, "index"⟩,
  ⟨0x6000, 1, 0x0C, 1, 1, "completion_head", .u16, .ro, 2, false, false, .num 0, .span 0 8191 1, "index"⟩,
  ⟨0x6000, 1, 0x0D, 1, 1, "completion_tail", .u16, .rw, 1, false, false, .num 0, .span 0 8191 1, "index"⟩,
  ⟨0x6000, 1, 0x0E, 1, 1, "last_ticket", .u32, .ro, 2, false, false, .num 0, .span 0 4294967295 1, ""⟩,
  ⟨0x6000, 1, 0x0F, 1, 1, "tickets_outstanding", .u16, .ro, 2, false, false, .num 0, .span 0 4095 1, "tickets"⟩,
  ⟨0x6000, 1, 0x10, 1, 1, "wait_reason", .u16, .ro, 2, false, false, .num 0, .oneOf [0, 0x221, 0x222, 0x223, 0x224], ""⟩,
  ⟨0x6000, 1, 0x11, 1, 1, "starved_ticks", .u64, .ro, 2, false, false, .num 0, .span 0 18446744073709551615 1, "ticks"⟩,
  ⟨0x6000, 1, 0x12, 1, 1, "starved", .bool, .ro, 2, false, false, .num 0, .span 0 1 1, ""⟩,
  ⟨0x6000, 1, 0x13, 1, 1, "withdraw_from", .u32, .cmd, 1, false, false, .num 0, .span 1 4294967295 1, "ticket"⟩,
  ⟨0x6000, 1, 0x14, 1, 1, "closed_reason", .u16, .ro, 2, false, false, .num 528, .oneOf [0x210, 0x211, 0x212, 0x213, 0x214, 0x217, 0x330], ""⟩,
  ⟨0x6000, 1, 0x15, 1, 1, "ceiling_binding", .u8, .ro, 2, false, false, .num 3, .span 0 3 1, ""⟩,
  ⟨0x6000, 1, 0x16, 1, 1, "fetch_budget", .u32, .ro, 2, false, false, .num 40000, .span 0 40000 1, "MB/s"⟩,
  ⟨0x6000, 1, 0x20, 1, 1, "engines_print", .u8, .ro, 2, false, false, .num 13, .span 13 20 1, "engines"⟩,
  ⟨0x6000, 1, 0x21, 1, 1, "engines_inspect", .u8, .ro, 2, false, false, .num 4, .span 0 4 1, "engines"⟩,
  ⟨0x6000, 1, 0x22, 1, 1, "engines_check", .u8, .ro, 2, false, false, .num 3, .span 0 3 1, "engines"⟩,
  ⟨0x6000, 1, 0x23, 1, 1, "crate_errors_print", .u32, .ro, 2, false, false, .num 0, .span 0 4294967295 1, "crates"⟩,
  ⟨0x6000, 1, 0x24, 1, 1, "crate_errors_inspect", .u32, .ro, 2, false, false, .num 0, .span 0 4294967295 1, "crates"⟩,
  ⟨0x6000, 1, 0x25, 1, 1, "crate_errors_verify", .u32, .ro, 2, false, false, .num 0, .span 0 4294967295 1, "crates"⟩,
  ⟨0x6000, 1, 0x26, 1, 1, "last_crate_error", .octets, .ro, 2, false, false, .oct (List.replicate 16 0), .bytes 16 16, ""⟩,
  ⟨0x6000, 1, 0x27, 1, 1, "fetch_lead_min", .u16, .ro, 2, false, false, .num 0, .span 0 176 1, "lines"⟩,
  ⟨0x6000, 1, 0x28, 1, 1, "late_lines", .u64, .ro, 2, false, false, .num 0, .span 0 18446744073709551615 1, "lines"⟩,
  ⟨0x6000, 1, 0x29, 1, 1, "verify_backlog", .u64, .ro, 2, false, false, .num 0, .span 0 18446744073709551615 1, "bytes"⟩]

/-- Index 0x6100 on: 08 R235. -/
def objects6100 : List ObjRow := [
  ⟨0x6100, 1, 0x01, 1, 1, "active_ringmaster", .u8, .ro, 2, false, false, .num 0, .span 0 2 1, ""⟩,
  ⟨0x6100, 1, 0x02, 1, 1, "fire_mode", .u8, .rwStop, 2, true, false, .num 0, .span 0 2 1, ""⟩,
  ⟨0x6100, 1, 0x03, 1, 1, "enc0_pitch", .u32, .rwStop, 2, true, false, .num 200000, .span 10000 100000000 1, "pm/count"⟩,
  ⟨0x6100, 1, 0x04, 1, 1, "enc0_direction", .u8, .rwStop, 2, true, false, .num 0, .span 0 1 1, ""⟩,
  ⟨0x6100, 1, 0x05, 1, 1, "enc_filter", .u8, .rwStop, 2, true, false, .num 4, .span 0 16 1, "ns"⟩,
  ⟨0x6100, 1, 0x06, 1, 1, "enc1_mode", .u8, .rwStop, 2, true, false, .num 0, .span 0 1 1, ""⟩,
  ⟨0x6100, 1, 0x07, 1, 1, "enc1_pitch", .u32, .rwStop, 2, true, false, .num 200000, .span 10000 100000000 1, "pm/count"⟩,
  ⟨0x6100, 1, 0x08, 1, 1, "enc1_direction", .u8, .rwStop, 2, true, false, .num 0, .span 0 1 1, ""⟩,
  ⟨0x6100, 1, 0x09, 1, 1, "check_limit", .u32, .rw, 2, true, false, .num 500, .span 1 100000 1, "um"⟩,
  ⟨0x6100, 1, 0x0A, 1, 1, "transition_limit", .u8, .rw, 2, true, false, .num 4, .span 1 255 1, "per 65,5"⟩,
  ⟨0x6100, 1, 0x0B, 1, 1, "index_period", .u32, .rwStop, 2, true, false, .num 0, .spanOr 4 2147483648 1 [0], "counts"⟩,
  ⟨0x6100, 1, 0x0C, 1, 1, "index_tolerance", .u16, .rw, 2, true, false, .num 2, .span 0 1024 1, "counts"⟩,
  ⟨0x6100, 1, 0x0D, 1, 1, "observer_bandwidth", .u32, .rw, 2, true, false, .num 2000, .span 100 20000 1, "Hz"⟩,
  ⟨0x6100, 1, 0x0E, 1, 1, "reverse_tolerance", .u32, .rw, 2, true, false, .num 64, .span 0 65536 1, "ticks"⟩,
  ⟨0x6100, 1, 0x0F, 1, 1, "overspeed_limit", .u32, .rw, 2, true, false, .num 256, .span 1 65536 1, "lines"⟩,
  ⟨0x6100, 1, 0x10, 1, 1, "auto_retake", .bool, .rw, 2, true, false, .num 1, .span 0 1 1, ""⟩,
  ⟨0x6100, 1, 0x11, 1, 1, "preferred_ringmaster", .u8, .rw, 2, true, false, .num 0, .span 0 1 1, ""⟩,
  ⟨0x6100, 1, 0x12, 1, 1, "retake_wait", .u32, .rw, 2, true, false, .num 10, .span 1 10000 1, "ms"⟩,
  ⟨0x6100, 1, 0x13, 1, 1, "validate_position", .u8, .cmd, 1, false, false, .num 0, .span 0 0 1, ""⟩,
  ⟨0x6100, 1, 0x14, 1, 1, "request_switch", .u8, .cmd, 3, false, false, .num 0, .span 0 0 1, ""⟩,
  ⟨0x6100, 1, 0x20, 1, 1, "position_valid", .bool, .ro, 2, false, false, .num 0, .span 0 1 1, ""⟩,
  ⟨0x6100, 1, 0x21, 1, 1, "loss_reason", .u8, .ro, 2, false, false, .num 0, .span 0 4 1, ""⟩,
  ⟨0x6100, 1, 0x22, 1, 1, "web_speed", .i32, .ro, 2, false, false, .num 0, .span (-16256000) 16256000 1, "um/s"⟩,
  ⟨0x6100, 1, 0x23, 1, 1, "web_acceleration", .i32, .ro, 2, false, false, .num 0, .span (-2147483648) 2147483647 1, "um/s2"⟩,
  ⟨0x6100, 1, 0x24, 1, 1, "datum_line_rate", .u32, .ro, 2, false, false, .num 0, .span 0 4294967295 1, "lines/s"⟩,
  ⟨0x6100, 1, 0x25, 1, 1, "enc0_counts", .i64, .ro, 2, false, false, .num 0, .span (-9223372036854775808) 9223372036854775807 1, "counts"⟩,
  ⟨0x6100, 1, 0x26, 1, 1, "enc1_counts", .i64, .ro, 2, false, false, .num 0, .span (-9223372036854775808) 9223372036854775807 1, "counts"⟩,
  ⟨0x6100, 1, 0x27, 1, 1, "impossible_transitions", .u32, .ro, 2, false, false, .num 0, .span 0 4294967295 1, ""⟩,
  ⟨0x6100, 1, 0x28, 1, 1, "index_errors", .u32, .ro, 2, false, false, .num 0, .span 0 4294967295 1, ""⟩,
  ⟨0x6100, 1, 0x29, 1, 1, "check_deviation", .i32, .ro, 2, false, false, .num 0, .span (-2147483648) 2147483647 1, "um"⟩,
  ⟨0x6100, 1, 0x2A, 1, 1, "high_water", .u64, .ro, 2, false, false, .num 0, .span 0 18446744073709551615 1, "ticks"⟩,
  ⟨0x6100, 1, 0x2B, 1, 1, "overspeed_state", .u8, .ro, 2, false, false, .num 0, .span 0 2 1, ""⟩,
  ⟨0x6100, 1, 0x2C, 1, 1, "overspeed_lines", .u64, .ro, 2, false, false, .num 0, .span 0 18446744073709551615 1, "strobe l"⟩,
  ⟨0x6100, 1, 0x2D, 1, 1, "hold_remaining", .u32, .ro, 2, false, false, .num 0, .span 0 65536 1, "lines"⟩,
  ⟨0x6100, 1, 0x2E, 1, 1, "rm_state_a", .u8, .ro, 2, false, false, .num 0, .span 0 3 1, ""⟩,
  ⟨0x6100, 1, 0x2F, 1, 1, "rm_state_b", .u8, .ro, 2, false, false, .num 2, .span 0 3 1, ""⟩,
  ⟨0x6100, 1, 0x30, 1, 1, "rm_clean_a", .u16, .ro, 2, false, false, .num 0, .span 0 1024 1, "checks"⟩,
  ⟨0x6100, 1, 0x31, 1, 1, "rm_clean_b", .u16, .ro, 2, false, false, .num 0, .span 0 1024 1, "checks"⟩,
  ⟨0x6100, 1, 0x32, 1, 1, "rm_fail_cause_a", .u8, .ro, 2, false, false, .num 0, .span 0 5 1, ""⟩,
  ⟨0x6100, 1, 0x33, 1, 1, "rm_fail_cause_b", .u8, .ro, 2, false, false, .num 0, .span 0 5 1, ""⟩,
  ⟨0x6100, 1, 0x34, 1, 1, "switchovers", .u32, .ro, 2, false, false, .num 0, .span 0 4294967295 1, ""⟩,
  ⟨0x6100, 1, 0x35, 1, 1, "switchover_log", .octets, .ro, 2, false, false, .oct (List.replicate 144 0), .bytes 144 144, ""⟩]

/-- Index 0x6120 on: 08 R236. -/
def objects6120 : List ObjRow := [
  ⟨0x6120, 32, 0x01, 1, 1, "tap_trim", .u16, .rw, 2, true, false, .num 0, .span 0 1023 1, "250 ps"⟩,
  ⟨0x6120, 32, 0x02, 1, 1, "pair_spacing", .u32, .ro, 2, false, false, .num 184, .span 184 4294967295 1, "ns"⟩,
  ⟨0x6120, 32, 0x03, 1, 1, "strobes_fired", .u64, .ro, 2, false, false, .num 0, .span 0 18446744073709551615 1, ""⟩,
  ⟨0x6120, 32, 0x04, 1, 1, "lines_omitted", .u64, .ro, 2, false, false, .num 0, .span 0 18446744073709551615 1, "strobe l"⟩,
  ⟨0x6120, 32, 0x05, 1, 1, "lines_withheld", .u32, .ro, 2, false, false, .num 0, .span 0 4294967295 1, "strobe l"⟩,
  ⟨0x6120, 32, 0x06, 1, 1, "last_tag", .u16, .ro, 2, false, false, .num 65535, .spanOr 0 65535 1 [65535], ""⟩]

/-- Index 0x6140 on: 08 R236. -/
def objects6140 : List ObjRow := [
  ⟨0x6140, 4, 0x01, 1, 1, "ssi_bits", .u8, .rwStop, 2, true, false, .num 25, .span 8 32 1, "bits"⟩,
  ⟨0x6140, 4, 0x02, 1, 1, "ssi_clock", .u16, .rwStop, 2, true, false, .num 1000, .span 100 10000 1, "kHz"⟩,
  ⟨0x6140, 4, 0x03, 1, 1, "ssi_code", .u8, .rwStop, 2, true, false, .num 1, .span 0 1 1, ""⟩,
  ⟨0x6140, 4, 0x04, 1, 1, "ssi_period", .u16, .rwStop, 2, true, false, .num 0, .spanOr 20 10000 1 [0], "us"⟩,
  ⟨0x6140, 4, 0x05, 1, 1, "ssi_max_step", .u32, .rw, 2, true, false, .num 0, .spanOr 1 2147483648 1 [0], "counts"⟩,
  ⟨0x6140, 4, 0x06, 1, 1, "ssi_value", .u32, .ro, 2, false, false, .num 0, .span 0 4294967295 1, "counts"⟩,
  ⟨0x6140, 4, 0x07, 1, 1, "ssi_time", .time, .ro, 2, false, false, .num 0, .any, ""⟩,
  ⟨0x6140, 4, 0x08, 1, 1, "ssi_errors", .u32, .ro, 2, false, false, .num 0, .span 0 4294967295 1, ""⟩,
  ⟨0x6140, 4, 0x09, 1, 1, "ssi_state", .u8, .ro, 2, false, false, .num 0, .span 0 2 1, ""⟩]

/-- Index 0x6400 on: 09 R264. -/
def objects6400 : List ObjRow := [
  ⟨0x6400, 1, 0x01, 1, 1, "iso_committed", .u32, .ro, 2, false, false, .num 0, .span 0 16000 1, "MB/s"⟩,
  ⟨0x6400, 1, 0x02, 1, 1, "iso_limit", .u32, .ro, 2, false, false, .num 16000, .span 0 16000 1, "MB/s"⟩]

/-- Index 0x6410 on: 09 R264. -/
def objects6410 : List ObjRow := [
  ⟨0x6410, 4, 0x01, 1, 1, "camera_enable", .bool, .rw, 2, true, false, .num 0, .span 0 1 1, ""⟩,
  ⟨0x6410, 4, 0x02, 1, 1, "camera_state", .u8, .ro, 2, false, false, .num 0, .span 0 4 1, ""⟩,
  ⟨0x6410, 4, 0x03, 1, 1, "camera_lanes", .octets, .rw, 2, true, false, .oct (List.replicate 4 255), .bytes 4 4, ""⟩,
  ⟨0x6410, 4, 0x04, 1, 1, "camera_distance", .u32, .rw, 2, true, false, .num 0, .span 0 4000000000 1, "nm downs"⟩,
  ⟨0x6410, 4, 0x05, 1, 1, "image_pitch_x", .u32, .rw, 2, true, false, .num 84666667, .span 1000000 1000000000 1, "pm"⟩,
  ⟨0x6410, 4, 0x06, 1, 1, "image_pitch_y", .u32, .rw, 2, true, false, .num 84666667, .span 1000000 1000000000 1, "pm"⟩,
  ⟨0x6410, 4, 0x07, 1, 1, "image_origin", .i32, .rw, 2, true, false, .num 0, .span (-16777216) 16777215 1, "1/256 co"⟩,
  ⟨0x6410, 4, 0x09, 1, 1, "reference_row", .u16, .rw, 2, true, false, .num 0, .span 0 255 1, "row"⟩,
  ⟨0x6410, 4, 0x0A, 1, 1, "advance_rows", .u16, .rw, 2, true, false, .num 48, .span 2 252 2, "rows"⟩,
  ⟨0x6410, 4, 0x0B, 1, 1, "design_speed", .u32, .rw, 2, true, false, .num 4064000, .span 1000 16256000 1, "um/s"⟩,
  ⟨0x6410, 4, 0x0C, 1, 1, "exposure_time", .u32, .rw, 2, true, false, .num 4000, .span 100 1000000 1, "ns"⟩,
  ⟨0x6410, 4, 0x0D, 1, 1, "flash_time", .u32, .rw, 2, true, false, .num 4000, .span 0 1000000 1, "ns"⟩,
  ⟨0x6410, 4, 0x0E, 1, 1, "trigger_delay", .u32, .rw, 2, true, false, .num 0, .span 0 100000 1, "ns"⟩,
  ⟨0x6410, 4, 0x0F, 1, 1, "min_exposure_period", .u32, .rw, 2, true, false, .num 100000, .span 1000 1000000000 1, "ns"⟩,
  ⟨0x6410, 4, 0x10, 1, 1, "frame_timeout", .u32, .rw, 2, true, false, .num 10000, .span 100 100000 1, "us"⟩,
  ⟨0x6410, 4, 0x11, 1, 1, "idle_sleep", .u32, .rw, 2, true, false, .num 100, .spanOr 1 60000 1 [0], "ms"⟩,
  ⟨0x6410, 4, 0x12, 1, 1, "cci_transfer", .octets, .cmd, 1, false, false, .num 0, .bytes 40 40, ""⟩,
  ⟨0x6410, 4, 0x13, 1, 1, "cci_result", .octets, .ro, 2, false, false, .oct (List.replicate 36 0), .bytes 36 36, ""⟩,
  ⟨0x6410, 4, 0x14, 1, 1, "exposures", .u32, .ro, 2, false, false, .num 0, .span 0 4294967295 1, ""⟩,
  ⟨0x6410, 4, 0x15, 1, 1, "exposures_late", .u32, .ro, 2, false, false, .num 0, .span 0 4294967295 1, ""⟩,
  ⟨0x6410, 4, 0x16, 1, 1, "frames_discarded", .u32, .ro, 2, false, false, .num 0, .span 0 4294967295 1, ""⟩,
  ⟨0x6410, 4, 0x17, 1, 1, "packets_bad", .u32, .ro, 2, false, false, .num 0, .span 0 4294967295 1, ""⟩,
  ⟨0x6410, 4, 0x18, 1, 1, "rows_missing", .u32, .ro, 2, false, false, .num 0, .span 0 4294967295 1, "rows"⟩,
  ⟨0x6410, 4, 0x19, 1, 1, "last_exposure", .u16, .ro, 2, false, false, .num 0, .span 0 65535 1, ""⟩,
  ⟨0x6410, 4, 0x1A, 1, 1, "stitched_width", .u16, .ro, 2, false, false, .num 0, .span 0 32768 1, "px"⟩,
  ⟨0x6410, 4, 0x1B, 1, 1, "field_first", .u32, .ro, 2, false, false, .num 4294967295, .spanOr 0 65535 1 [4294967295], "column"⟩,
  ⟨0x6410, 4, 0x1C, 1, 1, "field_last", .u32, .ro, 2, false, false, .num 4294967295, .spanOr 0 65535 1 [4294967295], "column"⟩,
  ⟨0x6410, 4, 0x1D, 1, 1, "bridge_status", .octets, .ro, 2, false, false, .oct (List.replicate 16 0), .bytes 16 16, ""⟩,
  ⟨0x6410, 4, 0x1E, 1, 1, "pixel_rate", .u32, .ro, 2, false, false, .num 0, .span 0 3200 1, "Mpx/s"⟩,
  ⟨0x6410, 4, 0x1F, 1, 1, "lost_reason", .u8, .ro, 2, false, false, .num 0, .span 0 4 1, ""⟩]

/-- Index 0x6420 on: 09 R265. -/
def objects6420 : List ObjRow := [
  ⟨0x6420, 16, 0x01, 1, 1, "tile_enable", .bool, .rw, 2, true, false, .num 0, .span 0 1 1, ""⟩,
  ⟨0x6420, 16, 0x02, 1, 1, "data_type", .u8, .rw, 2, true, false, .num 44, .span 42 46 1, ""⟩,
  ⟨0x6420, 16, 0x03, 1, 1, "tile_width", .u16, .rw, 2, true, false, .num 4608, .span 2 8192 2, "px"⟩,
  ⟨0x6420, 16, 0x04, 1, 1, "sensor_rows", .u16, .rw, 2, true, false, .num 64, .span 6 256 2, "rows"⟩,
  ⟨0x6420, 16, 0x05, 1, 1, "sensor_area", .u32, .rw, 2, true, false, .num 0, .span 0 32000000 1, "px"⟩,
  ⟨0x6420, 16, 0x06, 1, 1, "bayer", .u8, .rw, 2, true, false, .num 0, .span 0 4 1, ""⟩,
  ⟨0x6420, 16, 0x07, 1, 1, "tile_x", .u16, .rw, 2, true, false, .num 0, .span 0 32766 2, "column"⟩,
  ⟨0x6420, 16, 0x08, 1, 1, "tile_y", .i16, .rw, 2, true, false, .num 0, .span (-16) 16 2, "rows"⟩,
  ⟨0x6420, 16, 0x09, 1, 1, "seam", .u16, .rw, 2, true, false, .num 0, .span 0 32766 2, "column"⟩,
  ⟨0x6420, 16, 0x0A, 1, 1, "black_level", .octets, .rw, 2, true, false, .oct (List.replicate 8 0), .bytes 8 8, "1/65,536"⟩,
  ⟨0x6420, 16, 0x0B, 1, 1, "defect_list", .octets, .rw, 2, true, false, .oct [], .entries 16384 4, ""⟩,
  ⟨0x6420, 16, 0x0C, 1, 1, "flat_field", .octets, .rw, 2, false, false, .oct flatFieldDefault, .bytes 33280 33280, ""⟩,
  ⟨0x6420, 16, 0x0D, 1, 1, "dynamic_defect", .u16, .rw, 2, true, false, .num 0, .spanOr 1 65535 1 [0], "1/65,536"⟩]

/-- Index 0x6430 on: 09 R266. -/
def objects6430 : List ObjRow := [
  ⟨0x6430, 4, 0x01, 1, 1, "wb_a", .octets, .rw, 2, true, false, .oct whiteBalanceDefault, .bytes 6 6, ""⟩,
  ⟨0x6430, 4, 0x02, 1, 1, "matrix_a", .octets, .rw, 2, true, false, .oct matrixDefault, .bytes 36 36, ""⟩,
  ⟨0x6430, 4, 0x03, 1, 1, "curves_a", .octets, .rw, 2, true, false, .oct curvesDefault, .bytes 24576 24576, ""⟩,
  ⟨0x6430, 4, 0x04, 1, 1, "wb_b", .octets, .rw, 2, true, false, .oct whiteBalanceDefault, .bytes 6 6, ""⟩,
  ⟨0x6430, 4, 0x05, 1, 1, "matrix_b", .octets, .rw, 2, true, false, .oct matrixDefault, .bytes 36 36, ""⟩,
  ⟨0x6430, 4, 0x06, 1, 1, "curves_b", .octets, .rw, 2, true, false, .oct curvesDefault, .bytes 24576 24576, ""⟩,
  ⟨0x6430, 4, 0x07, 1, 1, "xyz_matrix", .octets, .rw, 2, true, false, .oct matrixDefault, .bytes 36 36, ""⟩,
  ⟨0x6430, 4, 0x08, 1, 1, "xyz_table", .octets, .rw, 2, true, false, .oct xyzTableDefault, .bytes 215622 215622, "1/32,768"⟩]

/-- Index 0x6440 on: 09 R267. -/
def objects6440 : List ObjRow := [
  ⟨0x6440, 4, 0x01, 1, 1, "measurement", .u8, .rw, 2, true, false, .num 0, .span 0 2 1, ""⟩,
  ⟨0x6440, 4, 0x02, 1, 1, "record_view", .octets, .rw, 2, true, false, .oct (List.replicate 32 0), .bytes 32 32, ""⟩,
  ⟨0x6440, 4, 0x03, 1, 1, "crop_ring", .octets, .rw, 2, false, false, .oct (List.replicate 24 0), .bytes 24 24, ""⟩,
  ⟨0x6440, 4, 0x04, 1, 1, "monitor_view", .octets, .rw, 2, true, false, .oct (List.replicate 32 0), .bytes 32 32, ""⟩,
  ⟨0x6440, 4, 0x05, 1, 1, "crop_ring_rows", .u32, .ro, 2, false, false, .num 0, .span 0 4294967295 1, "rows"⟩,
  ⟨0x6440, 4, 0x06, 1, 1, "crop_rows_written", .u64, .ro, 2, false, false, .num 0, .span 0 18446744073709551615 1, "rows"⟩,
  ⟨0x6440, 4, 0x07, 1, 1, "monitor_slot", .u8, .ro, 2, false, false, .num 255, .spanOr 0 15 1 [255], ""⟩,
  ⟨0x6440, 4, 0x08, 1, 1, "iso_demand", .u32, .ro, 2, false, false, .num 0, .span 0 16000 1, "MB/s"⟩]

/-- Index 0x6500 on: 10 R296. -/
def objects6500 : List ObjRow := [
  ⟨0x6500, 1, 0x02, 1, 1, "loop_ring_base", .u64, .rwStop, 2, false, false, .num 0, .span 0 18446744073709551615 4096, "bytes"⟩,
  ⟨0x6500, 1, 0x03, 1, 1, "loop_ring_entries", .u32, .rwStop, 2, false, false, .num 4096, .pow2 1024 1048576, "entries"⟩,
  ⟨0x6500, 1, 0x04, 1, 1, "loop_head", .u32, .ro, 2, false, false, .num 0, .span 0 2097151 1, "index"⟩,
  ⟨0x6500, 1, 0x05, 1, 1, "loop_tail", .u32, .rw, 1, false, false, .num 0, .span 0 2097151 1, "index"⟩,
  ⟨0x6500, 1, 0x06, 1, 1, "records_lost", .u32, .ro, 2, false, false, .num 0, .span 0 4294967295 1, "records"⟩,
  ⟨0x6500, 1, 0x07, 1, 1, "discards", .u32, .ro, 2, false, false, .num 0, .span 0 4294967295 1, "entries"⟩,
  ⟨0x6500, 1, 0x08, 1, 1, "samples_stale", .u64, .ro, 2, false, false, .num 0, .span 0 18446744073709551615 1, "samples"⟩,
  ⟨0x6500, 1, 0x09, 1, 1, "residual_window", .u32, .rw, 1, false, false, .num 0, .span 0 524287 128, ""⟩]

/-- Index 0x6501 on: 10 R296. -/
def objects6501 : List ObjRow := [
  ⟨0x6501, 1, 0x01, 1, 1, "appearance_load", .octets, .cmd, 2, false, false, .num 0, .bytes 16 16, ""⟩,
  ⟨0x6501, 1, 0x02, 1, 1, "appearance_clear", .u8, .cmd, 2, false, false, .num 0, .span 0 3 1, "place"⟩,
  ⟨0x6501, 1, 0x03, 1, 1, "appearance_state", .octets, .ro, 2, false, false, .oct (List.replicate 4 0), .bytes 4 4, ""⟩]

/-- Index 0x6510 on: 10 R297. -/
def objects6510 : List ObjRow := [
  ⟨0x6510, 4, 0x01, 1, 1, "align_state", .u8, .ro, 2, false, false, .num 0, .span 0 4 1, ""⟩,
  ⟨0x6510, 4, 0x02, 1, 1, "align_dx", .i32, .ro, 2, false, false, .num 0, .span (-1024) 1024 1, "1/16 px"⟩,
  ⟨0x6510, 4, 0x03, 1, 1, "align_dy", .i32, .ro, 2, false, false, .num 0, .span (-1024) 1024 1, "1/16 px"⟩,
  ⟨0x6510, 4, 0x04, 1, 1, "align_score", .u16, .ro, 2, false, false, .num 0, .span 0 65535 1, "1/65,536"⟩,
  ⟨0x6510, 4, 0x05, 1, 1, "bands_unaligned", .u32, .ro, 2, false, false, .num 0, .span 0 4294967295 1, "bands"⟩,
  ⟨0x6510, 4, 0x06, 1, 1, "tiles_compared", .u64, .ro, 2, false, false, .num 0, .span 0 18446744073709551615 1, "tiles"⟩,
  ⟨0x6510, 4, 0x07, 1, 1, "tiles_excluded", .u64, .ro, 2, false, false, .num 0, .span 0 18446744073709551615 1, "tiles"⟩,
  ⟨0x6510, 4, 0x08, 1, 1, "defect_tiles", .u64, .ro, 2, false, false, .num 0, .span 0 18446744073709551615 1, "tiles"⟩,
  ⟨0x6510, 4, 0x09, 1, 1, "columns_per_pixel", .u32, .ro, 2, false, false, .num 0, .span 0 4294967295 1, "1/256 co"⟩,
  ⟨0x6510, 4, 0x0A, 1, 1, "align_min_score", .u16, .rw, 2, true, false, .num 32768, .span 1 65535 1, "1/65,536"⟩,
  ⟨0x6510, 4, 0x0B, 1, 1, "align_min_contrast", .u16, .rw, 2, true, false, .num 200, .span 0 10000 1, "0.01 L"⟩]

/-- Index 0x6520 on: 10 R297. -/
def objects6520 : List ObjRow := [
  ⟨0x6520, 8, 0x01, 1, 1, "bins_ready", .u32, .ro, 2, false, false, .num 0, .span 0 65536 1, "bins"⟩,
  ⟨0x6520, 8, 0x02, 1, 1, "worst_residual", .i16, .ro, 2, false, false, .num 0, .span (-32767) 32767 1, "0.1%"⟩,
  ⟨0x6520, 8, 0x03, 1, 1, "worst_column", .u32, .ro, 2, false, false, .num 4294967295, .span 0 4294967295 1, "column"⟩,
  ⟨0x6520, 8, 0x04, 1, 1, "cross_error", .i32, .ro, 2, false, false, .num 0, .span (-2147483648) 2147483647 1, "1/256 co"⟩,
  ⟨0x6520, 8, 0x05, 1, 1, "along_error", .octets, .ro, 2, false, false, .oct (List.replicate 16 0), .bytes 16 16, "1/256 ti"⟩,
  ⟨0x6520, 8, 0x06, 1, 1, "actions", .u32, .ro, 2, false, false, .num 0, .span 0 4294967295 1, ""⟩,
  ⟨0x6520, 8, 0x07, 1, 1, "proposals", .u32, .ro, 2, false, false, .num 0, .span 0 4294967295 1, ""⟩,
  ⟨0x6520, 8, 0x08, 1, 1, "registration_discards", .u32, .ro, 2, false, false, .num 0, .span 0 4294967295 1, ""⟩]

/-- Index 0x6530 on: 10 R303. -/
def objects6530 : List ObjRow := [
  ⟨0x6530, 1, 0x01, 1, 1, "cal_flat_field", .octets, .cmd, 2, false, false, .num 0, .bytes 4 4, ""⟩,
  ⟨0x6530, 1, 0x02, 1, 1, "cal_registration", .octets, .cmd, 2, false, false, .num 0, .bytes 4 4, ""⟩,
  ⟨0x6530, 1, 0x03, 1, 1, "cal_wait_limit", .u32, .rw, 2, true, false, .num 60000, .span 1000 3600000 1, "ms"⟩,
  ⟨0x6530, 1, 0x04, 1, 1, "registration_result", .octets, .ro, 2, false, false, .oct (List.replicate 304 0), .bytes 304 304, ""⟩,
  ⟨0x6530, 1, 0x05, 1, 1, "slicer_records", .u32, .ro, 2, false, false, .num 0, .span 0 4294967295 1, ""⟩,
  ⟨0x6530, 1, 0x06, 1, 1, "flat_records", .u16, .ro, 2, false, false, .num 0, .span 0 65535 1, ""⟩,
  ⟨0x6530, 1, 0x07, 1, 1, "registration_record", .bool, .ro, 2, false, false, .num 0, .span 0 1 1, ""⟩,
  ⟨0x6530, 1, 0x08, 1, 1, "records_bad", .u32, .ro, 2, false, false, .num 0, .span 0 4294967295 1, "records"⟩,
  ⟨0x6530, 1, 0x09, 1, 1, "clear_cal_records", .u8, .cmd, 3, false, false, .num 0, .span 0 0 1, ""⟩]

/-- Index 0x6550 on: 10 R296. -/
def objects6550 : List ObjRow := [
  ⟨0x6550, 1, 0x01, 128, 1, "column_residual", .u32, .ro, 2, false, true, .num 2147483648, .span 0 4294967295 1, "0.1%"⟩]

/-- Index 0x6600 on: 11 R331. -/
def objects6600 : List ObjRow := [
  ⟨0x6600, 1, 0x01, 1, 1, "store_base", .u64, .rwStop, 2, false, false, .num 0, .span 0 18446744073709551615 4096, "bytes"⟩,
  ⟨0x6600, 1, 0x02, 1, 1, "store_bytes", .u64, .rwStop, 2, false, false, .num 0, .span 0 68719476736 4096, "bytes"⟩,
  ⟨0x6600, 1, 0x03, 1, 1, "item_ring_base", .u64, .rwStop, 2, false, false, .num 0, .span 0 18446744073709551615 4096, "bytes"⟩,
  ⟨0x6600, 1, 0x04, 1, 1, "item_entries", .u32, .rwStop, 2, false, false, .num 4096, .pow2 1024 65536, "entries"⟩,
  ⟨0x6600, 1, 0x05, 1, 1, "item_head", .u32, .ro, 2, false, false, .num 0, .span 0 131071 1, "index"⟩,
  ⟨0x6600, 1, 0x06, 1, 1, "item_tail", .u32, .rw, 1, false, false, .num 0, .span 0 131071 1, "index"⟩,
  ⟨0x6600, 1, 0x07, 1, 1, "items_dropped", .u32, .ro, 2, false, false, .num 0, .span 0 4294967295 1, "items"⟩,
  ⟨0x6600, 1, 0x08, 1, 1, "store_free", .u64, .ro, 2, false, false, .num 0, .span 0 68719476736 1, "bytes"⟩,
  ⟨0x6600, 1, 0x09, 1, 1, "crates_mismatched", .u32, .ro, 2, false, false, .num 0, .span 0 4294967295 1, "crates"⟩,
  ⟨0x6600, 1, 0x0A, 1, 1, "crates_unchecked", .u32, .ro, 2, false, false, .num 0, .span 0 4294967295 1, "crates"⟩,
  ⟨0x6600, 1, 0x0B, 1, 1, "capture", .octets, .cmd, 1, false, false, .num 0, .bytes 24 24, ""⟩,
  ⟨0x6600, 1, 0x0C, 1, 1, "fire_lines_lost", .u64, .ro, 2, false, false, .num 0, .span 0 18446744073709551615 1, "lines"⟩]

/-- Index 0x6610 on: 11 R330. -/
def objects6610 : List ObjRow := [
  ⟨0x6610, 4, 0x01, 1, 1, "stream_enable", .bool, .rw, 2, true, false, .num 0, .span 0 1 1, ""⟩,
  ⟨0x6610, 4, 0x02, 1, 1, "profile", .u8, .rw, 2, true, false, .num 1, .oneOf [1, 2, 4], ""⟩,
  ⟨0x6610, 4, 0x03, 1, 1, "refs", .u8, .rw, 2, true, false, .num 1, .span 1 4 1, "pictures"⟩,
  ⟨0x6610, 4, 0x04, 1, 1, "idr_period", .u16, .rw, 2, true, false, .num 300, .span 1 65535 1, "pictures"⟩,
  ⟨0x6610, 4, 0x05, 1, 1, "cap", .u32, .rw, 2, true, false, .num 20000, .span 100 240000 1, "kbit/s"⟩,
  ⟨0x6610, 4, 0x06, 1, 1, "idle_qp", .u8, .rw, 2, true, false, .num 40, .span 0 51 1, "QP"⟩,
  ⟨0x6610, 4, 0x07, 1, 1, "out_ring_base", .u64, .rw, 2, true, false, .num 0, .span 0 18446744073709551615 4096, "bytes"⟩,
  ⟨0x6610, 4, 0x08, 1, 1, "index_ring_base", .u64, .rw, 2, true, false, .num 0, .span 0 18446744073709551615 4096, "bytes"⟩,
  ⟨0x6610, 4, 0x09, 1, 1, "index_entries", .u32, .rw, 2, true, false, .num 4096, .pow2 1024 1048576, "entries"⟩,
  ⟨0x6610, 4, 0x0A, 1, 1, "index_head", .u32, .ro, 2, false, false, .num 0, .span 0 2097151 1, "index"⟩,
  ⟨0x6610, 4, 0x0B, 1, 1, "index_tail", .u32, .rw, 1, false, false, .num 0, .span 0 2097151 1, "index"⟩,
  ⟨0x6610, 4, 0x0C, 1, 1, "out_ring_bytes", .u64, .rw, 2, true, false, .num 268435456, .span 1048576 68719476736 4096, "bytes"⟩,
  ⟨0x6610, 4, 0x0D, 1, 1, "level", .u8, .ro, 2, false, false, .num 0, .span 0 0 1, ""⟩,
  ⟨0x6610, 4, 0x0E, 1, 1, "pictures", .u64, .ro, 2, false, false, .num 0, .span 0 18446744073709551615 1, ""⟩,
  ⟨0x6610, 4, 0x0F, 1, 1, "pictures_skipped", .u32, .ro, 2, false, false, .num 0, .span 0 4294967295 1, ""⟩,
  ⟨0x6610, 4, 0x10, 1, 1, "cap_excess_bits", .u64, .ro, 2, false, false, .num 0, .span 0 18446744073709551615 1, "bits"⟩,
  ⟨0x6610, 4, 0x11, 1, 1, "mark_long_term", .u8, .cmd, 2, false, false, .num 0, .span 0 7 1, "place"⟩,
  ⟨0x6610, 4, 0x12, 1, 1, "release_long_term", .u8, .cmd, 2, false, false, .num 0, .span 0 7 1, "place"⟩,
  ⟨0x6610, 4, 0x13, 1, 1, "force_idr", .u8, .cmd, 2, false, false, .num 0, .span 0 0 1, ""⟩,
  ⟨0x6610, 4, 0x14, 1, 1, "iso_commit", .u32, .ro, 2, false, false, .num 0, .span 0 16000 1, "MB/s"⟩,
  ⟨0x6610, 4, 0x15, 1, 1, "pool_bytes", .u64, .ro, 2, false, false, .num 0, .span 0 18446744073709551615 1, "bytes"⟩]

/-- Index 0x6620 on: 11 R330. -/
def objects6620 : List ObjRow := [
  ⟨0x6620, 1, 0x01, 1, 1, "decode", .octets, .cmd, 1, false, false, .num 0, .bytes 32 32, ""⟩,
  ⟨0x6620, 1, 0x02, 1, 1, "decoder_state", .u8, .ro, 2, false, false, .num 0, .span 0 2 1, ""⟩,
  ⟨0x6620, 1, 0x03, 1, 1, "pictures_decoded", .u64, .ro, 2, false, false, .num 0, .span 0 18446744073709551615 1, ""⟩,
  ⟨0x6620, 1, 0x04, 1, 1, "decode_errors", .u32, .ro, 2, false, false, .num 0, .span 0 4294967295 1, ""⟩,
  ⟨0x6620, 1, 0x05, 1, 1, "ctbs_concealed", .u64, .ro, 2, false, false, .num 0, .span 0 18446744073709551615 1, "CTBs"⟩,
  ⟨0x6620, 1, 0x06, 1, 1, "dec_head", .u8, .ro, 2, false, false, .num 0, .span 0 31 1, "index"⟩,
  ⟨0x6620, 1, 0x07, 1, 1, "dec_tail", .u8, .rw, 1, false, false, .num 0, .span 0 31 1, "index"⟩,
  ⟨0x6620, 1, 0x08, 1, 1, "decode_stop", .u8, .cmd, 1, false, false, .num 0, .span 0 0 1, ""⟩]

/-- Index 0x6A00 on: 17 R455, 17 R456. -/
def objects6A00 : List ObjRow := [
  ⟨0x6A00, 8, 0x01, 1, 1, "axis_enable", .bool, .rw, 1, false, false, .num 0, .span 0 1 1, ""⟩,
  ⟨0x6A00, 8, 0x02, 1, 1, "axis_state", .u8, .ro, 2, false, false, .num 0, .span 0 6 1, ""⟩,
  ⟨0x6A00, 8, 0x03, 1, 1, "axis_error", .u8, .ro, 2, false, false, .num 0, .span 0 8 1, ""⟩,
  ⟨0x6A00, 8, 0x04, 1, 1, "target", .i32, .rw, 1, false, false, .num 0, .span (-2147483648) 2147483647 1, "ustep"⟩,
  ⟨0x6A00, 8, 0x05, 1, 1, "stop", .u8, .cmd, 1, false, false, .num 0, .span 0 0 1, ""⟩,
  ⟨0x6A00, 8, 0x06, 1, 1, "home", .u8, .cmd, 1, false, false, .num 0, .span 0 0 1, ""⟩,
  ⟨0x6A00, 8, 0x07, 1, 1, "clear_error", .u8, .cmd, 1, false, false, .num 0, .span 0 0 1, ""⟩,
  ⟨0x6A00, 8, 0x08, 1, 1, "position", .i32, .ro, 2, false, false, .num 0, .span (-2147483648) 2147483647 1, "ustep"⟩,
  ⟨0x6A00, 8, 0x09, 1, 1, "speed", .i32, .ro, 2, false, false, .num 0, .span (-2560000) 2560000 1, "ustep/s"⟩,
  ⟨0x6A00, 8, 0x0A, 1, 1, "homed", .bool, .ro, 2, false, false, .num 0, .span 0 1 1, ""⟩,
  ⟨0x6A00, 8, 0x0B, 1, 1, "load_angle", .i16, .ro, 2, false, false, .num 0, .span (-512) 511 1, "1/1,024 "⟩,
  ⟨0x6A00, 8, 0x0C, 1, 1, "bemf_amplitude", .u16, .ro, 2, false, false, .num 0, .span 0 1023 1, "1/1,023"⟩,
  ⟨0x6A00, 8, 0x10, 1, 1, "max_speed", .u32, .rw, 2, true, false, .num 1024000, .span 1 2560000 1, "ustep/s"⟩,
  ⟨0x6A00, 8, 0x11, 1, 1, "max_accel", .u32, .rw, 2, true, false, .num 10240000, .span 1000 1000000000 1, "ustep/s2"⟩,
  ⟨0x6A00, 8, 0x12, 1, 1, "max_decel", .u32, .rw, 2, true, false, .num 10240000, .span 1000 1000000000 1, "ustep/s2"⟩,
  ⟨0x6A00, 8, 0x13, 1, 1, "max_jerk", .u32, .rw, 2, true, false, .num 1024000000, .span 100000 4000000000 1, "ustep/s3"⟩,
  ⟨0x6A00, 8, 0x14, 1, 1, "emergency_decel", .u32, .rw, 2, true, false, .num 51200000, .span 1000 2000000000 1, "ustep/s2"⟩,
  ⟨0x6A00, 8, 0x15, 1, 1, "position_min", .i32, .rw, 2, true, false, .num (-2147483648), .span (-2147483648) 2147483647 1, "ustep"⟩,
  ⟨0x6A00, 8, 0x16, 1, 1, "position_max", .i32, .rw, 2, true, false, .num 2147483647, .span (-2147483648) 2147483647 1, "ustep"⟩,
  ⟨0x6A00, 8, 0x17, 1, 1, "run_current", .u8, .rw, 2, true, false, .num 200, .span 0 255 1, "1/255"⟩,
  ⟨0x6A00, 8, 0x18, 1, 1, "hold_current", .u8, .rw, 2, true, false, .num 80, .span 0 255 1, "1/255"⟩,
  ⟨0x6A00, 8, 0x19, 1, 1, "standstill_mode", .u8, .rw, 2, true, false, .num 0, .span 0 2 1, ""⟩,
  ⟨0x6A00, 8, 0x1A, 1, 1, "standstill_delay", .u16, .rw, 2, true, false, .num 500, .span 0 60000 1, "ms"⟩,
  ⟨0x6A00, 8, 0x1B, 1, 1, "silent_action", .u8, .rw, 2, true, false, .num 1, .span 0 2 1, ""⟩,
  ⟨0x6A00, 8, 0x1C, 1, 1, "index_offset", .u16, .rw, 2, true, false, .num 0, .span 0 1023 1, "ustep"⟩,
  ⟨0x6A00, 8, 0x1D, 1, 1, "direction", .u8, .rw, 2, true, false, .num 0, .span 0 1 1, ""⟩,
  ⟨0x6A00, 8, 0x20, 1, 1, "lim_negative", .u8, .rw, 2, true, false, .num 255, .spanOr 0 15 1 [255], "input"⟩,
  ⟨0x6A00, 8, 0x21, 1, 1, "lim_positive", .u8, .rw, 2, true, false, .num 255, .spanOr 0 15 1 [255], "input"⟩,
  ⟨0x6A00, 8, 0x22, 1, 1, "home_input", .u8, .rw, 2, true, false, .num 255, .spanOr 0 15 1 [255], "input"⟩,
  ⟨0x6A00, 8, 0x23, 1, 1, "home_mode", .u8, .rw, 2, true, false, .num 0, .span 0 5 1, ""⟩,
  ⟨0x6A00, 8, 0x24, 1, 1, "home_speed", .u32, .rw, 2, true, false, .num 102400, .span 1 2560000 1, "ustep/s"⟩,
  ⟨0x6A00, 8, 0x25, 1, 1, "home_creep", .u32, .rw, 2, true, false, .num 5120, .span 1 256000 1, "ustep/s"⟩,
  ⟨0x6A00, 8, 0x26, 1, 1, "home_travel", .u32, .rw, 2, true, false, .num 10000000, .span 256 2147483647 1, "ustep"⟩,
  ⟨0x6A00, 8, 0x27, 1, 1, "home_position", .i32, .rw, 2, true, false, .num 0, .span (-2147483648) 2147483647 1, "ustep"⟩,
  ⟨0x6A00, 8, 0x28, 1, 1, "stall_angle", .u16, .rw, 2, true, false, .num 230, .span 64 511 1, "1/1,024 "⟩,
  ⟨0x6A00, 8, 0x29, 1, 1, "stall_cycles", .u16, .rw, 2, true, false, .num 8, .span 1 1000 1, "cycles"⟩,
  ⟨0x6A00, 8, 0x2A, 1, 1, "stall_min_speed", .u32, .rw, 2, true, false, .num 128000, .span 1 2560000 1, "ustep/s"⟩,
  ⟨0x6A00, 8, 0x2B, 1, 1, "bemf_min", .u16, .rw, 2, true, false, .num 40, .span 1 1023 1, "1/1,023"⟩,
  ⟨0x6A00, 8, 0x2C, 1, 1, "ssi_input", .u8, .rw, 2, true, false, .num 255, .spanOr 0 3 1 [255], "input"⟩,
  ⟨0x6A00, 8, 0x2D, 1, 1, "ssi_ratio", .q16, .rw, 2, true, false, .num 65536, .span (-2147483648) 2147483647 1, "ustep/co"⟩,
  ⟨0x6A00, 8, 0x2E, 1, 1, "following_limit", .u32, .rw, 2, true, false, .num 1024, .span 1 2147483647 1, "ustep"⟩,
  ⟨0x6A00, 8, 0x2F, 1, 1, "fault_mask", .u8, .rw, 2, true, false, .num 0, .span 0 255 1, ""⟩,
  ⟨0x6A00, 8, 0x30, 1, 1, "interlock_bar", .u8, .rw, 2, true, false, .num 255, .spanOr 0 7 1 [255], "bar"⟩,
  ⟨0x6A00, 8, 0x31, 1, 1, "bus_errors", .u32, .ro, 2, false, false, .num 0, .span 0 4294967295 1, "replies"⟩,
  ⟨0x6A00, 8, 0x32, 1, 1, "stage_flags", .u8, .ro, 2, false, false, .num 0, .span 0 255 1, ""⟩,
  ⟨0x6A00, 8, 0x33, 1, 1, "stalls", .u32, .ro, 2, false, false, .num 0, .span 0 4294967295 1, ""⟩,
  ⟨0x6A00, 8, 0x40, 2, 8, "lim_active_level", .u8, .rw, 2, true, false, .num 1, .span 0 1 1, ""⟩,
  ⟨0x6A00, 8, 0x41, 2, 8, "lim_filter", .u16, .rw, 2, true, false, .num 2000, .span 1 65535 1, "us"⟩,
  ⟨0x6A00, 8, 0x42, 2, 8, "lim_chatter_count", .u8, .rw, 2, true, false, .num 4, .spanOr 2 255 1 [0], "edges"⟩,
  ⟨0x6A00, 8, 0x43, 2, 8, "lim_chatter_window", .u16, .rw, 2, true, false, .num 50, .span 1 10000 1, "ms"⟩,
  ⟨0x6A00, 8, 0x44, 2, 8, "lim_release", .u16, .rw, 2, true, false, .num 20, .span 1 10000 1, "ms"⟩,
  ⟨0x6A00, 8, 0x45, 2, 8, "lim_state", .u8, .ro, 2, false, false, .num 0, .span 0 2 1, ""⟩,
  ⟨0x6A00, 1, 0x50, 1, 1, "bus_enable", .bool, .rw, 2, true, false, .num 1, .span 0 1 1, ""⟩,
  ⟨0x6A00, 1, 0x51, 1, 1, "bus_cycles", .u64, .ro, 2, false, false, .num 0, .span 0 18446744073709551615 1, "cycles"⟩,
  ⟨0x6A00, 1, 0x52, 1, 1, "stage_timeout", .u8, .rw, 2, true, false, .num 4, .span 2 20 1, "cycles"⟩]

/-- Index 0x6C00 on: 19 R487. -/
def objects6C00 : List ObjRow := [
  ⟨0x6C00, 1, 0x01, 1, 1, "usage_head", .u32, .ro, 2, false, false, .num 1, .span 1 4294967295 1, "sequence"⟩,
  ⟨0x6C00, 1, 0x02, 1, 1, "usage_tail", .u32, .rw, 1, false, false, .num 1, .span 1 4294967295 1, "sequence"⟩,
  ⟨0x6C00, 1, 0x03, 1, 1, "record_window", .u32, .rw, 1, false, false, .num 1, .span 1 4294967295 1, "sequence"⟩,
  ⟨0x6C00, 1, 0x04, 1, 1, "usage_record", .octets, .ro, 2, false, true, .oct (List.replicate 1024 0), .bytes 1024 1024, ""⟩,
  ⟨0x6C00, 1, 0x05, 1, 1, "period_length", .u32, .rw, 3, true, false, .num 3600, .span 60 86400 1, "s"⟩,
  ⟨0x6C00, 1, 0x06, 1, 1, "period_number", .u32, .ro, 2, false, false, .num 0, .span 0 4294967295 1, ""⟩,
  ⟨0x6C00, 1, 0x07, 1, 1, "period_start", .u64, .ro, 2, false, false, .num 0, .span 0 18446744073709551615 1, "s"⟩,
  ⟨0x6C00, 1, 0x08, 1, 1, "close_period", .u8, .cmd, 1, false, false, .num 0, .span 0 0 1, ""⟩,
  ⟨0x6C00, 1, 0x09, 1, 1, "store_free", .u16, .ro, 2, false, false, .num 0, .span 0 4096 1, "records"⟩,
  ⟨0x6C00, 1, 0x0A, 1, 1, "store_state", .u8, .ro, 2, false, false, .num 2, .span 0 2 1, ""⟩,
  ⟨0x6C00, 1, 0x0B, 1, 1, "low_water", .u16, .rw, 2, true, false, .num 512, .span 19 4096 1, "records"⟩,
  ⟨0x6C00, 1, 0x20, 1, 1, "stage_service_key", .octets, .cmd, 3, false, false, .num 0, .bytes 36 36, ""⟩,
  ⟨0x6C00, 1, 0x21, 1, 1, "service_key_state", .u8, .ro, 2, false, false, .num 0, .span 0 2 1, ""⟩,
  ⟨0x6C00, 1, 0x22, 1, 1, "service_key_check", .u32, .ro, 2, false, false, .num 0, .span 0 4294967295 1, ""⟩,
  ⟨0x6C00, 1, 0x23, 1, 1, "set_family_key", .octets, .cmd, 3, false, false, .num 0, .bytes 40 40, ""⟩,
  ⟨0x6C00, 1, 0x24, 1, 1, "clear_family_key", .u8, .cmd, 3, false, false, .num 0, .span 0 3 1, "place"⟩,
  ⟨0x6C00, 1, 0x25, 1, 1, "device_key_state", .u8, .ro, 2, false, false, .num 0, .span 0 1 1, ""⟩]

/-- Index 0x6C10 on: 19 R487. -/
def objects6C10 : List ObjRow := [
  ⟨0x6C10, 1, 0x01, 8, 1, "bar_ink", .u64, .ro, 2, false, false, .num 0, .span 0 18446744073709551615 1, "pL"⟩]

/-- Index 0x6C11 on: 19 R487. -/
def objects6C11 : List ObjRow := [
  ⟨0x6C11, 1, 0x01, 1, 1, "head_window", .u8, .rw, 1, false, false, .num 0, .span 0 255 1, "head"⟩,
  ⟨0x6C11, 1, 0x02, 7, 1, "head_drops", .u64, .ro, 2, false, true, .num 0, .span 0 281474976710655 1, "drops"⟩,
  ⟨0x6C11, 1, 0x09, 1, 1, "head_strobes", .u64, .ro, 2, false, true, .num 0, .span 0 281474976710655 1, "strobes"⟩]

/-- Index 0x6C12 on: 19 R487. -/
def objects6C12 : List ObjRow := [
  ⟨0x6C12, 1, 0x01, 1, 1, "slot_window", .u8, .rw, 1, false, false, .num 0, .span 0 255 1, "slot"⟩,
  ⟨0x6C12, 1, 0x02, 1, 1, "slot_delivered", .u32, .ro, 2, false, true, .num 0, .span 0 4294967295 1, "pages"⟩,
  ⟨0x6C12, 1, 0x03, 1, 1, "slot_not_delivered", .u32, .ro, 2, false, true, .num 0, .span 0 4294967295 1, "pages"⟩]

/-- Index 0x6C40 on: 19 R487. -/
def objects6C40 : List ObjRow := [
  ⟨0x6C40, 4, 0x01, 1, 1, "family", .u16, .ro, 2, false, false, .num 65535, .span 0 65535 1, ""⟩,
  ⟨0x6C40, 4, 0x02, 1, 1, "family_key_check", .u32, .ro, 2, false, false, .num 0, .span 0 4294967295 1, ""⟩]

/-- Every page: the index base, how many indices it covers, and its rows in subindex order (R57). -/
def objectPages : List (Nat × Nat × List ObjRow) := [
  (0x1000, 1, objects1000),
  (0x1001, 1, objects1001),
  (0x1100, 1, objects1100),
  (0x1101, 8, objects1101),
  (0x1200, 1, objects1200),
  (0x1800, 1, objects1800),
  (0x1810, 1, objects1810),
  (0x1811, 1, objects1811),
  (0x1900, 1, objects1900),
  (0x1910, 1, objects1910),
  (0x1920, 3, objects1920),
  (0x2000, 1, objects2000),
  (0x2010, 1, objects2010),
  (0x2020, 1, objects2020),
  (0x2030, 8, objects2030),
  (0x2100, 1, objects2100),
  (0x2110, 4, objects2110),
  (0x2120, 8, objects2120),
  (0x2200, 1, objects2200),
  (0x2400, 1, objects2400),
  (0x2410, 4, objects2410),
  (0x2500, 1, objects2500),
  (0x2510, 2, objects2510),
  (0x2600, 1, objects2600),
  (0x2800, 1, objects2800),
  (0x2810, 1, objects2810),
  (0x2820, 2, objects2820),
  (0x3000, 1, objects3000),
  (0x3010, 8, objects3010),
  (0x3100, 1, objects3100),
  (0x3110, 16, objects3110),
  (0x3140, 32, objects3140),
  (0x3160, 8, objects3160),
  (0x3180, 8, objects3180),
  (0x3200, 256, objects3200),
  (0x3400, 1, objects3400),
  (0x3410, 8, objects3410),
  (0x3500, 1, objects3500),
  (0x3501, 1, objects3501),
  (0x4000, 1, objects4000),
  (0x4001, 1, objects4001),
  (0x4002, 1, objects4002),
  (0x4003, 1, objects4003),
  (0x5000, 256, objects5000),
  (0x6000, 1, objects6000),
  (0x6100, 1, objects6100),
  (0x6120, 32, objects6120),
  (0x6140, 4, objects6140),
  (0x6400, 1, objects6400),
  (0x6410, 4, objects6410),
  (0x6420, 16, objects6420),
  (0x6430, 4, objects6430),
  (0x6440, 4, objects6440),
  (0x6500, 1, objects6500),
  (0x6501, 1, objects6501),
  (0x6510, 4, objects6510),
  (0x6520, 8, objects6520),
  (0x6530, 1, objects6530),
  (0x6550, 1, objects6550),
  (0x6600, 1, objects6600),
  (0x6610, 4, objects6610),
  (0x6620, 1, objects6620),
  (0x6A00, 8, objects6A00),
  (0x6C00, 1, objects6C00),
  (0x6C10, 1, objects6C10),
  (0x6C11, 1, objects6C11),
  (0x6C12, 1, objects6C12),
  (0x6C40, 4, objects6C40)]

end Sys2Proof.Machine
end

