-- ==== Sys2Proof/Machine/Frac.lean ====
section
/-! DEFINITION. Exact fractions, for the lengths, times and speeds the rules compute exactly before they round. -/

namespace Sys2Proof.Machine

/-- The fraction num / den, den positive. -/
structure Frac where
  num : Int
  den : Nat
  deriving DecidableEq, Repr

/-- A whole number. -/
def Frac.ofInt (n : Int) : Frac := ⟨n, 1⟩

/-- In lowest terms. -/
def Frac.norm (a : Frac) : Frac :=
  let g := Nat.gcd a.num.natAbs a.den
  if g ≤ 1 then a else ⟨a.num / g, a.den / g⟩

/-- Sum. -/
def Frac.add (a b : Frac) : Frac := Frac.norm ⟨a.num * b.den + b.num * a.den, a.den * b.den⟩

/-- Difference. -/
def Frac.sub (a b : Frac) : Frac := Frac.norm ⟨a.num * b.den - b.num * a.den, a.den * b.den⟩

/-- Product. -/
def Frac.mul (a b : Frac) : Frac := Frac.norm ⟨a.num * b.num, a.den * b.den⟩

/-- Quotient by a non-zero whole number. -/
def Frac.divNat (a : Frac) (n : Nat) : Frac := Frac.norm ⟨a.num, a.den * n⟩

/-- Quotient; 0 where the divisor is 0. -/
def Frac.div (a b : Frac) : Frac :=
  if b.num = 0 then ⟨0, 1⟩
  else if b.num < 0 then Frac.norm ⟨-(a.num * b.den), a.den * b.num.natAbs⟩
  else Frac.norm ⟨a.num * b.den, a.den * b.num.natAbs⟩

/-- Rounded down. -/
def Frac.floor (a : Frac) : Int := a.num / a.den

/-- Rounded to nearest, halves up. -/
def Frac.round (a : Frac) : Int := (2 * a.num + a.den) / (2 * a.den)

/-- Less than. -/
def Frac.lt (a b : Frac) : Bool := decide (a.num * b.den < b.num * a.den)

/-- At most. -/
def Frac.le (a b : Frac) : Bool := decide (a.num * b.den ≤ b.num * a.den)

/-- Absolute value. -/
def Frac.abs (a : Frac) : Frac := ⟨a.num.natAbs, a.den⟩

end Sys2Proof.Machine
end

