-- ==== Sys2Proof/Machine/State.lean ====
section
/-! DEFINITION. The state of the controller as plain data: every register, buffer, counter and mode the spec gives
the block, and the queue of commands that wait. Objects of the dictionary live in `dict` (R24), keyed index x 256 +
subindex, an unlisted object holding its default (R29). INVENTORY.md lists every item with its rule. -/

namespace Sys2Proof.Machine

/-- Reasons a step stops the model. -/
inductive Fault
  /-- Raised by nobody at present: every path to which the spec gives an effect has one. Stopping would be safe. -/
  | noEffect
  deriving DecidableEq, Repr

/-- Reasons a step has no meaning. -/
inductive Refusal
  /-- Raised by the dispatcher for a command whose meaning is not written. Stopping is safe. -/
  | notModelled (mnemonic : String)
  deriving DecidableEq, Repr

/-! ### Output: what leaves the balls -/

/-- A YDP frame the controller sends (R43): version 1, response flag set. -/
structure Sent where
  opcode : Nat
  session : Nat
  seq : Nat
  tag : Nat
  status : Nat
  payload : List Byte
  deriving DecidableEq, Repr

/-- An ordered set that a transmitter sends by itself (R186); SOF and EOF belong to a frame. -/
inductive LinkSet
  | idle (hop : Nat)
  | skip
  | trainReq (target request : Nat)
  | trainRsp (echo status : Nat)
  | sleep
  deriving DecidableEq, Repr

/-- The coder of a transmitter (R184, R185): running disparity, true for positive, the last precoded symbol, and when the last group it
coded has left, in ns. -/
structure TxCode where
  rd : Bool
  p : Nat
  at_ : Nat
  deriving DecidableEq, Repr

/-- The decoder of a receiver (R184, R187): running disparity and when the symbols that left it ended, the error count, and the valid
groups in a row since it last changed. -/
structure RxCode where
  rd : Bool
  at_ : Nat
  errors : Nat
  good : Nat
  deriving DecidableEq, Repr

/-- What a lane's transmitter is to send: a run of ordered sets some times over, or a frame's bytes from header to CRC (R150). -/
inductive Sending
  | sets (s : List LinkSet) (n : Nat)
  | frame (bytes : List Byte)
  deriving DecidableEq, Repr

/-- What left the balls, newest first in `Ctl.out`. Nothing reads it (log entry 6). -/
inductive Out
  /-- A YDP frame on a field port to a peer, and the UDP datagram that carries it (R43). -/
  | ydp (path : Nat) (peer : List Byte) (f : Sent) (datagram : List Byte)
  /-- A frame on a lane, of a head chain (R150) or to a camera bridge (R239), with the coder it leaves through. -/
  | frame (lane : Nat) (bytes : List Byte) (code : TxCode)
  /-- A run of ordered sets on a lane, some times over, with the coder it leaves through (R186). -/
  | link (lane : Nat) (sets : List LinkSet) (times : Nat) (code : TxCode)
  /-- An Ethernet frame on a field port. -/
  | eth (port : Nat) (bytes : List Byte)
  /-- A PTP message of the ordinary clock on a field port: its type, sequence and fields (R364; log entry 105). -/
  | ptp (port : Nat) (message : String) (sequence : Nat) (fields : List Int)
  /-- A fire edge of a pair at a time in 250 ps units, with its line tag (R218). -/
  | strobe (pair at250ps tag : Nat)
  /-- An arm word on a pair: its 11 bits in sending order (R157). -/
  | armWord (pair : Nat) (bits : List Bool)
  /-- A pin driven. -/
  | pin (name : String) (level : Bool)
  /-- An MSI-X message: address and data of its table entry (R373). -/
  | msix (address data : Nat)
  /-- The header of a cycle of the stage bus (R437). -/
  | busHeader (bytes : List Byte)
  /-- A command slot on the stage bus (R437). -/
  | slot (stage : Nat) (bytes : List Byte)
  /-- Data returned to the host through BAR0 or BAR2, all ones where the rule answers so. -/
  | hostRead (address value : Nat)
  /-- A request that a memory controller held, served (R345). -/
  | served (controller : Nat) (source : CellarSource) (address : Nat)
  /-- A PMBus or attic transaction. -/
  | bus (name : String) (arg : Nat)
  deriving DecidableEq, Repr

/-! ### The dictionary protocol (02) -/

/-- A response the controller keeps for a repeated request (R44). -/
abbrev Stored := Sent

/-- A nonce outstanding (R37): its bytes and when it was issued. -/
structure Nonce where
  bytes : List Byte
  at_ : Nat
  deriving DecidableEq, Repr

/-- A publish set (R52, R53): period in ms, keys, count of samples, local time of the next sample in ns. -/
structure PubSet where
  period : Nat
  keys : List Nat
  count : Nat
  next : Nat
  deriving DecidableEq, Repr

/-- An event record (R385). -/
structure EvRec where
  source : Nat
  level : Nat
  flags : Nat
  sequence : Nat
  firstTime : Nat
  rings : Nat
  unit : Nat
  object : Nat
  value : Nat
  lastTime : Nat
  deriving DecidableEq, Repr

/-- The EVENT frame in flight of a session (R54). -/
structure Flight where
  sequence : Nat
  records : List EvRec
  lost : Nat
  resends : Nat
  sentAt : Nat
  deriving DecidableEq, Repr

/-- One of the eight sessions (R35 to R41, R54), `peer` being the MAC address, IPv4 address and UDP port of its most
recent frame, with the windows held per session (R128, R296, R388, R487). -/
structure Session where
  isOpen : Bool
  role : Nat
  path : Nat
  peer : List Byte
  tag : Nat
  lastSeq : Nat
  stored : Option Stored
  heardAt : Nat
  nonce : Option Nonce
  sets : Kv (Option PubSet)
  queue : List EvRec
  flight : Option Flight
  evSeq : Nat
  pendingLost : Nat
  nozzleWindow : Nat
  bellWindow : Nat
  residualWindow : Nat
  recordWindow : Nat
  headWindow : Nat
  slotWindow : Nat
  deriving DecidableEq, Repr

/-- A closed session. -/
def Session.closed : Session :=
  ⟨false, 0, 0, [], 0, 0, none, 0, none, [], [], none, 0, 0, 0, 0, 0, 1, 0, 0⟩

/-- The staging buffer while a segmented transfer is open (R50). -/
structure Staging where
  owner : Nat
  writing : Bool
  key : Nat
  total : Nat
  data : List Byte
  lastAt : Nat
  deriving DecidableEq, Repr

/-- The field ports (R358 to R360): the MAC address, IPv4 address and netmask in force (none: the defaults), the UDP port of YDP, the time at
which the frames queued at each port's egress have left, and frames counted against 2500:05 by egress, and against the echo limit,
as (second, count); `rx`: for each port, when the frames in its receive queue have been served (R45). -/
structure Net where
  mac : Option (List Byte)
  ip : Option (List Byte)
  mask : Option (List Byte)
  udp : Nat
  busyTo : Kv Nat
  flood : Kv (Nat × Nat)
  echo : Nat × Nat
  rx : Kv (List Nat)
  deriving DecidableEq, Repr

/-- Field ports that have sent nothing. -/
def Net.reset : Net := ⟨none, none, none, 47730, [], [], (0, 0), []⟩

/-- The dictionary protocol's own state (02). `lockoutEnd` is the end of a SERVICE suspension (R38). `evtRing` holds
the frames of the mailbox's event ring slots (R51). -/
structure Ydp where
  sessions : Kv Session
  staging : Option Staging
  mbxRequest : List Byte
  mbxResponse : List Byte
  mbxBusy : Bool
  mbxReady : Bool
  evtHead : Nat
  evtTail : Nat
  evtRing : Kv (List Byte)
  lockoutEnd : Option Nat
  net : Net
  deriving DecidableEq, Repr

/-! ### The bell (14) -/

/-- The bell (R377 to R386): configuration words, PENDING and ACTIVE per source, and in `serving` the stacks of targets 0 to 2,
top first, each entry a source and its level. -/
structure Bell where
  config : Kv Nat
  pending : Kv Bool
  active : Kv Bool
  serving : Kv (List (Nat × Nat))
  eventSeq : Nat
  deriving DecidableEq, Repr

/-! ### Faults (18) -/

/-- The fault collector (R458 to R469). A source's latch and cause are object 1810 (NONE: not latched). `present`:
the cause of a source persists; `rails`: what a source's rails were last seen to show, 1 fault reported, 2 mismatch; `agreedAt`: since
when POSITION_COMPARE's rails are healthy again. `pairsLow`: every FIRE pair is forced low. `toggled` is the time of the last CAROUSEL
toggle, `beatLost` since when the heartbeat is lost, `sensorsApart` since when the die sensors differ. -/
structure Faults where
  present : Kv Bool
  rails : Kv Nat
  agreedAt : Option Nat
  pairsLow : Bool
  carousel : Bool
  toggledAt : Nat
  beatLost : Option Nat
  sensorsApart : Option Nat
  deriving DecidableEq, Repr

/-! ### Time (13) -/

/-- The ordinary clock (R364 to R366): the best master heard, when it was last heard or the port began to listen, Syncs in a row
below the threshold, whether accept_step waits, and when Delay_Req, Sync and Announce were last sent with their sequence. -/
structure Ptp where
  best : Option Announce
  heardAt : Nat
  good : Nat
  accept : Bool
  delayAt : Nat
  syncAt : Nat
  announceAt : Nat
  seqs : Kv Nat
  deriving DecidableEq, Repr

/-- An ordinary clock that hears nobody. -/
def Ptp.reset : Ptp := ⟨none, 0, 0, false, 0, 0, 0, []⟩

/-- A pulse output (R367) as armed: mode (0 not armed), settings, the local times of the next start and of the end of a pulse in
progress, and whether the run has emitted its first pulse. -/
structure Pulse where
  mode : Nat
  start : Nat
  period : Nat
  width : Nat
  low : Bool
  next : Nat
  endAt : Option Nat
  begun : Bool
  deriving DecidableEq, Repr

/-- An output that is not armed. -/
def Pulse.reset : Pulse := ⟨0, 0, 0, 0, false, 0, none, false⟩

/-- The local clock (R361): its value in units of 2^-32 ns at control-clock time `at_`, kept through reset; PTP; the pulses. -/
structure Clock where
  sub : Nat
  at_ : Nat
  ptp : Ptp
  pulses : Kv Pulse
  deriving DecidableEq, Repr

/-! ### The host port (13) -/

/-- An entry of the MSI-X table (R373). -/
structure MsixEntry where
  address : Nat
  data : Nat
  masked : Bool
  deriving DecidableEq, Repr

/-- The host port's configuration (R368 to R373): the MSI-X table and pending bits, MSI-X Enable, the function mask, Memory Space and Bus
Master Enable, D3hot, PME_En, whether PCIE_WAKE_N is asserted, the four BAR dwords as assigned, the seconds that a read of TIME_NS
latched; and what took effect at the last reset: the size of BAR2 in GiB, the subsystem's vendor and number. -/
structure HostPort where
  table : Kv MsixEntry
  waiting : Kv Bool
  enable : Bool
  functionMask : Bool
  memory : Bool
  busMaster : Bool
  d3hot : Bool
  pmeEnable : Bool
  wakeLow : Bool
  bars : Kv Nat
  secLatch : Nat
  bar2 : Nat
  subVendor : Nat
  subId : Nat
  deriving DecidableEq, Repr

/-- An MSI-X table entry after a host-port reset: masked, as the base specification sets out. -/
def MsixEntry.reset : MsixEntry := ⟨0, 0, true⟩

/-! ### Reset and life cycle (16) -/

/-- Where the controller is between reset and running (R416 to R419). `fresh` is the state this model calls reset: out
of reset with every object at its default, answering as in STANDBY; a STARTUP may still run (log entry 9). -/
inductive Phase
  | fresh | up | held | released | asleep
  deriving DecidableEq, Repr

/-! ### Jobs, pages and admission (03) -/

/-- A crate that failed in a fetch of a page (R113, R114): bar, band, crate column, detection row, and whether the print fetch
met it. -/
structure BadCrate where
  bar : Nat
  band : Nat
  column : Nat
  row : Nat
  print : Bool
  deriving DecidableEq, Repr

/-- What a ticketed page carries through fetch, screening and firing: declared bytes by band x bars + rank (R102), the bar's
line count at its line 0 (R156), the trim of each pair for this page (R221), failed crates, lines marked late as (bar, line)
(R109), and the inspection reads: pairs of (camera, bar x 65,536 + line pair) read.
`struck`: a strobe line of the page has fired. `nth`: tickets of the slot issued before it since the slot was sealed (R305).
`before`: 6000:03 before the ticket (R82). `gapped`: bars that screened an unhideable gap (R134). `known`: bar-lines omitted,
withheld or counted unfired (R275). `gens`: trim generation of each pair and, from 32 on, offset generation of each bar at the first
line (R287). `speeds`: web speed at the line that times each pair's fiducials, um/s (R290). `offsets`: column
offset of each bar in force for the page (R271). -/
structure PageWork where
  declared : List Nat
  firstCount : Kv Nat
  trims : Kv Nat
  bad : List BadCrate
  late : List (Nat × Nat)
  inspected : List (Nat × Nat)
  struck : Bool
  nth : Nat
  before : Nat
  gapped : List Nat
  known : List (Nat × Nat)
  gens : Kv Nat
  speeds : Kv Int
  offsets : Kv Int
  deriving DecidableEq, Repr

/-- A ticket without a posted ENDED entry (R67, R75 to R82). `pos` is none while a cue is awaited, `earliest` and
`window` being its window then; `gapStart` is where its gap begins. `reason` is the primary reason, 0 for none.
`fired`, `settled` and `screened` count lines per bar: fired; fired, omitted or withheld; screened. `printDone` counts
bands fetched per bar. -/
structure Ticket where
  number : Nat
  hostRef : Nat
  slot : Nat
  bars : Nat
  length : Nat
  width : Nat
  table : Nat
  desc : Nat
  pos : Option Nat
  earliest : Nat
  window : Nat
  gapStart : Nat
  gapStretch : Nat
  verified : Bool
  overCap : Bool
  cap : Nat
  pitch : Nat
  reason : Nat
  flags : Nat
  omitted : Nat
  fired : Kv Nat
  settled : Kv Nat
  screened : Kv Nat
  firstEpoch : Kv Nat
  lastEpoch : Kv Nat
  detail : Nat
  printDone : Kv Nat
  ended : Bool
  work : PageWork
  deriving DecidableEq, Repr

/-- The descriptor at the head of the submit ring that waits (R73): its bytes, and whether its page is verified, as found when it was
taken (R115). `done`: crates verified; `credit`: decoded bytes that the check engines have had time for since then, counted up to
`since`; `failed`: the detail of the failing entry of the lowest place; `refused`: a refusal that waits for room to be posted. -/
structure Waiting where
  bytes : List Byte
  verify : Bool
  done : Nat
  credit : Nat
  since : Nat
  failed : Option Nat
  refused : Option (Nat × Nat)
  deriving DecidableEq, Repr

/-- What makes a waiting descriptor be checked again: its slot written or cleared, or a library item that the slot names loaded or
cleared (R73). -/
inductive Recheck where
  | slot (n : Nat)
  | array (a : Nat)
  | curve (k : Nat)
  | place (p : Nat)
  | arrays
  deriving DecidableEq, Repr

/-- A selected cue edge (R216, R89): its time in 250 ps, and its print position once latch pairs lie on both sides of it. -/
structure CueEdge where
  at250 : Nat
  pos : Option Nat
  deriving DecidableEq, Repr

/-- The admission sequencer (R59 to R92). `tickets` in ticket order. `prevEnd`, `lastNumber`: R75, R76. `stretches`:
where each stretch of web begins and its pitch in lpi, latest first (R8). `cueEdge`: a selected edge of an input whose mark is
not yet qualified (R89). `places`: the threshold array each place holds, its bytes; `placeFree`: free places, the one freed
longest ago first (R20). `sinceSeal`: tickets of a slot since it was sealed (R305). `changed`: the changes of this cycle after which a
waiting descriptor is checked again (R73). `stopped`: the ceiling is 0 until admission opens (R85). -/
structure Admission where
  tickets : List Ticket
  waiting : Option Waiting
  prevEnd : Nat
  lastNumber : Nat
  stretches : List (Nat × Nat)
  cueEdge : Kv (Option CueEdge)
  cueLevel : Kv Bool
  places : Kv (List Byte)
  placeFree : List Nat
  sinceSeal : Kv Nat
  ceilingAt : Nat
  changed : List Recheck
  stopped : Bool
  deriving DecidableEq, Repr

/-! ### Motion axes (17) -/

/-- One axis (R443 to R453). Position, speed and acceleration are exact: `p` in 1/8e12 microstep, `v` in 1/4e8
microstep/s, `a` in 1/20,000 microstep/s^2, so that a 50 us cycle adds `a` to `v` and `v` to `p`. `goal` is the target
in force, `goalAt` when a written target takes effect (none: taken). `emergency`: on the emergency ramp; `halting`: on
the normal stop of R447; `after` is the state to take at zero speed. `homeStep`: 0 none, 1 clearing the reference, 2
searching, 23 stopping on it, 3 backing off, 34 stopping, 5 awaiting an SSI value; `homeFrom` where the travel of a step
began. `standSince`: since when it stands; `mode`: 0 OFF, 1 DRIVE at run_current, 2 BRAKE, 3 FREEWHEEL, 4 DRIVE at
hold_current; `ramp`: cycles left of the scale ramp. `stalled`, `drifted`: counts of cycles. `ssiOffset`: o of R452, none
before it is set. `reply`: cycle count at the last valid reply. `sent`: index and speed commanded in the last three
cycles, latest first. `busRangAt`: when AXIS_BUS last rang. -/
structure Axis where
  p : Int
  v : Int
  a : Int
  goal : Int
  goalAt : Option Nat
  emergency : Bool
  halting : Bool
  after : Nat
  homeStep : Nat
  homeFrom : Int
  standSince : Nat
  mode : Nat
  ramp : Nat
  stalled : Nat
  drifted : Nat
  ssiOffset : Option Frac
  reply : Option Nat
  sent : List (Nat × Int)
  busRangAt : Option Nat
  deriving DecidableEq, Repr

/-- An axis at rest at 0, disabled. -/
def Axis.reset : Axis := ⟨0, 0, 0, 0, none, false, false, 0, 0, 0, 0, 0, 0, 0, 0, none, none, [], none⟩

/-- A limit switch input (R449): the level on its pin, sampled active or not, since when, the times it went active within the chatter window (latest
first), and per axis the position at the last transition into active and into inactive. -/
structure Lim where
  level : Bool
  active : Bool
  since : Nat
  edges : List Nat
  atActive : Kv Int
  atInactive : Kv Int
  deriving DecidableEq, Repr

/-- An input never seen active. -/
def Lim.reset : Lim := ⟨false, false, 0, [], [], []⟩

/-- The axis sequencer's state. -/
structure Axes where
  axes : Kv Axis
  lims : Kv Lim
  cycleAt : Option Nat
  deriving DecidableEq, Repr

/-! ### Care and shelves (05, 06) -/

/-- A change the loop makes, proposes or discards (R279): kind and target, old and new value, evidence, samples, basis, the bar,
camera, ticket and epoch it was measured on, and the first column and width of the bin it rests on. -/
structure LoopChange where
  kind : Nat
  target : Nat
  old : Int
  new : Int
  evidence : Int
  samples : Nat
  basis : Nat
  bar : Nat
  camera : Nat
  ticket : Nat
  epoch : Nat
  first : Nat
  width : Nat
  deriving DecidableEq, Repr

/-- A commit (R136): entries in order, each a nozzle number below 2^19 or 2^19 plus the subindex 3 to 5 of 3410+b, with
its value; PAGE boundary or LINE (R137); and the loop's changes, one an entry, for a loop action. -/
structure Commit where
  entries : List (Nat × Nat)
  page : Bool
  acts : List LoopChange
  deriving DecidableEq, Repr

/-- One bar's care committer and screener (R133 to R138): pending commits in order of acceptance, head-out and head-back
changes requested, values in force of 3410+b:03 to 05 and of the column offset, and the lines screened since reset. -/
structure CareBar where
  pending : List Commit
  outs : List Nat
  backs : List Nat
  weights : Nat
  weakLimit : Nat
  origin : Nat
  offset : Int
  lines : Nat
  deriving DecidableEq, Repr

/-- A bar's care right after reset (R135). -/
def CareBar.reset : CareBar := ⟨[], [], [], 0x5030, 7, 0, 0, 0⟩

/-- A screened line in the shelves (R139, R145): bar, count of the line since reset (its tag modulo 65,536, R156), its
ticket and page line, the epoch it was screened under, the heads that fire in it, the non-zero level of each firing
nozzle, and the chain and group pairs, 4 x chain + group, whose frames were dispatched. -/
structure ShelfLine where
  bar : Nat
  count : Nat
  ticket : Nat
  line : Nat
  epoch : Nat
  heads : List Nat
  levels : Kv Nat
  sent : Kv Bool
  deriving DecidableEq, Repr

/-- A line dispatched to a head in a group and not yet shown as fired (R172, R177), its drops at levels 1 to 7, and whether its
strobe line was FIRED, so that it stands in the usage counts (R474). -/
structure TagEntry where
  head : Nat
  group : Nat
  count : Nat
  ticket : Nat
  nonzero : Bool
  drops : List Nat
  struck : Bool
  deriving DecidableEq, Repr

/-- The nozzle table live and as written (R124, R128), the heads whose nozzles fire (R125, R137), the shelves and the tag
store, and the lines (bar and count) the ringmaster omitted of the last 65,536. -/
structure Care where
  bars : Kv CareBar
  live : Kv Nat
  written : Kv Nat
  firing : Kv Bool
  shelf : List ShelfLine
  store : List TagEntry
  omitted : List (Nat × Nat)
  deriving DecidableEq, Repr

/-! ### Head chains (06) -/

/-- A DISCOVER_REPLY kept until positions are assigned (R149, R163): on path B or A, hop, serial, family, and the
position the head holds, 255 for none. -/
structure Found where
  pathB : Bool
  hop : Nat
  serial : Nat
  family : Nat
  held : Nat
  deriving DecidableEq, Repr

/-- A chain manager (R146 to R176). `stage`: 0 no discovery, 1 it waits for its ride, 2 replies from path A are collected,
3 those from path B, 4 heads are taken in. `healFrom`: since when every port at the break is up. `portUp`: a port-up
report since the last DISCOVER. `link`: the broken link a SPLIT chain is served around, link i standing before the head at position i.
`seqs`: frames sent of each type. `mapped`: a discovery since reset has assigned positions. `excess`: serials of the heads left without
a position (R164). -/
structure ChainMgr where
  stage : Nat
  discoverAt : Nat
  replies : List Found
  healFrom : Option Nat
  tickAt : Nat
  portUp : Bool
  link : Nat
  seqs : Kv Nat
  mapped : Bool
  excess : List Nat
  deriving DecidableEq, Repr

/-- A chain manager after reset. -/
def ChainMgr.reset : ChainMgr := ⟨0, 0, [], none, 0, false, 0, [], false, []⟩

/-- What a head was asked and has not answered (R163, R168, R174). -/
inductive Asked
  | nothing
  /-- CAP_REQUEST of a discovery. -/
  | capability
  /-- CONFIG of a discovery (0), of head_in (1), or after a change, a return from SAFE or a long sleep (2). -/
  | config (why : Nat)
  deriving DecidableEq, Repr

/-- What the chain manager keeps of a head beside its objects: time of its last STATUS; what it was asked and when; the
USAGE_CHALLENGE outstanding, of a discovery (0), of challenge_usage (1) or of a period's close (2), its time and nonce;
frames_bad as last reported and its rises within 1 ms (time, amount); the bar's line counts of its missing reports; and
for a head_out its effect line's count and time. `due`: challenges that wait for the one outstanding, oldest first. `viaB`: a discovery
found it from the secondary end. `owed`: what goes to it before its next line: 1 SYNC, after a safe stop; 2 CONFIG and SYNC, after a long
sleep of its lanes (R201). -/
structure HeadMgr where
  statusAt : Nat
  asked : Asked
  askedAt : Nat
  usage : Option Nat
  usageAt : Nat
  nonce : List Byte
  bad : Nat
  badRises : List (Nat × Nat)
  missed : List Nat
  leaving : Option (Nat × Nat)
  due : List Nat
  viaB : Bool
  owed : Nat
  deriving DecidableEq, Repr

/-- A head nobody has heard. -/
def HeadMgr.reset : HeadMgr := ⟨0, .nothing, 0, none, 0, [], 0, [], [], none, [], false, 0⟩

/-- Chain managers and heads. -/
structure Chains where
  mgrs : Kv ChainMgr
  heads : Kv HeadMgr
  deriving DecidableEq, Repr

/-! ### Page data (04) -/

/-- An assembled line of a bar that waits for screening (R106): its ticket, bar, page line and samples, 256 x width. -/
structure ContoneLine where
  ticket : Nat
  bar : Nat
  line : Nat
  samples : List Byte
  deriving DecidableEq, Repr

/-- A line pair's quarter-area means as the inspection fetch delivered them (R110): ticket, bar, pair, crate column, means. -/
structure MeanRow where
  ticket : Nat
  bar : Nat
  pair : Nat
  column : Nat
  means : List Byte
  deriving DecidableEq, Repr

/-- The fetches' output that has not been consumed. -/
structure PageData where
  lines : List ContoneLine
  means : List MeanRow
  deriving DecidableEq, Repr

/-! ### Web position and fire (08) -/

/-- A latch pair (R216): exact position in ticks, time in 250 ps, local time in ns. -/
structure LatchPair where
  ticks : Frac
  at250 : Nat
  localNs : Nat
  deriving DecidableEq, Repr

/-- The filter of an encoder input (R208): the level last sampled, and for how many samples after its change it has held. -/
structure InFilter where
  raw : Bool
  held : Nat
  deriving DecidableEq, Repr

/-- One encoder's qualified levels, the filters of its inputs, its count of counts, the counts at which impossible transitions and other errors fell, and the
distance travelled since validation in pm (R208 to R211). -/
structure Encoder where
  a : Bool
  b : Bool
  inA : InFilter
  inB : InFilter
  counts : Nat
  transitions : List Nat
  lastError : Option Nat
  travelled : Frac
  deriving DecidableEq, Repr

/-- An encoder never moved. -/
def Encoder.reset : Encoder := ⟨false, false, ⟨false, 0⟩, ⟨false, 0⟩, 0, [], none, ⟨0, 1⟩⟩

/-- The latch unit and the observer (R208 to R216). `ticks` is the exact position, negative by a deficit (R213). `z`, `inZ`: qualified level of ENC0_Z
and its filter. `indexBase`: enc0_counts at the first index since validation, `indexBad`: the last index failed. x, v, a: the observer's state in ticks. `slowSince`: since when the web is below 1,000 um/s (R212). -/
structure Position where
  ticks : Frac
  enc0 : Encoder
  enc1 : Encoder
  z : Bool
  inZ : InFilter
  indexBase : Option Int
  indexBad : Bool
  pair : Option LatchPair
  before : Option LatchPair
  x : Frac
  v : Frac
  a : Frac
  observedAt : Nat
  slowSince : Option Nat
  deriving DecidableEq, Repr

/-- A strobe line that a pair has frozen (R219) or armed ahead (R222): ticket, page line, tag, placed edge in 250 ps, and its outcome by
R228. In the edge modes the edge is placed by the count that reaches `target`; `due`: it is placed. -/
structure Armed where
  ticket : Nat
  line : Nat
  tag : Nat
  placed : Nat
  outcome : Nat
  target : Nat
  due : Bool
  deriving DecidableEq, Repr

/-- A pair's line state (R228, R231): the next strobe line as ticket and page line, what is armed, the last fire edge, the count of
commit words and the last one, as both ringmasters hold them. -/
structure PairState where
  nextTicket : Nat
  nextLine : Nat
  armed : Option Armed
  lastEdge : Option Nat
  words : Nat
  commit : Nat
  deriving DecidableEq, Repr

/-- A pair that has fired nothing. -/
def PairState.reset : PairState := ⟨0, 0, none, none, 0, 0⟩

/-- A page line of a bar some of whose groups have an outcome (R218, R224): groups decided, whether one was omitted or withheld. -/
structure OpenLine where
  ticket : Nat
  bar : Nat
  line : Nat
  groups : List Nat
  lost : Bool
  deriving DecidableEq, Repr

/-- An SSI input (R217): its last value read cleanly, whether it has one, and when it was last read. -/
structure SsiIn where
  value : Option Nat
  at_ : Nat
  deriving DecidableEq, Repr

/-- The ringmasters and the fire state (R218 to R234). `episodeFrom`, `lastOmitAt`: positions of an overspeed episode; `holdFull`,
`holdTick`: a hold's full length and the position at which it last counted. `checkAt`: end of the last self-check interval,
`syncAt`: since when a ringmaster copies, `retakeAt`: since when a retake waits; `gapAt`: start of the last switch-over's gap, 250 ps. -/
structure Fire where
  pairs : Kv PairState
  lines : List OpenLine
  episodeFrom : Nat
  lastOmitAt : Nat
  holdFull : Nat
  holdTick : Nat
  checkAt : Nat
  syncAt : Option Nat
  retakeAt : Option Nat
  gapAt : Option Nat
  ssi : Kv SsiIn
  deriving DecidableEq, Repr

/-! ### The cellar's controllers (12) -/

/-- A request a memory controller holds (R347): its source, address and bytes, and since when. -/
structure CellarReq where
  source : CellarSource
  address : Nat
  bytes : Nat
  since : Nat
  deriving DecidableEq, Repr

/-- The memory controllers beside their objects (R335 to R351): ranks and density in Gb as found, the block to zero when a freeze
ends, the group the patrol scrub reads next and when its pass began, when CELLAR_CE last rang, when the oscillators were read, when the cellar was last
used, the panic level, a rate switch that waits, since when, the rates trained as set A and set B, whether a wipe follows the training, and
the requests each controller holds (R341, R347). -/
structure CellarCtl where
  ranks : Nat
  density : Nat
  rateA : Nat
  rateB : Nat
  wiping : Bool
  badBlock : Kv (Option Nat)
  scrubAt : Nat
  scrubFrom : Nat
  ceAt : Option Nat
  oscAt : Nat
  usedAt : Nat
  panic : Nat
  switchAt : Option Nat
  held : Kv (List CellarReq)
  deriving DecidableEq, Repr

/-! ### The loop (10) -/

/-- A camera's measurement in the loop (R273, R274): strip rows before its first band, bands measured, the last accepted shift in
1/16 px with the bands since, bands failed in a row, and the coordinate in 1/256 tick up to which it has measured. -/
structure LoopCam where
  from_ : Nat
  bands : Nat
  shift : Option (Int × Int)
  since : Nat
  failed : Nat
  upTo : Int
  deriving DecidableEq, Repr

/-- A camera that measures nothing. -/
def LoopCam.reset : LoopCam := ⟨0, 0, none, 0, 0, 0⟩

/-- A page whose ENDED entry is posted and whose measurement has not ended: the ticket, and the values of 5000+n:40 to 68 under
which it printed (R294, R305). -/
structure LoopPage where
  ticket : Ticket
  rules : List Val
  deriving DecidableEq, Repr

/-- The inspection of a page so far (R277): tiles compared, excluded, excluded UNALIGNED, MISSING or DATA, defect tiles, KNOWN tiles,
greatest and summed difference, lines measured by each camera, defect records written, whether some were not, whether its SUMMARY is
written. Ticket 0: web of no page. -/
structure PageStats where
  ticket : Nat
  compared : Nat
  excluded : Nat
  lacking : Nat
  defects : Nat
  known : Nat
  maxDe : Nat
  sumDe : Nat
  lines : Kv Nat
  written : Nat
  unwritten : Bool
  done : Bool
  deriving DecidableEq, Repr

/-- Sums over solo samples of a mark (R286): how many, measured and expected absorptance, and both weighted with position. -/
structure MarkSum where
  count : Nat
  meas : Frac
  exp : Frac
  measAt : Frac
  expAt : Frac
  deriving DecidableEq, Repr

/-- No samples. -/
def MarkSum.zero : MarkSum := ⟨0, ⟨0, 1⟩, ⟨0, 1⟩, ⟨0, 1⟩, ⟨0, 1⟩⟩

/-- A fiducial of a page as a camera has seen it: its number, whether a pixel of it was not solo, the sums across the web, and along it
by group. -/
structure FidSum where
  ticket : Nat
  index : Nat
  camera : Nat
  spoiled : Bool
  cross : MarkSum
  along : Kv MarkSum
  deriving DecidableEq, Repr

/-- An accumulation of residuals (R284, R285): camera, bar and bin, sums of absorptance, samples, basis, ready, acted on. -/
structure Residual where
  camera : Nat
  bar : Nat
  bin : Nat
  meas : Frac
  exp : Frac
  count : Nat
  basis : Nat
  ready : Bool
  acted : Bool
  deriving DecidableEq, Repr

/-- What the loop asks of an owner (R291): a nozzle action on a bar, or a change of a column offset or tap trim, measured under a
generation, which a calibration may have asked for. -/
inductive LoopRequest
  | nozzles (bar : Nat) (changes : List LoopChange)
  | register (change : LoopChange) (generation : Nat) (calibration : Bool)
  deriving DecidableEq, Repr

/-- A flat-field calibration (R299): camera, tile mask, rows wanted, whether it has collected, and by tile x 65,536 + row the rows
collected and their sums by column. -/
structure FlatCal where
  camera : Nat
  mask : Nat
  wanted : Nat
  since : Nat
  counts : Kv Nat
  sums : Kv (List Nat)
  deriving DecidableEq, Repr

/-- A registration calibration (R300, R301): its argument, the mark zone once chosen as a page of 64 lines with the ticket before it,
the last ticket's slot, bars whose marks are placed, the web speed at each pair's middle mark line, and what the cameras saw of each block. -/
structure RegCal where
  bars : Nat
  reference : Nat
  level : Nat
  apply : Bool
  since : Nat
  zone : Option Ticket
  after : Nat
  placed : List Nat
  blocks : List Nat
  speeds : Kv Int
  seen : Kv MarkSum
  lights : Kv (List Int)
  deriving DecidableEq, Repr

/-- A commit's effect on a bar (R284): its position, the epoch from there on, and the table in force and the heads that fired before. -/
structure Effect where
  pos : Nat
  epoch : Nat
  live : Kv Nat
  firing : Kv Bool
  deriving DecidableEq, Repr

/-- The loop (R269 to R303): the appearance table in each place, its bytes; the stamp of each column (R283), by bar x 65,536 +
column, 65,536 standing for none of its own since the bar as a whole was stamped, and that stamp of each bar; cameras; pages; fiducials;
residuals; per bar the 64 latest effects of commits, latest first; generations, as in `PageWork.gens`; requests in
order; registration changes that wait for their page boundary, true for those of a calibration; records not yet in the ring; the sequence of the last record; calibrations; mark
zones as first and end coordinate. -/
structure Loop where
  tables : Kv (List Byte)
  stamps : Kv Nat
  barStamps : Kv Nat
  cams : Kv LoopCam
  past : List LoopPage
  stats : List PageStats
  fids : List FidSum
  residuals : List Residual
  effects : Kv (List Effect)
  gens : Kv Nat
  requests : List LoopRequest
  taking : List (LoopChange × Bool)
  outbox : List (List Byte)
  sequence : Nat
  flat : Option FlatCal
  reg : Option RegCal
  zones : List (Nat × Nat)
  deriving DecidableEq, Repr

/-- A loop that holds nothing. -/
def Loop.reset : Loop := ⟨[], [], [], [], [], [], [], [], [], [], [], [], [], 0, none, none, []⟩

/-! ### Usage (19) -/

/-- The counters of a period (R474): drops by 8 x head + level, strobes by head, ink in 0.01 pL by bar, pages by slot. -/
structure UseCounts where
  drops : Kv Nat
  strobes : Kv Nat
  ink : Kv Nat
  delivered : Kv Nat
  notDelivered : Kv Nat
  deriving DecidableEq, Repr

/-- No counts. -/
def UseCounts.zero : UseCounts := ⟨[], [], [], [], []⟩

/-- A period that closes (R477): its counts, each bar's ink in pL, the serial and state of each head that has one, the chains
that get a CHAIN record, its number, start, end and end time in ns, clock status and flags, whether its records are being
written, and whether only its part 0 is (R479). -/
structure UsePeriod where
  counts : UseCounts
  ink : Kv Nat
  heads : Kv (Nat × Nat)
  chains : Nat
  number : Nat
  start : Nat
  end_ : Nat
  endNs : Nat
  clockStatus : Nat
  flags : Nat
  writing : Bool
  alone : Bool
  deriving DecidableEq, Repr

/-- The usage sequencer (R474 to R483): the open period's counts, its length, whether its close is overdue, the period whose heads
are being challenged or its records written, how many of those records stand in the store, the chains whose CHAIN record
is committed, each bar's ink below 1 pL carried over (R475), and whether the open period lost counts at a start-up (R479). -/
structure Usage where
  counts : UseCounts
  length : Nat
  overdue : Bool
  interrupted : Bool
  closing : Option UsePeriod
  written : Nat
  chainsDone : Nat
  rest : Kv Nat
  deriving DecidableEq, Repr

/-! ### The attic and the life cycle (16) -/

/-- A change of the keys (R486): the service key staged or, once fused, gone from the record; a family place set or
cleared. -/
inductive KeyChange
  | stage (key : List Byte)
  | fused
  | setFamily (place family : Nat) (key : List Byte)
  | clearFamily (place : Nat)
  deriving DecidableEq, Repr

/-- A write the attic serves (R425), with the object of the command that waits for it, 0 for none. -/
inductive AtticJob
  /-- A record of a region, kind and target (R424). -/
  | record (region kind target : Nat) (data : List Byte) (cmd : Nat)
  /-- The latest records of a region made VOID (R56, R303). -/
  | void (region cmd : Nat)
  /-- The attic erased and formatted (R427). -/
  | format (cmd : Nat)
  /-- A KEYS record with a change (R485). -/
  | keys (change : KeyChange) (cmd : Nat)
  /-- A usage record, all but its sequence and mac (R480, R481). -/
  | usage (content : List Byte)
  /-- A LIFECYCLE record of a transition, PENDING or DONE (R431). -/
  | life (done : Bool)
  /-- The regions of a transition erased and its fuse bit burnt (R431 steps 2 and 3). -/
  | wipe
  deriving DecidableEq, Repr

/-- The attic (R422 to R427): what each slot holds from its base address on, erased bytes at the end left out; the sequence
of the last record of each region and target, by region x 65,536 + target; and the writes that wait, the one in service first. -/
structure Attic where
  slots : Kv (List Byte)
  seqs : Kv Nat
  jobs : List AtticJob
  deriving DecidableEq, Repr

/-- The instructions of the test access port (R498). -/
inductive TapInstr
  | bypass | idcode | samplePreload | extest | extestPulse | extestTrain | clamp | highz
  deriving DecidableEq, Repr

/-- Fuse bits burnt (R428), the transition in course as from and target (R431), whether start-up resumes it, transitions made,
the cause of the reset under way, when its start-up began, and the instruction of the test access port (R498). -/
structure Life where
  burntP : Bool
  burntF : Bool
  burntD : Bool
  moving : Option (Nat × Nat)
  resuming : Bool
  transitions : Nat
  cause : Nat
  startedAt : Nat
  tap : TapInstr
  deriving DecidableEq, Repr

/-! ### Clocks and power (15) -/

/-- The reference supervisor, the rides and the sequencer beside their objects. Clocks are numbered 0 to 3 for the inputs of
2110, 4 to 11 for the PLLs of 2120, 12 to 19 for the quad PLLs. `runs`: good windows in a row of a starting clock; `misses`: bad
windows in a row of a locked PLL; `startAt`: when a clock began to start; `wasLost`: an input was LOST and is not VALID again;
`validAt`: when a returned input became VALID. `rideAt`: when a ride began to start; `usedAt`: when the last use of a ride ended.
`rails`: enables raised, each but the last with its power good, 9 once the last has it too; `railAt`: time of
the last enable. `powered` seconds of the booth at time `poweredAt` (R398); `xtal`: the
crystal's last 64 windows, latest first (R400); `xtalOwed`: XTAL_FAIL rings once the control clock runs (R399); `xtalGood`: crystal and RC
have been judged to agree, `runs` of 20 counting their good windows; `voutExp`: exponents of READ_VOUT by regulator (R410). -/
structure Power where
  runs : Kv Nat
  misses : Kv Nat
  startAt : Kv Nat
  wasLost : Kv Bool
  validAt : Kv Nat
  rideAt : Kv Nat
  usedAt : Kv Nat
  rails : Nat
  railAt : Nat
  powered : Nat
  poweredAt : Nat
  xtal : List Int
  xtalOwed : Bool
  xtalGood : Bool
  voutExp : Kv Int
  deriving DecidableEq, Repr

/-! ### Lanes (07) -/

/-- A slicer calibration of a lane (R204): the spare, its stage (1 waiting for the spare to match, 2 served by the spare, 3 new
values loaded), when they were loaded, and the lane's values before. -/
structure LaneCal where
  spare : Nat
  stage : Nat
  loadedAt : Nat
  thresholds : List Byte
  dfe : Nat
  deriving DecidableEq, Repr

/-- A lane beside its objects. `elastic`: groups the buffer holds (R190); `skipAt`: start of the last SKIP sent (R189);
`applied`: toggle of the last request applied and the status it was answered with (R194); `answer`: echo and status byte of the
response being repeated and when its request last came; `request`: the request byte whose echo is awaited; `toggle`: that of the
last request sent; `alignedAt`; `trained`: its own receiver has finished; `ready`: target bytes whose RX_READY was seen (R196);
`before`: rx_state before sleep (R200); `retraining`: a retrain runs. `code`, `rxCode`: the coder and decoder (R184). `wokeAt`: when the
transmitter woke, while it sends IDLE and SKIP alone, and `held` what waits for that to end (R200); `sleptAt`: when it last went to sleep
(R201). `signalAt`: when a sleeping receiver detected signal (R200); `downAt`: when the receiver went DOWN (R198); `countFrom`: since
when code groups count beyond 3140+l:09 (R205). -/
structure Lane where
  elastic : Nat
  skipAt : Nat
  applied : Option (Bool × Nat)
  answer : Option (Nat × Nat × Nat)
  request : Option Nat
  toggle : Bool
  alignedAt : Nat
  trained : Bool
  ready : List Nat
  before : Nat
  retraining : Bool
  cal : Option LaneCal
  code : TxCode
  rxCode : RxCode
  wokeAt : Option Nat
  held : List Sending
  sleptAt : Nat
  signalAt : Option Nat
  downAt : Nat
  countFrom : Option Nat
  deriving DecidableEq, Repr

/-- A coder and a decoder that have sent and received nothing: negative running disparity, precoder state 0 (R185; log entry 143). -/
def TxCode.reset : TxCode := ⟨false, 0, 0⟩
def RxCode.reset : RxCode := ⟨false, 0, 0, 0⟩

/-- A lane that has never run. -/
def Lane.reset : Lane :=
  ⟨32, 0, none, none, none, false, 0, false, [], 0, false, none, TxCode.reset, RxCode.reset, none, [], 0, none, 0, none⟩

/-! ### Cameras (09) -/

/-- A sensor's frame of an exposure (R242): open until its Frame End; unpacked pixels by sensor row; long packets seen; sensor rows
lost for skew (R250); the flat-field bank in force since its Frame Start (R265). -/
structure SensorFrame where
  sensor : Nat
  isOpen : Bool
  rows : Kv (List Nat)
  packets : Nat
  skewed : List Nat
  flat : List Byte
  deriving DecidableEq, Repr

/-- An exposure whose rows have not been stitched (R244 to R248): its number, the sensors its TRIGGER selected, the end of its
EOF in ns, its centre in 250 ps, its interpolated position in 1/256 tick, its tag once that is taken, sensors missing whole,
frames, row pairs taken, whether one of them was kept, whether an error of it has been rung and whether it is counted in 6410+k:16,
and the white balance and matrices in force since its latest Frame Start, by subindex (R266). -/
structure Exposure where
  number : Nat
  sensors : Nat
  eofAt : Nat
  centre : Nat
  measured : Option Int
  tag : Option Int
  missing : List Nat
  frames : List SensorFrame
  pairs : Nat
  kept : Bool
  reported : Bool
  counted : Bool
  colours : Kv (List Byte)
  deriving DecidableEq, Repr

/-- A pixel of the measurement stream (R255): L* in 1/512, a* and b* in 1/256. -/
structure Lab where
  l : Nat
  a : Int
  b : Int
  deriving DecidableEq, Repr

/-- A row of the strip (R249, R256): coordinate in 1/256 tick, exposure, flags, the number of its row in the crop ring since that
was enabled, if it is there, its row of the measurement stream and its rows rendered for the monitor and record views, if it makes them. -/
structure StripRow where
  coordinate : Int
  exposure : Nat
  flags : Nat
  ring : Option Nat
  lab : List (Option Lab)
  monitor : List (Option (Nat × Nat × Nat))
  record : List (Option (Nat × Nat × Nat))
  deriving DecidableEq, Repr

/-- A camera beside its objects. `travel`, `travelMax`: travel in pm and its highest value, `streamFrom`: print position at which it came to STREAM, `moving`: a forward count has come
(R244); `nextDue`: index of the next exposure; `lastCentre`: t_c of the last one in 250 ps; `number`: the last exposure number;
`packet`: CSI-2 packet in progress, `csiSeq` the last CSI frame's tag; `statusAt`: last BRIDGE_STATUS, none before the first;
`clearAt`: since when the cause of LOST is gone; `downAt`: last TRIGGER or CCI_REQUEST; `cciAt`: last CCI_REQUEST; `wokeAt`: last
wake of the downstream transmitter; `seqs`: frames sent by type; `wLast`: coordinate of the last row kept; `strip`: rows kept, latest first; `rows`: how many joined it; `banks`:
tiles whose idle flat-field bank has been filled (R265); `measure`, `record`, `crop`, `monitor`: the outputs' settings in force; `cropSlot`: the
next row slot; `frames`, `monitorAt`, `recordAt`, `recordRow`: monitor frames written, instants of the last frames, and the row 0
coordinate of the last record frame. `waking`: t_c in 250 ps of an exposure that fell due while the transmitter woke (R247, R263);
`cciHeld`: a CCI_REQUEST that waits (R245); `strays`: the latest frame numbers that matched no exposure (R242); `outOn`: the outputs run,
from an exposure on until the camera is LOST (R262). -/
structure Camera where
  travel : Frac
  travelMax : Frac
  streamFrom : Nat
  moving : Bool
  nextDue : Nat
  lastCentre : Option Nat
  number : Nat
  exposures : List Exposure
  packet : Option (List Byte)
  csiSeq : Option Nat
  statusAt : Option Nat
  clearAt : Option Nat
  downAt : Nat
  cciAt : Nat
  wokeAt : Nat
  seqs : Kv Nat
  wLast : Option Int
  strip : List StripRow
  rows : Nat
  banks : List Nat
  measure : Nat
  record : List Byte
  crop : List Byte
  monitor : List Byte
  cropSlot : Nat
  frames : Nat
  monitorAt : Nat
  recordAt : Nat
  recordRow : Option Int
  waking : Option Nat
  cciHeld : Option (List Byte)
  strays : List Nat
  outOn : Bool
  deriving DecidableEq, Repr

/-- A camera that is OFF. -/
def Camera.reset : Camera :=
  ⟨⟨0, 1⟩, ⟨0, 1⟩, 0, false, 1, none, 0, [], none, none, none, none, 0, 0, 0, [], none, [], 0, [], 0, [], [], [], 0, 0, 0, 0, none,
    none, none, [], false⟩

/-! ### Recording (11) -/

/-- A record frame that waits in a SOURCE buffer (R308, R313): its place in the order of arrival, camera, row 0 coordinate in 1/256
tick, displacement in quarter rows, instant in ns, whether it follows a skip, and its samples, plane after plane (R258). -/
structure RecFrame where
  arrived : Nat
  camera : Nat
  row0 : Int
  displacement : Nat
  ns : Nat
  follows : Bool
  samples : List Nat
  deriving DecidableEq, Repr

/-- The motion of a prediction unit (R314): its rectangle, the count of the picture it refers to, and the vector in quarter samples. -/
structure Motion where
  x : Nat
  y : Nat
  w : Nat
  h : Nat
  ref : Nat
  mv : Int × Int
  deriving DecidableEq, Repr

/-- A picture in a SHORT or LONG buffer (R313, R314): its count since enable, the travel up to it in quarter rows, its motion; `seed`
stands for its samples. -/
structure RefPic where
  count : Nat
  travel : Nat
  seed : Nat
  motion : List Motion
  deriving DecidableEq, Repr

/-- A stream of the encoder beside its objects (R311 to R317). `skipped`: displacement of frames skipped since the last one taken,
`follows`: there was one; `shorts`: SHORT references, latest first; `longs`: LONG ones by their places, `mark` the place the next
picture takes; `travel`: displacement of all pictures so far in quarter rows;
`since`: pictures since the last IDR; `count`: pictures since enable; `base`: QP to start from, none before the first picture;
`capped`: the last picture exceeded the cap; `history`: instants and bits of pictures within the last second, latest first; `pics`:
bytes of the pictures in the output ring, oldest first; `place`: ring offset of the next picture. -/
structure Stream where
  waiting : List RecFrame
  skipped : Nat
  follows : Bool
  shorts : List RefPic
  longs : List (Nat × RefPic)
  travel : Nat
  mark : Option Nat
  idrNext : Bool
  since : Nat
  count : Nat
  base : Option Nat
  capped : Bool
  history : List (Nat × Nat)
  pics : List Nat
  place : Nat
  deriving DecidableEq, Repr

/-- A stream that has coded nothing. -/
def Stream.reset : Stream := ⟨[], 0, false, [], [], 0, none, false, 0, 0, none, false, [], [], 0⟩

/-- A short-term reference picture set of H.265: differences of picture order count below and above the picture's own, nearest first,
each with whether the picture itself uses it. -/
structure ShortSet where
  below : List (Int × Bool)
  above : List (Int × Bool)
  deriving DecidableEq, Repr

/-- What a replay keeps of a sequence parameter set (R318, R319): profile, level, chroma format, width and height after cropping, luma
and chroma bit depth, samples of a CTB's side, bits of the picture order count, pictures that may wait reordered, their latency plus 1
(0 for no limit), pictures the buffer holds, its reference sets, and its long-term pictures where slices may name any. -/
structure Sps where
  profile : Nat
  level : Nat
  chroma : Nat
  width : Nat
  height : Nat
  depth : Nat
  depthC : Nat
  ctb : Nat
  pocBits : Nat
  reorder : Nat
  latency : Nat
  buffers : Nat
  shorts : List ShortSet
  longs : Option (List (Nat × Bool))
  deriving DecidableEq, Repr

/-- What a replay keeps of a picture parameter set: its sequence parameter set, whether slices carry pic_output_flag, their extra bits. -/
structure Pps where
  sps : Nat
  outputFlag : Bool
  extra : Nat
  deriving DecidableEq, Repr

/-- A decoded picture of a replay (R319, R320): its order count, whether it still waits for its output, ahead of all later ones (`due`),
pictures that have come since, whether it is a reference; width, height and bit depth; CTBs concealed, of a side, with all of them
concealed; whether it is DERIVED; its web tag; where its free samples begin. -/
structure DecPic where
  poc : Int
  waits : Bool
  due : Bool
  later : Nat
  ref : Bool
  width : Nat
  height : Nat
  depth : Nat
  ctb : Nat
  concealed : Nat
  derived : Bool
  tag : List Byte
  seed : Nat
  deriving DecidableEq, Repr

/-- A replay of the decoder (R318 to R320): the command's argument; bytes consumed; parameter sets by their numbers; the sequence
parameter set in force; whether an SPS has come; pictures skipped until an IDR; whether RASL pictures are skipped; whether the next
IRAP picture starts afresh; the order count that the next one's is counted from; pictures decoded; the web tag of the next one; the next slot, frames written, the time of the last one,
and its slot's address, width, height and depth. -/
structure Replay where
  address : Nat
  length : Nat
  maxWidth : Nat
  maxHeight : Nat
  base : Nat
  frames : Nat
  rate : Nat
  done : Nat
  spss : List (Nat × Sps)
  ppss : List (Nat × Pps)
  active : Option Sps
  started : Bool
  needIdr : Bool
  skipRasl : Bool
  fresh : Bool
  poc : Int
  pictures : List DecPic
  tag : List Byte
  slot : Nat
  count : Nat
  lastAt : Nat
  prev : Option (Nat × Nat × Nat × Nat)
  deriving DecidableEq, Repr

/-- A recorded page line (R325): bar, line, the bar's line count, and the levels of its page columns, zeros left out. -/
structure RecLine where
  bar : Nat
  line : Nat
  count : Nat
  levels : Kv Nat
  deriving DecidableEq, Repr

/-- A group map (R326): bar, from-line, epoch, a word per page column. -/
structure RecMap where
  bar : Nat
  line : Nat
  epoch : Nat
  words : List Nat
  deriving DecidableEq, Repr

/-- The fire record of a ticket (R325 to R327): recorded bars, page size, lines and maps as screened, the outcome of each group of a
line by 4 x (65,536 x bar + line) + group, unfired lines as (head, group, count), bands packed as (bar, band), finished crates by
entry, whether the ticket ended early, and whether a band missed its writes. -/
structure FireRec where
  ticket : Nat
  bars : Nat
  width : Nat
  length : Nat
  lines : List RecLine
  maps : List RecMap
  outcomes : Kv Nat
  unfired : List (Nat × Nat × Nat)
  packed : List (Nat × Nat)
  crates : Kv (List Byte)
  early : Bool
  short : Bool
  deriving DecidableEq, Repr

/-- A crop or capture being packed (R321, R322): its number, kind, camera, ticket, PARTIAL, rows, bytes per row, row headers, how many
entries it has and the finished crates among them. -/
structure PackJob where
  number : Nat
  kind : Nat
  camera : Nat
  ticket : Nat
  rowsLost : Bool
  rows : Nat
  rowBytes : Nat
  headers : List Byte
  entries : Nat
  crates : Kv (List Byte)
  deriving DecidableEq, Repr

/-- A crate whose input the holding store keeps until it is checked (R323): of the fire record of a ticket or of a job, its entry and
band, its rows and its DEFLATE payload. -/
structure HeldCrate where
  fire : Bool
  owner : Nat
  entry : Nat
  band : Nat
  rows : List (List Byte)
  payload : List Byte
  deriving DecidableEq, Repr

/-- A crop to be cut (R328): camera, ticket, first column and columns, coordinate of the tile's middle, rows. -/
structure CropWait where
  camera : Nat
  ticket : Nat
  column : Nat
  columns : Nat
  middle : Int
  rows : Nat
  deriving DecidableEq, Repr

/-- A capture queued (R329). -/
structure CaptureWait where
  camera : Nat
  first : Nat
  rows : Nat
  column : Nat
  columns : Nat
  since : Nat
  deriving DecidableEq, Repr

/-- A page whose ENDED entry is posted, for pictures of its web (R305): ticket, slot, position, length. -/
structure PastPage where
  ticket : Nat
  slot : Nat
  place : Nat
  length : Nat
  deriving DecidableEq, Repr

/-- Recording. `store`: start and length of the items the store holds, oldest first; `next`: where the next may start; `cropsOf`: crops
cut of a ticket. -/
structure Recorder where
  streams : Kv Stream
  arrivals : Nat
  replay : Option Replay
  fires : List FireRec
  jobs : List PackJob
  held : List HeldCrate
  crops : List CropWait
  capture : Option CaptureWait
  store : List (Nat × Nat)
  next : Nat
  jobNumber : Nat
  cropsOf : Kv Nat
  past : List PastPage
  deriving DecidableEq, Repr

/-- Nothing recorded. -/
def Recorder.reset : Recorder := ⟨[], 0, none, [], [], [], [], none, [], 0, 0, [], []⟩

/-- The lanes and the units they serve. `iso`: cellar commitments in MB/s of the encoder streams (0 to 3) and the decoder (4). -/
structure Units where
  lanes : Kv Lane
  cams : Kv Camera
  iso : Kv Nat
  record : Recorder
  deriving DecidableEq, Repr

/-! ### Keys (19) -/

/-- The keys (R485, R486): head-family keys by place, empty for none; the service key staged, and whether it is fused. -/
structure Keys where
  family : Kv (List Byte)
  staged : List Byte
  fused : Bool
  deriving DecidableEq, Repr

/-! ### The whole -/

/-- The controller, all but the cellar's bytes. `now`: control-clock time in ns. `free`: how many free values have
been taken (the model's own field, log entry 2). `out`: what left the balls, newest first (the model's own). -/
structure Ctl where
  now : Nat
  free : Nat
  out : List Out
  dict : Kv Val
  ydp : Ydp
  bell : Bell
  flt : Faults
  clock : Clock
  host : HostPort
  phase : Phase
  adm : Admission
  axs : Axes
  care : Care
  chn : Chains
  page : PageData
  pos : Position
  fire : Fire
  mem : CellarCtl
  loop : Loop
  use : Usage
  keys : Keys
  attic : Attic
  life : Life
  pwr : Power
  units : Units
  deriving DecidableEq, Repr

/-- The machine: the controller and the cellar's bytes (R337), an unlisted byte reading 0 (R354). -/
structure Mach where
  ctl : Ctl
  cellar : Kv Byte
  deriving DecidableEq, Repr

/-- The state: the machine and the commands that wait, first in, first out. -/
structure State where
  pending : List Instr
  mach : Mach
  deriving DecidableEq, Repr

/-- The controller right after reset. -/
def Ctl.reset : Ctl :=
  { now := 0, free := 0, out := [], dict := [],
    ydp := ⟨[], none, [], [], false, false, 0, 0, [], none, Net.reset⟩,
    bell := ⟨[], [], [], [], 0⟩,
    flt := ⟨[], [], none, false, false, 0, none, none⟩,
    clock := ⟨0, 0, Ptp.reset, []⟩,
    host := ⟨[], [], false, false, false, false, false, false, false, [], 0, 64, 0x1F3C, 0⟩,
    phase := .fresh,
    adm := ⟨[], none, 0, 0, [(0, 1200)], [], [], [], List.range 10, [], 0, [], true⟩,
    axs := ⟨[], [], none⟩,
    care := ⟨[], [], [], [], [], [], []⟩,
    chn := ⟨[], []⟩,
    page := ⟨[], []⟩,
    pos := ⟨⟨0, 1⟩, Encoder.reset, Encoder.reset, false, ⟨false, 0⟩, none, false, none, none, ⟨0, 1⟩, ⟨0, 1⟩, ⟨0, 1⟩, 0, none⟩,
    fire := ⟨[], [], 0, 0, 0, 0, 0, none, none, none, []⟩,
    mem := ⟨0, 0, 0, 0, false, [], 0, 0, none, 0, 0, 0, none, []⟩,
    loop := Loop.reset,
    use := ⟨UseCounts.zero, 3600, false, false, none, 0, 0, []⟩,
    keys := ⟨[], [], false⟩,
    attic := ⟨[], [], []⟩,
    life := ⟨false, false, false, none, false, 0, 1, 0, .idcode⟩,
    pwr := ⟨[], [], [], [], [], [], [], 9, 0, 0, 0, [], false, true, []⟩,
    units := ⟨[], [], [], Recorder.reset⟩ }

/-- The machine right after reset: every object at its default (R29), the cellar wiped (R354), no command waiting. -/
def State.reset : State :=
  { pending := [], mach := { ctl := Ctl.reset, cellar := [] } }

end Sys2Proof.Machine
end

