-- ==== Sys2Proof/Machine/Ops.lean ====
section
/-! DEFINITION. The named operations over the machine's stores: sparse stores in canonical form, the dictionary's
objects, output, free values, time, the cellar's bytes. -/

namespace Sys2Proof.Machine

/-! ### Sparse stores -/

/-- The value a store holds at a key, `d` where none is listed. -/
def kvGet {α : Type} (d : α) : Kv α → Nat → α
  | [], _ => d
  | (k, v) :: r, x => if k = x then v else kvGet d r x

/-- A store without a key. -/
def kvDrop {α : Type} : Kv α → Nat → Kv α
  | [], _ => []
  | (k, v) :: r, x => if k = x then kvDrop r x else (k, v) :: kvDrop r x

/-- A pair put before the first greater key. -/
def kvIns {α : Type} : Kv α → Nat → α → Kv α
  | [], x, w => [(x, w)]
  | (k, v) :: r, x, w => if x < k then (x, w) :: (k, v) :: r else (k, v) :: kvIns r x w

/-- A store with a key set; setting what an unlisted key reads as removes the entry. -/
def kvSet {α : Type} [DecidableEq α] (d : α) (m : Kv α) (x : Nat) (w : α) : Kv α :=
  if w = d then kvDrop m x else kvIns (kvDrop m x) x w

/-- The canonical form: keys strictly rising, no entry equal to what an unlisted key reads as. -/
abbrev kvWf {α : Type} (d : α) (m : Kv α) : Prop :=
  m.Pairwise (fun a b => a.1 < b.1) ∧ ∀ e ∈ m, e.2 ≠ d

/-! ### The object tables (R24, R57) -/

/-- Page and rows of an index, if it exists. -/
def pageOf (idx : Nat) : List (Nat × Nat × List ObjRow) → Option (List ObjRow)
  | [] => none
  | (b, n, rows) :: r => if b ≤ idx ∧ idx < b + n then some rows else pageOf idx r

/-- A row covers a subindex of an index. -/
def ObjRow.covers (r : ObjRow) (idx sub : Nat) : Bool :=
  decide (r.base ≤ idx ∧ idx < r.base + r.count ∧ r.sub ≤ sub ∧ (sub - r.sub) % r.subStep = 0 ∧
    (sub - r.sub) / r.subStep < r.subs)

/-- The index exists (check 4 of R33). -/
def indexExists (idx : Nat) : Bool := (pageOf idx objectPages).isSome

/-- The object of a key. -/
def objOf (key : Nat) : Option ObjRow :=
  match pageOf (key / 256) objectPages with
  | some rows => rows.find? (fun r => r.covers (key / 256) (key % 256))
  | none => none

/-- What an object takes at reset (R29). Three defaults depend on the unit's number (R206, R413). -/
def dfltOf (key : Nat) : Val :=
  if 0x3164 ≤ key / 256 ∧ key / 256 ≤ 0x3167 ∧ key % 256 = 3 then .num 1
  else if 0x2031 ≤ key / 256 ∧ key / 256 ≤ 0x2037 ∧ key % 256 ≤ 2 then .num 0
  else match objOf key with
    | some r => r.dflt
    | none => .num 0

/-! ### Objects of the dictionary -/

/-- The value the store holds for an object. -/
def Ctl.val (c : Ctl) (k : Nat) : Val := kvGet (dfltOf k) c.dict k

/-- A numeric object. -/
def Ctl.int (c : Ctl) (k : Nat) : Int :=
  match c.val k with
  | .num n => n
  | .oct _ => 0

/-- An unsigned numeric object. -/
def Ctl.nat (c : Ctl) (k : Nat) : Nat := (c.int k).toNat

/-- A BOOL object. -/
def Ctl.on (c : Ctl) (k : Nat) : Bool := c.int k != 0

/-- An octets object. -/
def Ctl.oct (c : Ctl) (k : Nat) : List Byte :=
  match c.val k with
  | .num _ => []
  | .oct b => b

/-- An object given a value. -/
def Ctl.put (c : Ctl) (k : Nat) (v : Val) : Ctl := { c with dict := kvSet (dfltOf k) c.dict k v }

/-- A numeric object given a value. -/
def Ctl.putN (c : Ctl) (k n : Nat) : Ctl := c.put k (.num n)

/-- A signed object given a value. -/
def Ctl.putI (c : Ctl) (k : Nat) (n : Int) : Ctl := c.put k (.num n)

/-- A BOOL object given a value. -/
def Ctl.putB (c : Ctl) (k : Nat) (b : Bool) : Ctl := c.put k (.num (if b then 1 else 0))

/-- An octets object given a value. -/
def Ctl.putO (c : Ctl) (k : Nat) (b : List Byte) : Ctl := c.put k (.oct b)

/-! ### Free values (log entry 2) -/

/-- The next free value below `n`. -/
def Ctl.fresh (c : Ctl) (n : Nat) : Nat := Config.freeNat c.free % n

/-- The controller with one free value taken. -/
def Ctl.took (c : Ctl) : Ctl := { c with free := c.free + 1 }

/-- `n` free bytes, from the counter on. -/
def freeBytes (from_ n : Nat) : List Byte :=
  (List.range n).map fun i => BitVec.ofNat 8 (Config.freeNat (from_ + i))

/-- The number of values a type holds, for counters. -/
def Ty.span : Ty → Nat
  | .bool => 2
  | .u8 | .i8 => 2 ^ 8
  | .u16 | .i16 => 2 ^ 16
  | .u32 | .i32 | .q16 => 2 ^ 32
  | .u64 | .i64 => 2 ^ 64
  | .str | .octets => 0
  | .time => 2 ^ 80

/-- A counter object raised by `n`. Past the top of its type the spec states no value: a free one (log entry 7). -/
def Ctl.bumpBy (c : Ctl) (k n : Nat) : Ctl :=
  match objOf k with
  | some r =>
    if c.nat k + n < r.ty.span then c.putN k (c.nat k + n) else (c.putN k (c.fresh r.ty.span)).took
  | none => c

/-- A counter object raised by 1. -/
def Ctl.bump (c : Ctl) (k : Nat) : Ctl := c.bumpBy k 1

/-- A 32-bit counter that wraps, raised by `n`. -/
def Ctl.bumpWrap (c : Ctl) (k n : Nat) : Ctl := c.putN k ((c.nat k + n) % 2 ^ 32)

/-! ### Output and time -/

/-- What leaves the balls. -/
def Ctl.emit (c : Ctl) (o : Out) : Ctl := { c with out := o :: c.out }

/-- The addend of the local clock for one 4 ns cycle, in 2^-32 ns (R361): nominal plus 2400:0A in 0.001 ppm. -/
def Ctl.addend (c : Ctl) : Nat := (4 * 2 ^ 32 * (10 ^ 9 + c.int Obj.frequency_adjust) / 10 ^ 9).toNat

/-- The local clock in 2^-32 ns at the present (R361): by the addend, in SLEEP in steps of 1/32,768 s. -/
def Ctl.localSub (c : Ctl) : Nat :=
  if c.phase = .asleep then c.clock.sub + (c.now - c.clock.at_) * 32768 / 10 ^ 9 * (10 ^ 9 * 2 ^ 17)
  else c.clock.sub + (c.now - c.clock.at_) / 4 * c.addend

/-- The local clock in ns, 48-bit seconds (R361). -/
def Ctl.localNs (c : Ctl) : Nat := c.localSub / 2 ^ 32 % (2 ^ 48 * 10 ^ 9)

/-- Compact time (R362). -/
def Ctl.compact (c : Ctl) : Nat := c.localNs % 2 ^ 32

/-- A TIME value as its 10 bytes (R25). -/
def timeBytes (ns : Nat) : List Byte := le 4 (ns % 10 ^ 9) ++ le 6 (ns / 10 ^ 9)

/-- One millisecond in ns. -/
def ms : Nat := 1000000

/-- One 4 ns cycle of the control clock (log entry 1): time passes, and with it the local clock. -/
def Ctl.idleCycle (c : Ctl) : Ctl := { c with now := c.now + 4 }

/-! ### The cellar's bytes (R337) -/

/-- The usable bytes U (R21, R337): 2800:14. -/
def Ctl.usable (c : Ctl) : Nat := c.nat Obj.usable_bytes

/-- A byte of the cellar; one nothing has written reads 0 (R354). -/
def memGet (m : Kv Byte) (a : Nat) : Byte := kvGet 0 m a

/-- `n` bytes from an address, from a store that holds no other keys. -/
def memWalk : Kv Byte → Nat → Nat → List Byte
  | _, _, 0 => []
  | [], a, n + 1 => 0 :: memWalk [] (a + 1) n
  | (k, v) :: r, a, n + 1 => if k = a then v :: memWalk r (a + 1) n else 0 :: memWalk ((k, v) :: r) (a + 1) n

/-- `n` bytes of the cellar from an address: each as `memGet` reads it (Sys2Proof.Laws.memRead_get). -/
def memRead (m : Kv Byte) (a n : Nat) : List Byte := memWalk (m.filter fun e => decide (a ≤ e.1 ∧ e.1 < a + n)) a n

/-- The entries of bytes from an address: none for a zero byte. -/
def memCells (a : Nat) : List Byte → Kv Byte
  | [] => []
  | b :: r => if b = 0 then memCells (a + 1) r else (a, b) :: memCells (a + 1) r

/-- Bytes written to the cellar from an address. -/
def memWrite (m : Kv Byte) (a : Nat) (b : List Byte) : Kv Byte :=
  let z := a + b.length
  (m.filter fun e => decide (e.1 < a)) ++ memCells a b ++ m.filter fun e => decide (z ≤ e.1)

/-- A range of the cellar set to zero: no entry is left in it (R354). -/
def memWipe (m : Kv Byte) (a n : Nat) : Kv Byte := m.filter fun e => decide (e.1 < a ∨ a + n ≤ e.1)

/-- The cellar's canonical form. -/
abbrev Mach.memWf (m : Mach) : Prop := kvWf (0 : Byte) m.cellar

/-! ### Lists -/

/-- `f` applied to each of a list in turn. -/
def forEach {α β : Type} (xs : List α) (f : β → α → β) (b : β) : β := xs.foldl f b

/-- A change of the controller alone. -/
def Mach.onCtl (m : Mach) (f : Ctl → Ctl) : Mach := { m with ctl := f m.ctl }

/-- The outcome of a change of the controller alone. -/
def nextCtl (s : State) (c : Ctl) : Host.Outcome State Fault Refusal :=
  .next { s with mach := { s.mach with ctl := c } }

/-- The outcome of a change of the machine. -/
def nextMach (s : State) (m : Mach) : Host.Outcome State Fault Refusal := .next { s with mach := m }

end Sys2Proof.Machine
end

