-- ==== Sys2Proof/Machine/Bell.lean ====
section
/-! DEFINITION. The bell (chapter 14): rings, delivery to the targets, event records, claims and completions. -/

namespace Sys2Proof.Machine

/-! ### Configuration words (R377) -/

/-- Reset word of a source: 512 to 703 are enabled, EVENT, level 15 (R377). -/
def bellDefault (n : Nat) : Nat := if 512 ≤ n ∧ n < 704 then 0x130F else 0

/-- The ENABLE, TARGET and LEVEL bits of a source. -/
def Ctl.bellCfg (c : Ctl) (n : Nat) : Nat := kvGet (bellDefault n) c.bell.config n

/-- LEVEL of a configuration word. -/
def cfgLevel (w : Nat) : Nat := w % 16

/-- TARGET of a configuration word. -/
def cfgTarget (w : Nat) : Nat := w / 256 % 4

/-- ENABLE of a configuration word. -/
def cfgEnable (w : Nat) : Bool := w / 4096 % 2 == 1

/-- The bits of a written word that are kept: ENABLE, TARGET and LEVEL. -/
def cfgKept (w : Nat) : Nat := w / 4096 % 2 * 4096 + w / 256 % 4 * 256 + w % 16

/-- PENDING of a source. -/
def Ctl.isPending (c : Ctl) (n : Nat) : Bool := kvGet false c.bell.pending n

/-- ACTIVE of a source. -/
def Ctl.isActive (c : Ctl) (n : Nat) : Bool := kvGet false c.bell.active n

/-- The word as it reads, with ACTIVE at 11 and PENDING at 10 (R377). -/
def Ctl.bellWord (c : Ctl) (n : Nat) : Nat :=
  c.bellCfg n + (if c.isActive n then 2048 else 0) + (if c.isPending n then 1024 else 0)

/-- Reserved numbers never ring (R375). -/
def bellReserved (n : Nat) : Bool :=
  decide ((24 ≤ n ∧ n ≤ 31) ∨ (50 ≤ n ∧ n ≤ 63) ∨ (195 ≤ n ∧ n ≤ 223) ∨ (298 ≤ n ∧ n ≤ 303) ∨ (328 ≤ n ∧ n ≤ 335) ∨
    (349 ≤ n ∧ n ≤ 351) ∨ (357 ≤ n ∧ n ≤ 359) ∨ (373 ≤ n ∧ n ≤ 383) ∨ (389 ≤ n ∧ n ≤ 399) ∨ (411 ≤ n ∧ n ≤ 415) ∨
    (421 ≤ n ∧ n ≤ 431) ∨ (438 ≤ n ∧ n ≤ 511) ∨ (704 ≤ n ∧ n ≤ 959) ∨ 1024 ≤ n)

/-! ### Delivery (R379, R382) -/

/-- The stack of a target, top first. -/
def Ctl.stack (c : Ctl) (t : Nat) : List (Nat × Nat) := kvGet [] c.bell.serving t

/-- A source can be delivered to target `t` (R379). -/
def Ctl.deliverable (c : Ctl) (t n : Nat) : Bool :=
  c.isPending n && cfgEnable (c.bellCfg n) && cfgTarget (c.bellCfg n) == t &&
    (match c.stack t with
      | [] => true
      | (_, l) :: _ => decide (l < cfgLevel (c.bellCfg n)))

/-- The better of two sources: higher level, then lower number (R379). -/
def Ctl.betterSource (c : Ctl) (best : Option Nat) (n : Nat) : Option Nat :=
  match best with
  | none => some n
  | some m =>
    if cfgLevel (c.bellCfg m) < cfgLevel (c.bellCfg n) ∨
      (cfgLevel (c.bellCfg m) = cfgLevel (c.bellCfg n) ∧ n < m) then some n else some m

/-- The delivered source of a target (R379). -/
def Ctl.delivered (c : Ctl) (t : Nat) : Option Nat :=
  ((c.bell.pending.map (·.1)).filter (fun n => c.deliverable t n)).foldl c.betterSource none

/-- Some source is deliverable to target `t` at level `l`. -/
def Ctl.levelReady (c : Ctl) (t l : Nat) : Bool :=
  (c.bell.pending.map (·.1)).any fun n => c.deliverable t n && cfgLevel (c.bellCfg n) == l

/-- INT0_N and INT1_N are low while a source is deliverable to their target (R382). -/
def Ctl.intPin (c : Ctl) (t : Nat) : Bool := (c.delivered t).isNone

/-! ### MSI-X (R373, R382) -/

/-- Nothing holds vector `v` (R373). -/
def Ctl.msixFree (c : Ctl) (v : Nat) : Bool :=
  c.host.enable && !c.host.functionMask && c.host.busMaster && !c.host.d3hot &&
    !(kvGet MsixEntry.reset c.host.table v).masked

/-- In D3hot with PME_En set, a pending vector asserts PCIE_WAKE_N until the function returns to D0 (R373). -/
def Ctl.pmeAsserts (c : Ctl) : Ctl :=
  if c.host.d3hot && c.host.pmeEnable && !c.host.wakeLow && !c.host.waiting.isEmpty then
    ({ c with host := { c.host with wakeLow := true } }).emit (.pin "PCIE_WAKE_N" false)
  else c

/-- A vector sent, or left pending in its bit while something holds it (R373). -/
def Ctl.msixRaise (c : Ctl) (v : Nat) : Ctl :=
  let e := kvGet MsixEntry.reset c.host.table v
  if c.msixFree v then
    ({ c with host := { c.host with waiting := kvSet false c.host.waiting v false } }).emit (.msix e.address e.data)
  else
    ({ c with host := { c.host with waiting := kvSet false c.host.waiting v true } }).pmeAsserts

/-- After a change of the bell, each level that rises from 0 deliverable sources on target 2 sends its vector (R382). -/
def msixRises (before after : Ctl) : Ctl :=
  forEach (List.range 16) (fun c l => if !before.levelReady 2 l && after.levelReady 2 l then c.msixRaise l else c) after

/-- After a claim or completion on target 2, the vector of the highest deliverable level is sent again (R382). -/
def Ctl.msixAgain (c : Ctl) : Ctl :=
  match c.delivered 2 with
  | some n => c.msixRaise (cfgLevel (c.bellCfg n))
  | none => c

/-! ### Event records (R54, R385, R386) -/

/-- A session. -/
def Ctl.sess (c : Ctl) (n : Nat) : Session := kvGet Session.closed c.ydp.sessions n

/-- A session replaced. -/
def Ctl.setSess (c : Ctl) (n : Nat) (v : Session) : Ctl :=
  { c with ydp := { c.ydp with sessions := kvSet Session.closed c.ydp.sessions n v } }

/-- A queued record of the same source absorbs a ring (R386). -/
def absorb (r : EvRec) : List EvRec → Option (List EvRec)
  | [] => none
  | q :: rest =>
    if q.source = r.source then
      some ({ q with sequence := r.sequence, rings := min 65535 (q.rings + 1), object := r.object, value := r.value,
                     lastTime := r.lastTime } :: rest)
    else (absorb r rest).map (q :: ·)

/-- A record given to a session: absorbed, queued, or lost when 64 are held (R54, R386). -/
def Ctl.handRecord (c : Ctl) (r : EvRec) (n : Nat) : Ctl :=
  let s := c.sess n
  if s.isOpen && c.on (Obj.events_enable n) then
    match absorb r s.queue with
    | some q => c.setSess n { s with queue := q }
    | none =>
      if s.queue.length + (match s.flight with
          | some f => f.records.length
          | none => 0) < 64 then c.setSess n { s with queue := s.queue ++ [r] }
      else (c.setSess n { s with pendingLost := s.pendingLost + 1 }).bump (Obj.events_lost n)
  else c

/-- The low 32 bits of an object's value (R385). -/
def Ctl.low32 (c : Ctl) (key : Nat) : Nat :=
  match c.val key with
  | .num n => uns 32 n
  | .oct b => fld b 0 4

/-- A source rings (R378, R383): PENDING is set, rings are counted, and its target is served. `unit` and `object`
fill the event record (R385), 0xFFFF and 0 standing for none. -/
def Ctl.ring (c : Ctl) (n : Nat) (unit : Nat := 0xFFFF) (object : Nat := 0) : Ctl :=
  if bellReserved n then c else
    let was := c.isPending n
    let c1 := (c.bump Obj.rings_total)
    let c2 := { c1 with bell := { c1.bell with pending := kvSet false c1.bell.pending n true } }
    let w := c.bellCfg n
    if cfgEnable w && cfgTarget w == 3 then
      let q := (c2.bell.eventSeq + 1) % 2 ^ 32
      let c3 := { c2 with bell := { c2.bell with eventSeq := q } }
      let flags := (if 960 ≤ n then 1 else 0) + (if 512 ≤ n ∧ n < 704 then 2 else 0) + (if was then 4 else 0)
      let r : EvRec :=
        ⟨n, cfgLevel w, flags, q, c.compact, 1, unit, object, if object = 0 then 0 else c.low32 object, c.compact⟩
      forEach (List.range 8) (fun c i => c.handRecord r (i + 1)) c3
    else msixRises c1 c2

/-- The bell's own state changed, and the MSI-X vectors that this makes rise (R382). -/
def Ctl.rebell (c : Ctl) (b : Bell) : Ctl := msixRises c { c with bell := b }

/-! ### Claims and completions (R380, R381) -/

/-- The claim word of a source and level (R380). -/
def claimWord (n l : Nat) : Nat := 2 ^ 31 + l * 65536 + n

/-- A claim of target `t`: the word returned and the controller after (R380). -/
def Ctl.claimTarget (c : Ctl) (t : Nat) : Nat × Ctl :=
  match c.delivered t with
  | none => (0, c)
  | some n =>
    let l := cfgLevel (c.bellCfg n)
    let b := { c.bell with pending := kvSet false c.bell.pending n false, active := kvSet false c.bell.active n true,
                           serving := kvSet [] c.bell.serving t ((n, l) :: c.stack t) }
    let c1 := c.rebell b
    (claimWord n l, if t = 2 then c1.msixAgain else c1)

/-- A completion that names the top of the stack: popped, ACTIVE cleared (R381); `none` for any other. -/
def Ctl.popTarget (c : Ctl) (t n : Nat) : Option Ctl :=
  match c.stack t with
  | (m, _) :: rest =>
    if m = n then
      let b := { c.bell with active := kvSet false c.bell.active n false, serving := kvSet [] c.bell.serving t rest }
      let c1 := c.rebell b
      some (if t = 2 then c1.msixAgain else c1)
    else none
  | [] => none

/-- Target `t`'s stack emptied, every source on it PENDING again (R381). -/
def Ctl.emptyTarget (c : Ctl) (t : Nat) : Ctl :=
  let b := forEach (c.stack t)
    (fun b e => { b with pending := kvSet false b.pending e.1 true, active := kvSet false b.active e.1 false }) c.bell
  c.rebell { b with serving := kvSet [] b.serving t [] }

/-- PENDING of a source cleared (R383). -/
def Ctl.clearPend (c : Ctl) (n : Nat) : Ctl :=
  { c with bell := { c.bell with pending := kvSet false c.bell.pending n false } }

/-- The claim word of the top of a stack, or 0 (R387). -/
def Ctl.topWord (c : Ctl) (t : Nat) : Nat :=
  match c.stack t with
  | (n, l) :: _ => claimWord n l
  | [] => 0

end Sys2Proof.Machine
end

