-- ==== Sys2Proof/Machine/Gate.lean ====
section
/-! DEFINITION. Checks 4 to 10 of R33 on a write and on a read, the command status word (R31, R32), and the encoding of
values (R25). -/

namespace Sys2Proof.Machine

/-! ### Values as bytes (R25) -/

/-- Bytes of a fixed-length type, 0 for STR and OCTETS. -/
def Ty.size : Ty → Nat
  | .bool | .u8 | .i8 => 1
  | .u16 | .i16 => 2
  | .u32 | .i32 | .q16 => 4
  | .u64 | .i64 => 8
  | .time => 10
  | .str | .octets => 0

/-- The type's code (R25). -/
def Ty.code : Ty → Nat
  | .bool => 1 | .u8 => 2 | .u16 => 3 | .u32 => 4 | .u64 => 5 | .i8 => 6 | .i16 => 6 | .i32 => 7 | .i64 => 8
  | .q16 => 9 | .str => 10 | .octets => 11 | .time => 12

/-- A signed type. -/
def Ty.signed : Ty → Bool
  | .i8 | .i16 | .i32 | .i64 | .q16 => true
  | _ => false

/-- The bytes of a value of a type (R25). -/
def encVal (t : Ty) (v : Val) : List Byte :=
  match t, v with
  | .time, .num n => timeBytes n.toNat
  | _, .num n => le t.size (uns (8 * t.size) n)
  | _, .oct b => b

/-- The value that bytes of a type hold (R25). -/
def decVal (t : Ty) (b : List Byte) : Val :=
  match t with
  | .str | .octets => .oct b
  | .time => .num ((fld b 4 6 * 10 ^ 9 + fld b 0 4 % 2 ^ 30 : Nat) : Int)
  | _ => if t.signed then .num (sfld b 0 t.size) else .num (fld b 0 t.size)

/-! ### Length and range (R25, R28) -/

/-- RFC 3629 well-formed UTF-8, by continuation bytes owed and the bounds of the next one. -/
def utf8Ok : List Byte → Nat → Nat → Nat → Bool
  | [], owed, _, _ => owed == 0
  | b :: r, owed, lo, hi =>
    let v := b.toNat
    if owed = 0 then
      if v < 0x80 then utf8Ok r 0 0x80 0xBF
      else if 0xC2 ≤ v ∧ v ≤ 0xDF then utf8Ok r 1 0x80 0xBF
      else if v = 0xE0 then utf8Ok r 2 0xA0 0xBF
      else if v = 0xED then utf8Ok r 2 0x80 0x9F
      else if 0xE1 ≤ v ∧ v ≤ 0xEF then utf8Ok r 2 0x80 0xBF
      else if v = 0xF0 then utf8Ok r 3 0x90 0xBF
      else if v = 0xF4 then utf8Ok r 3 0x80 0x8F
      else if 0xF1 ≤ v ∧ v ≤ 0xF3 then utf8Ok r 3 0x80 0xBF
      else false
    else if lo ≤ v ∧ v ≤ hi then utf8Ok r (owed - 1) 0x80 0xBF
    else false

/-- Check 8: the length fits the type (R25). -/
def lengthOk (r : ObjRow) (b : List Byte) : Bool :=
  match r.rng with
  | .bytes lo hi => if lo = hi then b.length == lo else true
  | .entries _ size => b.length % size == 0
  | .text _ => true
  | _ => b.length == r.ty.size

/-- Data rates of the cellar (R333), MT/s. -/
def cellarRates : List Int := [2133, 3200, 4266, 5500, 6400, 7500, 8533, 9600]

/-- Check 9, the range column alone (R28). -/
def rangeOk (r : ObjRow) (b : List Byte) : Bool :=
  match r.rng, decVal r.ty b with
  | .span lo hi st, .num n => decide (lo ≤ n ∧ n ≤ hi ∧ (n - lo) % st = 0)
  | .spanOr lo hi st os, .num n => decide (lo ≤ n ∧ n ≤ hi ∧ (n - lo) % st = 0) || os.contains n
  | .oneOf vs, .num n => vs.contains n
  | .pow2 lo hi, .num n => decide (lo ≤ n ∧ n ≤ hi ∧ 2 ^ Nat.log2 n.toNat = n.toNat)
  | .rates, .num n => cellarRates.contains n
  | .bytes lo hi, _ => decide (lo ≤ b.length ∧ b.length ≤ hi)
  | .entries mx _, _ => decide (b.length ≤ mx)
  | .text mx, _ => decide (b.length ≤ mx) && utf8Ok b 0 0x80 0xBF
  | .any, _ => r.ty != .time || decide (fld b 0 4 < 10 ^ 9)
  | _, _ => false

/-! ### Command status words (R31, R32) -/

/-- State field of a command's status word. -/
def Ctl.cmdState (c : Ctl) (k : Nat) : Nat := c.nat k / 2 ^ 24

/-- Starter field. -/
def Ctl.cmdStarter (c : Ctl) (k : Nat) : Nat := c.nat k / 2 ^ 20 % 16

/-- RUNNING or QUEUED (R32). -/
def Ctl.cmdBusy (c : Ctl) (k : Nat) : Bool := c.cmdState k == 1 || c.cmdState k == 4

/-- The status word of state `st`, starter `n`, code `code`. -/
def cmdWord (st n code : Nat) : Nat := st * 2 ^ 24 + n * 2 ^ 20 + code

/-- A command accepted and running. -/
def Ctl.cmdRun (c : Ctl) (k n : Nat) : Ctl := c.putN k (cmdWord 1 n 0)

/-- A command accepted and queued. -/
def Ctl.cmdQueue (c : Ctl) (k n : Nat) : Ctl := c.putN k (cmdWord 4 n 0)

/-- A command that reaches DONE, ringing its source. -/
def Ctl.cmdDone (c : Ctl) (k src : Nat) (unit : Nat := 0xFFFF) : Ctl :=
  (c.putN k (cmdWord 2 (c.cmdStarter k) 0)).ring src unit k

/-- A command that reaches FAILED with a code, ringing its source. -/
def Ctl.cmdFail (c : Ctl) (k code src : Nat) (unit : Nat := 0xFFFF) : Ctl :=
  (c.putN k (cmdWord 3 (c.cmdStarter k) code)).ring src unit k

/-- A command accepted whose end comes in the same step. -/
def Ctl.cmdNow (c : Ctl) (k n src : Nat) (unit : Nat := 0xFFFF) : Ctl := (c.cmdRun k n).cmdDone k src unit

/-- A command accepted and failed in the same step. -/
def Ctl.cmdNowFail (c : Ctl) (k n code src : Nat) (unit : Nat := 0xFFFF) : Ctl := (c.cmdRun k n).cmdFail k code src unit

/-! ### Who may write what (checks 4 to 7) -/

/-- The object of another session's index 1100 + n (R39). -/
def foreignSession (n key : Nat) : Bool :=
  decide (0x1101 ≤ key / 256 ∧ key / 256 ≤ 0x1108 ∧ key / 256 ≠ 0x1100 + n)

/-- The write role an access entry and the life cycle ask for (R27, R429): in MANUFACTURE an INTEGRATOR suffices for
writes marked /S. -/
def Ctl.writeRole (c : Ctl) (r : ObjRow) (key : Nat) (b : List Byte) : Nat :=
  if key = Obj.take_control ∧ b = [1] then 3
  else if r.role = 3 ∧ c.nat Obj.lifecycle_state = 0 then 2 else r.role

/-- Check 7 (R39): the grant, or an object a session may write without it. -/
def Ctl.grantOk (c : Ctl) (n key : Nat) : Bool :=
  c.nat Obj.controlling_session == n || key == Obj.take_control || key == Obj.events_enable n

/-- Objects DECOMMISSIONED still lets be written (R429). -/
def decommissionedOk (key : Nat) : Bool :=
  key == Obj.take_control || key == Obj.release_control || key == Obj.hand_over ||
    decide (0x1101 ≤ key / 256 ∧ key / 256 ≤ 0x1108) || key == Obj.usage_tail || key == Obj.record_window

/-- Check 10, life cycle (R429). -/
def Ctl.lifecycleForbids (c : Ctl) (key : Nat) : Bool :=
  let l := c.nat Obj.lifecycle_state
  if l = 4 then !decommissionedOk key
  else if key = Obj.stage_service_key then l != 0
  else if key = Obj.set_family_key ∨ key = Obj.clear_family_key then l == 2
  else false

/-! ### Live values of stopped rides (R30) -/

/-- A ride is stopped; the order of 2010 is that of R401 (log entry 8). -/
def Ctl.rideStopped (c : Ctl) (j : Nat) : Bool := c.nat (Obj.ride_state j) == 0

/-- The link rides of a chain, of the quads of its lanes, its primary lane's first. -/
def Ctl.chainRides (c : Ctl) (ch : Nat) : List Nat :=
  (([c.nat (Obj.primary_lane ch)] ++ (if c.nat (Obj.chain_mode ch) = 1 then [c.nat (Obj.secondary_lane ch)] else [])).filter
    (· < 32)).map fun l => 7 + l / 4

/-- The ride whose live value an object is, where a chapter says so (R30). -/
def Ctl.rideOfObject (c : Ctl) (key : Nat) : Option Nat :=
  let i := key / 256
  let s := key % 256
  if key = Obj.fetch_lead_min then some 0
  else if 0x3410 ≤ i ∧ i ≤ 0x3417 ∧ 6 ≤ s ∧ s ≤ 0x0A then some 0
  else if 0x3200 ≤ i ∧ i ≤ 0x32FF ∧ 9 ≤ s ∧ s ≤ 0x0C then (c.chainRides ((i - 0x3200) / 16)).head?
  else if 0x3140 ≤ i ∧ i ≤ 0x315F ∧ 2 ≤ s ∧ s ≤ 0x11 then some (7 + (i - 0x3140) / 4)
  else if i = 0x6100 ∧ 0x22 ≤ s ∧ s ≤ 0x2D then some 0
  else if 0x6410 ≤ i ∧ i ≤ 0x6413 ∧ 0x14 ≤ s ∧ s ≤ 0x1E then some (1 + (i - 0x6410))
  else if (i = 0x6500 ∧ 4 ≤ s ∧ s ≤ 8) ∨ i = 0x6550 then some 0
  else if 0x6510 ≤ i ∧ i ≤ 0x6513 ∧ 1 ≤ s ∧ s ≤ 9 then some (1 + (i - 0x6510))
  else if 0x6520 ≤ i ∧ i ≤ 0x6527 ∧ 1 ≤ s ∧ s ≤ 8 then some 0
  else if 0x6610 ≤ i ∧ i ≤ 0x6613 ∧ (s = 0x0A ∨ (0x0D ≤ s ∧ s ≤ 0x10) ∨ s = 0x14 ∨ s = 0x15) then some 5
  else if i = 0x6620 ∧ 2 ≤ s ∧ s ≤ 6 then some 5
  else if i = 0x6600 ∧ (s = 5 ∨ (7 ≤ s ∧ s ≤ 0x0A) ∨ s = 0x0C) then some 5
  else none

/-- The object is a live value of a stopped ride. -/
def Ctl.rideRefuses (c : Ctl) (key : Nat) : Bool :=
  match c.rideOfObject key with
  | some j => c.rideStopped j
  | none => false

/-! ### The checks -/

/-- Slot n of an object of index 5000 + n. -/
def slotOf (key : Nat) : Nat := key / 256 - 0x5000

/-- Check 10 on a write: life cycle, print state, seal, command state (R33, R26, R32). -/
def Ctl.stateCode (c : Ctl) (r : ObjRow) (key : Nat) : Nat :=
  if c.lifecycleForbids key then St.LIFECYCLE
  else if r.acc = .rwStop ∧ c.nat Obj.power_state = 3 then St.PRINT_RUNNING
  else if r.acc = .rwSeal ∧ c.nat (Obj.slot_state (slotOf key)) = 2 then St.SLOT_SEALED
  else if r.acc = .cmd ∧ c.cmdBusy key then St.BUSY
  else St.OK

/-- Fields of a command's octet argument within the ranges its table names (R28). -/
def argOk (key : Nat) (b : List Byte) : Bool :=
  let u (o : Nat) : Nat := fld b o 1
  if key = Obj.array_load then decide (u 12 ≤ 63 ∧ fld b 13 3 = 0)
  else if key = Obj.appearance_load then decide (u 12 ≤ 3 ∧ fld b 13 3 = 0)
  else if key = Obj.set_time then decide (fld b 0 4 < 10 ^ 9 ∧ u 10 ≤ 1 ∧ u 11 = 0)
  else if key = Obj.step_time then decide (u 8 ≤ 1 ∧ fld b 9 3 = 0)
  else if key = Obj.cal_flat_field then decide (u 0 ≤ 3 ∧ 1 ≤ u 1 ∧ u 1 ≤ 15 ∧ 16 ≤ fld b 2 2 ∧ fld b 2 2 ≤ 4096)
  else if key = Obj.cal_registration then decide (u 1 ≤ 7 ∧ 1 ≤ u 2 ∧ u 2 ≤ 7 ∧ u 3 ≤ 1) && bit (u 0) (u 1)
  else if key = Obj.set_family_key then decide (u 0 ≤ 3 ∧ u 1 = 0)
  else if key = Obj.decode then
    decide (fld b 12 2 ≤ 4096 ∧ fld b 14 2 ≤ 2160 ∧ fld b 16 8 % 4096 = 0 ∧ 2 ≤ u 24 ∧ u 24 ≤ 16 ∧ 1 ≤ u 25 ∧ u 25 ≤ 60) &&
      b.drop 26 == zeros 6
  else if key = Obj.capture then
    decide (u 0 ≤ 3 ∧ fld b 1 3 = 0 ∧ 1 ≤ fld b 12 4 ∧ fld b 12 4 ≤ 65536 ∧ fld b 20 4 % 2 = 0)
  else if 0x6410 ≤ key / 256 ∧ key / 256 ≤ 0x6413 ∧ key % 256 = 0x12 then
    decide (u 0 ≤ 3 ∧ u 1 ≤ 1 ∧ u 2 < 128 ∧ 1 ≤ u 3 ∧ u 3 ≤ 2 ∧ 1 ≤ u 6 ∧ u 6 ≤ 32 ∧ u 7 = 0) &&
      (u 1 == 0 || b.drop 8 == zeros 32)
  else true

/-- Octet objects whose contents a range column restricts further than their length (R28). An area of the cellar
ends within `big` bytes. -/
def contentIn (c : Ctl) (big key : Nat) (b : List Byte) : Bool :=
  let n := fld b 0 8
  let i := key / 256
  let s := key % 256
  if 0x3410 ≤ i ∧ i ≤ 0x3417 ∧ s = 3 then decide (2 * (n / 256 + n % 256) ≤ 384)
  else if i = 0x1910 then decide (n / 8192 = 0 ∧ n / 16 % 16 = 0)
  else if i = 0x3500 then decide (n / 2 ^ 28 % 4 ≠ 3 ∧ n / 2 ^ 24 % 16 = 0)
  else if 0x5000 ≤ i ∧ i ≤ 0x50FF ∧ s = 0x48 then decide (1 ≤ n / 256 ∧ n % 256 ≤ 64)
  else if 0x5000 ≤ i ∧ i ≤ 0x50FF ∧ s = 0x46 then
    decide (50 ≤ fld b 0 2 ∧ fld b 0 2 ≤ 400 ∧ 50 ≤ fld b 2 2 ∧ fld b 2 2 ≤ 400 ∧ 50 ≤ fld b 4 2 ∧ fld b 4 2 ≤ 400)
  else if 0x5000 ≤ i ∧ i ≤ 0x50FF ∧ s = 0x47 then b.all fun x => decide (x.toNat ≤ 2)
  else if 0x5000 ≤ i ∧ i ≤ 0x50FF ∧ s = 0x52 then
    (List.range (b.length / 16)).all fun k => decide (fld b (16 * k + 1) 1 = 0) && slice b (16 * k + 10) 6 == zeros 6
  else if key = Obj.submit_ring_base ∨ key = Obj.completion_ring_base ∨ key = Obj.loop_ring_base ∨
      key = Obj.store_base ∨ key = Obj.item_ring_base then decide (n = 0 ∨ n < big)
  else if 0x6610 ≤ i ∧ i ≤ 0x6613 ∧ (s = 7 ∨ s = 8) then decide (n = 0 ∨ n < big)
  else if key = Obj.rate_b then decide (n ≤ c.nat Obj.rate_a)
  else if key = Obj.panic_lead_2 then decide (n < c.nat Obj.panic_lead_1)
  else if key = Obj.pool_area_bytes then decide (n + 28 * 2 ^ 20 ≤ big ∨ n = 0)
  else if key = Obj.wake_enable then decide (n < 32)
  else if key = Obj.mac_address then decide (fld b 0 1 % 2 = 0)
  else if key = Obj.ipv4_address then decide (1 ≤ fld b 0 1 ∧ fld b 0 1 < 224)
  else if key = Obj.ipv4_netmask then
    decide (beVal b = 0 ∨ (2 ^ 32 - beVal b) = 2 ^ Nat.log2 (2 ^ 32 - beVal b))
  else if 0x6A00 ≤ i ∧ i ≤ 0x6A07 ∧ s = 0x2D then decide (n ≠ 0)
  else if 0x6A00 ≤ i ∧ i ≤ 0x6A07 ∧ s = 0x15 then decide (sfld b 0 4 ≤ c.int (Obj.position_max (i - 0x6A00)))
  else if 0x6A00 ≤ i ∧ i ≤ 0x6A07 ∧ s = 0x16 then decide (c.int (Obj.position_min (i - 0x6A00)) ≤ sfld b 0 4)
  else if i = 0x4002 then (List.range 256).all fun k => decide (fld b (2 * k) 2 ≤ 4095)
  else if 0x6410 ≤ i ∧ i ≤ 0x6413 ∧ s = 3 then b.all fun x => decide (x.toNat ≤ 31 ∨ x.toNat = 255)
  else if 0x6440 ≤ i ∧ i ≤ 0x6443 ∧ s = 3 then
    decide (fld b 0 8 % 4096 = 0 ∧ fld b 16 1 ≤ 3 ∧ fld b 17 1 ≤ 1) && b.drop 18 == zeros 6
  else if 0x6420 ≤ i ∧ i ≤ 0x642F ∧ s = 0x0A ∧ c.nat (Obj.bayer (i - 0x6420)) = 4 then
    decide (fld b 0 2 = fld b 2 2 ∧ fld b 0 2 = fld b 4 2 ∧ fld b 0 2 = fld b 6 2)
  else if 0x6420 ≤ i ∧ i ≤ 0x642F ∧ s = 6 then decide (n ≠ 4 ∨ (List.range 4).all (fun k =>
    fld (c.oct (Obj.black_level (i - 0x6420))) (2 * k) 2 == fld (c.oct (Obj.black_level (i - 0x6420))) 0 2) = true)
  else if 0x6430 ≤ i ∧ i ≤ 0x6433 ∧ (s = 3 ∨ s = 6) then
    (List.range 12288).all fun k => decide (fld b (2 * k) 2 ≤ 1023)
  else argOk key b

/-- The same in the cellar as trained. -/
def contentOk (c : Ctl) (key : Nat) (b : List Byte) : Bool := contentIn c c.usable key b

/-- Checks 4 to 10 of R33 on one written entry. -/
def Ctl.checkWrite (c : Ctl) (n key : Nat) (b : List Byte) : Nat :=
  if !indexExists (key / 256) then St.NO_OBJECT
  else match objOf key with
    | none => St.NO_SUBINDEX
    | some r =>
      if r.acc = .ro ∨ foreignSession n key then St.READ_ONLY
      else if (c.sess n).role < c.writeRole r key b then St.ROLE_TOO_LOW
      else if !c.grantOk n key then St.NO_CONTROL
      else if !lengthOk r b then St.TYPE_MISMATCH
      else if !(rangeOk r b && contentOk c key b) then St.OUT_OF_RANGE
      else c.stateCode r key

/-- Checks 4 to 10 of R33 on one read entry: claims need the grant (R380), live values a running ride (R30). -/
def Ctl.checkRead (c : Ctl) (n key : Nat) : Nat :=
  if !indexExists (key / 256) then St.NO_OBJECT
  else match objOf key with
    | none => St.NO_SUBINDEX
    | some r =>
      if r.acc = .wo then St.WRITE_ONLY
      else if 0x1920 ≤ key / 256 ∧ key / 256 ≤ 0x1922 ∧ key % 256 = 1 ∧ c.nat Obj.controlling_session ≠ n then
        St.NO_CONTROL
      else if c.rideRefuses key then St.RIDE_STOPPED
      else St.OK

end Sys2Proof.Machine
end

