-- ==== Sys2Proof/Machine/Ride.lean ====
section
/-! DEFINITION. Rides (R401): their numbers in the order of 2010, starting one, and asking whether it runs. -/

namespace Sys2Proof.Machine

/-- The print ride. -/
abbrev ridePrint : Nat := 0

/-- The ride of camera `k`. -/
abbrev rideCamera (k : Nat) : Nat := 1 + k

/-- The record ride. -/
abbrev rideRecord : Nat := 5

/-- The cellar ride. -/
abbrev rideCellar : Nat := 6

/-- The link ride of quad `q`. -/
abbrev rideLink (q : Nat) : Nat := 7 + q

/-- A ride's state given; RIDE_STATE rings on a change (R401). -/
def Ctl.setRide (c : Ctl) (j v : Nat) : Ctl :=
  if c.nat (Obj.ride_state j) = v then c
  else (c.putN (Obj.ride_state j) v).ring Src.RIDE_STATE 0xFFFF (Obj.ride_state j)

/-- The ride runs, coasting included: a coasting PLL still clocks it (R397). -/
def Ctl.rideRuns (c : Ctl) (j : Nat) : Bool := c.nat (Obj.ride_state j) == 2 || c.nat (Obj.ride_state j) == 4

/-! ### Numbers on the PMBus (R410) -/

/-- A two's complement field of `n` bits. -/
def twos (n v : Nat) : Int := if v % 2 ^ n < 2 ^ (n - 1) then (v % 2 ^ n : Nat) else (v % 2 ^ n : Nat) - 2 ^ n

/-- A power of 2. -/
def powerOf2 (e : Int) : Frac := if 0 ≤ e then Frac.ofInt (2 ^ e.toNat) else (Frac.ofInt 1).div (Frac.ofInt (2 ^ (-e).toNat))

/-- The exponent of a regulator's VOUT; before a start-up has read one, that of the example of R412 (log entry 164). -/
def Ctl.voutExponent (c : Ctl) (r : Nat) : Int := kvGet (-12) c.pwr.voutExp r

/-- A LINEAR16 word in mV, to the nearest. -/
def Ctl.voutOf (c : Ctl) (r word : Nat) : Nat := (((Frac.ofInt (1000 * (word % 65536 : Nat))).mul (powerOf2 (c.voutExponent r))).round).toNat

/-- The LINEAR16 word of a voltage in mV. -/
def Ctl.voutWord (c : Ctl) (r mv : Nat) : Nat :=
  ((((Frac.ofInt mv).div (Frac.ofInt 1000)).mul (powerOf2 (-(c.voutExponent r)))).round).toNat % 65536

/-- A LINEAR11 word times a scale, to the nearest. -/
def linear11 (scale : Int) (word : Nat) : Int := ((Frac.ofInt (scale * twos 11 word)).mul (powerOf2 (twos 5 (word / 2048)))).round

/-! ### PLLs (R391, R412) -/

/-- The PLL of 2120 that clocks a ride; a link ride has its quad's. -/
def pllOf (j : Nat) : Option Nat :=
  if j = 0 then some 1 else if j ≤ 4 then some (j + 1) else if j = 5 then some 6 else if j = 6 then some 7 else none

/-- The number of a ride's PLL among the clocks (4 + p, 12 + q). -/
def clockOfRide (j : Nat) : Nat :=
  match pllOf j with
  | some p => 4 + p
  | none => 12 + (j - 7)

/-- The object that shows a ride's PLL. -/
def pllKey (j : Nat) : Nat :=
  match pllOf j with
  | some p => Obj.pll_state p
  | none => Obj.quad_state (j - 7)

/-- Rides that need vcore_run (R401). -/
def needsCore (j : Nat) : Bool := decide (j ≤ 5)

/-- VDD_CORE is within 10 mV of a voltage (R412). -/
def Ctl.coreNear (c : Ctl) (mv : Nat) : Bool := decide (c.nat Obj.vcore_now ≤ mv + 10 ∧ mv ≤ c.nat Obj.vcore_now + 10)

/-- A clock begins to start: no window judged yet. -/
def Ctl.clockStarts (c : Ctl) (x : Nat) : Ctl :=
  { c with pwr := { c.pwr with runs := kvSet 0 c.pwr.runs x 0, misses := kvSet 0 c.pwr.misses x 0
                               startAt := kvSet 0 c.pwr.startAt x c.now } }

/-- A ride's PLL starts if it is off. -/
def Ctl.pllStarts (c : Ctl) (j : Nat) : Ctl :=
  if c.nat (pllKey j) = 0 then (c.putN (pllKey j) 1).clockStarts (clockOfRide j) else c

/-- The raise of VDD_CORE that a ride needs is asked of regulator 0 (R412). -/
def Ctl.askCore (c : Ctl) (j : Nat) : Ctl :=
  if needsCore j && !c.coreNear (c.nat Obj.vcore_run) then c.emit (.bus "VOUT_COMMAND" (c.voutWord 0 (c.nat Obj.vcore_run))) else c

/-- Nothing about VDD_CORE holds up the ride's PLL (R412). -/
def Ctl.coreReady (c : Ctl) (j : Nat) : Bool := !needsCore j || c.coreNear (c.nat Obj.vcore_run)

/-- A ride something needs: started if it is stopped or stopping; requests to it are held meanwhile (R401). Its PLL starts only
once READ_VOUT lies within 10 mV of the target (R412). -/
def Ctl.needRide (c : Ctl) (j : Nat) : Ctl :=
  if c.nat (Obj.ride_state j) = 0 ∨ c.nat (Obj.ride_state j) = 3 then
    let asked := (c.setRide j 1).askCore j
    let c1 := if asked.coreReady j then asked.pllStarts j else asked
    { c1 with pwr := { c1.pwr with rideAt := kvSet 0 c1.pwr.rideAt j c1.now } }
  else c

/-- The end of a use of a ride, from which its stop time counts (R401). -/
def Ctl.usedRide (c : Ctl) (j : Nat) : Ctl := { c with pwr := { c.pwr with usedAt := kvSet 0 c.pwr.usedAt j c.now } }

/-- powered_seconds: whole seconds of booth power (R398). -/
def Ctl.powered (c : Ctl) : Nat := c.pwr.powered + (c.now - c.pwr.poweredAt) / 10 ^ 9

end Sys2Proof.Machine
end

