-- ==== Sys2Proof/Machine/Web.lean ====
section
/-! DEFINITION. Lengths along the web (R7 to R9, R60): ticks and nanometres through stretches of different pitch. -/

namespace Sys2Proof.Machine

/-- The pitch of the stretch a position lies in; stretches latest first (R8). -/
def pitchAt : List (Nat × Nat) → Nat → Nat
  | [], _ => 1200
  | (s, l) :: r, x => if s ≤ x then l else pitchAt r x

/-- The start of the next stretch after a position. -/
def nextStretch : List (Nat × Nat) → Nat → Option Nat
  | [], _ => none
  | (s, _) :: r, x =>
    if s ≤ x then none
    else match nextStretch r x with
      | some t => some t
      | none => some s

/-- Nanometres of `t` ticks at `l` lpi: 25,400,000 / 64 / l each (R60). -/
def tickNm (t l : Nat) : Frac := ⟨t * 396875, l⟩

/-- Ticks of a length at one pitch, halves up (R60). -/
def nmTicks (d : Frac) (l : Nat) : Nat := (Frac.round (d.mul ⟨l, 396875⟩)).toNat

/-- Ticks from position `x` over which the web has length `d` nm (R60). `fuel` bounds the stretches. -/
def advanceTicks (st : List (Nat × Nat)) : Nat → Nat → Frac → Nat
  | 0, x, d => nmTicks d (pitchAt st x)
  | f + 1, x, d =>
    match nextStretch st x with
    | none => nmTicks d (pitchAt st x)
    | some b =>
      let len := tickNm (b - x) (pitchAt st x)
      if d.lt len then nmTicks d (pitchAt st x) else (b - x) + advanceTicks st f b (d.sub len)

/-- Length in nm of the web from position `x` to `y`. -/
def lengthNm (st : List (Nat × Nat)) : Nat → Nat → Nat → Frac
  | 0, x, y => tickNm (y - x) (pitchAt st x)
  | f + 1, x, y =>
    match nextStretch st x with
    | none => tickNm (y - x) (pitchAt st x)
    | some b =>
      if y ≤ b then tickNm (y - x) (pitchAt st x)
      else (tickNm (b - x) (pitchAt st x)).add (lengthNm st f b y)

/-- The stretches of web. -/
def Ctl.stretches (c : Ctl) : List (Nat × Nat) := c.adm.stretches

/-- Ticks from `x` over `nm` nanometres of web. -/
def Ctl.ticksOver (c : Ctl) (x nm : Nat) : Nat :=
  advanceTicks c.stretches c.stretches.length x (Frac.ofInt nm)

/-- Nanometres of web from `x` to `y`. -/
def Ctl.nmBetween (c : Ctl) (x y : Nat) : Frac := lengthNm c.stretches c.stretches.length x y

/-- print_position (6000:02). -/
def Ctl.pp (c : Ctl) : Nat := c.nat Obj.print_position

/-- The pitch under the datum. -/
def Ctl.pitchNow (c : Ctl) : Nat := pitchAt c.stretches c.pp

/-- The print position at which bar `b` fires web point `w` (R60). -/
def Ctl.barAt (c : Ctl) (w b : Nat) : Nat := w + c.ticksOver w (c.nat (Obj.bar_offset b))

/-- The print position at which group `g` of bar `b` fires a web point (R144, R218). -/
def Ctl.groupAt (c : Ctl) (w b g : Nat) : Nat := w + c.ticksOver w (c.nat (Obj.bar_offset b) + c.nat (Obj.group_distance b g))

/-- Bars of a mask. -/
def barsOf (mask : Nat) : List Nat := (List.range 8).filter fun b => bit mask b

/-- Speed in um/s as a line rate at a pitch, in lines/s (R9). -/
def lineRate (speed lpi : Nat) : Frac := ⟨speed * lpi, 25400⟩

/-! ### Positions (R214) -/

/-- Travel of one tick at a pitch, in pm: 25,400,000,000 / 64 / L. -/
def tickPm (l : Nat) : Frac := ⟨396875000, l⟩

/-- Forward by a travel in pm from an exact position, each part converted with the pitch of its stretch (R214). -/
def forwardBy (st : List (Nat × Nat)) : Nat → Frac → Frac → Frac
  | 0, x, d => x.add (d.div (tickPm (pitchAt st x.floor.toNat)))
  | f + 1, x, d =>
    let l := pitchAt st x.floor.toNat
    match nextStretch st x.floor.toNat with
    | none => x.add (d.div (tickPm l))
    | some b =>
      let need := ((Frac.ofInt b).sub x).mul (tickPm l)
      if d.le need then x.add (d.div (tickPm l)) else forwardBy st f (Frac.ofInt b) (d.sub need)

/-- Start of the stretch a position lies in. -/
def stretchStart : List (Nat × Nat) → Nat → Nat
  | [], _ => 0
  | (s, _) :: r, x => if s ≤ x then s else stretchStart r x

/-- Backward by a travel in pm, web passed keeping the tick length it was counted with (R8). -/
def backwardBy (st : List (Nat × Nat)) : Nat → Frac → Frac → Frac
  | 0, x, d => x.sub (d.div (tickPm (pitchAt st x.floor.toNat)))
  | f + 1, x, d =>
    let k := if x.den = 1 then x.floor.toNat - 1 else x.floor.toNat
    let l := pitchAt st k
    let s := stretchStart st k
    let need := (x.sub (Frac.ofInt s)).mul (tickPm l)
    if s = 0 ∨ d.le need then x.sub (d.div (tickPm l)) else backwardBy st f (Frac.ofInt s) (d.sub need)

end Sys2Proof.Machine
end

