-- ==== Sys2Proof/Machine/Admit.lean ====
section
/-! DEFINITION. The admission sequencer's shared operations (R61, R71, R78 to R80, R84 to R86): slots, closure, the end of
tickets, the horizon and the speed ceiling. -/

namespace Sys2Proof.Machine

/-! ### Reasons (R78) -/

abbrev reasonOverspeed : Nat := 0x0231
abbrev reasonEncoder : Nat := 0x0232
abbrev reasonFault : Nat := 0x0233
abbrev reasonHeads : Nat := 0x0234
abbrev reasonData : Nat := 0x0235
abbrev reasonCue : Nat := 0x0236
abbrev reasonWithdrawn : Nat := 0x0237
abbrev reasonSwitchover : Nat := 0x0238

/-- An event with a reason affects a page (R79): the first one is primary, every one sets its bit. -/
def Ticket.affect (t : Ticket) (code : Nat) : Ticket :=
  { t with reason := if t.reason = 0 then code else t.reason, flags := setBit t.flags (code - 0x0231) true }

/-- A ticket ended by an event (R80, R90, R82). -/
def Ticket.endWith (t : Ticket) (code : Nat) : Ticket := if t.ended then t else { t.affect code with ended := true }

/-- A strobe line of the page has fired. -/
def Ticket.begun (t : Ticket) : Bool := t.work.struck

/-- Lines of a bar fired, omitted or withheld. -/
def Ticket.settledOn (t : Ticket) (b : Nat) : Nat := kvGet 0 t.settled b

/-- Every line of every masked bar is settled. -/
def Ticket.complete (t : Ticket) : Bool := (barsOf t.bars).all fun b => decide (t.length ≤ t.settledOn b)

/-- The page position, the earliest it can take while its cue is awaited (R84). -/
def Ticket.place (t : Ticket) : Nat := t.pos.getD t.earliest

/-! ### Tickets of the controller -/

/-- The list of tickets replaced. -/
def Ctl.setTickets (c : Ctl) (ts : List Ticket) : Ctl := { c with adm := { c.adm with tickets := ts } }

/-- Tickets not yet ended. -/
def Ctl.live (c : Ctl) : List Ticket := c.adm.tickets.filter fun t => !t.ended

/-- The ticket of a number. -/
def Ctl.ticket (c : Ctl) (n : Nat) : Option Ticket := c.adm.tickets.find? fun t => t.number == n

/-- One ticket changed. -/
def Ctl.onTicket (c : Ctl) (n : Nat) (f : Ticket → Ticket) : Ctl :=
  c.setTickets (c.adm.tickets.map fun t => if t.number = n then f t else t)

/-! ### Power state (R404) -/

/-- 2000:02 given a value; POWER_STATE rings on a change. -/
def Ctl.setPower (c : Ctl) (v : Nat) : Ctl :=
  if c.nat Obj.power_state = v then c else (c.putN Obj.power_state v).ring Src.POWER_STATE 0xFFFF Obj.power_state

/-! ### Slots (R61) -/

/-- A slot's state after a change of its tickets or hold: SEALED while either stands, else OPEN if it was sealed. -/
def Ctl.resealSlot (c : Ctl) (n : Nat) : Ctl :=
  if c.nat (Obj.tickets_outstanding n) ≠ 0 ∨ c.on (Obj.seal_hold n) then c.putN (Obj.slot_state n) 2
  else if c.nat (Obj.slot_state n) = 2 then c.putN (Obj.slot_state n) 1
  else c

/-- 5000+n:0B page_cap (R62). -/
def Ctl.pageCap (c : Ctl) (n : Nat) : Nat :=
  min (c.nat (Obj.speed_max n)) (c.nat Obj.head_line_rate_max * 25400 / c.nat (Obj.line_pitch n))

/-! ### Closure (R71) -/

/-- A waiting descriptor goes back to the head of the ring (R92, log entry 47). -/
def Ctl.dropWaiting (c : Ctl) : Ctl :=
  { (c.putN Obj.wait_reason 0).putN Obj.verify_backlog 0 with adm := { c.adm with waiting := none } }

/-- Admission closes with a cause; ADMIT_CLOSED rings on each closure. Closing ends no ticket. -/
def Ctl.closeAdmission (c : Ctl) (cause : Nat) : Ctl :=
  if c.nat Obj.admission_state = 0 then c
  else
    ((c.dropWaiting.putN Obj.admission_state 0).putN Obj.closed_reason cause).usedRide 0 |>.ring Src.ADMIT_CLOSED 0xFFFF
      Obj.closed_reason

/-! ### Horizon and ceiling (R84 to R86) -/

/-- The print position at which a ticket's last line fires on its last bar: page end plus the largest bar_reach. -/
def Ctl.ticketEnd (c : Ctl) (t : Ticket) : Nat :=
  let e := t.place + 64 * t.length
  e + c.ticksOver e (maxOf ((barsOf t.bars).map fun b => c.nat (Obj.bar_reach b)))

/-- The ticket has been withdrawn. -/
def Ticket.withdrawn (t : Ticket) : Bool := bit t.flags 6

/-- 6000:03 from the last outstanding ticket that is not withdrawn, one that ended CUE among them; with none it keeps its value (R80,
R84). -/
def Ctl.rehorizon (c : Ctl) : Ctl :=
  match (c.adm.tickets.filter fun t => !t.withdrawn).getLast? with
  | some t => c.putN Obj.horizon_end (c.ticketEnd t)
  | none => c

/-- A ticket's first fire point (R85). -/
def Ctl.firstFire (c : Ctl) (t : Ticket) : Nat :=
  t.place + c.ticksOver t.place (minOf ((barsOf t.bars).map fun b => c.nat (Obj.bar_offset b)))

/-- A fault source is latched. -/
def Ctl.faulted (c : Ctl) : Bool := c.nat Obj.faults_latched != 0

/-- The ceiling is forced to 0: safe stop, encoder loss until admission reopens, and, as the default of 6000:15 shows,
from reset until admission first opens (log entry 10). -/
def Ctl.ceilingForced (c : Ctl) : Bool :=
  c.faulted || c.adm.stopped

/-- The speed in um/s from which the press can slow to `v` um/s in `d`: sqrt(v^2 + 2a max(0, d - m)), rounded down. -/
def Ctl.brakeSpeed (c : Ctl) (v : Nat) (d : Frac) : Nat :=
  let um := d.divNat 1000
  let run := um.sub (Frac.ofInt (c.nat Obj.stop_margin))
  let x := (Frac.ofInt (v * v)).add (Frac.mul ⟨2 * c.nat Obj.drive_deceleration, 1⟩ (if run.num < 0 then ⟨0, 1⟩ else run))
  isqrt x.floor.toNat

/-- A distance ahead of the print position. -/
def Ctl.ahead (c : Ctl) (y : Nat) : Frac := if y ≤ c.pp then ⟨0, 1⟩ else c.nmBetween c.pp y

/-- The terms of R85 as (value, code of 6000:15), C first, then the horizon, then the pages ahead. -/
def Ctl.ceilingTerms (c : Ctl) : List (Nat × Nat) :=
  let firing := (c.live.filter fun t => t.begun && !t.complete).map (·.cap)
  let cTerm := if firing.isEmpty then c.nat Obj.head_line_rate_max * 25400 / c.pitchNow else minOf firing
  (cTerm, 2) :: (c.brakeSpeed 0 (c.ahead (c.nat Obj.horizon_end)), 0) ::
    (c.live.filter fun t => !t.begun).map fun t => (c.brakeSpeed t.cap (c.ahead (c.firstFire t)), 1)

/-- The least term, the first of equals. -/
def leastTerm : List (Nat × Nat) → Nat × Nat
  | [] => (0, 3)
  | [x] => x
  | x :: y :: r => let z := leastTerm (y :: r); if z.1 < x.1 then z else x

/-- 6000:01 and 6000:15 computed afresh (R85). -/
def Ctl.receiling (c : Ctl) : Ctl :=
  let v := if c.ceilingForced then (0, 3) else leastTerm c.ceilingTerms
  let c1 := (c.putN Obj.speed_ceiling (min v.1 16256000)).putN Obj.ceiling_binding v.2
  { c1 with adm := { c1.adm with ceilingAt := c.now } }

/-! ### The end of every ticket (R80) -/

/-- A ticket ended by a stop: one all of whose lines are settled keeps its outcome (R78, log entry 46). -/
def Ticket.stopWith (t : Ticket) (code : Nat) : Ticket := if t.complete then { t with ended := true } else t.endWith code

/-- Every outstanding ticket ends with a reason, admission closes (a closure before it takes the new cause, log entry 35), 6000:03 becomes 6000:02, the ceiling follows. -/
def Ctl.endAll (c : Ctl) (code cause : Nat) : Ctl :=
  let c0 := c.setTickets (c.adm.tickets.map fun t => t.stopWith code)
  let c1 := { c0 with adm := { c0.adm with stopped := c0.adm.stopped || cause == St.CLOSED_ENCODER } }
  (((c1.closeAdmission cause).putN Obj.closed_reason cause).putN Obj.horizon_end c.pp).receiling

end Sys2Proof.Machine
end

