-- ==== Sys2Proof/Machine/LoopOps.lean ====
section
/-! DEFINITION. The loop's shared operations (R278, R279, R283 to R287, R291 to R293): records, generations, epochs of lines, changes
that take effect or are discarded, mark lines. -/

namespace Sys2Proof.Machine

/-- The loop's state replaced. -/
def Ctl.setLoop (c : Ctl) (l : Loop) : Ctl := { c with loop := l }

/-! ### Records (R278, R279) -/

/-- Types of records. -/
abbrev recSummary : Nat := 1
abbrev recDefect : Nat := 2
abbrev recProposal : Nat := 3
abbrev recAction : Nat := 4
abbrev recDiscard : Nat := 5

/-- Kinds of targets. -/
abbrev kindState : Nat := 1
abbrev kindCorrection : Nat := 2
abbrev kindOffset : Nat := 3
abbrev kindTrim : Nat := 4
abbrev kindDistance : Nat := 5
abbrev kindBarOffset : Nat := 6

/-- A record takes the next sequence number and waits to be written into the ring. -/
def Ctl.loopRecord (c : Ctl) (type flags bar camera ticket epoch : Nat) (body : List Byte) : Ctl :=
  let l := c.loop
  let seq := (l.sequence + 1) % 2 ^ 32
  c.setLoop { l with sequence := seq, outbox := l.outbox ++ [padTo 64 (le 1 type ++ le 1 flags ++ le 1 bar ++ le 1 camera ++
    le 4 seq ++ le 4 ticket ++ le 4 epoch ++ body)] }

/-- The body of a change. -/
def LoopChange.body (x : LoopChange) (reason : Nat) : List Byte :=
  le 1 x.kind ++ le 1 reason ++ zeros 2 ++ le 4 x.target ++ le 4 (uns 32 x.old) ++ le 4 (uns 32 x.new) ++
    le 4 (uns 32 x.evidence) ++ le 4 x.samples ++ le 4 x.basis ++ zeros 4

/-- A PROPOSAL, with LOOP_PROPOSAL (R288). -/
def Ctl.propose (c : Ctl) (x : LoopChange) (reason : Nat) (wouldAct : Bool) : Ctl :=
  ((c.loopRecord recProposal (if wouldAct then 1 else 0) x.bar x.camera x.ticket x.epoch (x.body reason)).bump
    (Obj.proposals x.bar)).ring Src.LOOP_PROPOSAL x.bar (Obj.proposals x.bar)

/-- An ACTION, with LOOP_ACTION (R291). -/
def Ctl.acted (c : Ctl) (x : LoopChange) : Ctl :=
  ((c.loopRecord recAction 0 x.bar x.camera x.ticket x.epoch (x.body 0)).bump (Obj.actions x.bar)).ring Src.LOOP_ACTION x.bar
    (Obj.actions x.bar)

/-- A DISCARD with its reason, with LOOP_DISCARD (R293). -/
def Ctl.discarded (c : Ctl) (x : LoopChange) (reason : Nat) : Ctl :=
  ((c.loopRecord recDiscard 0 x.bar x.camera x.ticket x.epoch (x.body reason)).bump Obj.discards).ring Src.LOOP_DISCARD x.bar
    Obj.discards

/-- The ring is full. -/
def Ctl.loopRingFull (c : Ctl) : Bool :=
  let n := c.nat Obj.loop_ring_entries
  decide (n ≤ (c.nat Obj.loop_head + 2 * n - c.nat Obj.loop_tail) % (2 * n))

/-- One record to the ring, or lost (R278, R296). -/
def Mach.putRecord (m : Mach) (b : List Byte) : Mach :=
  let c := m.ctl
  let n := c.nat Obj.loop_ring_entries
  let h := c.nat Obj.loop_head
  if c.nat Obj.loop_ring_base = 0 ∨ c.loopRingFull = true then m.onCtl fun c => c.bump Obj.records_lost
  else
    { ctl := (c.putN Obj.loop_head ((h + 1) % (2 * n))).ring Src.LOOP_RECORD 0xFFFF Obj.loop_head,
      cellar := memWrite m.cellar (c.nat Obj.loop_ring_base + h % n * 64) b }

/-- Every waiting record put into the ring. -/
def Mach.putRecords (m : Mach) : Mach :=
  forEach m.ctl.loop.outbox Mach.putRecord (m.onCtl fun c => c.setLoop { c.loop with outbox := [] })

/-! ### Generations (R287) -/

/-- The generation of pair `i`, or of bar `i - 32`. -/
def Ctl.generation (c : Ctl) (i : Nat) : Nat := kvGet 0 c.loop.gens i

/-- A write starts a new generation. -/
def Ctl.newGeneration (c : Ctl) (i : Nat) : Ctl :=
  c.setLoop { c.loop with gens := kvSet 0 c.loop.gens i (c.generation i + 1) }

/-! ### Epochs of lines (R284) -/

/-- A commit takes effect at a position under an epoch, over the care `old`: the 64 latest of a bar are kept. -/
def Ctl.noteEffect (c : Ctl) (b pos epoch : Nat) (old : Care) : Ctl :=
  c.setLoop { c.loop with effects := kvSet [] c.loop.effects b ((⟨pos, epoch, old.live, old.firing⟩ :: kvGet [] c.loop.effects b).take 64) }

/-- The epoch of a bar's line at a position, none for a line older than the effects kept. -/
def Ctl.epochAt (c : Ctl) (b pos : Nat) : Option Nat :=
  let es := kvGet [] c.loop.effects b
  match es.find? fun e => decide (e.pos ≤ pos) with
  | some e => some e.epoch
  | none => if es.length < 64 then some 1 else none

/-- The controller with the nozzle table of a bar's line at a position, and the heads that fired then (R281, R286). -/
def Ctl.careAt (c : Ctl) (b pos : Nat) : Ctl :=
  let later := (kvGet [] c.loop.effects b).filter fun e => decide (pos < e.pos)
  match later.getLast? with
  | some e => { c with care := { c.care with live := e.live, firing := e.firing } }
  | none => c

/-! ### Accumulations start anew (R284) -/

/-- Every accumulation dropped. -/
def Ctl.restartResiduals (c : Ctl) : Ctl := c.setLoop { c.loop with residuals := [] }

/-! ### What is known of a page's lines (R275) -/

/-- A bar-line of a ticket omitted, withheld or counted unfired. -/
def Ctl.lineKnown (c : Ctl) (ticket b line : Nat) : Ctl :=
  c.onTicket ticket fun t =>
    if t.work.known.contains (b, line) then t else { t with work := { t.work with known := (b, line) :: t.work.known } }

/-! ### Fiducials (R286, R294) -/

/-- The entries of 5000+n:52, 16 bytes each. -/
def fiducialsOf (b : List Byte) : List (List Byte) := (List.range (b.length / 16)).map fun i => slice b (16 * i) 16

/-- The centre line of a bar's fiducials, if it has one (R290). -/
def fidCentre (b : Nat) (fs : List (List Byte)) : Option Nat :=
  let mine := fs.filter fun f => fld f 0 1 == b
  if mine.isEmpty then none else some ((mine.map fun f => fld f 4 2 + fld f 8 2 / 2).sum / mine.length)

/-- A line of a pair fires: the web speed is kept at the line that times its fiducials. -/
def Ctl.noteSpeed (c : Ctl) (t : Ticket) (b s line : Nat) : Ctl :=
  if c.on (Obj.inspect t.slot) && fidCentre b (fiducialsOf (c.oct (Obj.fiducials t.slot))) == some line then
    c.onTicket t.number fun u => { u with work := { u.work with speeds := kvSet 0 u.work.speeds s (c.int Obj.web_speed) } }
  else c

/-- The values of 5000+n:40 to 68 of a slot (R294, R305). -/
def Ctl.slotRules (c : Ctl) (n : Nat) : List Val := (List.range 0x29).map fun i => c.val (Obj.inspect n + i)

/-! ### Mark lines (R300) -/

/-- The number the mark zone goes by among tickets; its commit words carry ticket 0. -/
abbrev markNumber : Nat := 2 ^ 32

/-- The mark zone's lines as a page, once a gap is chosen. -/
def Ctl.markPage (c : Ctl) : Option Ticket :=
  match c.loop.reg with
  | some g => g.zone.map fun z => { z with screened := forEach g.placed (fun m b => kvSet 0 m b z.length) z.screened }
  | none => none

/-- The list with a page after the ticket of a number, at the front where that one is gone. -/
def insertAfter (n : Nat) (z : Ticket) : List Ticket → List Ticket
  | [] => []
  | t :: r => if t.number = n then t :: z :: r else t :: insertAfter n z r

/-- Tickets with the mark zone in its place. -/
def Ctl.strobePages (c : Ctl) : List Ticket :=
  match c.loop.reg, c.markPage with
  | some g, some z =>
    if c.adm.tickets.any fun t => t.number == g.after then insertAfter g.after z c.adm.tickets else z :: c.adm.tickets
  | _, _ => c.adm.tickets

/-- A ticket or the mark zone. -/
def Ctl.strobePage (c : Ctl) (n : Nat) : Option Ticket := c.strobePages.find? fun t => t.number == n

end Sys2Proof.Machine
end

