-- ==== Sys2Proof/Machine/CamOps.lean ====
section
/-! DEFINITION. Shared operations of the cameras (chapter 09): states, lanes, the checks at enable, the field, travel. -/

namespace Sys2Proof.Machine

/-! ### Cameras -/

/-- A camera. -/
def Ctl.cam (c : Ctl) (k : Nat) : Camera := kvGet Camera.reset c.units.cams k

/-- A camera replaced. -/
def Ctl.setCam (c : Ctl) (k : Nat) (x : Camera) : Ctl :=
  { c with units := { c.units with cams := kvSet Camera.reset c.units.cams k x } }

/-- camera_state (R262): 0 OFF, 1 STARTING, 2 IDLE, 3 STREAMING, 4 LOST. -/
def Ctl.camState (c : Ctl) (k : Nat) : Nat := c.nat (Obj.camera_state k)

/-- A camera's loop state, and that state replaced. -/
def Ctl.loopCam (c : Ctl) (k : Nat) : LoopCam := kvGet LoopCam.reset c.loop.cams k
def Ctl.setLoopCam (c : Ctl) (k : Nat) (x : LoopCam) : Ctl :=
  c.setLoop { c.loop with cams := kvSet LoopCam.reset c.loop.cams k x }

/-- 6510+k:01 given a value; LOOP_ALIGN rings on a change (R274). -/
def Ctl.setAlign (c : Ctl) (k v : Nat) : Ctl :=
  if c.nat (Obj.align_state k) = v then c else (c.putN (Obj.align_state k) v).ring Src.LOOP_ALIGN k (Obj.align_state k)

/-- q of R282: columns per strip pixel in 1/256. -/
def Ctl.columnsPerPixel (c : Ctl) (k : Nat) : Nat :=
  divRound (c.nat (Obj.image_pitch_x k) * c.nat Obj.column_pitch * 256) 25400000000

/-- A camera measures: STREAMING with measurement in force (R251, R267). -/
def Ctl.camMeasures (c : Ctl) (k : Nat) : Bool := c.camState k == 3 && (c.cam k).measure != 0 && (c.cam k).outOn

/-- The measurement of a camera starts, or ends, with its state and its measurement output in force (R274). -/
def Ctl.loopFollow (c : Ctl) (k : Nat) : Ctl :=
  let on := c.camMeasures k
  if on && c.nat (Obj.align_state k) == 0 then
    ((c.setLoopCam k { LoopCam.reset with from_ := (c.cam k).rows, upTo := (c.cam k).wLast.getD 0 }).putN
      (Obj.columns_per_pixel k) (c.columnsPerPixel k)).setAlign k 1
  else if !on then c.setAlign k 0
  else c

/-- camera_state given, CAM_STATE ringing on a change. -/
def Ctl.setCamState (c : Ctl) (k v : Nat) : Ctl :=
  if c.camState k = v then c
  else ((c.putN (Obj.camera_state k) v).ring (Src.CAM k 0) k (Obj.camera_state k)).loopFollow k

/-- The lanes of a camera, by bond index (R238). -/
def Ctl.camLanes (c : Ctl) (k : Nat) : List Nat := ((c.oct (Obj.camera_lanes k)).map (·.toNat)).filter (· < 32)

/-- The lane that carries a camera's downstream traffic. -/
def Ctl.bondLane (c : Ctl) (k : Nat) : Option Nat := (c.camLanes k).head?

/-- The camera that lists a lane. -/
def Ctl.camOfLane (c : Ctl) (l : Nat) : Option Nat := (List.range 4).find? fun k => (c.camLanes k).contains l

/-- A camera in use. -/
def Ctl.camOn (c : Ctl) (k : Nat) : Bool := c.on (Obj.camera_enable k)

/-- Enabled tiles of a camera, in tile order. -/
def Ctl.tiles (c : Ctl) (k : Nat) : List Nat := (List.range 4).filter fun v => c.on (Obj.tile_enable (4 * k + v))

/-! ### Loss (R262) -/

/-- A camera's first image row: the lowest that every enabled tile covers (log entry 68). -/
def Ctl.firstRow (c : Ctl) (k : Nat) : Int := ((c.tiles k).map fun v => c.int (Obj.tile_y (4 * k + v))).foldl max (-16)

/-- An exposure whose frames in progress are discarded: the rows they have left in the strip stand, the others are missing; how many. -/
def Ctl.cutExposure (c : Ctl) (k : Nat) (e : Exposure) : Exposure × Nat :=
  let rowsOf (v : Nat) : Nat := c.nat (Obj.sensor_rows (4 * k + v))
  let taken (f : SensorFrame) (r : Nat) : Bool :=
    decide ((r : Int) + c.int (Obj.tile_y (4 * k + f.sensor)) < c.firstRow k + 2 * e.pairs)
  let cut (f : SensorFrame) : SensorFrame := if f.isOpen then { f with isOpen := false, rows := f.rows.filter fun r => taken f r.1 } else f
  let lost := (e.frames.filter (·.isOpen)).map fun f => rowsOf f.sensor - (cut f).rows.length - f.skewed.length
  let absent := (List.range 4).filter fun v => bit e.sensors v && !e.missing.contains v && !e.frames.any fun f => f.sensor == v
  ({ e with frames := e.frames.map cut, missing := e.missing ++ absent }, lost.sum + (absent.map rowsOf).sum)

/-- A camera becomes LOST: frames in progress are discarded, their rows missing, and its outputs stop. One that is LOST waits anew. -/
def Ctl.camLost (c : Ctl) (k reason : Nat) : Ctl :=
  if c.camState k = 1 ∨ c.camState k = 2 ∨ c.camState k = 3 then
    let x := c.cam k
    let cuts := x.exposures.map (c.cutExposure k)
    let c1 := (c.bumpBy (Obj.rows_missing k) (cuts.map (·.2)).sum).putN (Obj.lost_reason k) reason
    let c2 := c1.setCam k { x with exposures := cuts.map (·.1), packet := none, clearAt := none, outOn := false }
    c2.setCamState k 4
  else if c.camState k = 4 then c.setCam k { c.cam k with clearAt := none }
  else c

/-- A camera enters STREAMING: travel counts from the first forward count (R244). -/
def Ctl.camStreams (c : Ctl) (k : Nat) : Ctl :=
  (c.setCam k { c.cam k with travel := ⟨0, 1⟩, travelMax := ⟨0, 1⟩, moving := false, nextDue := 1, waking := none
                             streamFrom := c.nat Obj.print_position }).setCamState k 3

/-- IDLE or STREAMING, as the position is valid or not. -/
def Ctl.camReady (c : Ctl) (k : Nat) : Ctl := if c.on Obj.position_valid then c.camStreams k else c.setCamState k 2

/-- Cameras follow position_valid (R244, R262). -/
def Ctl.camsFollow (c : Ctl) : Ctl :=
  forEach (List.range 4) (fun c k =>
    if c.camState k = 3 ∧ c.on Obj.position_valid = false then c.setCamState k 2
    else if c.camState k = 2 ∧ c.on Obj.position_valid = true then c.camStreams k
    else c) c

/-! ### Travel (R244) -/

/-- A count of ENC0 of `pm` moves the travel of one camera. -/
def Camera.travelled (x : Camera) (fwd : Bool) (pm : Frac) : Camera :=
  if !fwd && !x.moving then x
  else
    let t := if fwd then x.travel.add pm else x.travel.sub pm
    { x with moving := true, travel := t, travelMax := if x.travelMax.lt t then t else x.travelMax }

/-- A count moves the travel of every STREAMING camera. -/
def Ctl.camsTravel (c : Ctl) (fwd : Bool) (pm : Frac) : Ctl :=
  forEach (List.range 4) (fun c k => if c.camState k = 3 then c.setCam k ((c.cam k).travelled fwd pm) else c) c

/-- A quantity in 1/256, rounded to nearest: 8 fractional bits are kept. -/
def to256 (f : Frac) : Int := (f.mul ⟨256, 1⟩).round

/-- The position at a time between the last two latch pairs, in 1/256 tick (R216, R246). -/
def Ctl.positionAt (c : Ctl) (at250 : Nat) : Option Int :=
  match c.pos.before, c.pos.pair with
  | some p, some q =>
    if p.at250 ≤ at250 ∧ at250 ≤ q.at250 ∧ p.at250 < q.at250 then
      some (to256 (p.ticks.add (((q.ticks.sub p.ticks).mul ⟨(at250 - p.at250 : Nat), 1⟩).divNat (q.at250 - p.at250))))
    else none
  | _, _ => none

/-- Exposures whose centre lies between the last two latch pairs are measured (R246). -/
def Ctl.measureExposures (c : Ctl) : Ctl :=
  forEach (List.range 4) (fun c k =>
    let x := c.cam k
    let place (e : Exposure) : Exposure := if e.measured.isNone then { e with measured := c.positionAt e.centre } else e
    if x.exposures.isEmpty then c else c.setCam k { x with exposures := x.exposures.map place }) c

/-! ### Geometry (R250, R251) -/

/-- Bits of a pixel of a RAW type (R241). -/
def rawBits (dt : Nat) : Nat :=
  if dt = 0x2A then 8 else if dt = 0x2B then 10 else if dt = 0x2C then 12 else if dt = 0x2D then 14 else 16

/-- The end of a tile's owned columns: the next enabled tile's seam or its own last column + 1, whichever comes first (R250). -/
def Ctl.ownedEnd (c : Ctl) (k v : Nat) : Nat :=
  let own := c.nat (Obj.tile_x (4 * k + v)) + c.nat (Obj.tile_width (4 * k + v))
  match (c.tiles k).find? (v < ·) with
  | some u => min own (c.nat (Obj.seam (4 * k + u)))
  | none => own

/-- The stitched width: the highest owned column + 1 (R250). -/
def Ctl.stitched (c : Ctl) (k : Nat) : Nat :=
  maxOf (((c.tiles k).filter fun v => decide (c.nat (Obj.seam (4 * k + v)) < c.ownedEnd k v)).map (c.ownedEnd k))

/-- c(x) of R251 as a fraction of a physical column. -/
def Ctl.columnOf (c : Ctl) (k x : Nat) : Frac :=
  (Frac.mk (c.int (Obj.image_origin k)) 256).add ⟨x * c.nat (Obj.image_pitch_x k) * c.nat Obj.column_pitch, 25400000000⟩

/-- The field's first and last column, if it has one. -/
def Ctl.fieldOf (c : Ctl) (k : Nat) : Option (Nat × Nat) :=
  let lo := max 0 (c.columnOf k 0).floor
  let hi := min 65535 ((c.columnOf k (c.stitched k)).floor - 1)
  if lo ≤ hi then some (lo.toNat, hi.toNat) else none

/-- Tiles are all MONO, or none is. -/
def Ctl.camMono (c : Ctl) (k : Nat) : Bool := (c.tiles k).any fun v => c.nat (Obj.bayer (4 * k + v)) == 4

/-- Consecutive members of a list satisfy a test. -/
def chained (p : Nat → Nat → Bool) : List Nat → Bool
  | [] => true
  | [_] => true
  | x :: y :: r => p x y && chained p (y :: r)

/-- The geometry check of R260. -/
def Ctl.camGeometryOk (c : Ctl) (k : Nat) : Bool :=
  let ts := c.tiles k
  let t (v : Nat) : Nat := 4 * k + v
  !ts.isEmpty && ts.all (fun v => decide (2 ≤ c.nat (Obj.tile_width (t v)) ∧ c.nat (Obj.tile_width (t v)) ≤ 8192)) &&
    chained (fun a b => decide (a < b)) (ts.map fun v => c.nat (Obj.seam (t v))) && decide (c.stitched k ≤ 32768) &&
    ts.all (fun v => decide (c.nat (Obj.reference_row k) < c.nat (Obj.sensor_rows (t v)) ∧
      c.nat (Obj.advance_rows k) + 4 ≤ c.nat (Obj.sensor_rows (t v)))) &&
    (!c.camMono k || ts.all fun v => c.nat (Obj.bayer (t v)) == 4)

/-- The minimum period of exposures in ns (R247). -/
def Ctl.camPeriod (c : Ctl) (k : Nat) : Frac :=
  let p : Frac := ⟨c.nat (Obj.advance_rows k) * c.nat (Obj.image_pitch_y k) * 1000, max 1 (c.nat (Obj.design_speed k))⟩
  let m := Frac.ofInt (c.nat (Obj.min_exposure_period k))
  if m.lt p then p else m

/-- Tile width x rows over enabled tiles, weighted. -/
def Ctl.camPixels (c : Ctl) (k : Nat) (weight : Nat → Nat) : Nat :=
  ((c.tiles k).map fun v =>
    c.nat (Obj.tile_width (4 * k + v)) * c.nat (Obj.sensor_rows (4 * k + v)) * weight (c.nat (Obj.data_type (4 * k + v)))).sum

/-- A number per exposure as a rate per second. -/
def Ctl.camRate (c : Ctl) (k n : Nat) : Frac := (Frac.ofInt (n * 1000000000)).div (c.camPeriod k)

/-! ### Views and rings (R257, R258) -/

/-- Fields of a view. -/
def viewOn (v : List Byte) : Bool := fld v 0 1 == 1
def viewQuad (v : List Byte) : Bool := fld v 1 1 == 0
def viewFormat (v : List Byte) : Nat := fld v 3 1
def viewX (v : List Byte) : Nat := fld v 4 4
def viewSource (v : List Byte) : Nat := fld v 8 4
def viewWidth (v : List Byte) : Nat := fld v 12 2
def viewHeight (v : List Byte) : Nat := fld v 14 2
def viewRate (v : List Byte) : Nat := fld v 16 2
def viewStream (v : List Byte) : Nat := fld v 18 1
def viewFrames (v : List Byte) : Nat := fld v 19 1
def viewBase (v : List Byte) : Nat := fld v 20 8

/-- The scale of a view (R258). -/
def viewScale (v : List Byte) : Frac :=
  ⟨viewWidth v * (if viewQuad v then 2 else 1), max 1 (viewSource v)⟩

/-- A view's fields are in their ranges and its source lies within the strip. -/
def Ctl.viewOk (c : Ctl) (k : Nat) (record : Bool) (v : List Byte) : Bool :=
  let f := viewScale v
  let even (n : Nat) : Bool := n % 2 == 0
  decide (fld v 0 1 ≤ 1 ∧ fld v 1 1 ≤ 1 ∧ fld v 2 1 ≤ 1) &&
    (!viewOn v ||
      (even (viewX v) && even (viewSource v) && even (viewWidth v) && even (viewHeight v) && decide (0 < viewSource v) &&
        decide (64 ≤ viewWidth v ∧ viewWidth v ≤ (if record then 8192 else 3840) ∧ 64 ≤ viewHeight v ∧
          viewHeight v ≤ (if record then 4320 else 2160) ∧ 1 ≤ viewRate v ∧ viewRate v ≤ 60 ∧ fld v 28 4 = 0) &&
        Frac.le ⟨1, 16⟩ f && Frac.le f ⟨1, 1⟩ && decide (viewX v + viewSource v ≤ c.stitched k) &&
        (if record then
          decide (2 ≤ viewFormat v ∧ viewFormat v ≤ 4 ∧ viewStream v ≤ 3 ∧ viewFrames v = 0 ∧ viewBase v = 0)
        else
          decide (viewFormat v ≤ 1 ∧ viewStream v = 0 ∧ 2 ≤ viewFrames v ∧ viewFrames v ≤ 16 ∧ viewBase v % 4096 = 0))))

/-- Bytes of a frame of a view, in eighths of a byte per pixel (R261). -/
def viewEighths (v : List Byte) : Nat :=
  match viewFormat v with
  | 0 => 24
  | 1 => 16
  | 2 => 12
  | 3 => 15
  | _ => 20

/-- Bytes of a frame of a view. -/
def viewBytes (v : List Byte) : Nat := viewWidth v * viewHeight v * viewEighths v / 8

/-- Crop ring settings: base, bytes, format, enable. -/
def ringBase (r : List Byte) : Nat := fld r 0 8
def ringBytes (r : List Byte) : Nat := fld r 8 8
def ringFormat (r : List Byte) : Nat := fld r 16 1
def ringOn (r : List Byte) : Bool := fld r 17 1 == 1

/-- Pixel bytes of a row of a crop ring of width `w` (R257). -/
def cropPixels (format w : Nat) : Nat :=
  if format = 0 then w else if format = 1 then (w + 1) / 2 * 3 else if format = 2 then 2 * w else w / 2 * 3

/-- Bytes of a row slot. -/
def cropSlotBytes (format w : Nat) : Nat := roundUp (16 + cropPixels format w) 64

/-! ### The ISO budget (R261) -/

/-- Bytes per second rounded up to whole MB/s. -/
def mbUp (f : Frac) : Nat := (-(Frac.floor ⟨-f.num, f.den * 1000000⟩)).toNat

/-- The demand of a camera's outputs with given settings, in MB/s. -/
def Ctl.camDemand (c : Ctl) (k : Nat) (crop record monitor : List Byte) : Nat :=
  let rows : Frac := ⟨c.nat (Obj.design_speed k) * 1000000, max 1 (c.nat (Obj.image_pitch_y k))⟩
  let slot := cropSlotBytes (ringFormat crop) (c.stitched k)
  (if ringOn crop then mbUp (rows.mul ⟨slot, 1⟩) else 0) +
    (if viewOn record then mbUp ⟨viewBytes record * viewRate record, 1⟩ else 0) +
    (if viewOn monitor then mbUp ⟨viewBytes monitor * viewRate monitor, 1⟩ else 0)

/-- The demand of a camera as set. -/
def Ctl.camDemandNow (c : Ctl) (k : Nat) : Nat :=
  c.camDemand k (c.oct (Obj.crop_ring k)) (c.oct (Obj.record_view k)) (c.oct (Obj.monitor_view k))

/-- What others than camera `k` have committed: enabled cameras, encoder and decoder. -/
def Ctl.isoOthers (c : Ctl) (k : Nat) : Nat :=
  (((List.range 4).filter fun j => j != k && c.camOn j).map fun j => c.nat (Obj.iso_demand j)).sum +
    (c.units.iso.map (·.2)).sum

/-- iso_committed after a change. -/
def Ctl.showIso (c : Ctl) : Ctl := c.putN Obj.iso_committed (c.isoOthers 4)

/-! ### The checks at enable (R260) -/

/-- The lanes of a camera are 1 to 4 from bond index 0 on, hold the CAMERA role, run at one rate and belong to no other camera. -/
def Ctl.camLanesOk (c : Ctl) (k : Nat) : Bool :=
  let raw := (c.oct (Obj.camera_lanes k)).map (·.toNat)
  let ls := c.camLanes k
  !ls.isEmpty && (raw.take ls.length == ls) && ls.eraseDups.length == ls.length &&
    ls.all (fun l => c.nat (Obj.lane_role l) == 2) &&
    (ls.map fun l => c.nat (Obj.quad_rate (l / 4))).eraseDups.length == 1 &&
    ls.all fun l => (List.range 4).all fun j => j == k || !(c.camLanes j).contains l

/-- The first failed check of R260 for given output settings, 0 for none. -/
def Ctl.camCode (c : Ctl) (k measure : Nat) (crop record monitor : List Byte) : Nat :=
  let net := match c.camLanes k with
    | l :: r => (r.length + 1) * c.nat (Obj.lane_net_rate (l / 4)) * 1000000
    | [] => 0
  let area := ((c.tiles k).map fun v => c.nat (Obj.sensor_area (4 * k + v))).sum
  if !c.camLanesOk k then St.CAM_LANES
  else if !c.camGeometryOk k then St.CAM_GEOMETRY
  else if 32000000 < area then St.CAM_AREA
  else if !(c.camRate k (c.camPixels k fun _ => 1)).le ⟨3200000000, 1⟩ then St.CAM_RATE
  else if !((c.camRate k (c.camPixels k rawBits)).mul ⟨104, 100⟩).le ⟨net, 1⟩ then St.LINK_RATE
  else if c.camMono k && measure != 0 then St.CAM_MONO
  else if c.nat Obj.iso_limit < c.isoOthers k + c.camDemand k crop record monitor then St.ISO_BUDGET
  else 0

/-- A camera's output into the cellar is active. -/
def Ctl.camWrites (c : Ctl) (k : Nat) : Bool :=
  c.camOn k && (ringOn (c.cam k).crop || viewOn (c.cam k).monitor || viewOn (c.cam k).record)

end Sys2Proof.Machine
end

