-- ==== Sys2Proof/Machine/Crc.lean ====
section
/-! DEFINITION. The checksums the formats use: CRC-16 (R440), CRC-32C (R98, R122) and the FCS of Ethernet (R358), bit by bit. -/

namespace Sys2Proof.Machine

/-- Eight shifts of CRC-16 with polynomial 0x1021 (R440). -/
def crc16Bits : Nat → Nat → Nat
  | 0, r => r
  | n + 1, r => crc16Bits n (if r / 32768 % 2 = 1 then (r * 2 % 65536) ^^^ 0x1021 else r * 2 % 65536)

/-- CRC-16 of bytes from a running value, most significant bit first. -/
def crc16From (r : Nat) : List Byte → Nat
  | [] => r
  | b :: t => crc16From (crc16Bits 8 (r ^^^ (b.toNat * 256))) t

/-- CRC-16, initial value 0xFFFF, not reflected, no final exclusive OR (R440). -/
def crc16 (b : List Byte) : Nat := crc16From 0xFFFF b

/-- Eight shifts of reflected CRC-32C, polynomial 0x1EDC6F41. -/
def crc32cBits : Nat → Nat → Nat
  | 0, r => r
  | n + 1, r => crc32cBits n (if r % 2 = 1 then (r / 2) ^^^ 0x82F63B78 else r / 2)

/-- CRC-32C of bytes from a running value. -/
def crc32cFrom (r : Nat) : List Byte → Nat
  | [] => r
  | b :: t => crc32cFrom (crc32cBits 8 (r ^^^ b.toNat)) t

/-- CRC-32C (Castagnoli), reflected, initial value and final exclusive OR 0xFFFFFFFF. -/
def crc32c (b : List Byte) : Nat := crc32cFrom 0xFFFFFFFF b ^^^ 0xFFFFFFFF

/-- Eight shifts of the reflected CRC-32 of an Ethernet frame, polynomial 0x04C11DB7 (R358). -/
def crc32Bits : Nat → Nat → Nat
  | 0, r => r
  | n + 1, r => crc32Bits n (if r % 2 = 1 then (r / 2) ^^^ 0xEDB88320 else r / 2)

/-- That CRC-32 of bytes from a running value. -/
def crc32From (r : Nat) : List Byte → Nat
  | [] => r
  | b :: t => crc32From (crc32Bits 8 (r ^^^ b.toNat)) t

/-- The FCS of an Ethernet frame, initial value and final exclusive OR 0xFFFFFFFF. -/
def fcsOf (b : List Byte) : Nat := crc32From 0xFFFFFFFF b ^^^ 0xFFFFFFFF

end Sys2Proof.Machine
end

