-- ==== Sys2Proof/Machine/AxisOps.lean ====
section
/-! DEFINITION. The axis sequencer's shared operations (R443 to R453): trajectories, stops and states. -/

namespace Sys2Proof.Machine

/-- One axis. -/
def Ctl.axis (c : Ctl) (a : Nat) : Axis := kvGet Axis.reset c.axs.axes a

/-- One axis replaced. -/
def Ctl.setAxis (c : Ctl) (a : Nat) (x : Axis) : Ctl :=
  { c with axs := { c.axs with axes := kvSet Axis.reset c.axs.axes a x } }

/-- The axes after a reset: at rest and disabled, only the levels on LIM's pins standing. -/
def Axes.restart (x : Axes) : Axes :=
  ⟨[], (x.lims.filter fun e => e.2.level).map fun e => (e.1, { Lim.reset with level := true }), none⟩

/-- axis_state. -/
def Ctl.axisState (c : Ctl) (a : Nat) : Nat := c.nat (Obj.axis_state a)

/-- 6A00+a:02 given a value; AXIS_EVENT rings on a change (R457). -/
def Ctl.setAxisState (c : Ctl) (a v : Nat) : Ctl :=
  if c.axisState a = v then c else (c.putN (Obj.axis_state a) v).ring (Src.AXIS_EVENT a) a (Obj.axis_state a)

/-- Microsteps to the exact unit of position. -/
def stepUnit : Int := 8000000000000

/-- Whole microsteps of an exact position, rounded to nearest. -/
def wholeSteps (p : Int) : Int := (2 * p + stepUnit) / (2 * stepUnit)

/-- 6A00+a:08 and 09 follow the exact position and speed. -/
def Ctl.showAxis (c : Ctl) (a : Nat) : Ctl :=
  let x := c.axis a
  (c.putI (Obj.position a) (sgn 32 (uns 32 (wholeSteps x.p)))).putI (Obj.speed a) (x.v / 400000000)

/-- At standstill (R448): speed and acceleration zero and state DISABLED, STANDSTILL, ERROR or LOST. -/
def Ctl.standing (c : Ctl) (a : Nat) : Bool :=
  let x := c.axis a
  let st := c.axisState a
  x.v == 0 && x.a == 0 && (st == 0 || st == 1 || st == 5 || st == 6)

/-! ### The profile (R445), in the direction of travel -/

/-- Speed a ramp of acceleration from `a` (at most 0) back to 0 takes away, `j` a cycle. -/
def rampLoss (a j : Int) : Int :=
  let n := ((-a) + j - 1) / j
  (-a) * n - j * n * (n - 1) / 2

/-- One cycle of braking to rest: the new acceleration. -/
def brakeAccel (v a d j : Int) : Int :=
  let a1 := max (a - j) (-d)
  if rampLoss (min a1 0) j ≤ v + a1 then a1
  else if a < 0 ∧ rampLoss a j ≤ v + a then a
  else min 0 (a + j)

/-- Speed and acceleration after a cycle of braking; a rest smaller than one jerk step is taken as rest. -/
def brakeCycle (v a d j : Int) : Int × Int :=
  let a' := brakeAccel v a d j
  if v + a' ≤ j ∧ a' ≤ 0 ∧ -j ≤ a' then (0, 0) else if v + a' ≤ 0 then (0, 0) else (v + a', a')

/-- Distance braking takes, `fuel` cycles at most. -/
def brakeRun : Nat → Int → Int → Int → Int → Int
  | 0, _, _, _, _ => 0
  | f + 1, v, a, d, j => if v ≤ 0 then 0 else let n := brakeCycle v a d j; n.1 + brakeRun f n.1 n.2 d j

/-- A new acceleration that keeps the speed limit and still lets the axis stop within `rem`. -/
def fitsAccel (rem v a lim d j : Int) : Bool :=
  let v1 := v + a
  decide (0 ≤ v1) && decide (v1 + rampLoss (-(max a 0)) j ≤ lim) && decide (v1 + brakeRun 400000 v1 a d j ≤ rem)

/-- Speed and acceleration after one cycle toward a goal `rem` ahead, in the direction of travel (R445). -/
def approach (rem v a lim acc d j : Int) : Int × Int :=
  let a1 := min (a + j) acc
  let a3 := max (min (a - j) acc) 0
  if fitsAccel rem v a1 lim d j then (v + a1, a1)
  else if 0 ≤ a ∧ fitsAccel rem v a lim d j then (v + a, a)
  else if 0 ≤ a ∧ fitsAccel rem v a3 lim d j then (v + a3, a3)
  else brakeCycle v a d j

/-- Sign of an integer as 1 or -1, 1 for 0. -/
def dirOf (n : Int) : Int := if n < 0 then -1 else 1

/-- One cycle toward an exact position at most at a speed (R445, R446): away from the goal or too near to stop, the
axis first comes to rest. -/
def Axis.toward (x : Axis) (goal lim acc d j : Int) : Axis :=
  let s := if x.v = 0 ∧ x.a = 0 then dirOf (goal - x.p) else if x.v = 0 then dirOf x.a else dirOf x.v
  let n := approach (s * (goal - x.p)) (s * x.v) (s * x.a) lim acc d j
  let p' := x.p + s * n.1
  let near := n.1 = 0 ∧ n.2 = 0 ∧ (goal - p').natAbs < stepUnit.natAbs
  { x with v := s * n.1, a := s * n.2, p := if near then goal else p' }

/-- One cycle of the normal stop (R447). -/
def Axis.brake (x : Axis) (d j : Int) : Axis :=
  let s := if x.v = 0 then dirOf x.a else dirOf x.v
  let n := brakeCycle (s * x.v) (s * x.a) d j
  { x with v := s * n.1, a := s * n.2, p := x.p + s * n.1 }

/-- One cycle of the emergency ramp: constant deceleration, no jerk limit (R447). -/
def Axis.emergencyCycle (x : Axis) (e : Int) : Axis :=
  let s := dirOf x.v
  let v := s * x.v - e * 20000
  if v ≤ 0 then { x with v := 0, a := 0 } else { x with v := s * v, a := -(s * e * 20000), p := x.p + s * v }

/-! ### Stops -/

/-- The axis begins its emergency ramp, to take state `after` at zero speed; at rest it takes it at once (R447). -/
def Ctl.axisEmergency (c : Ctl) (a after : Nat) : Ctl :=
  let x := c.axis a
  let y := { x with goalAt := none, halting := false, homeStep := 0, after := after }
  if x.v = 0 then (c.setAxis a { y with a := 0, emergency := false, standSince := c.now }).setAxisState a after
  else (c.setAxis a { y with emergency := true }).setAxisState a 4

/-- A running home of an axis ends FAILED with a code (R451). -/
def Ctl.failHome (c : Ctl) (a code : Nat) : Ctl :=
  if c.cmdBusy (Obj.home a) then c.cmdFail (Obj.home a) code Src.AXIS_CMD_DONE a else c

/-- The safe stop on one axis (R454, R462): an enabled axis that moves or is about to goes on its emergency ramp, a
running home ends FAILED; one already on its ramp goes on. -/
def Ctl.axisSafeStop (c : Ctl) (a : Nat) : Ctl :=
  let st := c.axisState a
  if !c.on (Obj.axis_enable a) || st == 0 || st == 4 || st == 5 || st == 6 then c
  else if st = 1 then c.setAxis a { c.axis a with goalAt := none }
  else (c.failHome a St.FAULT_ACTIVE).axisEmergency a 1

/-- The safe stop's part on the axes. -/
def Ctl.axesSafeStop (c : Ctl) : Ctl := forEach (List.range 8) Ctl.axisSafeStop c

end Sys2Proof.Machine
end

