-- ==== Sys2Proof/Machine/LineCode.lean ====
section
/-! DEFINITION. The line code of the Adeord Link (R184 to R188): 8b/10b code groups, PAM4 symbols, ordered sets, the coder of each
transmitter, and what a receiver makes of the symbols it receives. -/

namespace Sys2Proof.Machine

/-! ### 8b/10b (R184; log entry 143) -/

/-- A character: a data byte Dx.y or a special one Kx.y, x in its low five bits. -/
structure Char8 where
  special : Bool
  byte : Nat
  deriving DecidableEq, Repr

/-- Dx.y and Kx.y. -/
def charD (x y : Nat) : Char8 := ⟨false, x + 32 * y⟩
def charK (x y : Nat) : Char8 := ⟨true, x + 32 * y⟩

/-- The comma character K28.5. -/
abbrev comma : Char8 := charK 28 5

/-- The 5b/6b code abcdei of x = 0 to 31 at negative running disparity. -/
def sixTable : List Nat :=
  [0b100111, 0b011101, 0b101101, 0b110001, 0b110101, 0b101001, 0b011001, 0b111000,
   0b111001, 0b100101, 0b010101, 0b110100, 0b001101, 0b101100, 0b011100, 0b010111,
   0b011011, 0b100011, 0b010011, 0b110010, 0b001011, 0b101010, 0b011010, 0b111010,
   0b110011, 0b100110, 0b010110, 0b110110, 0b001110, 0b101110, 0b011110, 0b101011]

/-- The 3b/4b code fghj of y = 0 to 7 at negative running disparity, for data and for special characters. -/
def fourTable : List Nat := [0b1011, 0b1001, 0b0101, 0b1100, 0b1101, 0b1010, 0b0110, 0b1110]
def fourSpecial : List Nat := [0b1011, 0b0110, 0b1010, 0b1100, 0b1101, 0b0101, 0b1001, 0b0111]

/-- Bits of a number, the first of `n` the most significant. -/
def topBits : Nat → Nat → List Bool
  | 0, _ => []
  | n + 1, v => (v / 2 ^ n % 2 == 1) :: topBits n v

/-- The number of a bit string, the first bit the most significant. -/
def bitsNat (bs : List Bool) : Nat := bs.foldl (fun v b => 2 * v + (if b then 1 else 0)) 0

/-- Ones in the low `n` bits. -/
def onesIn (n v : Nat) : Nat := ((topBits n v).filter id).length

/-- abcdei of a character at a running disparity, true for positive. -/
def sixOf (rd : Bool) (ch : Char8) : Nat :=
  let x := ch.byte % 32
  let v := if ch.special && x == 28 then 0b001111 else sixTable.getD x 0
  if rd && (onesIn 6 v != 3 || x == 7) then 63 - v else v

/-- D.x.7 takes its alternate form 0111 or 1000 where five equal bits would follow one another. -/
def alternate (rd : Bool) (x : Nat) : Bool := if rd then [11, 13, 14].contains x else [17, 18, 20].contains x

/-- fghj of a character, at the running disparity after abcdei. -/
def fourOf (rd : Bool) (ch : Char8) : Nat :=
  let x := ch.byte % 32
  let y := ch.byte / 32 % 8
  let v := if ch.special then fourSpecial.getD y 0 else if y = 7 ∧ alternate rd x = true then 0b0111 else fourTable.getD y 0
  if rd && (ch.special || onesIn 4 v != 2 || y == 3) then 15 - v else v

/-- Disparity after `n` bits of a value: it turns where ones and zeros differ in number. -/
def turned (rd : Bool) (n v : Nat) : Bool := if 2 * onesIn n v = n then rd else !rd

/-- The code group abcdeifghj of a character, a the most significant bit, and the running disparity after it. -/
def encode10 (rd : Bool) (ch : Char8) : Nat × Bool :=
  let s := sixOf rd ch
  let r := turned rd 6 s
  let f := fourOf r ch
  (16 * s + f, turned r 4 f)

/-- Every character of the code: the 256 data and the 12 special ones. -/
def allChars : List Char8 :=
  ((List.range 8).map fun y => charK 28 y) ++ [charK 23 7, charK 27 7, charK 29 7, charK 30 7] ++
    (List.range 256).map fun b => (⟨false, b⟩ : Char8)

/-- The character of a code group at a running disparity, none for a group outside the code or with a disparity error; the
disparity after it. -/
def decode10 (rd : Bool) (g : Nat) : Option Char8 × Bool :=
  match allChars.find? fun ch => (encode10 rd ch).1 == g with
  | some ch => (some ch, (encode10 rd ch).2)
  | none => (none, if onesIn 10 g < 5 then false else if 5 < onesIn 10 g then true else rd)

/-! ### Symbols (R185) -/

/-- The Gray map of a bit pair, the first bit the more significant. -/
def grayOf (a b : Bool) : Nat :=
  match a, b with
  | false, false => 0
  | false, true => 1
  | true, true => 2
  | true, false => 3

/-- The bit pair of a Gray value. -/
def grayBits (g : Nat) : Bool × Bool :=
  if g = 0 then (false, false) else if g = 1 then (false, true) else if g = 2 then (true, true) else (true, false)

/-- Precoded symbols P(j) = (G(j) - P(j-1)) mod 4 of a run of Gray values. -/
def precode : Nat → List Nat → List Nat
  | _, [] => []
  | p, g :: r => let q := (g + 4 - p % 4) % 4; q :: precode q r

/-- The Gray values a receiver recovers: (P(j) + P(j-1)) mod 4. -/
def unprecode : Nat → List Nat → List Nat
  | _, [] => []
  | p, q :: r => ((q + p) % 4) :: unprecode q r

/-- A symbol's line level. -/
def lineLevel (p : Nat) : Int := 2 * p - 3

/-- Pairs of a bit string in sending order, Gray mapped. -/
def bitPairs : List Bool → List Nat
  | a :: b :: r => grayOf a b :: bitPairs r
  | _ => []

/-- The levels a code group's ten bits are sent at, from a precoder state. -/
def lineLevels (state : Nat) (bits : List Bool) : List Int := (precode state (bitPairs bits)).map lineLevel

/-- The bits a receiver reads from precoded symbols. -/
def lineBits (state : Nat) (ps : List Nat) : List Bool :=
  ((unprecode state ps).map fun g => [(grayBits g).1, (grayBits g).2]).flatten

/-- A character through the coder: its five symbols and the coder after it. -/
def TxCode.char (t : TxCode) (ch : Char8) : List Nat × TxCode :=
  let g := encode10 t.rd ch
  let ps := precode t.p (bitPairs (topBits 10 g.1))
  (ps, { t with rd := g.2, p := ps.getLastD t.p })

/-- The symbols of a run of characters. -/
def TxCode.symbols : TxCode → List Char8 → List Nat
  | _, [] => []
  | t, ch :: r => (t.char ch).1 ++ (t.char ch).2.symbols r

/-- The coder after a run of characters. -/
def TxCode.after (t : TxCode) (chs : List Char8) : TxCode := chs.foldl (fun t ch => (t.char ch).2) t

/-! ### Ordered sets and frames (R150, R186) -/

/-- The four characters of an ordered set. -/
def LinkSet.chars : LinkSet → List Char8
  | .idle hop => [comma, charD 16 2, ⟨false, hop⟩, charD 16 2]
  | .skip => [comma, charK 28 0, charK 28 0, charK 28 0]
  | .trainReq target request => [comma, charK 28 2, ⟨false, target⟩, ⟨false, request⟩]
  | .trainRsp echo status => [comma, charK 28 3, ⟨false, echo⟩, ⟨false, status⟩]
  | .sleep => [comma, charK 28 6, charD 10 2, charD 10 2]

/-- The characters of a run of sets, some times over. -/
def runChars (s : List LinkSet) (n : Nat) : List Char8 := (List.replicate n (s.map LinkSet.chars).flatten).flatten

/-- Start and end of a frame. -/
def sofChars : List Char8 := [comma, charK 27 7, charD 21 5, charD 21 5]
def eofChars : List Char8 := [comma, charK 29 7, charD 21 5, charD 21 5]

/-- A frame's bytes between its SOF and EOF. -/
def frameChars (b : List Byte) : List Char8 := sofChars ++ (b.map fun x => (⟨false, x.toNat⟩ : Char8)) ++ eofChars

/-- The header, payload and CRC-32C of a frame (R150, R151). -/
def frameBytes (type address tag aux : Nat) (payload : List Byte) : List Byte :=
  let b := le 1 type ++ le 1 address ++ le 2 payload.length ++ le 2 tag ++ le 2 aux ++ payload
  b ++ le 4 (crc32c b)

/-- A frame's fields. -/
def frameType (b : List Byte) : Nat := fld b 0 1
def frameAddress (b : List Byte) : Nat := fld b 1 1
def frameTag (b : List Byte) : Nat := fld b 4 2
def frameAux (b : List Byte) : Nat := fld b 6 2
def framePayload (b : List Byte) : List Byte := slice b 8 (b.length - 12)

/-- R150 on a received frame: a payload of 0 to 1,024 bytes, a multiple of 4, of the length its header gives, the reserved bits of
its address zero, and its CRC-32C. -/
def frameOk (b : List Byte) : Bool :=
  decide (12 ≤ b.length ∧ b.length ≤ 1036) && b.length % 4 == 0 && fld b 2 2 == b.length - 12 &&
    fld b 1 1 / 32 == 0 && crc32c (b.take (b.length - 4)) == fld b (b.length - 4) 4

/-- The bytes of a frame striped over the `n` lanes of a camera (R191): word w of the stream came on the lane of bond index w mod n; lanes
whose SKIPs lie more than 32 code groups apart cannot be deskewed. -/
def destriped (f : CamFrame) (n : Nat) : Option (List Byte) :=
  if f.parts.length ≠ n ∨ n = 0 ∨ minOf f.skews + 32 < maxOf f.skews then none
  else
    some (((List.range ((f.parts.map List.length).sum / 4)).map fun j =>
      slice (f.parts.getD ((f.first + j) % n) []) (4 * (j / n)) 4).flatten)

/-- A word fits one of the sets of R186. -/
def setWord (w : List (Option Char8)) : Bool :=
  let data (c : Option Char8) : Bool := c.any fun c => !c.special
  match w with
  | [some a, some b, c, d] =>
    a == comma &&
      ((b == charD 16 2 && data c && d == some (charD 16 2)) || w == sofChars.map some || w == eofChars.map some ||
        w == LinkSet.skip.chars.map some || w == LinkSet.sleep.chars.map some ||
        ((b == charK 28 2 || b == charK 28 3) && data c && data d))
  | _ => false

/-- Which groups of a word are valid: none of an unknown set's K28.5, no K28.5 beyond group 0, and no other special group outside groups
1 to 3 of a set. -/
def wordValid (w : List (Option Char8)) : List Bool :=
  let known := setWord w
  (w.zip (List.range w.length)).map fun x =>
    match x.1 with
    | none => false
    | some c => if !c.special then true else if c == comma then x.2 == 0 && known else x.2 != 0 && known

/-- The hop byte of a word that is IDLE. -/
def idleHop (w : List (Option Char8)) : Option Nat :=
  match w with
  | [a, b, some c, _] => if a == some comma && b == some (charD 16 2) && setWord w then some c.byte else none
  | _ => none

/-! ### Receiving (R187) -/

/-- Code groups decoded in turn from a running disparity. -/
def decodeAll : Bool → List Nat → List (Option Char8) × Bool
  | rd, [] => ([], rd)
  | rd, g :: r => let a := decode10 rd g; let b := decodeAll a.2 r; (a.1 :: b.1, b.2)

/-- A list cut into pieces of `n`, with fuel. -/
def pieces {α : Type} (n : Nat) : Nat → List α → List (List α)
  | 0, _ => []
  | f + 1, l => if l.isEmpty then [] else l.take n :: pieces n f (l.drop n)

/-- The code groups of received symbols from a phase on; the first symbol only serves to undo the precoding of the next. -/
def groupsAt (phase : Nat) : List Nat → List Nat
  | [] => []
  | p :: ps =>
    let bs := (lineBits p ps).drop (2 * phase)
    ((pieces 10 ps.length bs).filter fun b => b.length == 10).map bitsNat

/-- The disparity before a comma group, none for another group. -/
def commaRd (g : Nat) : Option Bool :=
  if g = (encode10 false comma).1 then some false else if g = (encode10 true comma).1 then some true else none

/-- A search for alignment under way: disparity, characters since its first K28.5, latest first, and how many K28.5 it has. -/
abbrev AlignRun := Option (Bool × List (Option Char8) × Nat)

/-- A search begun afresh at a group. -/
def alignStart (g : Nat) : AlignRun := (commaRd g).map fun rd => ((encode10 rd comma).2, [some comma], 1)

/-- Three K28.5, each whole words after the one before and no invalid group between: the characters from the first to before the
third, the disparity there, and the groups from the third on. -/
def alignIn : AlignRun → List Nat → Option (List (Option Char8) × Bool × List Nat)
  | _, [] => none
  | none, g :: r => alignIn (alignStart g) r
  | some (rd, cs, n), g :: r =>
    let a := decode10 rd g
    if a.1.isNone then alignIn (alignStart g) r
    else if a.1 = some comma then
      if cs.length % 4 ≠ 0 ∨ ((pieces 4 cs.length cs.reverse).all fun w => (wordValid w).all id) = false then alignIn (alignStart g) r
      else if n = 2 then some (cs.reverse, rd, g :: r)
      else alignIn (some (a.2, a.1 :: cs, n + 1)) r
    else alignIn (some (a.2, a.1 :: cs, n)) r

/-- The search in each of the five symbol phases: the words from the first K28.5 on, and the disparity after them. -/
def alignWords (symbols : List Nat) : Option (List (List (Option Char8)) × Bool) :=
  ((List.range 5).findSome? fun ph => alignIn none (groupsAt ph symbols)).map fun x =>
    let rest := decodeAll x.2.1 x.2.2
    let cs := x.1 ++ rest.1
    (pieces 4 cs.length cs, rest.2)

/-- The last hop byte received in a run of words. -/
def lastHop (ws : List (List (Option Char8))) : Option Nat := (ws.filterMap idleHop).getLast?

/-- The error count at a group (R187): 1 more for an invalid one, 1 fewer for each 4 valid ones in a row. -/
def RxCode.group (x : RxCode) (valid : Bool) : RxCode :=
  if x.errors = 4 then x
  else if !valid then { x with errors := x.errors + 1, good := 0 }
  else if x.good = 3 then { x with errors := x.errors - 1, good := 0 }
  else { x with good := x.good + 1 }

/-- The words of a stretch of symbols that an aligned receiver takes from a word boundary on, and the disparity after it. The disparity
is the one kept where the stretch follows the last one at once, else the one that its first group shows (log entry 144). -/
def RxCode.words (x : RxCode) (now : Nat) (symbols : List Nat) : List (List (Option Char8)) × Bool :=
  let gs := groupsAt 0 symbols
  let rd := if x.at_ = now then x.rd else match gs with
    | g :: _ => (decode10 false g).1.isNone
    | [] => x.rd
  let d := decodeAll rd gs
  (pieces 4 d.1.length d.1, d.2)

/-! ### The lanes' coders -/

/-- A lane. -/
def Ctl.lane (c : Ctl) (l : Nat) : Lane := kvGet Lane.reset c.units.lanes l

/-- A lane replaced. -/
def Ctl.setLane (c : Ctl) (l : Nat) (x : Lane) : Ctl :=
  { c with units := { c.units with lanes := kvSet Lane.reset c.units.lanes l x } }

/-- rx_state (R205): 0 OFF, 1 SLEEP, 2 ACQUIRE, 3 ALIGN, 4 TRAIN, 5 ACTIVE, 6 CAL, 7 DOWN. -/
def Ctl.rx (c : Ctl) (l : Nat) : Nat := c.nat (Obj.rx_state l)

/-- tx_state: 0 OFF, 1 SLEEP, 2 ACTIVE. -/
def Ctl.tx (c : Ctl) (l : Nat) : Nat := c.nat (Obj.tx_state l)

/-- The quad of a lane (R183). -/
def quadOf (l : Nat) : Nat := l / 4

/-- Symbol rate of a lane in 0.1 GBd. -/
def Ctl.rateOf (c : Ctl) (l : Nat) : Nat := c.nat (Obj.quad_rate (quadOf l))

/-- The hop byte a lane's transmitter sends (R186, R188): hop 0, with the path bit on the secondary lane of a folded chain, which begins
path B. -/
def Ctl.hopByte (c : Ctl) (l : Nat) : Nat :=
  if (List.range 16).any fun ch => c.nat (Obj.secondary_lane ch) == l then 128 else 0

/-- IDLE words sent in turn: their coding repeats after 8 of them. -/
def TxCode.idles (t : TxCode) (hop : Nat) : Nat → TxCode
  | 0 => t
  | n + 1 => ((t.after (LinkSet.idle hop).chars)).idles hop n

/-- The coder of a lane at the present: the words since the last set or frame were IDLE (R186; log entry 145). -/
def Ctl.codeNow (c : Ctl) (l : Nat) : TxCode :=
  let t := (c.lane l).code
  t.idles (c.hopByte l) ((c.now - t.at_) * c.rateOf l / 200 % 8)

/-- Time after which `n` code groups that begin now have left. -/
def Ctl.groupsEnd (c : Ctl) (l n : Nat) : Nat := max c.now (c.lane l).code.at_ + n * 50 / max 1 (c.rateOf l)

/-- Characters through a lane's coder. -/
def Ctl.sendChars (c : Ctl) (l : Nat) (chs : List Char8) : Ctl :=
  c.setLane l { c.lane l with code := { (c.codeNow l).after chs with at_ := c.groupsEnd l chs.length } }

/-- What a lane sends leaves now. -/
def Ctl.sendNow (c : Ctl) (l : Nat) : Sending → Ctl
  | .sets s n => (c.sendChars l (runChars s n)).emit (.link l s n (c.codeNow l))
  | .frame b => (c.sendChars l (frameChars b)).emit (.frame l b (c.codeNow l))

/-- Until when a transmitter that woke sends IDLE and SKIP alone: 24 us (R200), 60 us to a camera (R263). -/
def Ctl.quietUntil (c : Ctl) (l : Nat) : Nat :=
  match (c.lane l).wokeAt with
  | some t => t + (if c.nat (Obj.lane_role l) = 2 then 60000 else 24000)
  | none => 0

/-- What a waking transmitter held leaves in order, once it may. -/
def Ctl.sendHeld (c : Ctl) (l : Nat) : Ctl :=
  if c.now < c.quietUntil l then c
  else forEach (c.lane l).held (fun c x => c.sendNow l x) (c.setLane l { c.lane l with held := [], wokeAt := none })

/-- What a lane is to send: nothing leaves a transmitter that is not ACTIVE; one that has just woken holds it back (R200; log entry
146). -/
def Ctl.send (c : Ctl) (l : Nat) (x : Sending) : Ctl :=
  if c.tx l ≠ 2 then c
  else if c.now < c.quietUntil l then c.setLane l { c.lane l with held := (c.lane l).held ++ [x] }
  else (c.sendHeld l).sendNow l x

/-- An ordered set sent `n` times in a row. -/
def Ctl.sendSet (c : Ctl) (l : Nat) (s : LinkSet) (n : Nat := 1) : Ctl := c.send l (.sets [s] n)

/-- An ordered set sent `n` times, one in every 256 code groups (R194). -/
def Ctl.sendSpaced (c : Ctl) (l : Nat) (s : LinkSet) (n : Nat) : Ctl :=
  c.send l (.sets (s :: List.replicate 63 (.idle (c.hopByte l))) n)

/-- The PAM4 symbols in which a set or frame leaves its lane. -/
def Out.symbols : Out → List Nat
  | .link _ s n t => t.symbols (runChars s n)
  | .frame _ b t => t.symbols (frameChars b)
  | _ => []

/-- Their levels. -/
def Out.levels (o : Out) : List Int := o.symbols.map lineLevel

end Sys2Proof.Machine
end

