-- ==== Sys2Proof/Machine/CareOps.lean ====
section
/-! DEFINITION. The care committer's shared operations (R124 to R140): nozzle entries, the running order and its validity,
coverage, commits and their effect at a line. -/

namespace Sys2Proof.Machine

/-! ### Nozzle entries (R124) -/

/-- State of an entry: 0 GOOD, 1 WEAK, 2 DEAD, 3 RETIRED. -/
def nozState (e : Nat) : Nat := bits e 31 30

/-- Role of an entry: 0 UNUSED, 1 PRIMARY, 2 REDUNDANT. -/
def nozRole (e : Nat) : Nat := bits e 29 28

/-- Physical column of an entry. -/
def nozColumn (e : Nat) : Nat := e % 65536

/-- Density correction of an entry, in 0.1 %. -/
def nozCorrection (e : Nat) : Int := sgn 8 (bits e 23 16)

/-- The range of R124: role below 0b11, reserved bits 0. -/
def nozRangeOk (e : Nat) : Bool := decide (e < 2 ^ 32) && nozRole e != 3 && bits e 27 24 == 0

/-! ### Heads a nozzle sits in (R2, R4, R166) -/

/-- Global head of a nozzle. -/
def headOfNozzle (z : Nat) : Nat := z / 2048

/-- Chain of a global head. -/
def chainOf (h : Nat) : Nat := h / 16

/-- Position of a global head. -/
def posOf (h : Nat) : Nat := h % 16

/-- The bar of a chain, none at 0xFF. -/
def Ctl.chainBar (c : Ctl) (ch : Nat) : Option Nat :=
  if c.nat (Obj.chain_bar ch) < 8 then some (c.nat (Obj.chain_bar ch)) else none

/-- The bar of a nozzle (R124). -/
def Ctl.barOfNozzle (c : Ctl) (z : Nat) : Option Nat := c.chainBar (chainOf (headOfNozzle z))

/-- Heads 0 to 255. -/
def allHeads : List Nat := List.range 256

/-- Heads of a chain, in position order. -/
def headsOfChain (ch : Nat) : List Nat := (List.range 16).map fun p => 16 * ch + p

/-- Chains assigned to a bar. -/
def Ctl.chainsOfBar (c : Ctl) (b : Nat) : List Nat := (List.range 16).filter fun ch => c.chainBar ch == some b

/-- Heads of a bar. -/
def Ctl.headsOfBar (c : Ctl) (b : Nat) : List Nat := ((c.chainsOfBar b).map headsOfChain).flatten

/-- A head's capability record has been read since reset: its serial is not 0 (R127, R166). -/
def Ctl.recordKnown (c : Ctl) (h : Nat) : Bool := fld (c.oct (Obj.capability h)) 4 8 != 0

/-- No head holds a position of a chain that a discovery has mapped since reset: its nozzles do not exist (R127, log entry 121). -/
def Ctl.headMissing (c : Ctl) (h : Nat) : Bool :=
  c.nat (Obj.head_state h) == 0 && (kvGet ChainMgr.reset c.chn.mgrs (chainOf h)).mapped

/-- Nozzles of a record (R166). -/
def recNozzles (r : List Byte) : Nat := fld r 12 2

/-- Rows of a record. -/
def recRows (r : List Byte) : Nat := fld r 14 1

/-- Drop levels of a record. -/
def recLevels (r : List Byte) : Nat := fld r 15 1

/-- Highest line rate of a record. -/
def recRate (r : List Byte) : Nat := fld r 16 4

/-- FOLD and USAGE_AUTH of a record. -/
def recFold (r : List Byte) : Bool := bit (fld r 28 1) 0
def recAuth (r : List Byte) : Bool := bit (fld r 28 1) 1

/-- Row of a local nozzle index by a record's row_map (R166). -/
def recRow (r : List Byte) (i : Nat) : Nat := fld r 48 16 / 16 ^ (i / 64) % 16

/-- Group of a row of a head (3200+h:06). -/
def Ctl.groupOfRow (c : Ctl) (h row : Nat) : Nat := c.nat (Obj.row_groups h) / 4 ^ row % 4

/-- Group of a nozzle. -/
def Ctl.groupOfNozzle (c : Ctl) (z : Nat) : Nat :=
  c.groupOfRow (headOfNozzle z) (recRow (c.oct (Obj.capability (headOfNozzle z))) (z % 2048))

/-- Groups a head's rows use. -/
def Ctl.groupsOfHead (c : Ctl) (h : Nat) : List Nat :=
  (List.range 4).filter fun g =>
    (List.range (recRows (c.oct (Obj.capability h)))).any fun row => c.groupOfRow h row == g

/-! ### What follows from the heads and the order (R59, R167) -/

/-- 3010+b:04: the bar's offset plus the largest group distance its known heads use (R59, R144). -/
def Ctl.reachOf (c : Ctl) (b : Nat) : Nat :=
  c.nat (Obj.bar_offset b) +
    maxOf (((c.headsOfBar b).filter c.recordKnown).map fun h =>
      maxOf ((c.groupsOfHead h).map fun g => c.nat (Obj.group_distance b g)))

/-- Heads with a known record that hold a nozzle whose role is not UNUSED. -/
def Ctl.headsInOrder (c : Ctl) : List Nat :=
  allHeads.filter fun h => c.recordKnown h && c.care.written.any fun e => headOfNozzle e.1 == h && nozRole e.2 != 0

/-- 3000:05 and 3010+b:04 afresh. -/
def Ctl.refreshGeometry (c : Ctl) : Ctl :=
  let rates := c.headsInOrder.map fun h => recRate (c.oct (Obj.capability h))
  let c1 := c.putN Obj.head_line_rate_max (if rates.isEmpty then 192000 else minOf rates)
  forEach (List.range 8) (fun c b => c.putN (Obj.bar_reach b) (c.reachOf b)) c1

/-! ### Validity of the running order (R127) -/

/-- Other nozzles of the same bar, column and role in a table. -/
def Ctl.sameSpot (c : Ctl) (t : Kv Nat) (z e role : Nat) : List Nat :=
  (t.filter fun o => o.1 != z && nozRole o.2 == role && nozColumn o.2 == nozColumn e &&
    c.barOfNozzle o.1 == c.barOfNozzle z).map (·.1)

/-- Two nozzles lie in the same head and row, where the head's record is known. -/
def Ctl.sameRow (c : Ctl) (z y : Nat) : Bool :=
  let r := c.oct (Obj.capability (headOfNozzle z))
  headOfNozzle z == headOfNozzle y && c.recordKnown (headOfNozzle z) && recRow r (z % 2048) == recRow r (y % 2048)

/-- The violation that names a nozzle in a table, 0 for none, the lowest sub-code of several. -/
def Ctl.orderFault (c : Ctl) (t : Kv Nat) (z : Nat) : Nat :=
  let e := kvGet 0 t z
  let h := headOfNozzle z
  if nozRole e = 0 then 0
  else if c.headMissing h || c.recordKnown h && recNozzles (c.oct (Obj.capability h)) ≤ z % 2048 then 1
  else if nozRole e = 1 && !(c.sameSpot t z e 1).isEmpty then 2
  else if nozRole e = 2 && !(c.sameSpot t z e 2).isEmpty then 3
  else if (c.sameSpot t z e (3 - nozRole e)).any (c.sameRow z) then 4
  else if c.barOfNozzle z = none then 5
  else 0

/-- A table with entries written over it. -/
def overlay (t : Kv Nat) (es : List (Nat × Nat)) : Kv Nat := forEach es (fun t e => kvSet 0 t e.1 e.2) t

/-- The loop of R127: entries accepted, those refused taken out round by round. -/
def Ctl.admissible (c : Ctl) (t : Kv Nat) : Nat → List (Nat × Nat) → List (Nat × Nat)
  | 0, _ => []
  | f + 1, es =>
    let w := overlay t es
    let ok := es.filter fun e => c.orderFault w e.1 == 0
    if ok.length = es.length then es else c.admissible t f ok

/-- The entries refused by the loop of R127, round by round, each with the violation that names it in its round. -/
def Ctl.orderRounds (c : Ctl) (t : Kv Nat) : Nat → List (Nat × Nat) → List ((Nat × Nat) × Nat)
  | 0, _ => []
  | f + 1, es =>
    let w := overlay t es
    let bad := es.filter fun e => c.orderFault w e.1 != 0
    if bad.isEmpty then []
    else (bad.map fun e => (e, c.orderFault w e.1)) ++ c.orderRounds t f (es.filter fun e => c.orderFault w e.1 == 0)

/-- The live running order as written breaks a rule for a nozzle of head `h` (R174). -/
def Ctl.headOrderBad (c : Ctl) (h : Nat) : Bool :=
  c.care.written.any fun e => headOfNozzle e.1 == h &&
    (c.orderFault c.care.written e.1 == 1 || c.orderFault c.care.written e.1 == 4)

/-- Some nozzle of the table as written is in a violation. -/
def Ctl.orderBad (c : Ctl) : Bool := c.care.written.any fun e => c.orderFault c.care.written e.1 != 0

/-! ### Firing nozzles and coverage (R125, R126, R130) -/

/-- A head's nozzles count as firing: its head-back change took effect and no head-out since. -/
def Ctl.headFires (c : Ctl) (h : Nat) : Bool := kvGet false c.care.firing h

/-- Effective state of a nozzle in force (R125). -/
def Ctl.effState (c : Ctl) (z : Nat) : Nat :=
  if c.headFires (headOfNozzle z) then nozState (kvGet 0 c.care.live z) else 2

/-- The nozzle of a role at a physical column of a bar, in the table in force. -/
def Ctl.nozzleAt (c : Ctl) (b role col : Nat) : Option Nat :=
  (c.care.live.find? fun e =>
    nozRole e.2 == role && nozColumn e.2 == col && c.barOfNozzle e.1 == some b).map (·.1)

/-- A nozzle fires (R125, R126). -/
def Ctl.canFire (c : Ctl) (z : Nat) : Bool := decide (c.effState z < 2)

/-- The nozzle that fires a physical column (R126): its PRIMARY, else its REDUNDANT as a stand-in; none where the column has no PRIMARY,
which leaves it unassigned (R130). -/
def Ctl.firesAt (c : Ctl) (b col : Nat) : Option Nat :=
  match c.nozzleAt b 1 col with
  | some z => if c.canFire z then some z else (c.nozzleAt b 2 col).filter c.canFire
  | none => none

/-- A bar's care. -/
def Ctl.careBar (c : Ctl) (b : Nat) : CareBar := kvGet CareBar.reset c.care.bars b

/-- A bar's care replaced. -/
def Ctl.setCareBar (c : Ctl) (b : Nat) (x : CareBar) : Ctl :=
  { c with care := { c.care with bars := kvSet CareBar.reset c.care.bars b x } }

/-- The nozzle that fires a page column of a bar (R130). -/
def Ctl.covers (c : Ctl) (b col : Nat) : Option Nat :=
  let j := (col : Int) + (c.careBar b).offset
  if 0 ≤ j ∧ j ≤ 65535 then c.firesAt b j.toNat else none

/-- Receivers of an uncovered column (R131). -/
def receivers (cov : Nat → Bool) (width u : Nat) : List Nat :=
  ((if 2 ≤ u then [u - 2] else []) ++ (if 1 ≤ u then [u - 1] else []) ++ [u + 1, u + 2]).filter fun r =>
    decide (r < width) && cov r

/-! ### Gaps (R134) -/

/-- Maximal runs of uncovered columns as (start, length), by walking the columns. -/
def gapRuns (cov : Nat → Bool) : Nat → Nat → Option (Nat × Nat) → List (Nat × Nat)
  | 0, _, run => run.toList
  | n + 1, col, run =>
    if cov col then run.toList ++ gapRuns cov n (col + 1) none
    else match run with
      | some (s, l) => gapRuns cov n (col + 1) (some (s, l + 1))
      | none => gapRuns cov n (col + 1) (some (col, 1))

/-- The runs that hold an unhideable gap: 4 or more long, or with a column that has no receiver. -/
def badRuns (cov : Nat → Bool) (width : Nat) : List (Nat × Nat) :=
  (gapRuns cov width 0 none).filter fun r =>
    decide (4 ≤ r.2) || (List.range r.2).any fun k => (receivers cov width (r.1 + k)).isEmpty

/-- The gap runs of a bar over its page columns; with no column fired, all of them are one run. -/
def Ctl.gapsOf (c : Ctl) (b : Nat) (fires : Bool) : List (Nat × Nat) :=
  let width := c.nat (Obj.bar_columns b)
  if fires then badRuns (fun k => (c.covers b k).isSome) width else [(0, width)]

/-- The live counts 3410+b:06 to 0A (R135), CARE_GAP ringing when the gap count rises above 0. They are taken afresh wherever the tables,
the offset, the bar's width or its chains change. -/
def Ctl.careCounts (c : Ctl) (b : Nat) : Ctl :=
  let prim := (c.care.live.filter fun e => nozRole e.2 == 1 && c.barOfNozzle e.1 == some b).map fun e => nozColumn e.2
  let firedCols := prim.eraseDups.filter fun j => (c.firesAt b j).isSome
  let standIns := (c.care.live.filter fun e => nozRole e.2 == 2 && c.firesAt b (nozColumn e.2) == some e.1 &&
    c.barOfNozzle e.1 == some b).length
  let runs := c.gapsOf b (!firedCols.isEmpty)
  let before := c.nat (Obj.gap_runs b)
  let c1 := ((((c.putN (Obj.uncovered_columns b) (65536 - firedCols.length)).putN (Obj.unassigned_columns b)
    (65536 - prim.eraseDups.length)).putN (Obj.stand_ins_active b) standIns).putN (Obj.gap_runs b) runs.length).putN
    (Obj.first_gap_column b) (match runs with
      | [] => 0xFFFFFFFF
      | r :: _ => r.1)
  if before = 0 ∧ runs ≠ [] then c1.ring (Src.CARE_GAP b) b (Obj.gap_runs b) else c1

/-- The live counts of every bar. -/
def Ctl.allCounts (c : Ctl) : Ctl := forEach (List.range 8) Ctl.careCounts c

/-! ### Commits (R136 to R138) -/

/-- The key of 3410+b:`sub` in a commit. -/
def barEntry (sub : Nat) : Nat := 2 ^ 19 + sub

/-- Staged entries of all bars. -/
def Ctl.stagedEntries (c : Ctl) : Nat :=
  ((c.care.bars.map fun b => (b.2.pending.map fun k => k.entries.length).sum)).sum

/-- Commits a bar holds pending: those that wait in order and its head-out and head-back changes (R136). -/
def Ctl.commitsOf (c : Ctl) (b : Nat) : Nat :=
  (c.careBar b).pending.length + (c.careBar b).outs.length + (c.careBar b).backs.length

/-- 3410+b:02 and 3400:03 follow the pending commits. -/
def Ctl.showPending (c : Ctl) (b : Nat) : Ctl :=
  (c.putN (Obj.pending_commits b) (min 16 (c.commitsOf b))).putN Obj.staging_free (262144 - c.stagedEntries)

/-- One more commit would exceed a limit of R136. A head-out change is never refused by it (log entry 122). -/
def Ctl.stageFull (c : Ctl) (b n : Nat) : Bool :=
  decide (16 ≤ c.commitsOf b) || decide (262144 < c.stagedEntries + n)

/-- The values of a commit as written: nozzle entries in the written table, 3410+b objects in the dictionary (R30). -/
def Ctl.writeEntries (c : Ctl) (b : Nat) (es : List (Nat × Nat)) : Ctl :=
  forEach es (fun c e =>
    if e.1 < 2 ^ 19 then { c with care := { c.care with written := kvSet 0 c.care.written e.1 e.2 } }
    else if e.1 = barEntry 3 then c.putN (Obj.neighbour_weights b) e.2
    else if e.1 = barEntry 4 then c.putN (Obj.weak_drop_limit b) e.2
    else c.putN (Obj.screen_origin b) e.2) c

/-! ### Column stamps (R283) -/

/-- The stamp a change of bar `b` accepted now sets: the low 16 bits of the epoch it will take effect under. -/
def Ctl.nextStamp (c : Ctl) (b : Nat) : Nat := (c.nat (Obj.care_epoch b) + c.commitsOf b + 1) % 65536

/-- The stamp of a column of a bar. -/
def Ctl.stampAt (c : Ctl) (b j : Nat) : Nat :=
  let s := kvGet 65536 c.loop.stamps (b * 65536 + j)
  if s < 65536 then s else kvGet 0 c.loop.barStamps b

/-- Columns of a bar stamped, those outside 0 to 65,535 left out. -/
def Ctl.stampColumns (c : Ctl) (b s : Nat) (js : List Int) : Ctl :=
  { c with loop := { c.loop with stamps := forEach js (fun m j =>
      if 0 ≤ j ∧ j < 65536 then kvSet 65536 m (b * 65536 + j.toNat) s else m) c.loop.stamps } }

/-- Every column of a bar stamped. -/
def Ctl.stampBar (c : Ctl) (b s : Nat) : Ctl :=
  { c with loop := { c.loop with stamps := c.loop.stamps.filter fun e => e.1 / 65536 != b,
                                 barStamps := kvSet 0 c.loop.barStamps b s } }

/-- Columns j - 2 to j + 2. -/
def around (j : Nat) : List Int := [(j : Int) - 2, j - 1, j, j + 1, j + 2]

/-- Columns a written entry stamps, against the entry as written before. -/
def stampedBy (old new : Nat) : List Int :=
  (if nozState old ≠ nozState new ∨ nozRole old ≠ nozRole new ∨ nozColumn old ≠ nozColumn new then
    around (nozColumn old) ++ around (nozColumn new) else []) ++
    (if nozCorrection old ≠ nozCorrection new then [(nozColumn new : Int)] else [])

/-- The stamps of a commit's entries. -/
def Ctl.stampEntries (c : Ctl) (b s : Nat) (es : List (Nat × Nat)) : Ctl :=
  forEach es (fun c e =>
    if e.1 < 2 ^ 19 then c.stampColumns b s (stampedBy (kvGet 0 c.care.written e.1) e.2) else c.stampBar b s) c

/-- The stamps of a head-out change: the columns around every nozzle of the head. -/
def Ctl.stampHead (c : Ctl) (b h : Nat) : Ctl :=
  c.stampColumns b (c.nextStamp b)
    (((c.care.written.filter fun e => headOfNozzle e.1 == h).map fun e => around (nozColumn e.2)).flatten)

/-- A commit accepted on a bar. -/
def Ctl.commit (c : Ctl) (b : Nat) (es : List (Nat × Nat)) (page : Bool) (acts : List LoopChange := []) : Ctl :=
  let x := c.careBar b
  let c1 := c.stampEntries b (c.nextStamp b) es
  ((c1.writeEntries b es).setCareBar b { x with pending := x.pending ++ [⟨es, page, acts⟩] }).showPending b

/-- A head-out change requested: effective at the bar's next line, ahead of its pending commits, and a pending
head-back change of the head is dropped (R137). -/
def Ctl.requestOut (c : Ctl) (h : Nat) : Ctl :=
  match c.chainBar (chainOf h) with
  | none => c
  | some b =>
    let x := c.careBar b
    if c.headFires h then
      ((c.stampHead b h).setCareBar b { x with outs := x.outs ++ [h], backs := x.backs.filter (· != h) }).showPending b
    else (c.setCareBar b { x with backs := x.backs.filter (· != h) }).showPending b

/-- A head-back change requested, effective at the bar's next page boundary (R137). -/
def Ctl.requestBack (c : Ctl) (h : Nat) : Ctl :=
  match c.chainBar (chainOf h) with
  | none => c
  | some b =>
    let x := c.careBar b
    ((c.stampHead b h).setCareBar b { x with backs := x.backs ++ [h] }).showPending b

/-- The head's bar holds as many pending commits as R136 allows, so a head-back change is refused. -/
def Ctl.backFull (c : Ctl) (h : Nat) : Bool :=
  match c.chainBar (chainOf h) with
  | none => false
  | some b => c.stageFull b 0

/-- The epoch steps (R138): 0xFFFF_FFFF is followed by 1. `old` is the care before. -/
def Ctl.stepEpoch (c : Ctl) (b pos : Nat) (old : Care) : Ctl :=
  let e := c.nat (Obj.care_epoch b)
  let new := if e = 2 ^ 32 - 1 then 1 else e + 1
  (((c.putN (Obj.care_epoch b) new).putN (Obj.last_effect_position b) pos).noteEffect b pos new old).ring
    (Src.CARE_COMMIT b) b (Obj.care_epoch b)

/-- One entry in force. -/
def Ctl.enforce (c : Ctl) (b : Nat) (e : Nat × Nat) : Ctl :=
  if e.1 < 2 ^ 19 then { c with care := { c.care with live := kvSet 0 c.care.live e.1 e.2 } }
  else
    let x := c.careBar b
    c.setCareBar b (if e.1 = barEntry 3 then { x with weights := e.2 }
      else if e.1 = barEntry 4 then { x with weakLimit := e.2 } else { x with origin := e.2 })

/-- A nozzle's entry as written after a loop's change of it is discarded: what a commit after it writes, else what is in force. -/
def Ctl.unwrite (c : Ctl) (after : List Commit) (z : Nat) : Ctl :=
  if after.any fun k => k.entries.any fun e => e.1 == z then c
  else { c with care := { c.care with written := kvSet 0 c.care.written z (kvGet 0 c.care.live z) } }

/-- One change of a loop action at its boundary (R293): discarded on a page below ACT and for a RETIRED nozzle, else in force. -/
def Ctl.enforceLoop (c : Ctl) (b slot : Nat) (after : List Commit) (e : Nat × Nat) (x : LoopChange) : Ctl :=
  if c.nat (Obj.autonomy slot) < 2 then (c.unwrite after e.1).discarded x 18
  else if nozState (kvGet 0 c.care.written e.1) = 3 then c.discarded x 17
  else (c.enforce b e).acted x

/-- Commits in force, in order, each stepping the epoch once (R138, log entry 91); `later` still wait. -/
def Ctl.enforceAll (c : Ctl) (b slot pos : Nat) (later : List Commit) : List Commit → Ctl
  | [] => c
  | k :: r =>
    let c1 := if k.acts.isEmpty then forEach k.entries (fun c e => c.enforce b e) c
      else forEach (k.entries.zip k.acts) (fun c x => c.enforceLoop b slot (r ++ later) x.1 x.2) c
    (c1.stepEpoch b pos c.care).enforceAll b slot pos later r

/-- Commits that take effect at a line: all of them at a page's first line, else those before the first PAGE commit. -/
def dueCommits (pageStart : Bool) : List Commit → List Commit × List Commit
  | [] => ([], [])
  | k :: r => if k.page && !pageStart then ([], k :: r) else let d := dueCommits pageStart r; (k :: d.1, d.2)

/-- Head-out and head-back changes and commits take effect at a line of bar `b` whose screening starts (R137, R138).
`pos` is the page position plus 64 times the line, `slot` the page's. The heads brought back are listed. -/
def Ctl.takeEffect (c : Ctl) (b pos slot : Nat) (pageStart : Bool) : List Nat × Ctl :=
  let x := c.careBar b
  let c1 := forEach x.outs (fun c h =>
    ({ c with care := { c.care with firing := kvSet false c.care.firing h false } }).stepEpoch b pos c.care) c
  let backs := if pageStart then x.backs else []
  let c2 := forEach backs (fun c h =>
    ({ c with care := { c.care with firing := kvSet false c.care.firing h true } }).stepEpoch b pos c.care) c1
  let due := dueCommits pageStart x.pending
  let c3 := c2.setCareBar b { c2.careBar b with outs := [], backs := if pageStart then [] else x.backs, pending := due.2 }
  let c4 := c3.enforceAll b slot pos due.2 due.1
  let c5 := if x.outs.isEmpty && backs.isEmpty && due.1.isEmpty then c4 else (c4.showPending b).careCounts b
  (backs, c5)

end Sys2Proof.Machine
end

