-- ==== Sys2Proof/Machine/Inflate.lean ====
section
/-! DEFINITION. Crates decoded (R93 to R99, R111, R112): DEFLATE under RFC 1951 as R99 restricts it, the filters of R98, the
end checks. A decode ends with the samples and at most one error: code, detection row, payload offset. -/

namespace Sys2Proof.Machine

/-! ### The bit stream -/

/-- A decode in progress: bits left (least significant bit of each byte first), bits used, bytes produced (latest first)
and their number. -/
structure Inf where
  bits : List Bool
  used : Nat
  out : List Byte
  n : Nat
  deriving DecidableEq, Repr

/-- A decompression error: code of R112, and the decode as it stood when the error was found. -/
structure InfErr where
  code : Nat
  at_ : Inf
  deriving DecidableEq, Repr

abbrev errIllegal : Nat := 0x21
abbrev errDistance : Nat := 0x22
abbrev errOverrun : Nat := 0x23
abbrev errSize : Nat := 0x24
abbrev errCrc : Nat := 0x25
abbrev errFilter : Nat := 0x26
abbrev errHeader : Nat := 0x27

/-- An error found now. -/
def Inf.fail {α : Type} (s : Inf) (code : Nat) : Except InfErr α := .error ⟨code, s⟩

/-- The bits of bytes. -/
def bitsOf (b : List Byte) : List Bool := (b.map fun x => (List.range 8).map fun i => bit x.toNat i).flatten

/-- One bit; a read past the payload is LENGTH_OVERRUN. -/
def Inf.bit1 (s : Inf) : Except InfErr (Nat × Inf) :=
  match s.bits with
  | [] => s.fail errOverrun
  | b :: r => .ok (if b then 1 else 0, { s with bits := r, used := s.used + 1 })

/-- `n` bits, first bit least significant. -/
def Inf.bitsN : Nat → Inf → Except InfErr (Nat × Inf)
  | 0, s => .ok (0, s)
  | n + 1, s => do
    let (b, s1) ← s.bit1
    let (v, s2) ← Inf.bitsN n s1
    .ok (b + 2 * v, s2)

/-- A byte produced, `limit` bytes at most; a byte that starts a row is its filter type, 4 at most (R98). -/
def Inf.push (limit : Nat) (s : Inf) (b : Byte) : Except InfErr Inf :=
  if limit ≤ s.n then s.fail errOverrun
  else if s.n % 257 = 0 ∧ 4 < b.toNat then s.fail errFilter
  else .ok { s with out := b :: s.out, n := s.n + 1 }

/-! ### Prefix codes -/

/-- Symbols in order of code: shorter codes first, then by symbol. -/
def codeOrder (lens : List Nat) : List Nat :=
  ((List.range 15).map fun l => (List.range lens.length).filter fun i => lens.getD i 0 == l + 1).flatten

/-- Codes of each length 1 to 15. -/
def codeCounts (lens : List Nat) : List Nat := (List.range 15).map fun l => (lens.filter (· == l + 1)).length

/-- What is left of the code space: negative when over-subscribed, positive when incomplete. -/
def codeLeft (lens : List Nat) : Int := (codeCounts lens).foldl (fun (left : Int) (k : Nat) => 2 * left - k) 1 

/-- Over-subscribed at some length. -/
def overSubscribed (lens : List Nat) : Bool :=
  ((codeCounts lens).foldl (fun (a : Int × Bool) (k : Nat) => let l := 2 * a.1 - k; (l, a.2 || decide (l < 0))) ((1 : Int), false)).2

/-- A prefix code: its counts and its symbols in order. -/
structure Huff where
  counts : List Nat
  order : List Nat
  deriving DecidableEq, Repr

/-- The code of a list of lengths. -/
def Huff.ofLens (lens : List Nat) : Huff := ⟨codeCounts lens, codeOrder lens⟩

/-- One symbol read bit by bit; a pattern the code does not hold is ILLEGAL_CODE. -/
def Huff.sym (order : List Nat) : List Nat → Nat → Nat → Nat → Inf → Except InfErr (Nat × Inf)
  | [], _, _, _, s => s.fail errIllegal
  | k :: ks, code, first, index, s => do
    let (b, s1) ← s.bit1
    let c := code + b
    if c < first + k then
      match order[index + (c - first)]? with
      | some v => .ok (v, s1)
      | none => s1.fail errIllegal
    else Huff.sym order ks (2 * c) (2 * (first + k)) (index + k) s1

/-- One symbol of a code. -/
def Huff.read (h : Huff) (s : Inf) : Except InfErr (Nat × Inf) := Huff.sym h.order h.counts 0 0 0 s

/-! ### Blocks -/

/-- Base and extra bits of length symbols 257 to 285. -/
def lengthTable : List (Nat × Nat) :=
  [(3, 0), (4, 0), (5, 0), (6, 0), (7, 0), (8, 0), (9, 0), (10, 0), (11, 1), (13, 1), (15, 1), (17, 1), (19, 2), (23, 2),
   (27, 2), (31, 2), (35, 3), (43, 3), (51, 3), (59, 3), (67, 4), (83, 4), (99, 4), (115, 4), (131, 5), (163, 5), (195, 5),
   (227, 5), (258, 0)]

/-- Base and extra bits of distance symbols 0 to 29. -/
def distTable : List (Nat × Nat) :=
  [(1, 0), (2, 0), (3, 0), (4, 0), (5, 1), (7, 1), (9, 2), (13, 2), (17, 3), (25, 3), (33, 4), (49, 4), (65, 5), (97, 5),
   (129, 6), (193, 6), (257, 7), (385, 7), (513, 8), (769, 8), (1025, 9), (1537, 9), (2049, 10), (3073, 10), (4097, 11),
   (6145, 11), (8193, 12), (12289, 12), (16385, 13), (24577, 13)]

/-- A match of `len` bytes at distance `d`. -/
def Inf.copy (limit d : Nat) : Nat → Inf → Except InfErr Inf
  | 0, s => .ok s
  | n + 1, s => do
    let s1 ← s.push limit (s.out.getD (d - 1) 0)
    Inf.copy limit d n s1

/-- Symbols up to the end of the block. -/
def Inf.symbols (limit : Nat) (lit dist : Huff) : Nat → Inf → Except InfErr Inf
  | 0, s => s.fail errOverrun
  | f + 1, s => do
    let (v, s1) ← lit.read s
    if v < 256 then
      let s2 ← s1.push limit (BitVec.ofNat 8 v)
      Inf.symbols limit lit dist f s2
    else if v = 256 then .ok s1
    else
      match lengthTable[v - 257]? with
      | none => s1.fail errIllegal
      | some (base, extra) => do
        let (x, s2) ← Inf.bitsN extra s1
        let (dv, s3) ← dist.read s2
        match distTable[dv]? with
        | none => s3.fail errIllegal
        | some (dbase, dextra) => do
          let (y, s4) ← Inf.bitsN dextra s3
          if s4.n < dbase + y then s4.fail errDistance
          else do
            let s5 ← Inf.copy limit (dbase + y) (base + x) s4
            Inf.symbols limit lit dist f s5

/-- The fixed codes. -/
def fixedLit : Huff :=
  Huff.ofLens (List.replicate 144 8 ++ List.replicate 112 9 ++ List.replicate 24 7 ++ List.replicate 8 8)
def fixedDist : Huff := Huff.ofLens (List.replicate 32 5)

/-- The order of code-length code lengths. -/
def clOrder : List Nat := [16, 17, 18, 0, 8, 7, 9, 6, 10, 5, 11, 4, 12, 3, 13, 2, 14, 1, 15]

/-- `n` 3-bit lengths. -/
def Inf.triples : Nat → Inf → Except InfErr (List Nat × Inf)
  | 0, s => .ok ([], s)
  | n + 1, s => do
    let (v, s1) ← Inf.bitsN 3 s
    let (r, s2) ← Inf.triples n s1
    .ok (v :: r, s2)

/-- Code lengths of a dynamic block, `need` in all, latest first in `acc`. -/
def Inf.lens (h : Huff) (need : Nat) : Nat → List Nat → Inf → Except InfErr (List Nat × Inf)
  | 0, acc, s => .ok (acc.reverse, s)
  | f + 1, acc, s =>
    if need ≤ acc.length then .ok (acc.reverse, s)
    else do
      let (v, s1) ← h.read s
      if v < 16 then Inf.lens h need f (v :: acc) s1
      else do
        let (x, s2) ← Inf.bitsN (if v = 16 then 2 else if v = 17 then 3 else 7) s1
        let rep := if v = 18 then 11 + x else 3 + x
        if v = 16 ∧ acc.isEmpty then s2.fail errIllegal
        else if need < acc.length + rep then s2.fail errIllegal
        else Inf.lens h need f (List.replicate rep (if v = 16 then acc.headD 0 else 0) ++ acc) s2

/-- The codes of a dynamic block. A distance code may be incomplete; the other two may not (R99). -/
def Inf.dynamic (s : Inf) : Except InfErr ((Huff × Huff) × Inf) := do
  let (hl, s1) ← Inf.bitsN 5 s
  let (hd, s2) ← Inf.bitsN 5 s1
  let (hc, s3) ← Inf.bitsN 4 s2
  let (ts, s4) ← Inf.triples (hc + 4) s3
  let cl := (List.range 19).map fun i => match clOrder.findIdx? (· == i) with
    | some k => ts.getD k 0
    | none => 0
  if overSubscribed cl || codeLeft cl != 0 then s4.fail errIllegal
  else do
    let need := hl + 257 + hd + 1
    let (ls, s5) ← Inf.lens (Huff.ofLens cl) need (need + 1) [] s4
    let lit := ls.take (hl + 257)
    let dist := ls.drop (hl + 257)
    if overSubscribed lit || codeLeft lit != 0 || overSubscribed dist then s5.fail errIllegal
    else .ok ((Huff.ofLens lit, Huff.ofLens dist), s5)

/-- `n` bytes of a stored block. -/
def Inf.stored (limit : Nat) : Nat → Inf → Except InfErr Inf
  | 0, s => .ok s
  | n + 1, s => do
    let (v, s1) ← Inf.bitsN 8 s
    let s2 ← s1.push limit (BitVec.ofNat 8 v)
    Inf.stored limit n s2

/-- Bits up to the next byte boundary dropped. -/
def Inf.align (s : Inf) : Inf :=
  let k := (8 - s.used % 8) % 8
  { s with bits := s.bits.drop k, used := s.used + k }

/-- One block; whether it was the final one. -/
def Inf.block (limit fuel : Nat) (s : Inf) : Except InfErr (Bool × Inf) := do
  let (final, s1) ← s.bit1
  let (type, s2) ← Inf.bitsN 2 s1
  if type = 0 then
    let s3 := s2.align
    let (len, s4) ← Inf.bitsN 16 s3
    let (nlen, s5) ← Inf.bitsN 16 s4
    if len + nlen ≠ 65535 then s5.fail errIllegal
    else do
      let s6 ← Inf.stored limit len s5
      .ok (final == 1, s6)
  else if type = 1 then do
    let s3 ← Inf.symbols limit fixedLit fixedDist fuel s2
    .ok (final == 1, s3)
  else if type = 2 then do
    let (h, s3) ← s2.dynamic
    let s4 ← Inf.symbols limit h.1 h.2 fuel s3
    .ok (final == 1, s4)
  else s2.fail errIllegal

/-- Blocks up to the final one. -/
def Inf.blocks (limit fuel : Nat) : Nat → Inf → Except InfErr Inf
  | 0, s => s.fail errOverrun
  | f + 1, s => do
    let (final, s1) ← Inf.block limit fuel s
    if final then .ok s1 else Inf.blocks limit fuel f s1

/-- A payload inflated to exactly `limit` bytes, with no payload byte left over (R99). -/
def inflate (limit : Nat) (payload : List Byte) : Except InfErr Inf := do
  let fuel := 8 * payload.length + 1
  let s ← Inf.blocks limit fuel fuel ⟨bitsOf payload, 0, [], 0⟩
  if s.n < limit ∨ 8 ≤ s.bits.length then s.fail errSize else .ok s

/-! ### Filters (R98) -/

/-- The Paeth predictor. -/
def paeth (a b c : Nat) : Nat :=
  let p : Int := (a : Int) + b - c
  let pa := (p - a).natAbs
  let pb := (p - b).natAbs
  let pc := (p - c).natAbs
  if pa ≤ pb ∧ pa ≤ pc then a else if pb ≤ pc then b else c

/-- The predictor of a filter type from the samples left, above and above left. -/
def predict (type a b c : Nat) : Nat :=
  if type = 1 then a else if type = 2 then b else if type = 3 then (a + b) / 2 else if type = 4 then paeth a b c else 0

/-- One row unfiltered against the row above. -/
def unfilterRow (type : Nat) : List Byte → List Byte → Nat → Nat → List Byte
  | [], _, _, _ => []
  | x :: r, up, left, upLeft =>
    let b := (up.headD 0).toNat
    let v := (x.toNat + predict type left b upLeft) % 256
    BitVec.ofNat 8 v :: unfilterRow type r up.tail v b

/-- `n` filtered rows of 257 bytes unfiltered. -/
def unfilter : Nat → List Byte → List Byte → List (List Byte)
  | 0, _, _ => []
  | n + 1, b, up =>
    let row := unfilterRow (b.headD 0).toNat (slice b 1 256) up 0 0
    row :: unfilter n (b.drop 257) row

/-- Rows of 256 samples. -/
def plainRows : Nat → List Byte → List (List Byte)
  | 0, _ => []
  | n + 1, b => b.take 256 :: plainRows n (b.drop 256)

/-! ### Crates (R94, R95, R104, R112) -/

/-- What is wrong with a crate header for a band of `lines` and an entry of `crateBytes`, 0 for nothing (R104). -/
def headerFault (h : List Byte) (lines crateBytes : Nat) : Nat :=
  if fld h 0 2 ≠ 0x5243 then 1
  else if fld h 2 1 ≠ 1 then 2
  else if 1 < fld h 3 1 then 3
  else if fld h 4 2 ≠ lines then 4
  else if (if fld h 3 1 = 0 then fld h 8 4 ≠ lines * 256 else fld h 8 4 < 1 ∨ 65536 < fld h 8 4) then 5
  else if fld h 6 2 ≠ 0 ∨ fld h 16 16 ≠ 0 then 6
  else if crateBytes ≠ 32 + fld h 8 4 then 7
  else 0

/-- A crate's failure: code, detection row, payload offset. -/
structure CrateErr where
  code : Nat
  row : Nat
  offset : Nat
  deriving DecidableEq, Repr

/-- A crate as decoded: `lines` rows, those from the detection row on all zero (R113), and the error. -/
structure Crate where
  rows : List (List Byte)
  err : Option CrateErr
  deriving DecidableEq, Repr

/-- Rows cut at a detection row and filled with zeros. -/
def releasedRows (lines : Nat) (rows : List (List Byte)) (err : Option CrateErr) : List (List Byte) :=
  match err with
  | none => rows
  | some e => let k := rows.take e.row; k ++ List.replicate (lines - k.length) (zeros 256)

/-- The byte the last bit read lies in, the payload's length once it has been read to its end. -/
def errOffset (s : Inf) (size : Nat) : Nat := if s.bits.isEmpty then size else (s.used - 1) / 8

/-- The error of a DEFLATE payload with its detection row: the row being produced, or the last row (R112). -/
def deflateError (lines size : Nat) (e : InfErr) : CrateErr :=
  let row := if e.code = errSize ∧ lines * 257 ≤ e.at_.n then lines - 1 else min (e.at_.n / 257) (lines - 1)
  ⟨e.code, row, errOffset e.at_ size⟩

/-- A crate decoded from its header and payload as read for a band of `lines` and an entry of `crateBytes` (R111, R112). -/
def decodeCrate (b : List Byte) (lines crateBytes : Nat) : Crate :=
  let h := b.take 32
  let payload := b.drop 32
  if headerFault h lines crateBytes ≠ 0 then ⟨List.replicate lines (zeros 256), some ⟨errHeader, 0, 0⟩⟩
  else
    let crcErr := if crc32c payload = fld h 12 4 then none else some (⟨errCrc, lines - 1, payload.length⟩ : CrateErr)
    if fld h 3 1 = 0 then ⟨releasedRows lines (plainRows lines payload) crcErr, crcErr⟩
    else match inflate (lines * 257) payload with
      | .ok s => ⟨releasedRows lines (unfilter lines s.out.reverse (zeros 256)) crcErr, crcErr⟩
      | .error e =>
        let x := deflateError lines payload.length e
        ⟨releasedRows lines (unfilter x.row e.at_.out.reverse (zeros 256)) (some x), some x⟩

end Sys2Proof.Machine
end

