-- ==== Sys2Proof/Machine/RecOps.lean ====
section
/-! DEFINITION. What the packer keeps of printing (R305, R322 to R326): recorded lines, group maps, outcomes, unfired lines, and
crates as the packer makes them. -/

namespace Sys2Proof.Machine

/-! ### The recorder -/

/-- The recorder's state. -/
def Ctl.recorder (c : Ctl) : Recorder := c.units.record

/-- The recorder's state replaced. -/
def Ctl.setRec (c : Ctl) (r : Recorder) : Ctl := { c with units := { c.units with record := r } }

/-- The fire record of a ticket. -/
def Ctl.fireRec (c : Ctl) (n : Nat) : Option FireRec := c.recorder.fires.find? fun f => f.ticket == n

/-- A fire record changed. -/
def Ctl.onFireRec (c : Ctl) (n : Nat) (f : FireRec → FireRec) : Ctl :=
  let r := c.recorder
  c.setRec { r with fires := r.fires.map fun x => if x.ticket = n then f x else x }

/-! ### Crates of the packer (R322, R323) -/

/-- A crate: header and payload (R95). -/
def crateOf (method lines : Nat) (payload : List Byte) : List Byte :=
  [0x43, 0x52, 1] ++ le 1 method ++ le 2 lines ++ [0, 0] ++ le 4 payload.length ++ le 4 (crc32c payload) ++ zeros 16 ++ payload

/-- Rows filtered with Up, each preceded by its filter type (R98). -/
def upFiltered : List Byte → List (List Byte) → List Byte
  | _, [] => []
  | above, row :: r =>
    2 :: (List.zipWith (fun x u => x - u) row above) ++ upFiltered row r

/-- The DEFLATE payload the packer makes of rows. -/
def packedPayload (rows : List (List Byte)) : List Byte :=
  (Config.deflated ((upFiltered (zeros 256) rows).map (·.toNat))).map (BitVec.ofNat 8)

/-- The crate of rows STORED. -/
def storedCrate (rows : List (List Byte)) : List Byte := crateOf 0 rows.length rows.flatten

/-- Rows are written STORED at once: the payload would exceed 65,536 bytes or the input. -/
def storedAtOnce (rows : List (List Byte)) (payload : List Byte) : Bool :=
  decide (65536 < payload.length ∨ rows.length * 256 < payload.length)

/-- The check of a held crate: its payload decodes to its rows (R323). -/
def HeldCrate.checks (h : HeldCrate) : Bool :=
  let b := crateOf 1 h.rows.length h.payload
  let x := decodeCrate b h.rows.length b.length
  x.err.isNone && x.rows == h.rows

/-! ### What is recorded of a ticket (R305, R325) -/

/-- Bars recorded of a ticket, as a mask. -/
def Ctl.recordedBars (c : Ctl) (t : Ticket) : Nat :=
  let mode := c.nat (Obj.fire_pages t.slot)
  if mode = 1 ∨ mode = 2 ∧ t.work.nth % max 1 (c.nat (Obj.fire_every t.slot)) = 0 then c.nat (Obj.fire_bars t.slot) &&& t.bars
  else 0

/-- The word of a group map for a page column. -/
def Ctl.mapWord (c : Ctl) (b col : Nat) : Nat :=
  match c.covers b col with
  | some z => headOfNozzle z * 256 + 8 + (if nozRole (kvGet 0 c.care.live z) = 2 then 4 else 0) + c.groupOfNozzle z % 4
  | none => 0

/-- The levels of page columns from those of the firing nozzles. -/
def Ctl.columnLevels (c : Ctl) (b width : Nat) (levels : Kv Nat) : Kv Nat :=
  forEach (List.range (256 * width)) (fun m col =>
    match c.covers b col with
    | some z => kvSet 0 m col (kvGet 0 levels z)
    | none => m) []

/-- A line of a recorded bar is screened, or skipped with no levels: levels and, where due, a group map are kept; the record ride
is needed. -/
def Ctl.recordLine (c : Ctl) (t : Ticket) (b line count : Nat) (levels : Kv Nat) : Ctl :=
  if !bit (c.recordedBars t) b then c
  else
    let r := c.recorder
    let f := (c.fireRec t.number).getD ⟨t.number, c.recordedBars t, t.width, t.length, [], [], [], [], [], [], false, false⟩
    let epoch := c.nat (Obj.care_epoch b)
    let due := match (f.maps.filter fun m => m.bar == b).getLast? with
      | some m => m.epoch != epoch
      | none => true
    let g := { f with
      lines := f.lines ++ [⟨b, line, count, c.columnLevels b t.width levels⟩]
      maps := if due then f.maps ++ [⟨b, line, epoch, (List.range (256 * t.width)).map (c.mapWord b)⟩] else f.maps }
    (c.setRec { r with fires := r.fires.filter (fun x => x.ticket != t.number) ++ [g] }).needRide rideRecord

/-- Key of a group's outcome of a line. -/
def outcomeKey (b line g : Nat) : Nat := 4 * (65536 * b + line) + g

/-- The outcome of a group of a line: 0 FIRED, 1 OMITTED, 2 WITHHELD, 3 NONE (R326). -/
def Ctl.recordOutcome (c : Ctl) (ticket b line g code : Nat) : Ctl :=
  if (c.fireRec ticket).isNone then c
  else c.onFireRec ticket fun f => { f with outcomes := kvSet 3 f.outcomes (outcomeKey b line g) code }

/-- A line counted unfired for a head in a group (R172). -/
def Ctl.recordUnfired (c : Ctl) (ticket h g count : Nat) : Ctl :=
  if (c.fireRec ticket).isNone then c
  else c.onFireRec ticket fun f => { f with unfired := f.unfired ++ [(h, g, count)] }

/-! ### Bands of the fire record (R325) -/

/-- Recorded bars in order. -/
def FireRec.barList (f : FireRec) : List Nat := barsOf f.bars

/-- Crate columns: eight crates of the page each. -/
def FireRec.columns (f : FireRec) : Nat := (f.width + 7) / 8

/-- Bands of 8 lines. -/
def FireRec.bands (f : FireRec) : Nat := (f.length + 7) / 8

/-- Rank of a bar. -/
def FireRec.rank (f : FireRec) (b : Nat) : Nat := (f.barList.filter (· < b)).length

/-- The entry of a crate. -/
def FireRec.entry (f : FireRec) (b k j : Nat) : Nat := (k * f.barList.length + f.rank b) * f.columns + j

/-- One row: bit `p` of the levels of 2,048 page columns. -/
def planeRow (levels : Kv Nat) (first p : Nat) : List Byte :=
  (List.range 256).map fun x =>
    BitVec.ofNat 8 (((List.range 8).map fun y => kvGet 0 levels (first + 8 * x + y) / 2 ^ p % 2 * 2 ^ y).sum)

/-- The rows of a crate: three bit planes per page line. -/
def FireRec.crateRows (f : FireRec) (b k j : Nat) : List (List Byte) :=
  ((List.range (min 8 (f.length - 8 * k))).map fun m =>
    let levels := match f.lines.find? fun l => l.bar == b && l.line == 8 * k + m with
      | some l => l.levels
      | none => []
    (List.range 3).map (planeRow levels (2048 * j))).flatten

/-- A crate of a fire record packed: written STORED at once, or held for its check. -/
def Ctl.packFireCrate (c : Ctl) (ticket b k j : Nat) : Ctl :=
  match c.fireRec ticket with
  | none => c
  | some f =>
    let rows := f.crateRows b k j
    let payload := packedPayload rows
    if storedAtOnce rows payload then
      c.onFireRec ticket fun f => { f with crates := kvSet [] f.crates (f.entry b k j) (storedCrate rows) }
    else
      let r := c.recorder
      c.setRec { r with held := r.held ++ [⟨true, ticket, f.entry b k j, k, rows, payload⟩] }

/-- A band misses its RT writes: the line rate is above the page cap, and the memory did not keep up, which R327 leaves open
(log entry 155). -/
def Ctl.bandMissed (c : Ctl) (ticket : Nat) : Bool :=
  match c.ticket ticket with
  | some t => decide ((t.cap : Int) < c.int Obj.web_speed) && c.fresh 2 == 1
  | none => false

/-- A band of a recorded bar packed, once; one that misses its writes has zero entries, and its lines are lost. -/
def Ctl.packBand (c : Ctl) (ticket b k : Nat) : Ctl :=
  match c.fireRec ticket with
  | none => c
  | some f =>
    if f.packed.contains (b, k) || !bit f.bars b then c
    else if c.bandMissed ticket then
      (c.took.onFireRec ticket fun f => { f with packed := f.packed ++ [(b, k)], short := true }).bumpBy Obj.fire_lines_lost
        (min 8 (f.length - 8 * k))
    else
      forEach (List.range f.columns) (fun c j => c.packFireCrate ticket b k j)
        (c.onFireRec ticket fun f => { f with packed := f.packed ++ [(b, k)] })

/-- After a line of a bar has its outcome: the band packed if it was its last line. -/
def Ctl.bandDecided (c : Ctl) (ticket b line : Nat) : Ctl :=
  match c.fireRec ticket with
  | none => c
  | some f => if line % 8 = 7 ∨ line + 1 = f.length then c.packBand ticket b (line / 8) else c

end Sys2Proof.Machine
end

