-- ==== Sys2Proof/Machine/ChainOps.lean ====
section
/-! DEFINITION. The chain managers' shared operations (R147 to R172): paths, frames sent, head states, breaks, and a head's
way out of RUNNING. -/

namespace Sys2Proof.Machine

/-! ### Managers -/

/-- A chain manager. -/
def Ctl.mgr (c : Ctl) (ch : Nat) : ChainMgr := kvGet ChainMgr.reset c.chn.mgrs ch

/-- A chain manager replaced. -/
def Ctl.setMgr (c : Ctl) (ch : Nat) (m : ChainMgr) : Ctl :=
  { c with chn := { c.chn with mgrs := kvSet ChainMgr.reset c.chn.mgrs ch m } }

/-- What is kept of a head. -/
def Ctl.headMgr (c : Ctl) (h : Nat) : HeadMgr := kvGet HeadMgr.reset c.chn.heads h

/-- What is kept of a head, replaced. -/
def Ctl.setHeadMgr (c : Ctl) (h : Nat) (m : HeadMgr) : Ctl :=
  { c with chn := { c.chn with heads := kvSet HeadMgr.reset c.chn.heads h m } }

/-- head_state (R169). -/
def Ctl.headState (c : Ctl) (h : Nat) : Nat := c.nat (Obj.head_state h)

/-- chain_state: 0 OFF, 1 DISCOVERING, 2 SERVING, 3 SPLIT, 4 LOST. -/
def Ctl.chainState (c : Ctl) (ch : Nat) : Nat := c.nat (Obj.chain_state ch)

/-- FOLDED mode with its secondary lane (R146). -/
def Ctl.folded (c : Ctl) (ch : Nat) : Bool := c.nat (Obj.chain_mode ch) == 1 && decide (c.nat (Obj.secondary_lane ch) < 32)

/-- Assigned positions: heads not ABSENT. -/
def Ctl.present (c : Ctl) (ch : Nat) : List Nat := (headsOfChain ch).filter fun h => c.headState h != 0

/-- The chain a lane carries, and whether as its primary lane. -/
def Ctl.chainOfLane (c : Ctl) (l : Nat) : Option (Nat × Bool) :=
  match (List.range 16).find? (fun ch => c.nat (Obj.primary_lane ch) == l) with
  | some ch => some (ch, true)
  | none => ((List.range 16).find? fun ch => c.nat (Obj.secondary_lane ch) == l).map fun ch => (ch, false)

/-! ### Paths (R147, R148) -/

/-- A head is served from the primary end; during a discovery, from the end it was found from. -/
def Ctl.fromPrimary (c : Ctl) (h : Nat) : Bool :=
  let ch := chainOf h
  if c.chainState ch = 1 then !(c.headMgr h).viaB
  else c.chainState ch != 3 || decide (posOf h < (c.mgr ch).link)

/-- The lane a frame to a head leaves on. -/
def Ctl.laneTo (c : Ctl) (h : Nat) : Nat :=
  if c.fromPrimary h then c.nat (Obj.primary_lane (chainOf h)) else c.nat (Obj.secondary_lane (chainOf h))

/-- The lane on which path A starts, and path B of a folded chain, none without. -/
def Ctl.pathA (c : Ctl) (ch : Nat) : List Nat := if c.nat (Obj.primary_lane ch) < 32 then [c.nat (Obj.primary_lane ch)] else []
def Ctl.pathB (c : Ctl) (ch : Nat) : List Nat := if c.folded ch then [c.nat (Obj.secondary_lane ch)] else []

/-- The lanes of the paths in use. -/
def Ctl.lanesOf (c : Ctl) (ch : Nat) : List Nat := c.pathA ch ++ c.pathB ch

/-- The chain has the lanes its mode needs to carry drop data (R146). -/
def Ctl.chainCarries (c : Ctl) (ch : Nat) : Bool :=
  !(c.pathA ch).isEmpty && (c.nat (Obj.chain_mode ch) == 0 || !(c.pathB ch).isEmpty)

/-! ### Frames sent (R150 to R152) -/

/-- A frame of a type on each of some lanes, each with its own sequence count of the type. -/
def Ctl.sendSeq (c : Ctl) (ch : Nat) (lanes : List Nat) (type address aux : Nat) (payload : List Byte) : Ctl :=
  forEach lanes (fun c l =>
    let m := c.mgr ch
    let q := (kvGet 0 m.seqs type + 1) % 65536
    (c.setMgr ch { m with seqs := kvSet 0 m.seqs type q }).send l (.frame (frameBytes type address q aux payload))) c

/-- A frame to one head. -/
def Ctl.sendHead (c : Ctl) (h type : Nat) (payload : List Byte) : Ctl :=
  c.sendSeq (chainOf h) [c.laneTo h] type (posOf h) 0 payload

/-- HALT to every head of a chain (R160, R172): broadcast on every path. -/
def Ctl.haltChain (c : Ctl) (ch : Nat) : Ctl := c.sendSeq ch (c.lanesOf ch) 0x03 0x1F 0 []

/-- HALT to one head on every path that reaches it: both ends of an unbroken folded chain, its own end of a split one. -/
def Ctl.haltHead (c : Ctl) (h : Nat) : Ctl :=
  let ch := chainOf h
  let lanes := if c.chainState ch = 3 then [c.laneTo h] else c.lanesOf ch
  c.sendSeq ch lanes 0x03 (posOf h) 0 []

/-- A head is to be given SYNC before its next line (R160); CONFIG too once that is owed. -/
def Ctl.owesSync (c : Ctl) (h : Nat) : Ctl := c.setHeadMgr h { c.headMgr h with owed := max 1 (c.headMgr h).owed }

/-- A CONFIG's payload: row groups, mode, zeros. -/
def Ctl.configBytes (c : Ctl) (h : Nat) : List Byte :=
  le 2 (c.nat (Obj.row_groups h)) ++ le 1 (c.nat (Obj.chain_mode (chainOf h))) ++ zeros 5

/-- CONFIG sent, its CONFIG_ACK awaited (R168). One sent while another is out leaves that one's wait as it stands (log entry 147). -/
def Ctl.askConfig (c : Ctl) (h why : Nat) : Ctl :=
  let m := c.headMgr h
  (c.sendHead h 0x05 (c.configBytes h)).setHeadMgr h (match m.asked with
    | .config _ => m
    | _ => { m with asked := .config why, askedAt := c.now })

/-- CAP_REQUEST sent. -/
def Ctl.askCapability (c : Ctl) (h : Nat) : Ctl :=
  (c.sendHead h 0x06 []).setHeadMgr h { c.headMgr h with asked := .capability, askedAt := c.now }

/-- USAGE_CHALLENGE sent with a fresh 16-byte nonce (R179). -/
def Ctl.sendChallenge (c : Ctl) (h why : Nat) : Ctl :=
  let nonce := freeBytes c.free 16
  let c1 := { c with free := c.free + 16 }
  (c1.sendHead h 0x09 nonce).setHeadMgr h { c.headMgr h with usage := some why, usageAt := c.now, nonce := nonce }

/-- A challenge sent, or put behind the one outstanding (log entry 148). -/
def Ctl.askUsage (c : Ctl) (h why : Nat) : Ctl :=
  let m := c.headMgr h
  if m.usage.isSome then c.setHeadMgr h { m with due := m.due ++ [why] } else c.sendChallenge h why

/-- Challenges of a head, outstanding or waiting. -/
def HeadMgr.challenges (m : HeadMgr) : List Nat := m.usage.toList ++ m.due

/-- SYNC sent to a head; a SYNC it was owed is paid by it. -/
def Ctl.sync (c : Ctl) (h : Nat) : Ctl := (c.setHeadMgr h { c.headMgr h with owed := 0 }).sendHead h 0x04 []

/-! ### Head states (R170) -/

/-- The bell source of a head state: HEAD_FOUND, HEAD_RUNNING, HEAD_DEAD, HEAD_BENCHED, HEAD_REMOVED, HEAD_REFUSED. -/
def stateSource (ch st : Nat) : Nat :=
  Src.CHAIN ch (if st = 1 then 0 else if st = 2 then 2 else if st = 3 then 3 else if st = 4 then 4 else if st = 5 then 5 else 1)

/-- A head's state given, its source ringing (R170, R385). -/
def Ctl.setHead (c : Ctl) (h st : Nat) : Ctl :=
  (c.putN (Obj.head_state h) st).ring (stateSource (chainOf h) st) h (Obj.head_state h)

/-- A head without a request outstanding; a challenge still waits for its record or its time. -/
def Ctl.unask (c : Ctl) (h : Nat) : Ctl := c.setHeadMgr h { c.headMgr h with asked := .nothing }

/-- heads_in of a chain is DONE once the head_in of each of its heads has ended (R174). -/
def Ctl.headsInEnd (c : Ctl) (ch : Nat) : Ctl :=
  if c.cmdBusy (Obj.heads_in ch) && !(headsOfChain ch).any (fun h => c.cmdBusy (Obj.head_in h)) then
    c.cmdDone (Obj.heads_in ch) Src.CHAIN_CMD_DONE ch
  else c

/-- A pending head_in of a head is cancelled (R174): the change is dropped and the command ends FAILED. -/
def Ctl.cancelIn (c : Ctl) (h code : Nat) : Ctl :=
  let c1 := if c.on (Obj.pending_in h) then (c.putB (Obj.pending_in h) false).requestOut h else c
  if c1.cmdBusy (Obj.head_in h) then (c1.cmdFail (Obj.head_in h) code Src.CHAIN_CMD_DONE h).headsInEnd (chainOf h) else c1

/-! ### Lines of a head (R172) -/

/-- A 16-bit tag at or past another within the window of 32,768 (R159). -/
def tagPast (reported tag : Nat) : Bool := decide ((reported + 65536 - tag % 65536) % 65536 < 32768)

/-- last_fired of a head in a group, none at 0xFFFF. -/
def Ctl.lastFired (c : Ctl) (h g : Nat) : Option Nat :=
  let t := fld (c.oct (Obj.last_fired h)) (2 * g) 2
  if t = 0xFFFF then none else some t

/-- A line count is shown as fired by a head in a group. -/
def Ctl.shownFired (c : Ctl) (h g count : Nat) : Bool :=
  match c.lastFired h g with
  | some t => tagPast t count
  | none => false

/-- Line-group pairs screened but not dispatched that carry a non-zero level for a head: ticket, group and count of each. -/
def Ctl.shelvedFor (c : Ctl) (h : Nat) : List (Nat × Nat × Nat) :=
  ((c.care.shelf.filter fun x => c.chainBar (chainOf h) == some x.bar).map fun x =>
    ((c.groupsOfHead h).filter fun g =>
      !(kvGet false x.sent (4 * chainOf h + g)) &&
        x.levels.any fun e => headOfNozzle e.1 == h && c.groupOfNozzle e.1 == g).map fun g => (x.ticket, g, x.count)).flatten

/-- Line-group pairs dispatched with a non-zero level and not shown fired. -/
def Ctl.dispatchedFor (c : Ctl) (h : Nat) : List TagEntry :=
  c.care.store.filter fun e => e.head == h && e.nonzero && !c.shownFired h e.group e.count

/-! ### Usage counts (R474, R475) -/

/-- Drop volume of a level of a bar in a slot, 0.01 pL. -/
def Ctl.dropVolume (c : Ctl) (slot b level : Nat) : Nat := fld (c.oct (Obj.drop_volumes slot b)) (2 * (level - 1)) 2

/-- The ink of drops at levels 1 to 7. -/
def Ctl.inkOf (c : Ctl) (slot b : Nat) (drops : List Nat) : Nat :=
  ((List.range 7).map fun i => drops.getD i 0 * c.dropVolume slot b (i + 1)).sum

/-- The slot a ticket's drops are counted under; for a mark line of ticket 0 that of the last ticket (R475). -/
def Ctl.slotOfTicket (c : Ctl) (n : Nat) : Nat :=
  match c.strobePage n, c.units.record.past.find? fun p => p.ticket == n with
  | some t, _ => t.slot
  | none, some p => p.slot
  | none, none =>
    match c.adm.tickets.getLast?, c.units.record.past.getLast? with
    | some t, _ => t.slot
    | none, some p => p.slot
    | none, none => 0

/-- A number store raised by `n` at a key. -/
def kvAdd (m : Kv Nat) (k n : Nat) : Kv Nat := kvSet 0 m k (kvGet 0 m k + n)

/-- A number store lowered by `n` at a key. -/
def kvSub (m : Kv Nat) (k n : Nat) : Kv Nat := kvSet 0 m k (kvGet 0 m k - n)

/-- The open period's counts replaced. -/
def Ctl.setCounts (c : Ctl) (u : UseCounts) : Ctl := { c with use := { c.use with counts := u } }

/-- The counts with a struck line of a head changed by `f` (added or taken out). -/
def Ctl.countLine (c : Ctl) (f : Kv Nat → Nat → Nat → Kv Nat) (e : TagEntry) : Ctl :=
  let u := c.use.counts
  let drops := forEach (List.range 7) (fun m i => f m (8 * e.head + i + 1) (e.drops.getD i 0)) u.drops
  let ink := match c.chainBar (chainOf e.head) with
    | some b => f u.ink b (c.inkOf (c.slotOfTicket e.ticket) b e.drops)
    | none => u.ink
  c.setCounts { u with drops := drops, strobes := f u.strobes e.head 1, ink := ink }

/-- Lines counted unfired are taken back out of the usage counts (R474). -/
def Ctl.takeBack (c : Ctl) (es : List TagEntry) : Ctl := forEach (es.filter (·.struck)) (fun c e => c.countLine kvSub e) c

/-- A line of a ticket counted unfired by a head is known to the loop (R275). -/
def Ctl.unfiredKnown (c : Ctl) (h ticket count : Nat) : Ctl :=
  match c.chainBar (chainOf h), c.ticket ticket with
  | some b, some t => c.lineKnown ticket b (count - kvGet 0 t.work.firstCount b)
  | _, _ => c

/-- Lines of a head lost, as (ticket, group, count): their tickets are affected with HEADS and count them, fire records take them,
the chain's lines_lost rises (R172, R79, R326). -/
def Ctl.loseLines (c : Ctl) (h : Nat) (lost : List (Nat × Nat × Nat)) : Ctl :=
  (forEach lost (fun c x => ((c.unfiredKnown h x.1 x.2.2).onTicket x.1 fun t => { t.affect reasonHeads with omitted := t.omitted + 1 }).recordUnfired x.1 h
    x.2.1 x.2.2) c).bumpBy (Obj.lines_lost (chainOf h)) lost.length

/-- Entries of the tag store as lost lines. -/
def lostOf (es : List TagEntry) : List (Nat × Nat × Nat) := es.map fun e => (e.ticket, e.group, e.count)

/-- The tag store cut to the entries that satisfy a test. -/
def Ctl.keepStore (c : Ctl) (p : TagEntry → Bool) : Ctl :=
  { c with care := { c.care with store := c.care.store.filter p } }

/-- A head's entries leave the tag store. -/
def Ctl.forget (c : Ctl) (h : Nat) : Ctl := c.keepStore fun e => e.head != h

/-- A RUNNING head is declared DEAD (R171, R172): reason, head-out change, HALT, its unfired lines counted. -/
def Ctl.declareDead (c : Ctl) (h reason : Nat) : Ctl :=
  let sent := c.dispatchedFor h
  let lost := c.shelvedFor h ++ lostOf sent
  let c1 := ((c.requestOut h).haltHead h).putN (Obj.out_reason h) reason
  let c2 := ((c1.loseLines h lost).takeBack sent).forget h
  let c3 := c2.setHeadMgr h { c2.headMgr h with leaving := none, missed := [], badRises := [] }
  let c4 := if c3.cmdBusy (Obj.head_out h) then c3.cmdFail (Obj.head_out h) St.HEAD_STATE Src.CHAIN_CMD_DONE h else c3
  c4.setHead h 3

/-- A head of another accepted state falls silent or is unreachable (R170): DEAD, its pending head_in cancelled. -/
def Ctl.fallSilent (c : Ctl) (h reason : Nat) : Ctl :=
  (((c.cancelIn h St.HEAD_STATE).putN (Obj.out_reason h) reason).unask h).setHead h 3

/-- A head becomes REFUSED with a reason (R163, R167, R176). -/
def Ctl.refuseHead (c : Ctl) (h reason : Nat) : Ctl := ((c.putN (Obj.out_reason h) reason).unask h).setHead h 6

/-! ### Breaks of a chain (R148) -/

/-- The receiver of a lane reports loss: its state is DOWN (R198). -/
def Ctl.laneDown (c : Ctl) (l : Nat) : Bool := decide (l < 32) && c.nat (Obj.rx_state l) == 7

/-- Where a chain is broken: `i` stands for the link before the head at position `i`. Path A of position p down breaks
link p, path B of position p down link p + 1, the primary receiver link 0 and the secondary the link after the last. -/
def Ctl.breaks (c : Ctl) (ch : Nat) : List Nat :=
  let hs := c.present ch
  let n := match hs.getLast? with
    | some h => posOf h + 1
    | none => 0
  let own := (hs.map fun h =>
    (if bit (c.nat (Obj.status_flags h)) 11 then [posOf h] else []) ++
      (if bit (c.nat (Obj.status_flags h)) 10 then [posOf h + 1] else [])).flatten
  (own ++ (if c.laneDown (c.nat (Obj.primary_lane ch)) then [0] else []) ++
    (if c.laneDown (c.nat (Obj.secondary_lane ch)) then [n] else [])).eraseDups

/-- Heads no end reaches: all of a broken RING chain, those between two breaks of a folded one. -/
def Ctl.cutOff (c : Ctl) (ch : Nat) (bs : List Nat) : List Nat :=
  (c.present ch).filter fun h =>
    !bs.isEmpty && (!c.folded ch || decide (minOf bs ≤ posOf h ∧ posOf h < maxOf bs))

/-- A chain SPLIT at a link: split_after names the position before it, none where there is none or it is the last of 16 (log entry
149). -/
def Ctl.splitAt (c : Ctl) (ch link : Nat) : Ctl :=
  ((c.putN (Obj.chain_state ch) 3).putN (Obj.split_after ch) (if link = 0 ∨ 15 < link then 0xFF else link - 1)).setMgr ch
    { c.mgr ch with link := link }

/-- The chain takes the state its breaks leave it: LOST, SPLIT at the break, or as it was. -/
def Ctl.judgeBreaks (c : Ctl) (ch : Nat) : Ctl :=
  let bs := c.breaks ch
  let st := c.chainState ch
  if bs.isEmpty ∨ (st ≠ 2 ∧ st ≠ 3) then c
  else
    let c1 :=
      if !c.folded ch then c.putN (Obj.chain_state ch) 4
      else if st = 3 then c
      else ((c.splitAt ch (minOf bs)).bump (Obj.splits ch)).ring (Src.CHAIN ch 6) ch (Obj.split_after ch)
    let c2 := forEach (c.cutOff ch bs) (fun c h =>
      if c.headState h = 2 then c.declareDead h 3
      else if c.headState h = 1 ∨ c.headState h = 4 ∨ c.headState h = 6 then c.fallSilent h 3 else c) c1
    c2.setMgr ch { c2.mgr ch with healFrom := none }

end Sys2Proof.Machine
end

