-- ==== Sys2Proof/Machine/FaultOps.lean ====
section
/-! DEFINITION. The fault collector's shared operations (R458 to R468): latching, the safe stop, causes that persist. -/

namespace Sys2Proof.Machine

/-! ### Sources (R460) -/

abbrev faultCollectorRail : Nat := 0
abbrev faultRingmasterBoth : Nat := 1
abbrev faultBoothIntegrity : Nat := 2
abbrev faultFuseIntegrity : Nat := 3
abbrev faultPositionCompare : Nat := 4
abbrev faultFetchUnderrun : Nat := 5
abbrev faultBellOrder : Nat := 6
abbrev faultRefBothLost : Nat := 7
abbrev faultRefDrift : Nat := 8
abbrev faultVcoreScale : Nat := 9
abbrev faultPgLost : Nat := 10
abbrev faultJunctionTemp : Nat := 11
abbrev faultTempSensor : Nat := 12
abbrev faultPllLock (p : Nat) : Nat := 16 + p
abbrev faultCellarTraining (m : Nat) : Nat := 24 + m
abbrev faultCellarUe (m : Nat) : Nat := 26 + m
abbrev faultCellarParity (m : Nat) : Nat := 28 + m
abbrev faultStrobeReadback (s : Nat) : Nat := 32 + s
abbrev faultAxisError (a : Nat) : Nat := 64 + a

/-- Hard-latched sources (R460, R466). -/
def hardLatched (f : Nat) : Bool := decide (f ≤ 3 ∨ (32 ≤ f ∧ f ≤ 63))

/-- Source `f` is latched: its cause in 1810 is not NONE. -/
def Ctl.isLatched (c : Ctl) (f : Nat) : Bool := c.nat (Obj.source_cause f) != 0

/-- Its force bit is set (R468). -/
def Ctl.forced (c : Ctl) (f : Nat) : Bool := bit (c.nat (Obj.force (f / 64))) (f % 64)

/-- The cause of a source persists: the column "Cause gone when" of R460, and a forced or mismatched rail. -/
def Ctl.causePresent (c : Ctl) (f : Nat) : Bool :=
  c.forced f || kvGet false c.flt.present f || kvGet 0 c.flt.rails f != 0 ||
    (if f = 4 then match c.flt.agreedAt with
       | some t => decide (c.now < t + ms)
       | none => false
     else if f = 7 then c.nat Obj.ref_selected == 2 || (List.range 8).any fun p => c.nat (Obj.pll_state p) == 3
     else if f = 8 then decide (300000 < (c.int (Obj.deviation (c.nat Obj.ref_selected))).natAbs)
     else if f = 11 then
       decide (10 * (c.nat Obj.temp_limit : Int) - 50 < c.int Obj.die_temp_a ∨
         10 * (c.nat Obj.temp_limit : Int) - 50 < c.int Obj.die_temp_b)
     else if f = 12 then decide (40 < (c.int Obj.die_temp_a - c.int Obj.die_temp_b).natAbs)
     else if 16 ≤ f ∧ f ≤ 23 then c.nat (Obj.pll_state (f - 16)) == 1 || c.nat (Obj.pll_state (f - 16)) == 3
     else if f = 24 ∨ f = 25 then c.nat (Obj.mc_state (f - 24)) != 2
     else if 26 ≤ f ∧ f ≤ 29 then c.nat (Obj.mc_state (f % 2)) == 4
     else if 64 ≤ f ∧ f ≤ 71 then c.axisState (f - 64) == 5 || c.axisState (f - 64) == 6
     else false)

/-! ### The safe stop (R462) -/

/-- 1800:04 first_fault (R464). -/
def Ctl.firstFault (c : Ctl) (f cause : Nat) : List Byte :=
  le 2 f ++ le 1 cause ++ [0] ++ timeBytes c.localNs ++ zeros 2 ++ le 8 c.pp ++ le 1 (c.nat Obj.active_ringmaster) ++
    le 1 (c.nat Obj.power_state) ++ zeros 6

/-- Mark lines not yet fired leave the shelves. -/
def Ctl.dropMarks (c : Ctl) : Ctl :=
  { c with care := { c.care with shelf := c.care.shelf.filter fun x => x.ticket != markNumber } }

/-- Running and queued flat-field and registration calibrations end with CAL_INTERRUPTED (R298). -/
def Ctl.interruptCals (c : Ctl) : Ctl :=
  let c1 := forEach [Obj.cal_flat_field, Obj.cal_registration] (fun c k =>
    if c.cmdBusy k then c.cmdFail k St.CAL_INTERRUPTED Src.CAL_CMD_DONE else c) c
  let c2 := if c1.loop.reg.isSome then c1.usedRide ridePrint else c1
  (c2.setLoop { c2.loop with flat := none, reg := none }).dropMarks

/-- Screened lines, dispatched lines and their flags are discarded, HALT goes out on every chain (R462, R139). -/
def Ctl.haltAll (c : Ctl) : Ctl :=
  let c1 := { c with care := { c.care with shelf := [], store := [] } }
  forEach (List.range 16) (fun c ch =>
    if c.chainState ch = 0 then c
    else forEach (headsOfChain ch) Ctl.owesSync (c.haltChain ch)) c1

/-- The fault collector's state replaced. -/
def Ctl.setFlt (c : Ctl) (x : Faults) : Ctl := { c with flt := x }

/-- CAROUSEL makes its last edge and is held low (R469). -/
def Ctl.stopCarousel (c : Ctl) : Ctl :=
  if c.nat Obj.carousel_state = 0 then c
  else
    (((c.setFlt { c.flt with carousel := false }).putN Obj.carousel_state 0).emit (.pin "CAROUSEL" false)).ring
      Src.CAROUSEL_STATE 0xFFFF Obj.carousel_state

/-- An open_admission that waits for its ride ends FAILED (R71). -/
def Ctl.dropOpening (c : Ctl) : Ctl :=
  if c.cmdBusy Obj.open_admission then c.cmdFail Obj.open_admission St.FAULT_ACTIVE Src.ADMIT_CMD_DONE else c

/-- Every FIRE pair forced low (R462). -/
def Ctl.forcePairs (c : Ctl) : Ctl := c.setFlt { c.flt with pairsLow := true }

/-- Every reaction of R462. -/
def Ctl.safeStop (c : Ctl) : Ctl :=
  let stopped := (c.endAll reasonFault St.CLOSED_FAULT).forcePairs
  let rung := (stopped.ring Src.SAFE_STOP 0xFFFF Obj.safe_stops).dropOpening
  ((rung.haltAll.axesSafeStop).interruptCals).stopCarousel

/-- One source latches: cause, raises (saturating), count, FAULT_SOURCE with its unit and object (R459, R471, R473). -/
def Ctl.latchOne (c : Ctl) (f cause : Nat) : Ctl :=
  if c.isLatched f then c
  else
    let c1 := ((c.putN (Obj.source_cause f) cause).putN (Obj.source_raises f) (min 65535 (c.nat (Obj.source_raises f) + 1))).putN
      Obj.faults_latched (c.nat Obj.faults_latched + 1)
    c1.ring (Src.FAULT_SOURCE f) f (Obj.source_cause f)

/-- Sources latch in one sample, lowest first: the first of a healthy collector fills 1800:04 and starts the safe stop. -/
def Ctl.latchSources (c : Ctl) (fs : List (Nat × Nat)) : Ctl :=
  match (List.range 192).filterMap (fun f => if c.isLatched f then none else fs.find? fun x => x.1 == f) with
  | [] => c
  | (f, cause) :: r =>
    let first := !c.faulted
    let c1 := if first then (c.putO Obj.first_fault (c.firstFault f cause)).bump Obj.safe_stops else c
    let c2 := forEach ((f, cause) :: r) (fun c x => c.latchOne x.1 x.2) c1
    if first then c2.safeStop else c2

/-- The sources whose rails still show a cause, with it (R467). -/
def Ctl.railsPersist (c : Ctl) : List (Nat × Nat) :=
  (List.range 192).filterMap fun f => if kvGet 0 c.flt.rails f = 0 then none else some (f, kvGet 0 c.flt.rails f)

/-- A source the controller raises itself, cause REPORTED. -/
def Ctl.raiseFault (c : Ctl) (f : Nat) : Ctl := c.latchSources [(f, 1)]

/-- fault_summary (R471). -/
def Ctl.faultSummary (c : Ctl) : Nat :=
  let on := (List.range 192).filter c.isLatched
  let flag (i : Nat) (b : Bool) : Nat := if b then 2 ^ i else 0
  flag 0 (!on.isEmpty) + flag 1 (on.any hardLatched) + flag 2 (on.any c.causePresent) +
    flag 3 ((List.range 192).any c.forced) + on.headD 0 * 65536

end Sys2Proof.Machine
end

