-- ==== Sys2Proof/Machine/FireOps.lean ====
section
/-! DEFINITION. Shared operations of position and fire (chapter 08): loss of the encoder, strobe lines and their outcomes,
prediction, the change-over of the ringmasters. -/

namespace Sys2Proof.Machine

/-! ### Loss of the encoder (R211) -/

/-- The position unit's state replaced. -/
def Ctl.setPos (c : Ctl) (p : Position) : Ctl := { c with pos := p }

/-- The fire unit's state replaced. -/
def Ctl.setFire (c : Ctl) (f : Fire) : Ctl := { c with fire := f }

/-- The primary encoder is lost (R211): position invalid, every ticket ends ENCODER, calibrations are interrupted (R298). -/
def Ctl.loseEncoder (c : Ctl) (cause : Nat) : Ctl :=
  if !c.on Obj.position_valid then c
  else
    let c1 := ((c.putB Obj.position_valid false).putN Obj.loss_reason cause).ring Src.ENC_LOST 0xFFFF Obj.loss_reason
    ((c1.endAll reasonEncoder St.CLOSED_ENCODER).interruptCals).camsFollow

/-! ### Strobe lines (R218) -/

/-- Bar and group of a pair: s = 4b + g (R6). -/
def pairBar (s : Nat) : Nat := s / 4
def pairGroup (s : Nat) : Nat := s % 4

/-- A head of the bar has a row in the group (R218). -/
def Ctl.groupUsed (c : Ctl) (b g : Nat) : Bool :=
  (c.headsOfBar b).any fun h => c.recordKnown h && (c.groupsOfHead h).contains g

/-- Groups of a bar with strobe lines. -/
def Ctl.groupsOfBar (c : Ctl) (b : Nat) : List Nat := (List.range 4).filter (c.groupUsed b)

/-- A pair's state. -/
def Ctl.pair (c : Ctl) (s : Nat) : PairState := kvGet PairState.reset c.fire.pairs s

/-- A pair's state replaced. -/
def Ctl.setPair (c : Ctl) (s : Nat) (p : PairState) : Ctl :=
  c.setFire { c.fire with pairs := kvSet PairState.reset c.fire.pairs s p }

/-- Tickets from a number on, in ticket order. -/
def ticketsFrom (n : Nat) : List Ticket → List Ticket
  | [] => []
  | t :: r => if t.number = n then t :: r else ticketsFrom n r

/-- The next strobe line of a pair: the first page line not decided of a ticket that masks its bar, once screened; none of a group in which
no head of the bar has a row (R218). -/
def Ctl.nextStrobe (c : Ctl) (s : Nat) : Option (Ticket × Nat) :=
  if !c.groupUsed (pairBar s) (pairGroup s) then none
  else
  let p := c.pair s
  let b := pairBar s
  let pages := c.strobePages
  let ts := match ticketsFrom p.nextTicket pages with
    | [] => pages
    | l => l
  let lineOf (t : Ticket) : Nat := if t.number = p.nextTicket then p.nextLine else 0
  match ts.find? fun t => !t.ended && bit t.bars b && t.pos.isSome && decide (lineOf t < t.length) with
  | some t => if lineOf t < kvGet 0 t.screened b then some (t, lineOf t) else none
  | none => none

/-- Target position of a strobe line (R218). -/
def Ctl.strobeTarget (c : Ctl) (t : Ticket) (n s : Nat) : Nat := c.groupAt (t.place + 64 * n) (pairBar s) (pairGroup s)

/-- The spacing of a pair in ns (R223). -/
def Ctl.pairSpacing (c : Ctl) (s : Nat) : Nat :=
  maxOf (184 :: (((c.headsOfBar (pairBar s)).filter fun h => c.headState h == 2 && (c.groupsOfHead h).contains (pairGroup s)).map
    fun h => fld (c.oct (Obj.capability h)) 20 4))

/-- The ringmasters may fire: position valid, no safe stop, a ringmaster active, the web not behind its high water (R211, R213). -/
def Ctl.mayFire (c : Ctl) : Bool :=
  c.on Obj.position_valid && !c.flt.pairsLow && c.nat Obj.active_ringmaster != 2 && decide (c.nat Obj.high_water ≤ c.pp)

/-! ### Prediction (R219) -/

/-- The smallest number up to `hi` that satisfies a test that stays true once it is, by bisection of `fuel` halvings. -/
def firstTrue (f : Nat → Bool) : Nat → Nat → Nat → Nat
  | 0, _, hi => hi
  | k + 1, lo, hi =>
    if hi ≤ lo then hi
    else
      let mid := (lo + hi) / 2
      if f mid then firstTrue f k lo mid else firstTrue f k (mid + 1) hi

/-- The fire timebase at the present, 250 ps units. -/
def Ctl.now250 (c : Ctl) : Nat := 4 * c.now

/-- Position reached `h` times 125 ps after the latch pair, by the observer's speed and acceleration. -/
def reached (x v a : Frac) (h : Nat) : Frac :=
  (x.add (v.mul ⟨h, 8000000000⟩)).add (a.mul ⟨(h * h : Nat), 2 * 8000000000 * 8000000000⟩)

/-- The predicted crossing of a target, in 250 ps units, if it comes no later than `limit` (R219): the pair's own time where it stands at
or past the target, else the first time from then on. The nearest unit, a tie going up. -/
def Ctl.crossingOf (c : Ctl) (target : Frac) (limit : Nat) : Option Nat :=
  match c.pos.pair with
  | none => none
  | some k =>
    let v := c.pos.v
    let a := c.pos.a
    let far := 2 * (limit - k.at250) + 1
    let hi := if a.num < 0 then min far (Frac.floor ((v.mul ⟨8000000000, 1⟩).div ⟨-a.num, a.den⟩)).toNat else far
    let f (h : Nat) : Bool := target.le (reached k.ticks v a h)
    if f 0 then (if k.at250 ≤ limit then some k.at250 else none)
    else if !f hi then none
    else
      let h := firstTrue f 64 0 hi
      let up := h % 2 == 1 && (reached k.ticks v a h).sub target == ⟨0, 1⟩
      let t := k.at250 + h / 2 + (if up then 1 else 0)
      if t ≤ limit then some t else none

/-- The predicted crossing of a whole position. -/
def Ctl.crossing (c : Ctl) (target limit : Nat) : Option Nat := c.crossingOf (Frac.ofInt target) limit

/-! ### Outcomes (R224, R225, R228, R230) -/

/-- An omission or a withheld line is kept for the chain managers (R162). -/
def Ctl.markOmitted (c : Ctl) (b count : Nat) : Ctl :=
  if c.care.omitted.contains (b, count) then c
  else
    let recent := c.care.omitted.filter fun o => o.1 != b || decide (count < o.2 + 65536)
    { c with care := { c.care with omitted := (b, count) :: recent } }

/-- An overspeed episode starts or goes on with an omission at the present position (R225). -/
def Ctl.episode (c : Ctl) : Ctl :=
  let c1 := c.setFire { c.fire with lastOmitAt := c.pp }
  if c1.nat Obj.overspeed_state ≠ 0 then c1
  else ((c1.setFire { c1.fire with episodeFrom := c1.pp }).putN Obj.overspeed_state 1).ring Src.OVERSPEED 0xFFFF Obj.overspeed_lines

/-- The ceiling afresh once the last line of a page is settled (R86). -/
def Ctl.ceilingAfter (c : Ctl) (n : Nat) : Ctl := if (c.ticket n).any (·.complete) then c.receiling else c

/-- A bar-line all of whose groups are decided is settled: fired, or counted once as omitted (R67, R224). -/
def Ctl.settleLine (c : Ctl) (x : OpenLine) (epoch : Nat) : Ctl :=
  (((if x.lost then c.lineKnown x.ticket x.bar x.line else c).onTicket x.ticket fun t =>
    let t1 := { t with settled := kvSet 0 t.settled x.bar (t.settledOn x.bar + 1) }
    if x.lost then { t1 with omitted := t1.omitted + 1 }
    else { t1 with fired := kvSet 0 t1.fired x.bar (kvGet 0 t1.fired x.bar + 1), lastEpoch := kvSet 0 t1.lastEpoch x.bar epoch
                   }).bandDecided x.ticket x.bar x.line).ceilingAfter x.ticket

/-- The care epoch a line of a bar was screened under, by its count. -/
def Ctl.epochOf (c : Ctl) (b count : Nat) : Nat :=
  match c.care.shelf.find? fun z => z.bar == b && z.count == count with
  | some z => z.epoch
  | none => c.nat (Obj.care_epoch b)

/-- A group's outcome of a bar-line; the line leaves the shelves once every group is decided. -/
def Ctl.decideGroup (c : Ctl) (ticket b line g count : Nat) (lost : Bool) : Ctl :=
  let old := (c.fire.lines.find? fun x => x.ticket == ticket && x.bar == b && x.line == line).getD ⟨ticket, b, line, [], false⟩
  let x : OpenLine := { old with groups := g :: old.groups, lost := old.lost || lost }
  let rest := c.fire.lines.filter fun y => !(y.ticket == ticket && y.bar == b && y.line == line)
  if (c.groupsOfBar b).all x.groups.contains then
    let c1 := (c.setFire { c.fire with lines := rest }).settleLine x (c.epochOf b count)
    { c1 with care := { c1.care with shelf := c1.care.shelf.filter fun z => !(z.bar == b && z.count == count) } }
  else c.setFire { c.fire with lines := x :: rest }

/-- The web speed kept at the line that times a pair's fiducials, or its marks (R290, R301). -/
def Ctl.noteSpeeds (c : Ctl) (t : Ticket) (b s line : Nat) : Ctl :=
  match t.number == markNumber, c.loop.reg with
  | true, some g =>
    if 2 * line = t.length then c.setLoop { c.loop with reg := some { g with speeds := kvSet 0 g.speeds s (c.int Obj.web_speed) } } else c
  | _, _ => c.noteSpeed t b s line

/-- The commit word of an outcome (R228). -/
def commitWord (s outcome tag ticket seq : Nat) : Nat :=
  s * 2 ^ 59 + outcome * 2 ^ 56 + tag % 65536 * 2 ^ 40 + ticket % 2 ^ 32 * 256 + seq % 256

/-- A fired strobe line is counted for every RUNNING head that received it (R474). -/
def Ctl.strikeHeads (c : Ctl) (b g count : Nat) : Ctl :=
  let hit (e : TagEntry) : Bool :=
    c.chainBar (chainOf e.head) == some b && e.group == g && e.count == count && c.headState e.head == 2 && !e.struck
  let c1 := forEach (c.care.store.filter hit) (fun c e => c.countLine kvAdd e) c
  { c1 with care := { c1.care with store := c1.care.store.map fun e => if hit e then { e with struck := true } else e } }

/-- The bar's line count of a page line (R156). -/
def Ticket.countOf (t : Ticket) (b line : Nat) : Nat := kvGet 0 t.work.firstCount b + line

/-- A pair's next strobe line is decided with an outcome of R228, its edge at `placed` (250 ps): commit word, counters, the ticket. -/
def Ctl.strobeOutcome (c : Ctl) (s : Nat) (t : Ticket) (line outcome placed : Nat) : Ctl :=
  let b := pairBar s
  let g := pairGroup s
  let count := t.countOf b line
  let p := c.pair s
  let q : PairState := { p with nextTicket := t.number, nextLine := line + 1, armed := none, words := p.words + 1,
                                commit := commitWord s outcome count t.number p.words,
                                lastEdge := if outcome = 0 then some placed else p.lastEdge }
  let c1 := c.setPair s q
  let c2 :=
    if outcome = 0 then
      let fast := decide ((t.cap : Int) < c1.int Obj.web_speed)
      let d := ((c1.emit (.strobe s placed (count % 65536))).bump (Obj.strobes_fired s)).putN (Obj.last_tag s) (count % 65536)
      ((d.strikeHeads b g count).noteSpeeds t b s line).onTicket t.number fun t =>
        { t with overCap := t.overCap || fast, work := { t.work with struck := true } }
    else if outcome = 5 then
      ((c1.bump (Obj.lines_withheld s)).markOmitted b count).onTicket t.number fun t => t.affect reasonSwitchover
    else
      let d := (((c1.bump (Obj.pair_lines_omitted s)).bump Obj.overspeed_lines).markOmitted b count).episode
      d.onTicket t.number fun t => t.affect reasonOverspeed
  let c3 := c2.recordOutcome t.number b line g (if outcome = 0 then 0 else if outcome = 5 then 2 else 1)
  c3.decideGroup t.number b line g count (outcome != 0)

/-- The outcome a line is frozen with: LATE, HOLD, SPACING or FIRED (R224, R225, R228). -/
def Ctl.frozenOutcome (c : Ctl) (s : Nat) (t : Ticket) (n placed : Nat) : Nat :=
  let tight := match (c.pair s).lastEdge with
    | some e => decide (placed < e + 4 * c.pairSpacing s)
    | none => false
  if t.work.late.contains (pairBar s, n) then 2
  else if c.nat Obj.overspeed_state = 2 then 3
  else if tight then 1 else 0

/-- The 11 bits of an arm word in sending order (R157): start bit 1, tag [7:0] lsb first, odd parity over them, stop bit 0. -/
def armBits (tag : Nat) : List Bool :=
  let t := (List.range 8).map fun i => bit tag i
  [true] ++ t ++ [(t.filter id).length % 2 == 0, false]

/-! ### The change-over of the ringmasters (R230 to R234) -/

/-- Object of a ringmaster: state, clean count, failure cause. -/
def rmState (r : Nat) : Nat := if r = 0 then Obj.rm_state_a else Obj.rm_state_b
def rmClean (r : Nat) : Nat := if r = 0 then Obj.rm_clean_a else Obj.rm_clean_b
def rmCause (r : Nat) : Nat := if r = 0 then Obj.rm_fail_cause_a else Obj.rm_fail_cause_b

/-- 64 ns and 40 ns in 250 ps units: the critical window's ends, and the gap. -/
abbrev windowBefore : Nat := 256
abbrev windowAfter : Nat := 160

/-- The strobe line of a pair that a gap starting now withholds (R230, R231): the one whose placed edge's critical window overlaps it, or
the next one predicted into it. -/
def Ctl.inGap (c : Ctl) (s : Nat) : Option (Ticket × Nat) :=
  let t0 := c.now250
  match (c.pair s).armed with
  | some x =>
    if x.due = true ∧ x.outcome = 0 ∧ t0 < x.placed + windowAfter ∧ x.placed < t0 + 2 * windowBefore then
      (c.strobePage x.ticket).map fun t => (t, x.line) else none
  | none =>
    match c.nextStrobe s with
    | none => none
    | some (t, n) =>
      let trim := kvGet 0 t.work.trims s
      match c.crossing (c.strobeTarget t n s) (t0 + 2 * windowBefore) with
      | none => none
      | some tp =>
        let placed := tp + trim
        let late := t.work.late.contains (pairBar s, n)
        let tight := match (c.pair s).lastEdge with
          | some e => decide (placed < e + 4 * c.pairSpacing s)
          | none => false
        if !late && !tight && c.nat Obj.overspeed_state != 2 && c.nat Obj.fire_mode == 0 &&
            decide (t0 < placed + windowAfter ∧ placed < t0 + 2 * windowBefore) then some (t, n) else none

/-- No pair's critical window lies in the 64 ns from now (R233). -/
def Ctl.quiet (c : Ctl) : Bool := (List.range 32).all fun s => (c.inGap s).isNone

/-- 6100:35 (R234). -/
def Ctl.switchLog (c : Ctl) (src dst cause : Nat) (held : Kv Nat) : List Byte :=
  timeBytes c.localNs ++ le 1 src ++ le 1 dst ++ le 1 cause ++ zeros 3 ++
    ((List.range 32).map fun s => le 4 (kvGet 0xFFFF held s * 65536)).flatten

/-- Control of the pairs passes to ringmaster `r`, withholding what the gap touches; `cause` 0 for a retake or request. -/
def Ctl.switchOver (c : Ctl) (r cause src : Nat) : Ctl :=
  let held := (List.range 32).filterMap fun s => (c.inGap s).map fun x => (s, x)
  let c1 := forEach held (fun c h => c.strobeOutcome h.1 h.2.1 h.2.2 5 0) c
  let tags : Kv Nat := held.map fun h => (h.1, h.2.1.countOf (pairBar h.1) h.2.2 % 65536)
  let c2 := ((c1.putO Obj.switchover_log (c.switchLog (1 - r) r cause tags)).putN Obj.active_ringmaster r).putN (rmState r) 0
  let c3 := (c2.bump Obj.switchovers).ring src 0xFFFF Obj.active_ringmaster
  let c4 := c3.setFire { c3.fire with retakeAt := none, gapAt := some c.now250 }
  if c4.cmdBusy Obj.request_switch then c4.cmdDone Obj.request_switch Src.FIRE_CMD_DONE else c4

end Sys2Proof.Machine
end

