-- ==== Sys2Proof/Machine/CellarOps.lean ====
section
/-! DEFINITION. The cellar's address map and areas (R337, R352, R353) and which controller an address reaches. -/

namespace Sys2Proof.Machine

/-- The screen library's 28 MiB (R21). -/
abbrev libraryBytes : Nat := 28 * 2 ^ 20

/-- End of the general area (R352). -/
def Ctl.generalEnd (c : Ctl) : Nat := c.usable - libraryBytes - c.nat Obj.pool_area_bytes

/-- The ECC group of an address (R337). -/
def groupOfAddress (a : Nat) : Nat := a / 1984

/-- The controller an address reaches: channel div 4 (R337). -/
def controllerOf (a : Nat) : Nat := groupOfAddress a % 8 / 4

/-- The row index of an address (R337). -/
def rowOf (a : Nat) : Nat := groupOfAddress a / 8 / 16

/-- Bank of an address (R337). -/
def bankOf (a : Nat) : Nat := (groupOfAddress a / 8 % 16) ^^^ (rowOf a % 16)

/-- Rows per rank: density / 8 GiB over 16 banks of 2,048-byte rows (R333, R337). -/
def Ctl.rowsPerRank (c : Ctl) : Nat := max 1 (c.mem.density * 2 ^ 30 / 8 / (16 * 2048))

/-- A controller is FROZEN. -/
def Ctl.frozen (c : Ctl) (m : Nat) : Bool := c.nat (Obj.mc_state m) == 4

/-- A controller serves requests; self-refresh is left on demand (R351). -/
def Ctl.serves (c : Ctl) (m : Nat) : Bool := c.nat (Obj.mc_state m) == 2 || c.nat (Obj.mc_state m) == 3

/-- The cellar is trained and its ride runs. -/
def Ctl.cellarUp (c : Ctl) : Bool := decide (0 < c.usable) && (c.nat (Obj.ride_state 6) == 2 || c.nat (Obj.ride_state 6) == 4)

/-- Controllers that a range of `n` bytes reaches. -/
def controllersOf (a n : Nat) : List Nat :=
  if n = 0 then []
  else
    let g := groupOfAddress a
    let k := min 8 (groupOfAddress (a + n - 1) - g + 1)
    ((List.range k).map fun i => (g + i) % 8 / 4).eraseDups

/-- A range needs a FROZEN controller. -/
def Ctl.rangeFrozen (c : Ctl) (a n : Nat) : Bool := (controllersOf a n).any c.frozen

/-- A range lies inside the crate region (R352). -/
def Ctl.inCrates (c : Ctl) (a n : Nat) : Bool :=
  decide (c.nat Obj.crate_base ≤ a ∧ a + n ≤ c.nat Obj.crate_base + c.nat Obj.crate_bytes)

/-- The cellar was used now (R351, R401): its ride starts if it is stopped, a controller in self-refresh leaves it. -/
def Ctl.useCellar (c0 : Ctl) : Ctl :=
  let c := c0.needRide rideCellar
  forEach [0, 1] (fun c m => if c.nat (Obj.mc_state m) = 3 then c.putN (Obj.mc_state m) 2 else c)
    { c with mem := { c.mem with usedAt := c.now } }

/-! ### Controller areas (R352, R353) -/

/-- A slot of a monitor ring (R258). -/
def monitorSlotBytes (v : List Byte) : Nat := roundUp (64 + viewBytes v) 4096

/-- The objects whose values are bases of areas, or hold them. -/
def areaKeys : List Nat :=
  [Obj.submit_ring_base, Obj.completion_ring_base, Obj.loop_ring_base, Obj.store_base, Obj.item_ring_base] ++
    (List.range 4).map Obj.out_ring_base ++ (List.range 4).map Obj.index_ring_base ++ (List.range 4).map Obj.crop_ring ++
    (List.range 4).map Obj.monitor_view

/-- Base and size of an area as in force. -/
def Ctl.areaOf (c : Ctl) (key : Nat) : Nat × Nat :=
  let i := key / 256
  let u := i % 16
  if key = Obj.submit_ring_base then (c.nat key, 4096 * 32)
  else if key = Obj.completion_ring_base then (c.nat key, 4096 * 128)
  else if key = Obj.loop_ring_base then (c.nat key, c.nat Obj.loop_ring_entries * 64)
  else if key = Obj.store_base then (c.nat key, c.nat Obj.store_bytes)
  else if key = Obj.item_ring_base then (c.nat key, c.nat Obj.item_entries * 64)
  else if key = Obj.out_ring_base u then (c.nat key, c.nat (Obj.out_ring_bytes u))
  else if key = Obj.index_ring_base u then (c.nat key, c.nat (Obj.index_entries u) * 32)
  else if key = Obj.crop_ring u then (ringBase (c.oct key), ringBytes (c.oct key))
  else if key = Obj.monitor_view u then (viewBase (c.oct key), viewFrames (c.oct key) * monitorSlotBytes (c.oct key))
  else (0, 0)

/-- Two ranges overlap. -/
def overlaps (x y : Nat × Nat) : Bool := decide (x.1 < y.1 + y.2 ∧ y.1 < x.1 + x.2)

/-- An area without a base is not set; a crop or monitor ring is where its output is enabled (R267). -/
def Ctl.areaSet (c : Ctl) (key : Nat) : Bool :=
  let u := key / 256 % 16
  (c.areaOf key).1 != 0 || (key == Obj.crop_ring u && ringOn (c.oct key)) || (key == Obj.monitor_view u && viewOn (c.oct key))

/-- An area in force meets the three conditions; one that is not set does. -/
def Ctl.areaOk (c : Ctl) (key : Nat) : Bool :=
  let a := c.areaOf key
  !c.areaSet key ||
    (decide (a.1 + a.2 ≤ c.generalEnd) && !overlaps a (c.nat Obj.crate_base, c.nat Obj.crate_bytes) &&
      areaKeys.all fun k => k == key || (c.areaOf k).1 == 0 || !overlaps a (c.areaOf k))

/-- After a write of `key` some area breaks a condition that it met before, or the written one does. -/
def Ctl.areasBreak (before after : Ctl) (key : Nat) : Bool :=
  areaKeys.any fun k => !after.areaOk k && (k == key || before.areaOk k)

end Sys2Proof.Machine
end

