-- ==== Sys2Proof/Machine/Port.lean ====
section
/-! DEFINITION. A field port's egress (R358, R359): its queue of 64 KiB at 1 Gb/s and its counters. -/

namespace Sys2Proof.Machine

/-- The field ports' state replaced. -/
def Ctl.setNet (c : Ctl) (n : Net) : Ctl := { c with ydp := { c.ydp with net := n } }

/-- Bytes that wait at a port's egress; a byte takes 8 ns at 1 Gb/s. -/
def Ctl.queuedAt (c : Ctl) (p : Nat) : Nat := (kvGet 0 c.ydp.net.busyTo p - c.now) / 8

/-- A frame of `len` bytes leaves a port, or is dropped and counted where it finds the queue full. Preamble and gap take 20 bytes. -/
def Ctl.sendOut (c : Ctl) (p len : Nat) (o : Out) : Ctl :=
  if c.queuedAt p + len ≤ 65536 then
    let free := max (kvGet 0 c.ydp.net.busyTo p) c.now + (len + 20) * 8
    ((c.setNet { c.ydp.net with busyTo := kvSet 0 c.ydp.net.busyTo p free }).bump (Obj.frames_sent p)).emit o
  else c.bump (Obj.fp_frames_dropped p)

/-- A port's link is up. -/
def Ctl.portUp (c : Ctl) (p : Nat) : Bool := c.nat (Obj.fp_link_state p) == 1

/-- Bytes of a YDP frame on the wire: MAC header, IPv4, UDP, YDP header, payload, FCS; 64 at least. -/
def ydpLength (f : Sent) : Nat := max 64 (14 + 20 + 8 + 16 + f.payload.length + 4)

/-! ### The UDP checksum (R43) -/

/-- The bytes of a frame the controller sends; the more flag is clear in all of them (log entry 134). -/
def Sent.bytes (f : Sent) : List Byte :=
  [0x59, 0x44, 1] ++ le 1 f.opcode ++ le 1 f.session ++ [1] ++ le 2 f.seq ++ le 4 f.tag ++ le 2 f.payload.length ++
    le 2 f.status ++ f.payload

/-- The ones' complement sum of 16-bit words, an odd last byte filled with 0. -/
def wordSum : List Byte → Nat
  | [] => 0
  | [a] => a.toNat * 256
  | a :: b :: r => a.toNat * 256 + b.toNat + wordSum r

/-- A sum folded to 16 bits. -/
def fold16 (n : Nat) : Nat := if n = 0 then 0 else (n - 1) % 65535 + 1

/-- The internet checksum of bytes. -/
def inetSum (b : List Byte) : Nat := 65535 - fold16 (wordSum b)

/-- The bytes an octet object takes at reset. -/
def dfltOct (key : Nat) : List Byte :=
  match dfltOf key with
  | .oct v => v
  | .num _ => []

/-- The IPv4 address in force. -/
def Ctl.ipNow (c : Ctl) : List Byte := c.ydp.net.ip.getD (dfltOct Obj.ipv4_address)

/-- The UDP datagram of a frame to a peer (MAC address, IPv4 address, UDP port little-endian), its checksum set; a sum of 0 is sent as
0xFFFF. -/
def Ctl.datagram (c : Ctl) (peer : List Byte) (f : Sent) : List Byte :=
  let head := be 2 c.ydp.net.udp ++ be 2 (fld peer 10 2) ++ be 2 (8 + f.bytes.length)
  let sum := inetSum (c.ipNow ++ slice peer 6 4 ++ [0, 17] ++ be 2 (8 + f.bytes.length) ++ head ++ [0, 0] ++ f.bytes)
  head ++ be 2 (if sum = 0 then 65535 else sum) ++ f.bytes

/-- A YDP frame sent out of a field port; in SLEEP the booth sends it (R42). -/
def Ctl.sendYdp (c : Ctl) (p : Nat) (peer : List Byte) (f : Sent) : Ctl :=
  if c.phase = .asleep then c.emit (.ydp p peer f (c.datagram peer f))
  else c.sendOut p (ydpLength f) (.ydp p peer f (c.datagram peer f))

/-! ### The receive queues (R45) -/

/-- Frames in a port's receive queue that have not been served. -/
def Ctl.rxWaiting (c : Ctl) (p : Nat) : List Nat := (kvGet [] c.ydp.net.rx p).filter fun t => decide (c.now < t)

/-- A port's receive queue holds 16 frames. -/
def Ctl.rxFull (c : Ctl) (p : Nat) : Bool := decide (p < 2 ∧ 16 ≤ (c.rxWaiting p).length)

/-- A frame joins its port's receive queue until it has been served, 200 us later at most. -/
def Ctl.queueRx (c : Ctl) (p seq : Nat) : Ctl :=
  if p < 2 then
    c.setNet { c.ydp.net with rx := kvSet [] c.ydp.net.rx p (c.rxWaiting p ++ [c.now + Config.serveNs c.now seq % 200001]) }
  else c

/-- A good frame received on a path; only field ports count. The counters are lost in SLEEP. -/
def Ctl.receivedOn (c : Ctl) (path : Nat) : Ctl :=
  if path < 2 ∧ c.phase ≠ .asleep then c.bump (Obj.frames_received path) else c

end Sys2Proof.Machine
end

