-- ==== Sys2Proof/Machine/Wake.lean ====
section
/-! DEFINITION. Waking from SLEEP (R406, R407): the sources that 2000:03 enables, and a YDP frame that wakes the controller (R42). -/

namespace Sys2Proof.Machine

/-- The local clock's present value made its starting point, before its addend changes (R361). -/
def Ctl.rebaseClock (c : Ctl) : Ctl := { c with clock := { c.clock with sub := c.localSub, at_ := c.now } }

/-- The number of a wake source: 1 FIELD, 2 PCIE, 3 WAKE_N, 4 MOTION, 5 ALARM. -/
def wakeSource : WakeEvent → Nat
  | .field => 1
  | .pcie => 2
  | .wakeN _ => 3
  | .motion _ => 4
  | .alarm => 5

/-- What the source wakes on has come: WAKE_N low for 10 us, 2000:05 net forward counts, the local clock at 2000:04 (R406). -/
def Ctl.wakeSeen (c : Ctl) : WakeEvent → Bool
  | .field | .pcie => true
  | .wakeN low => decide (10000 ≤ low)
  | .motion n => decide ((c.nat Obj.wake_counts : Int) ≤ n)
  | .alarm => decide (c.nat Obj.wake_alarm ≤ c.localNs)

/-- A wake source is enabled. -/
def Ctl.wakes (c : Ctl) (source : Nat) : Bool := decide (1 ≤ source ∧ source ≤ 5) && bit (c.nat Obj.wake_enable) (source - 1)

/-- Waking (R407): 2000:06 names the source, and the rails and the start-up follow. -/
def Ctl.wakeBy (c : Ctl) (source : Nat) : Ctl :=
  let c1 := c.rebaseClock.putN Obj.wake_cause source
  { c1 with phase := .held, life := { c1.life with cause := 5, startedAt := c1.now } }

/-- A valid YDP frame, or a link that comes up, in SLEEP wakes the controller where FIELD is enabled (R42, R406). -/
def Ctl.wakeByField (c : Ctl) (valid : Bool) : Ctl := if valid && c.wakes 1 then c.wakeBy 1 else c

end Sys2Proof.Machine
end

