-- ==== Sys2Proof/Machine/Request.lean ====
section
/-! DEFINITION. A request's way through the controller (R33, R43, R44): checks 1 to 3 on the frame, the answer stored for
a repeat, the response on the path it came by, and the single-entry WRITE of a command row (R47). -/

namespace Sys2Proof.Machine

/-! ### Frames (R43) -/

/-- Opcodes that travel to the controller (R43). -/
def opcodeToController (op : Nat) : Bool :=
  [0x01, 0x02, 0x03, 0x04, 0x05, 0x06, 0x10, 0x11, 0x12, 0x13, 0x14, 0x20, 0x23].contains op

/-- Check 1 on the header (R43). -/
def headerOk (op : Nat) (f : Frame) : Bool :=
  f.magic == 0x4459 && f.version == 1 && f.length == f.payload.length && decide (f.payload.length ≤ 1400) &&
    opcodeToController op && decide (f.flags = 0 ∨ (f.flags = 2 ∧ op = 0x14)) && f.status == 0 &&
    (!(op == 1 || op == 2) || (f.session == 0 && f.tag == 0))

/-- The controller answers frames as in STANDBY and above. -/
def Ctl.awake (c : Ctl) : Bool := c.phase == .up || c.phase == .fresh

/-- A response leaves on its path; for the mailbox it fills the response buffer and sets RESP_READY (R51). -/
def Ctl.reply (c : Ctl) (path : Nat) (peer : List Byte) (f : Sent) : Ctl :=
  if path = 2 then
    ({ c with ydp := { c.ydp with mbxResponse := f.bytes, mbxBusy := false, mbxReady := true } }).ring Src.MBX_RESPONSE
  else c.sendYdp path peer f

/-- A response that is a header alone with a status. -/
def headerOnly (op session seq tag status : Nat) : Sent := ⟨op, session, seq, tag, status, []⟩

/-- A frame of session `n` was heard: its idle time restarts (R41), and what the session is sent goes to where the frame
came from (R360). -/
def Ctl.heard (c : Ctl) (n path : Nat) (peer : List Byte) : Ctl :=
  let c1 := c.setSess n { c.sess n with heardAt := c.now, path := path, peer := peer }
  (c1.putN (Obj.session_path n) path).putO (Obj.session_peer n) (if path = 2 then zeros 6 else peer.drop 6)

/-- What a handler answers: frame status, response payload, and the machine after. -/
abbrev Answer := Nat × List Byte × Mach

/-- Check 2: an open session with this number and tag. -/
def Ctl.knows (c : Ctl) (n tag : Nat) : Bool := decide (1 ≤ n ∧ n ≤ 8) && (c.sess n).isOpen && (c.sess n).tag == tag

/-- The response kept for a repeat (R44), if the session still lives. -/
def Ctl.keep (c : Ctl) (n seq tag : Nat) (f : Sent) : Ctl :=
  if c.knows n tag then c.setSess n { c.sess n with lastSeq := seq, stored := some f } else c

/-- Checks 2 and 3, then the handler once for a fresh sequence (R33, R44). -/
def Mach.request (m : Mach) (path : Nat) (peer : List Byte) (op n seq tag : Nat) (h : Mach → Answer) : Mach :=
  let c := m.ctl
  let s := c.sess n
  if !c.knows n tag then m.onCtl (·.reply path peer (headerOnly op n seq tag St.SESSION_UNKNOWN))
  else if s.stored.isSome ∧ seq = s.lastSeq then
    m.onCtl fun c => (c.heard n path peer).reply path peer (s.stored.getD (headerOnly op n seq tag St.OK))
  else if seq ≠ (s.lastSeq + 1) % 65536 then
    m.onCtl (·.reply path peer (headerOnly op n seq tag St.SEQUENCE))
  else
    let a := h (m.onCtl (·.heard n path peer))
    let f : Sent := ⟨op, n, seq, tag, a.1, a.2.1⟩
    a.2.2.onCtl fun c => (c.keep n seq tag f).reply path peer f

/-- A frame as its port has queued it: counted, and in the receive queue until it is served (R45, R358). -/
def Ctl.arrived (c : Ctl) (path seq : Nat) : Ctl := (c.receivedOn path).queueRx path seq

/-- A frame received by a path (R33, R42, R45, R418): asleep it is answered ASLEEP and, a valid one on a field port, wakes the
controller where FIELD is enabled; before STANDBY nothing is answered; one that finds its port's queue full is dropped and counted;
one that fails check 1 is answered BAD_FRAME. -/
def Mach.arrive (m : Mach) (path : Nat) (peer : List Byte) (op session seq tag : Nat) (good : Bool) (serve : Mach → Mach) : Mach :=
  if m.ctl.phase = .asleep then
    m.onCtl fun c => (c.reply path peer (headerOnly op session seq tag St.ASLEEP)).wakeByField (good && decide (path < 2))
  else if !m.ctl.awake then m
  else if m.ctl.rxFull path then m.onCtl fun c => (c.receivedOn path).bump Obj.ydp_frames_dropped
  else
    let m1 := m.onCtl (·.arrived path seq)
    if !good then m1.onCtl (·.reply path peer (headerOnly op session seq tag St.BAD_FRAME)) else serve m1

/-- A frame with its header and layout (check 1). -/
def Mach.frame (m : Mach) (op : Nat) (f : Frame) (layout : Bool) (serve : Mach → Mach) : Mach :=
  m.arrive f.path f.peer op f.session f.seq f.tag (headerOk op f && layout) serve

/-- A request frame of a session. -/
def Mach.sessionFrame (m : Mach) (op : Nat) (f : Frame) (layout : Bool) (h : Mach → Answer) : Mach :=
  m.frame op f layout (fun m => m.request f.path f.peer op f.session f.seq f.tag h)

/-! ### Entries of a WRITE (R46, R47) -/

/-- A written entry: key and value bytes. -/
abbrev Entry := Nat × List Byte

/-- The owner's decision on an entry (check 11): its code and the machine after. -/
abbrev Owner := Nat → Nat → List Byte → Mach → Nat × Mach

/-- One WRITE response entry: reference, status, 2 zero bytes (R46). -/
def writeEntry (key st : Nat) : List Byte := le 2 (key / 256) ++ le 1 (key % 256) ++ [0] ++ le 2 st ++ [0, 0]

/-- The entries passed to their owners in list order (R47, stage 2). -/
def applyEntries (n : Nat) (own : Owner) : List Entry → Mach → List (Nat × Nat) × Mach
  | [], m => ([], m)
  | (k, b) :: r, m =>
    let a := own n k b m
    let t := applyEntries n own r a.2
    ((k, a.1) :: t.1, t.2)

/-- The response payload of a WRITE. -/
def writePayload (es : List (Nat × Nat)) : List Byte :=
  le 1 es.length ++ [0, 0, 0] ++ (es.map fun e => writeEntry e.1 e.2).flatten

/-- A WRITE in two stages (R47): no entry is applied unless every entry passes checks 4 to 10. -/
def serveWrite (n : Nat) (own : Owner) (es : List Entry) (m : Mach) : Answer :=
  let codes := es.map fun e => (e.1, m.ctl.checkWrite n e.1 e.2)
  if codes.all (fun e => e.2 == St.OK) then
    let a := applyEntries n own es m
    (St.OK, writePayload a.1, a.2)
  else (St.OK, writePayload (codes.map fun e => (e.1, if e.2 = St.OK then St.NOT_APPLIED else e.2)), m)

/-- The frame of a row that carries a session's request, whose header is right by its form. -/
def Mach.rowFrame (m : Mach) (r : Req) (op : Nat) (h : Mach → Answer) : Mach :=
  m.arrive r.path r.peer op r.session r.seq r.tag true (fun m => m.request r.path r.peer op r.session r.seq r.tag h)

/-- The single-entry WRITE of a row that names its object, with the owner of that object. -/
def Mach.writeRow (m : Mach) (r : Req) (key : Nat) (b : List Byte) (own : Nat → Mach → Nat × Mach) : Mach :=
  m.rowFrame r 0x11 (serveWrite r.session (fun n _ _ m => own n m) [(key, b)])

/-- An owner that acts on the controller alone. -/
def onCtlOwner (f : Nat → Ctl → Nat × Ctl) (n : Nat) (m : Mach) : Nat × Mach :=
  let a := f n m.ctl
  (a.1, { m with ctl := a.2 })

/-- Answer and machine of a refusal by the owner. -/
def refuse (code : Nat) (c : Ctl) : Nat × Ctl := (code, c)

/-- A command of `size`-byte argument `arg` to object `key` whose owner acts on the controller alone. -/
def Mach.ctlRow (m : Mach) (r : Req) (key : Nat) (b : List Byte) (own : Nat → Ctl → Nat × Ctl) : Mach :=
  m.writeRow r key b (onCtlOwner own)

/-- The hypotheses under which a row's write reaches its owner: the controller is awake, the frame came by one of the three paths
and found room in its queue, the session is known, the sequence is the next one, and checks 4 to 10 pass. -/
def Ctl.reaches (c : Ctl) (r : Req) (key : Nat) (b : List Byte) : Prop :=
  c.awake = true ∧ c.knows r.session r.tag = true ∧ r.path ≤ 2 ∧ c.rxFull r.path = false ∧
    r.seq = ((c.sess r.session).lastSeq + 1) % 65536 ∧
    ((c.arrived r.path r.seq).heard r.session r.path r.peer).checkWrite r.session key b = St.OK

end Sys2Proof.Machine
end

