-- ==== Sys2Proof/Machine/Slots.lean ====
section
/-! DEFINITION. Job slots (R61 to R63) and the states of the library's items (R120, R270, R295, R306): validation, sealing,
what a change of a slot or of the library entails, and the slot commands. -/

namespace Sys2Proof.Machine

/-! ### Validation (R63) -/

/-- Slots 0 to 255. -/
def allSlots : List Nat := List.range 256

/-- Bars of a slot. -/
def Ctl.slotBars (c : Ctl) (n : Nat) : List Nat := barsOf (c.nat (Obj.bar_mask n))

/-- A masked bar has a drop volume of 0 at a level up to its drop_limit. -/
def Ctl.volumeMissing (c : Ctl) (n b : Nat) : Bool :=
  (List.range (c.nat (Obj.drop_limit n b))).any fun l => c.dropVolume n b (l + 1) == 0

/-- A bar's drop_limit exceeds the drop levels of one of its known heads. -/
def Ctl.limitTooHigh (c : Ctl) (n b : Nat) : Bool :=
  (c.headsOfBar b).any fun h => c.recordKnown h && decide (recLevels (c.oct (Obj.capability h)) < c.nat (Obj.drop_limit n b))

/-- An appearance table's place holds a table. -/
def Ctl.tableIn (c : Ctl) (p : Nat) : List Byte := kvGet [] c.loop.tables p

/-- The bars on the axes of an appearance table (R269). -/
def tableAxes (t : List Byte) : List Nat := ((slice t 4 4).map (·.toNat)).filter (· < 8)

/-- The bars with a secondary curve. -/
def tableCurves (t : List Byte) : List Nat := barsOf (fld t 3 1)

/-- A fiducial breaks R295. -/
def Ctl.fiducialBad (c : Ctl) (mask : Nat) (f : List Byte) : Bool :=
  let bar := fld f 0 1
  !decide (bar < 8) || !bit mask bar || decide (fld f 6 2 < 8) || decide (fld f 8 2 < 8) ||
    decide (c.nat (Obj.bar_columns bar) < fld f 2 2 + fld f 6 2) || decide (65536 < fld f 4 2 + fld f 8 2)

/-- Inspection settings are invalid (R295). -/
def Ctl.inspectBad (c : Ctl) (n : Nat) : Bool :=
  let t := c.tableIn (c.nat (Obj.appearance_place n))
  let named := tableAxes t ++ tableCurves t
  let mask := c.nat (Obj.bar_mask n)
  c.on (Obj.inspect n) &&
    (t.isEmpty || (named.any fun b => !bit mask b) || ((c.slotBars n).any fun b => !named.contains b) ||
      decide (c.nat (Obj.dead_threshold n) ≤ c.nat (Obj.weak_threshold n)) ||
      (fiducialsOf (c.oct (Obj.fiducials n))).any (c.fiducialBad mask))

/-- Record settings are invalid (R306). -/
def Ctl.recordBad (c : Ctl) (n : Nat) : Bool :=
  let fire := c.nat (Obj.fire_bars n)
  decide (c.nat (Obj.qp_max n) < c.nat (Obj.qp_target n)) || ((barsOf fire).any fun b => !bit (c.nat (Obj.bar_mask n)) b) ||
    (c.nat (Obj.fire_pages n) != 0 &&
      decide (768000 * 25400 < (barsOf fire).length * (c.pageCap n * c.nat (Obj.line_pitch n)))) ||
    (c.nat (Obj.crop_cameras n) != 0 && !c.on (Obj.inspect n))

/-- The distance object of a cue input is 0. -/
def Ctl.cueDistance (c : Ctl) (mode : Nat) : Nat := if mode = 1 then c.nat Obj.cue0_distance else c.nat Obj.cue1_distance

/-- The code of the first failing item (R63), 0 for a valid slot. -/
def Ctl.slotCode (c : Ctl) (n : Nat) : Nat :=
  let bars := c.slotBars n
  if c.nat (Obj.slot_state n) = 0 then 1
  else if bars.isEmpty || bars.any (fun b => decide (c.nat Obj.bar_count ≤ b)) then 2
  else if bars.any (fun b => c.nat (Obj.array_state (c.nat (Obj.slot_screen n b))) == 0) then 3
  else if bars.any (fun b => c.nat (Obj.curve_state (c.nat (Obj.slot_tone_curve n b))) == 0) then 4
  else if bars.any (c.volumeMissing n) then 5
  else if bars.any (c.limitTooHigh n) then 6
  else if c.nat (Obj.cue_mode n) ≠ 0 ∧ c.cueDistance (c.nat (Obj.cue_mode n)) = 0 then 7
  else if c.inspectBad n then 8
  else if c.recordBad n then 9
  else 0

/-- An OPEN slot revalidated. -/
def Ctl.revalidate (c : Ctl) (n : Nat) : Ctl :=
  if c.nat (Obj.slot_state n) = 1 then c.putN (Obj.validation n) (c.slotCode n) else c

/-- Every OPEN slot revalidated (R123, log entry 48). -/
def Ctl.revalidateAll (c : Ctl) : Ctl := forEach allSlots Ctl.revalidate c

/-! ### The library's items in use (R120, R270) -/

/-- SEALED slots. -/
def Ctl.sealedSlots (c : Ctl) : List Nat := allSlots.filter fun n => c.nat (Obj.slot_state n) == 2

/-- An item's state: EMPTY stays; LOADED or IN_USE as a sealed slot names it. -/
def useState (old : Nat) (used : Bool) : Nat := if old = 0 then 0 else if used then 2 else 1

/-- 6501:03: a place that a sealed slot names is IN_USE; else LOADED with a table and EMPTY without. -/
def Ctl.placeStates (c : Ctl) (named : List Nat) : List Byte :=
  (List.range 4).map fun p => if named.contains p then 2 else if (c.tableIn p).isEmpty then 0 else 1

/-- The states of arrays, curves and appearance places afresh (log entry 45). -/
def Ctl.refreshLibrary (c : Ctl) : Ctl :=
  let ns := c.sealedSlots
  let arrays := (ns.map fun n => (c.slotBars n).map fun b => c.nat (Obj.slot_screen n b)).flatten
  let curves := (ns.map fun n => (c.slotBars n).map fun b => c.nat (Obj.slot_tone_curve n b)).flatten
  let c1 := forEach (List.range 64) (fun c a =>
    c.putN (Obj.array_state a) (useState (c.nat (Obj.array_state a)) (arrays.contains a))) c
  let c2 := forEach (List.range 128) (fun c a =>
    c.putN (Obj.curve_state a) (useState (c.nat (Obj.curve_state a)) (curves.contains a))) c1
  c2.putO Obj.appearance_state (c.placeStates (ns.map fun n => c.nat (Obj.appearance_place n)))

/-- A slot sealed or unsealed as its tickets and hold ask, with what follows (R61). -/
def Ctl.resealed (c : Ctl) (n : Nat) : Ctl :=
  let was := c.nat (Obj.slot_state n)
  let c1 := c.resealSlot n
  if c1.nat (Obj.slot_state n) = was then c1
  else if was = 2 then (c1.refreshLibrary).revalidate n
  else ({ c1 with adm := { c1.adm with sinceSeal := kvSet 0 c1.adm.sinceSeal n 0 } }).refreshLibrary

/-! ### The slot commands (R62) -/

/-- The 1-byte argument of a command. -/
def arg1 (a : Nat) : List Byte := le 1 a

/-- seal_slot. -/
def Ctl.sealSlot (c : Ctl) (n by_ : Nat) : Ctl :=
  if c.nat (Obj.validation n) ≠ 0 then c.cmdNowFail (Obj.seal_slot n) by_ 0x0203 Src.ADMIT_CMD_DONE n
  else ((c.putB (Obj.seal_hold n) true).resealed n).cmdNow (Obj.seal_slot n) by_ Src.ADMIT_CMD_DONE n

/-- unseal_slot. -/
def Ctl.unsealSlot (c : Ctl) (n by_ : Nat) : Ctl :=
  ((c.putB (Obj.seal_hold n) false).resealed n).cmdNow (Obj.unseal_slot n) by_ Src.ADMIT_CMD_DONE n

/-- A key of slot `n` that clear_slot returns to its default. -/
def clearedKey (n k : Nat) : Bool := k / 256 == 0x5000 + n && !([0x0E, 0x0F, 0x10].contains (k % 256))

/-- Every subindex of a slot at its default: EMPTY. -/
def Ctl.emptySlot (c : Ctl) (n : Nat) : Ctl := { c with dict := c.dict.filter fun e => !clearedKey n e.1 }

end Sys2Proof.Machine
end

