-- ==== Sys2Proof/Machine/Queue.lean ====
section
/-! DEFINITION. The rings, the page and its crate table, the checks of a descriptor and the fetch ledger (R64 to R76, R83,
R100 to R104, R115). -/

namespace Sys2Proof.Machine

/-! ### Refusals (R72) -/

abbrev refBadDescriptor : Nat := 0x0201
abbrev refSlotEmpty : Nat := 0x0202
abbrev refSlotInvalid : Nat := 0x0203
abbrev refPageGeometry : Nat := 0x0204
abbrev refCueGeometry : Nat := 0x0205
abbrev refCrateNotResident : Nat := 0x0206
abbrev refCrateHeader : Nat := 0x0207
abbrev refRateUnderstated : Nat := 0x0208
abbrev refVerifyFailed : Nat := 0x0209
abbrev refLate : Nat := 0x020A
abbrev refFetchBudget : Nat := 0x020B

/-! ### Descriptors (R65) -/

/-- A page descriptor's fields. -/
structure Desc where
  hostRef : Nat
  table : Nat
  length : Nat
  gap : Nat
  width : Nat
  slot : Nat
  bars : Nat
  flags : Nat
  reserved : Nat
  deriving DecidableEq, Repr

/-- The fields of 32 bytes. -/
def descOf (b : List Byte) : Desc :=
  ⟨fld b 0 8, fld b 8 8, fld b 16 4, fld b 20 4, fld b 24 2, fld b 26 1, fld b 27 1, fld b 28 1, fld b 29 3⟩

/-- EXACT_GAP and VERIFY. -/
def Desc.exactGap (d : Desc) : Bool := bit d.flags 0
def Desc.verify (d : Desc) : Bool := bit d.flags 1

/-- The descriptor at the head of the submit ring (R64). -/
def Mach.headDesc (m : Mach) : List Byte :=
  memRead m.cellar (m.ctl.nat Obj.submit_ring_base + m.ctl.nat Obj.submit_head % 4096 * 32) 32

/-! ### The page crate table (R100 to R102) -/

/-- What places a page's crates: table address, length, width in crates, bars. -/
structure PageMap where
  table : Nat
  length : Nat
  width : Nat
  bars : Nat
  deriving DecidableEq, Repr

/-- The crate map of a descriptor and of a ticket. -/
def Desc.map (d : Desc) : PageMap := ⟨d.table, d.length, d.width, d.bars⟩
def Ticket.map (t : Ticket) : PageMap := ⟨t.table, t.length, t.width, t.bars⟩

/-- Bars of the page in ascending order. -/
def PageMap.barList (p : PageMap) : List Nat := barsOf p.bars

/-- Bands of the page. -/
def PageMap.bands (p : PageMap) : Nat := (p.length + 255) / 256

/-- Lines of band `k`. -/
def PageMap.bandLines (p : PageMap) (k : Nat) : Nat := min 256 (p.length - 256 * k)

/-- Rank of a bar among the page's bars. -/
def PageMap.rank (p : PageMap) (b : Nat) : Nat := (p.barList.filter (· < b)).length

/-- Bytes of the declared block, padding included. -/
def PageMap.declBytes (p : PageMap) : Nat := roundUp (p.bands * p.barList.length * 4) 64

/-- Bytes of the table. -/
def PageMap.bytes (p : PageMap) : Nat := 64 + p.declBytes + p.bands * p.barList.length * p.width * 8

/-- Places of the page in table order: band, bar, crate column. -/
def PageMap.places (p : PageMap) : List (Nat × Nat × Nat) :=
  ((List.range p.bands).map fun k => (p.barList.map fun b => (List.range p.width).map fun c => (k, b, c)).flatten).flatten

/-- A table entry. -/
def PageMap.entry (mem : Kv Byte) (p : PageMap) (k b c : Nat) : Nat :=
  leVal (memRead mem (p.table + 64 + p.declBytes + ((k * p.barList.length + p.rank b) * p.width + c) * 8) 8)

/-- crate_bytes and the crate's address in an entry (R101). -/
def entryBytes (e : Nat) : Nat := bits e 48 32
def entryAddress (e : Nat) : Nat := e % 2 ^ 30 * 64

/-- The declared bytes of a band and bar. -/
def PageMap.declared (mem : Kv Byte) (p : PageMap) (k b : Nat) : Nat :=
  leVal (memRead mem (p.table + 64 + (k * p.barList.length + p.rank b) * 4) 4)

/-- Every declared value, by band x bars + rank. -/
def PageMap.declaredAll (mem : Kv Byte) (p : PageMap) : List Nat :=
  ((List.range p.bands).map fun k => p.barList.map fun b => p.declared mem k b).flatten

/-- A detail of R104. -/
def crateDetail (code b k c : Nat) : Nat := code * 2 ^ 24 + b * 65536 + k * 256 + c

/-- A crate as read and decoded (R111), for its place in a page. -/
def PageMap.crate (mem : Kv Byte) (p : PageMap) (k b c : Nat) : Crate :=
  let e := p.entry mem k b c
  decodeCrate (memRead mem (entryAddress e) (entryBytes e)) (p.bandLines k) (entryBytes e)

/-! ### Steps 1 to 8 (R72, R104) -/

/-- A check's result: refusal code, 0 for none, and detail. -/
abbrev Judged := Nat × Nat

/-- Step 1. -/
def Desc.malformed (d : Desc) : Bool :=
  d.reserved != 0 || decide (4 ≤ d.flags) || !decide (1 ≤ d.length ∧ d.length ≤ 65536) ||
    !decide (1 ≤ d.width ∧ d.width ≤ 256) || d.table % 64 != 0 || d.bars == 0

/-- Ticks of `nm` at a page's pitch. -/
def pitchTicks (nm lpi : Nat) : Nat := nmTicks (Frac.ofInt nm) lpi

/-- The smallest bar_offset of a mask in nm. -/
def Ctl.leastOffset (c : Ctl) (bars : Nat) : Nat := minOf ((barsOf bars).map fun b => c.nat (Obj.bar_offset b))

/-- Step 5: the cue lies too near the first fire point, at the pitch of the page's own slot (log entry 136). -/
def Ctl.cueTooNear (c : Ctl) (d : Desc) : Bool :=
  let l := c.nat (Obj.line_pitch d.slot)
  let mode := c.nat (Obj.cue_mode d.slot)
  mode != 0 &&
    decide ((pitchTicks (c.cueDistance mode) l : Int) + c.int (Obj.cue_offset d.slot) + pitchTicks (c.leastOffset d.bars) l -
      pitchTicks (c.nat Obj.cue_min_width * 1000) l < 4096)

/-- Steps 2 to 5. -/
def Ctl.slotSteps (c : Ctl) (d : Desc) : Judged :=
  if c.nat (Obj.slot_state d.slot) = 0 then (refSlotEmpty, 0)
  else if c.nat (Obj.validation d.slot) ≠ 0 then (refSlotInvalid, c.nat (Obj.validation d.slot))
  else if (barsOf d.bars).any (fun b =>
      !bit (c.nat (Obj.bar_mask d.slot)) b || decide (c.nat (Obj.bar_columns b) < d.width * 256)) then (refPageGeometry, 0)
  else if c.cueTooNear d then (refCueGeometry, 0)
  else (0, 0)

/-- Step 6: the table, then every crate in table order, inside the crate region. -/
def Mach.outside (m : Mach) (p : PageMap) : Option Nat :=
  if !m.ctl.inCrates p.table p.bytes then some (crateDetail 0x18 0 0 0)
  else
    (p.places.find? fun x =>
      let e := p.entry m.cellar x.1 x.2.1 x.2.2
      !m.ctl.inCrates (entryAddress e) (entryBytes e)).map fun x => crateDetail 0x19 x.2.1 x.1 x.2.2

/-- Step 7, the table header and the declared block's padding. -/
def PageMap.tableFault (mem : Kv Byte) (p : PageMap) : Nat :=
  let h := memRead mem p.table 64
  let used := p.bands * p.barList.length * 4
  if fld h 0 2 ≠ 0x5443 ∨ fld h 2 1 ≠ 1 then 0x10
  else if fld h 3 1 ≠ p.bars ∨ fld h 4 2 ≠ p.bands ∨ fld h 6 2 ≠ p.width ∨ fld h 8 4 ≠ p.length then 0x11
  else if fld h 12 52 ≠ 0 ∨ leVal (memRead mem (p.table + 64 + used) (p.declBytes - used)) ≠ 0 then 0x12
  else 0

/-- Step 7, an entry and its crate's header. -/
def PageMap.entryFault (mem : Kv Byte) (p : PageMap) (k b c : Nat) : Nat :=
  let e := p.entry mem k b c
  if e / 2 ^ 49 ≠ 0 ∨ bits e 31 30 ≠ 0 ∨ entryBytes e < 33 ∨ 65568 < entryBytes e then 0x13
  else headerFault (memRead mem (entryAddress e) 32) (p.bandLines k) (entryBytes e)

/-- Step 7. -/
def PageMap.headerFaults (mem : Kv Byte) (p : PageMap) : Option Nat :=
  if p.tableFault mem ≠ 0 then some (crateDetail (p.tableFault mem) 0 0 0)
  else
    (p.places.find? fun x => p.entryFault mem x.1 x.2.1 x.2.2 != 0).map fun x =>
      crateDetail (p.entryFault mem x.1 x.2.1 x.2.2) x.2.1 x.1 x.2.2

/-- Charged bytes of a band and bar (R102). -/
def PageMap.charged (mem : Kv Byte) (p : PageMap) (k b : Nat) : Nat :=
  ((List.range p.width).map fun c => roundUp (entryBytes (p.entry mem k b c)) 64).sum

/-- Step 8: the first band and bar whose declared bytes fall short. -/
def PageMap.understated (mem : Kv Byte) (p : PageMap) : Option Nat :=
  (((List.range p.bands).map fun k => p.barList.map fun b => (k, b)).flatten.find? fun x =>
    decide (p.declared mem x.1 x.2 < p.charged mem x.1 x.2)).map fun x => x.1 * 8 + x.2

/-- Steps 6 to 8. -/
def Mach.tableSteps (m : Mach) (d : Desc) : Judged :=
  match m.outside d.map with
  | some x => (refCrateNotResident, x)
  | none =>
    match d.map.headerFaults m.cellar with
    | some x => (refCrateHeader, x)
    | none =>
      match d.map.understated m.cellar with
      | some x => (refRateUnderstated, x)
      | none => (0, 0)

/-- Steps 1 to 8. -/
def Mach.eightSteps (m : Mach) (d : Desc) : Judged :=
  if d.malformed then (refBadDescriptor, 0)
  else
    let r := m.ctl.slotSteps d
    if r.1 ≠ 0 then r else m.tableSteps d

/-! ### Step 9, verification (R115, R116) -/

/-- Decoded bytes of a page. -/
def PageMap.decodedBytes (p : PageMap) : Nat := p.length * 256 * p.width * p.barList.length

/-- 6000:26 (R118). -/
def crateErrorBytes (ticket detail fetch : Nat) (e : CrateErr) : List Byte :=
  le 4 ticket ++ le 4 detail ++ le 1 fetch ++ [0] ++ le 2 e.row ++ le 4 e.offset

/-- Decoded bytes of the crate at a place. -/
def PageMap.placeBytes (p : PageMap) (x : Nat × Nat × Nat) : Nat := p.bandLines x.1 * 256

/-- The crates of a page still to be verified. -/
def Waiting.left (w : Waiting) : List (Nat × Nat × Nat) := if w.verify then (descOf w.bytes).map.places.drop w.done else []

/-- 6000:29: the decoded bytes that the waiting page still has to verify (R116). -/
def Waiting.backlog (w : Waiting) : Nat := (w.left.map (descOf w.bytes).map.placeBytes).sum

/-- A crate decoded: a failure is counted, and the one of the lowest place is kept. -/
def verifyOne (mem : Kv Byte) (p : PageMap) (idx : Nat) (x : Nat × Nat × Nat) (f : Option Nat) (c : Ctl) : Option Nat × Ctl :=
  match (p.crate mem x.1 x.2.1 x.2.2).err with
  | none => (f, c)
  | some e =>
    let dt := crateDetail e.code x.2.1 x.1 x.2.2
    (some (f.getD dt), (c.bump Obj.crate_errors_verify).putO Obj.last_crate_error (crateErrorBytes idx dt 2 e))

/-- Crates decoded in table order for as long as the credit lasts, every one of them even after a failure. -/
def verifyPlaces (mem : Kv Byte) (p : PageMap) (idx : Nat) : List (Nat × Nat × Nat) → Waiting → Ctl → Waiting × Ctl
  | [], w, c => (w, c)
  | x :: r, w, c =>
    if w.credit < p.placeBytes x then (w, c)
    else
      let a := verifyOne mem p idx x w.failed c
      verifyPlaces mem p idx r { w with done := w.done + 1, credit := w.credit - p.placeBytes x, failed := a.1 } a.2

/-- Decoded bytes a nanosecond that the three check engines give the verifier: all of theirs, or every second crate while the packer
has crates of its own to check (R13, R116; log entry 141). -/
def Ctl.verifyRate (c : Ctl) : Nat := if c.recorder.held.isEmpty then 24 else 12

/-! ### The completion ring (R64, R67 to R69) -/

/-- Entries in the completion ring. -/
def Ctl.ringHeld (c : Ctl) : Nat := (c.nat Obj.completion_head + 8192 - c.nat Obj.completion_tail) % 8192

/-- Cue pages not yet placed: each holds a place for its PLACED entry. -/
def Ctl.unplaced (c : Ctl) : Nat := (c.live.filter fun t => t.pos.isNone).length

/-- `n` further entries fit beside what is reserved (R69). -/
def Ctl.ringRoom (c : Ctl) (n : Nat) : Bool :=
  decide (c.ringHeld + c.nat Obj.all_tickets_outstanding + c.unplaced + n ≤ 4096)

/-- Entries that a new page of a slot needs. -/
def Ctl.entriesNeeded (c : Ctl) (n : Nat) : Nat := if c.nat (Obj.cue_mode n) = 0 then 2 else 3

/-- A completion entry written at 6000:0C, then rung (R68). -/
def Mach.postEntry (m : Mach) (e : List Byte) : Mach :=
  let c := m.ctl
  let h := c.nat Obj.completion_head
  { ctl := (c.putN Obj.completion_head ((h + 1) % 8192)).ring Src.ADMIT_COMPLETION 0xFFFF Obj.completion_head,
    cellar := memWrite m.cellar (c.nat Obj.completion_ring_base + h % 4096 * 128) (padTo 128 e) }

/-- A REFUSED entry. -/
def refusedEntry (d : Desc) (idx : Nat) (r : Judged) (ns : Nat) : List Byte :=
  [2, 0] ++ le 2 r.1 ++ le 4 0 ++ le 8 d.hostRef ++ zeros 8 ++ le 4 0 ++ le 2 idx ++ le 1 d.slot ++ [0] ++ zeros 12 ++
    le 4 r.2 ++ zeros 64 ++ timeBytes ns ++ zeros 6

/-- gap_stretch of an entry: a stretch past 32 bits has no stated value (R75; log entry 49). -/
def Ticket.stretchShown (t : Ticket) : Nat := if t.gapStretch < 2 ^ 32 then t.gapStretch else Config.wideStretch t.gapStretch

/-- Flags of an entry. -/
def Ticket.entryFlags (t : Ticket) : Nat :=
  (if t.gapStretch = 0 then 0 else 1) + (if t.pos.isNone then 2 else 0) + (if t.overCap then 4 else 0) +
    (if t.verified then 8 else 0)

/-- Lines fired by the bar that fired fewest. -/
def Ticket.linesFired (t : Ticket) : Nat := minOf ((barsOf t.bars).map fun b => kvGet 0 t.fired b)

/-- The epochs of an entry: 0 for unmasked bars; for a masked bar without such a line, a value the spec does not state (log
entry 49). -/
def Ctl.epochs (c : Ctl) (t : Ticket) (m : Kv Nat) (from_ : Nat) : List Byte :=
  ((List.range 8).map fun b =>
    if !bit t.bars b then le 4 0
    else if m.any (fun e => e.1 == b) then le 4 (kvGet 0 m b)
    else le 4 (Config.freeNat (c.free + from_ + b))).flatten

/-- An entry of a ticket: type, outcome, reason. -/
def Ctl.ticketEntry (c : Ctl) (t : Ticket) (type outcome reason : Nat) : List Byte :=
  let ended := type = 4
  le 1 type ++ le 1 outcome ++ le 2 reason ++ le 4 t.number ++ le 8 t.hostRef ++ le 8 (t.pos.getD (2 ^ 64 - 1)) ++
    le 4 t.stretchShown ++ le 2 t.desc ++ le 1 t.slot ++ le 1 t.entryFlags ++
    (if ended then le 4 t.flags ++ le 4 t.omitted ++ le 4 t.linesFired ++ le 4 t.detail ++ c.epochs t t.firstEpoch 0 ++
      c.epochs t t.lastEpoch 8 else zeros 80) ++ timeBytes c.localNs ++ zeros 6

/-! ### Threshold-array places (R20) -/

/-- The array a place shows. -/
def Ctl.arrayIn (c : Ctl) (p : Nat) : Nat := fld (c.oct Obj.resident_arrays) p 1

/-- Arrays of the bars of a slot in a mask. -/
def Ctl.arraysOf (c : Ctl) (slot bars : Nat) : List Nat := ((barsOf bars).map fun b => c.nat (Obj.slot_screen slot b)).eraseDups

/-- A ticket still uses an array: a bar that screens with it has lines to screen. -/
def Ctl.ticketUses (c : Ctl) (t : Ticket) (a : Nat) : Bool :=
  (barsOf t.bars).any fun b => c.nat (Obj.slot_screen t.slot b) == a && decide (kvGet 0 t.screened b < t.length)

/-- A place's array is used by a ticketed page that has not ended (R20; log entry 129). -/
def Ctl.placeUsed (c : Ctl) (p : Nat) : Bool := c.live.any fun t => c.ticketUses t (c.arrayIn p)

/-- The free places afresh, those freed earlier first, those freed together by number (R20; log entry 128). -/
def Ctl.tidyPlaces (c : Ctl) : Ctl :=
  let old := c.adm.placeFree.filter fun p => !c.placeUsed p
  let new := (List.range 10).filter fun p => !c.placeUsed p && !old.contains p
  { c with adm := { c.adm with placeFree := old ++ new } }

/-- An array is resident. -/
def Ctl.resident (c : Ctl) (a : Nat) : Bool := (List.range 10).any fun p => c.arrayIn p == a

/-- The first array of a page that no place holds. -/
def Ctl.missingArray (c : Ctl) (slot bars : Nat) : Option Nat := (c.arraysOf slot bars).find? fun a => !c.resident a

/-- The place to load into: freed longest ago and not holding an array of the page itself. -/
def Ctl.loadPlace (c : Ctl) (slot bars : Nat) : Option Nat :=
  c.adm.placeFree.find? fun p => !(c.arraysOf slot bars).contains (c.arrayIn p)

/-- Cellar address of a library array (R352). -/
def Ctl.libraryAt (c : Ctl) (a : Nat) : Nat := c.usable - libraryBytes + 458752 * a

/-- A place given an array, 0xFF for none, and its bytes. -/
def Ctl.setPlace (c : Ctl) (p a : Nat) (bytes : List Byte) : Ctl :=
  let c1 := c.putO Obj.resident_arrays (splice (c.oct Obj.resident_arrays) p (le 1 a))
  { c1 with adm := { c1.adm with places := kvSet [] c1.adm.places p bytes } }

/-- Every resident copy of an array discarded (R123). -/
def Ctl.evict (c : Ctl) (a : Nat) : Ctl :=
  forEach (List.range 10) (fun c p => if c.arrayIn p = a then c.setPlace p 0xFF [] else c) c

end Sys2Proof.Machine
end

