-- ==== Sys2Proof/Machine/Plan.lean ====
section
/-! DEFINITION. Placing and ticketing a page (R69, R73 to R76, R83, R84): page position, fetch ledger, waits, issue, refusal. -/

namespace Sys2Proof.Machine

/-! ### Positions (R8, R60, R75) -/

/-- Ticks before position `y` over which the web has a length; stretches latest first. -/
def backTicks : List (Nat × Nat) → Nat → Frac → Nat
  | [], _, d => nmTicks d 1200
  | (s, l) :: r, y, d =>
    if y ≤ s then (if r.isEmpty then nmTicks d l else backTicks r y d)
    else if r.isEmpty || d.lt (tickNm (y - s) l) then nmTicks d l
    else (y - s) + backTicks r s (d.sub (tickNm (y - s) l))

/-- The web from a gap's start takes a pitch, from the print position at the earliest (R8; log entry 127). -/
def Ctl.startStretch (c : Ctl) (gapStart lpi : Nat) : Ctl :=
  let at_ := max gapStart c.pp
  match c.adm.stretches with
  | (s, l) :: r =>
    if l = lpi then c
    else { c with adm := { c.adm with stretches := (at_, lpi) :: (if at_ ≤ s then r else (s, l) :: r) } }
  | [] => { c with adm := { c.adm with stretches := [(0, lpi)] } }

/-- Where the gap of the next page begins: the end of the last page, the latest it can have while its cue is awaited unless the
next page is a cue page too (log entry 36). -/
def Ctl.nextGap (c : Ctl) (cue : Bool) : Nat :=
  match c.adm.tickets.getLast? with
  | some t => if t.pos.isNone && !t.ended && !cue then t.earliest + t.window + 64 * t.length else c.adm.prevEnd
  | none => c.adm.prevEnd

/-- A page's plan: E, its window (0 outside cue mode), position or none, and what it stretches its gap by. -/
structure Plan where
  gapStart : Nat
  e : Nat
  window : Nat
  pos : Option Nat
  stretch : Nat
  deriving DecidableEq, Repr

/-- F (R75): the web point that bar fires 16,384 ticks ahead. -/
def Ctl.soonest (c : Ctl) (bars : Nat) : Nat :=
  c.pp + 16384 - backTicks c.stretches (c.pp + 16384) (Frac.ofInt (c.leastOffset bars))

/-- The plan of a descriptor at the present position, its stretch begun. -/
def Ctl.plan (c : Ctl) (d : Desc) : Plan :=
  let cue := c.nat (Obj.cue_mode d.slot) != 0
  let g := c.nextGap cue
  let e := g + d.gap
  if cue then ⟨g, e, c.nat (Obj.cue_window d.slot), none, 0⟩
  else
    let f := (c.startStretch g (c.nat (Obj.line_pitch d.slot))).soonest d.bars
    ⟨g, e, 0, some (max e f), f - e⟩

/-! ### The fetch ledger (R83) -/

/-- A span of demand: bar, first and last cell, MB/s. -/
abbrev Span := Nat × Nat × Nat × Nat

/-- The demand of a band (R83). -/
def bandDemand (declared cap lpi lines : Nat) : Nat :=
  let den := 25400 * lines * 10 ^ 6
  (declared * cap * lpi + den - 1) / den

/-- Where the span of a band of a page at `q` ends: its last line at the bar's reach. -/
def Ctl.spanEnd (c : Ctl) (m : PageMap) (q b k : Nat) : Nat :=
  let w := q + 64 * (256 * k + m.bandLines k - 1)
  w + c.ticksOver w (c.nat (Obj.bar_reach b))

/-- The span of a band of a page whose position lies between `p` and `q`: from 208 lines before its first line passes the bar's
offset to its last line at the bar's reach; for a page that waits for its cue over its whole window (log entry 50). -/
def Ctl.bandSpan (c : Ctl) (m : PageMap) (p q b k demand : Nat) : Span :=
  let w0 := p + 64 * 256 * k
  (b, (c.barAt w0 b - 64 * 208) / 4096, c.spanEnd m q b k / 4096, demand)

/-- The spans of a page, `declared` by band x bars + rank. -/
def Ctl.spans (c : Ctl) (m : PageMap) (p q cap lpi : Nat) (declared : List Nat) : List Span :=
  ((List.range m.bands).map fun k => m.barList.map fun b =>
    c.bandSpan m p q b k (bandDemand (declared.getD (k * m.barList.length + m.rank b) 0) cap lpi (m.bandLines k))).flatten

/-- The spans of a ticket. -/
def Ctl.ticketSpans (c : Ctl) (t : Ticket) : List Span :=
  c.spans t.map t.place (t.place + (if t.pos.isNone then t.window else 0)) t.cap t.pitch t.work.declared

/-- The load of a cell: the sum over bars of a bar's largest demand there. -/
def cellLoad (ss : List Span) (x : Nat) : Nat :=
  ((List.range 8).map fun b =>
    maxOf ((ss.filter fun s => s.1 == b && decide (s.2.1 ≤ x ∧ x ≤ s.2.2.1)).map (·.2.2.2))).sum

/-- No cell of the new spans holds more than the budget. A load can only be largest where a span begins. -/
def ledgerHolds (old new : List Span) (budget : Nat) : Bool :=
  ((old ++ new).map (·.2.1)).all fun x =>
    !(new.any fun s => decide (s.2.1 ≤ x ∧ x ≤ s.2.2.1)) || decide (cellLoad (old ++ new) x ≤ budget)

/-- The spans of a plan end within 268,435,456 ticks of the print position (R73). -/
def Ctl.spansNear (c : Ctl) (d : Desc) (p : Plan) : Bool :=
  let c1 := c.startStretch p.gapStart (c.nat (Obj.line_pitch d.slot))
  d.map.barList.all fun b => (List.range d.map.bands).all fun k =>
    decide (c1.spanEnd d.map (p.pos.getD p.e + p.window) b k ≤ c.pp + 268435456)

/-- The spans a plan adds. -/
def Ctl.planSpans (c : Ctl) (d : Desc) (p : Plan) (declared : List Nat) : List Span :=
  let l := c.nat (Obj.line_pitch d.slot)
  let pos := p.pos.getD p.e
  (c.startStretch p.gapStart l).spans d.map pos (pos + p.window) (c.pageCap d.slot) l declared

/-! ### Waits (R73) -/

/-- 6000:10 given a value; ADMIT_WAIT rings when it leaves 0. -/
def Ctl.setWait (c : Ctl) (w : Nat) : Ctl :=
  let was := c.nat Obj.wait_reason
  let c1 := c.putN Obj.wait_reason w
  if was = 0 ∧ w ≠ 0 then c1.ring Src.ADMIT_WAIT 0xFFFF Obj.wait_reason else c1

/-- The first wait condition that holds for the waiting descriptor, 0 for none. -/
def Mach.waitCode (m : Mach) (d : Desc) (verifying : Bool) : Nat :=
  let c := m.ctl
  if !c.ringRoom (c.entriesNeeded d.slot) then St.COMPLETION_SPACE
  else if (c.missingArray d.slot d.bars).isSome then St.ARRAY_PLACE
  else if verifying then St.VERIFYING
  else if !c.spansNear d (c.plan d) then St.LEDGER_RANGE
  else 0

/-! ### Refusal and ticket (R71, R72, R76) -/

/-- The descriptor at the head is consumed. -/
def Ctl.consume (c : Ctl) : Ctl := c.dropWaiting.putN Obj.submit_head ((c.nat Obj.submit_head + 1) % 8192)

/-- The descriptor held at the head of the ring, with 6000:29. -/
def Ctl.hold (c : Ctl) (w : Waiting) : Ctl :=
  { c.putN Obj.verify_backlog w.backlog with adm := { c.adm with waiting := some w } }

/-- A page refused: a REFUSED entry, the descriptor consumed, admission closed under policy CLOSE. Without room for the entry the
refusal waits for it (log entry 51). -/
def Mach.refusePage (m : Mach) (w : Waiting) (r : Judged) : Mach :=
  let c := m.ctl
  let d := descOf w.bytes
  if !c.ringRoom 1 then m.onCtl fun c => (c.hold { w with refused := some r }).setWait St.COMPLETION_SPACE
  else
    let m1 := m.postEntry (refusedEntry d (c.nat Obj.submit_head) r c.localNs)
    m1.onCtl fun c =>
      let c1 := c.consume
      if c1.nat Obj.refusal_policy = 0 then c1.closeAdmission St.CLOSED_REFUSAL else c1

/-- The number after the last ticket (R76). -/
def nextNumber (n : Nat) : Nat := if n = 2 ^ 32 - 1 then 1 else n + 1

/-- The ticket of a plan. -/
def Ctl.ticketOf (c : Ctl) (d : Desc) (p : Plan) (declared : List Nat) (verified : Bool) : Ticket :=
  { number := nextNumber c.adm.lastNumber, hostRef := d.hostRef, slot := d.slot, bars := d.bars, length := d.length,
    width := d.width, table := d.table, desc := c.nat Obj.submit_head, pos := p.pos, earliest := p.e, window := p.window,
    gapStart := p.gapStart, gapStretch := p.stretch, verified := verified,
    overCap := false, cap := c.pageCap d.slot, pitch := c.nat (Obj.line_pitch d.slot), reason := 0, flags := 0, omitted := 0,
    fired := [], settled := [], screened := [], firstEpoch := [], lastEpoch := [], detail := 0, printDone := [],
    ended := false,
    work := ⟨declared, [], [], [], [], [], false, kvGet 0 c.adm.sinceSeal d.slot, c.nat Obj.horizon_end, [], [], [], [], []⟩ }

/-- A ticket joins the list: numbers, prev_end, stretch, seal, counts. -/
def Ctl.issue (c : Ctl) (t : Ticket) : Ctl :=
  let c1 := c.startStretch t.gapStart t.pitch
  let a := c1.adm
  let c2 := { c1 with adm := { a with tickets := a.tickets ++ [t], prevEnd := t.place + 64 * t.length, lastNumber := t.number } }
  let c3 := ((c2.putN (Obj.tickets_outstanding t.slot) (c2.nat (Obj.tickets_outstanding t.slot) + 1)).putN
    Obj.all_tickets_outstanding (c2.nat Obj.all_tickets_outstanding + 1)).putN Obj.last_ticket t.number
  let c4 := c3.resealed t.slot
  let c5 := { c4 with adm := { c4.adm with sinceSeal := kvSet 0 c4.adm.sinceSeal t.slot (kvGet 0 c4.adm.sinceSeal t.slot + 1) } }
  let c6 := if c5.pp < t.place then c5.putB Obj.starved false else c5
  (((c6.rehorizon).receiling).tidyPlaces).setPower 3

/-- A page ticketed: ADMITTED posted, the descriptor consumed. -/
def Mach.admitPage (m : Mach) (d : Desc) (p : Plan) (verified : Bool) : Mach :=
  let c := m.ctl
  let t := c.ticketOf d p (d.map.declaredAll m.cellar) verified
  let c2 := (c.issue t).consume
  { m with ctl := c2 }.postEntry (c2.ticketEntry t 1 0 0)

/-- Steps 10 and 11 in the cycle in which no wait is left (R73). -/
def Mach.decidePage (m : Mach) (w : Waiting) : Mach :=
  let c := m.ctl
  let d := descOf w.bytes
  let p := c.plan d
  let new := c.planSpans d p (d.map.declaredAll m.cellar)
  let old := ((c.startStretch p.gapStart (c.nat (Obj.line_pitch d.slot))).live.map
    (c.startStretch p.gapStart (c.nat (Obj.line_pitch d.slot))).ticketSpans).flatten
  if d.exactGap && p.stretch != 0 then m.refusePage w (refLate, 0)
  else if !ledgerHolds old new (c.nat Obj.fetch_budget) then m.refusePage w (refFetchBudget, 0)
  else m.admitPage d p w.verify

/-- The waiting descriptor judged: a refusal found is posted, else its first wait holds it, else it is decided. -/
def Mach.judge (m : Mach) (w : Waiting) : Mach :=
  match w.refused with
  | some r => m.refusePage w r
  | none =>
    let k := m.waitCode (descOf w.bytes) (!w.left.isEmpty)
    if k ≠ 0 then m.onCtl (·.setWait k)
    else match w.failed with
      | some x => m.refusePage w (refVerifyFailed, x)
      | none => m.decidePage w

/-- The change concerns slot `n`. -/
def Recheck.concerns (x : Recheck) (c : Ctl) (n : Nat) : Bool :=
  match x with
  | .slot k => k == n
  | .array a => (c.slotBars n).any fun b => c.nat (Obj.slot_screen n b) == a
  | .curve k => (c.slotBars n).any fun b => c.nat (Obj.slot_tone_curve n b) == k
  | .place p => c.nat (Obj.appearance_place n) == p
  | .arrays => true

/-- A change of this cycle noted (R73). -/
def Ctl.noteChange (c : Ctl) (x : Recheck) : Ctl := { c with adm := { c.adm with changed := c.adm.changed ++ [x] } }

/-- A cycle begins: no change has come in it. -/
def Mach.newCycle (m : Mach) : Mach := m.onCtl fun c => { c with adm := { c.adm with changed := [] } }

/-- Steps 2 to 5 run again on a descriptor that waits, at the end of a cycle in which changes came that concern it (R73). -/
def Mach.recheck (m : Mach) : Mach :=
  let xs := m.ctl.adm.changed
  let m1 := m.newCycle
  match m.ctl.adm.waiting with
  | none => m1
  | some w =>
    let d := descOf w.bytes
    let r := m.ctl.slotSteps d
    if w.refused.isNone && (xs.any fun x => x.concerns m.ctl d.slot) && r.1 != 0 then m1.refusePage w r else m1

/-- An owner after whose entry, the only one of its frame, a waiting descriptor is checked again. -/
def rechecked (own : Nat → Mach → Nat × Mach) (n : Nat) (m : Mach) : Nat × Mach := let a := own n m.newCycle; (a.1, a.2.recheck)

end Sys2Proof.Machine
end

