-- ==== Sys2Proof/Machine/Sched.lean ====
section
/-! DEFINITION. The cellar's scheduling (R344 to R347): classes of requests, the panic level, entries, the order of service. A command's
requests are served within it; those that a FROZEN controller or panic level 3 holds wait in the controller's entries (log entry 161). -/

namespace Sys2Proof.Machine

/-! ### The lead and the panic level (R117, R346) -/

/-- Lines by which a bar's fetch for a ticket is ahead of the deadline of R107; none where all of its bands are fetched. -/
def Ctl.leadOf (c : Ctl) (t : Ticket) (b : Nat) : Option Nat :=
  let k := kvGet 0 t.printDone b
  if t.pos.isSome && !t.ended && decide (k < t.map.bands) then
    some ((c.barAt (t.place + 64 * 256 * k) b - (c.pp + 32 * 64)) / 64)
  else none

/-- 6000:27: the smallest lead of a bar, 176 lines where none is smaller. -/
def Ctl.fetchLead (c : Ctl) : Nat :=
  (c.adm.tickets.map fun t => (barsOf t.bars).filterMap (c.leadOf t)).flatten.foldl min 176

/-- The panic level of the smallest lead. -/
def Ctl.panicLevel (c : Ctl) : Nat :=
  let l := c.fetchLead
  if l < 32 then 3 else if l < c.nat Obj.panic_lead_2 then 2 else if l < c.nat Obj.panic_lead_1 then 1 else 0

/-- The panic level raised, entries into level 3 counted. -/
def Ctl.notePanic (c : Ctl) : Ctl :=
  let v := c.panicLevel
  let c1 := { c with mem := { c.mem with panic := v } }
  if v = 3 ∧ c.mem.panic ≠ 3 then c1.bump Obj.panic_3_entries else c1

/-- BULK and BACKGROUND may issue commands. -/
def Ctl.bulkMay (c : Ctl) : Bool := c.panicLevel != 3

/-! ### Classes (R344 to R346) -/

/-- The service class fixed by a request's source: 0 RT, 1 ISO, 2 BULK, 3 BACKGROUND (R344). -/
def classOf : CellarSource → Nat
  | .printFetch | .fireRecord | .arrayLoad => 0
  | .inspectFetch | .cropRing | .recordView | .monitorView | .encoder | .decoder => 1
  | .bar2 | .header | .verify | .packer | .loopRing | .tables => 2
  | .scrub | .wipe => 3

/-- How often a request has been promoted: once each time it has waited its class's age limit. -/
def Ctl.promotions (c : Ctl) (r : CellarReq) : Nat :=
  let limit := match classOf r.source with
    | 1 => c.nat Obj.age_iso
    | 2 => c.nat Obj.age_bulk
    | 3 => c.nat Obj.age_background
    | _ => 0
  (c.now - r.since) / limit

/-- The effective class of a request, no higher than RT. -/
def Ctl.effective (c : Ctl) (r : CellarReq) : Nat := classOf r.source - c.promotions r

/-- The rank a request is served in, lowest first: its effective class; from panic level 1 on true RT before promoted ones. -/
def Ctl.serveRank (c : Ctl) (r : CellarReq) : Nat :=
  2 * c.effective r + if 1 ≤ c.panicLevel ∧ classOf r.source ≠ 0 then 1 else 0

/-! ### Entries (R347) -/

/-- The reserved entries of a class, and those shared. -/
def reserveOf (cls : Nat) : Nat := [768, 512, 256, 32].getD cls 0
abbrev sharedEntries : Nat := 480

/-- What a controller holds. -/
def Ctl.heldBy (c : Ctl) (m : Nat) : List CellarReq := kvGet [] c.mem.held m

/-- A class finds an entry: in its reserve, else shared. -/
def entryFree (q : List CellarReq) (cls : Nat) : Bool :=
  let used (k : Nat) : Nat := (q.filter fun r => classOf r.source == k).length
  decide (used cls < reserveOf cls ∨ ((List.range 4).map fun k => used k - reserveOf k).sum < sharedEntries)

/-- A request of a source joins the entries of a controller, or waits at its source where its class finds none; one that is held already
stays as it is. -/
def Ctl.hold1 (c : Ctl) (src : CellarSource) (a n m : Nat) : Ctl :=
  let q := c.heldBy m
  if (q.any fun r => r.source == src && r.address == a) || !entryFree q (classOf src) then c
  else { c with mem := { c.mem with held := kvSet [] c.mem.held m (q ++ [⟨src, a, n, c.now⟩]) } }

/-- A request for a range is held by the controllers it reaches that are FROZEN. -/
def Ctl.holdFrozen (c : Ctl) (src : CellarSource) (a n : Nat) : Ctl :=
  forEach ((controllersOf a n).filter c.frozen) (fun c m => c.hold1 src a n m) c

/-! ### The order of service (R345) -/

/-- Channel of an address within its controller, and the key of its rank and bank (R337). -/
def cellarChannel (a : Nat) : Nat := groupOfAddress a % 4
def Ctl.bankKey (c : Ctl) (a : Nat) : Nat := 16 * (rowOf a / c.rowsPerRank) + bankOf a

/-- The request a channel serves next: the oldest of the best rank; or the oldest of that rank to an open row, which it may choose while
fewer than 16 commands in a row have passed older ones. `rows`: the open row of each bank, 1 more than it. -/
def Ctl.nextServed (c : Ctl) (rows : Kv Nat) (streak : Nat) (q : List CellarReq) : Option CellarReq :=
  (argLeast c.serveRank q).map fun b =>
    let peers := q.filter fun r => c.serveRank r == c.serveRank b
    let first := (argLeast (·.since) peers).getD b
    let hits := peers.filter fun r => kvGet 0 rows (c.bankKey r.address) == rowOf r.address + 1
    if streak < 16 ∧ Config.rowHit c.now streak % 2 = 1 then (argLeast (·.since) hits).getD first else first

/-- The order in which a channel serves what is held. -/
def Ctl.serveOrder (c : Ctl) : Nat → Kv Nat → Nat → List CellarReq → List CellarReq
  | 0, _, _, _ => []
  | f + 1, rows, streak, q => match c.nextServed rows streak q with
    | none => []
    | some r =>
      let passes := q.any fun x => c.serveRank x == c.serveRank r && decide (x.since < r.since)
      r :: c.serveOrder f (kvSet 0 rows (c.bankKey r.address) (rowOf r.address + 1)) (if passes then streak + 1 else 0) (q.erase r)

/-- The bytes of a BAR2 read: all ones past the end of the cellar (R355). -/
def Mach.answerRead (m : Mach) (a n : Nat) : Mach :=
  let k := min n (m.ctl.usable - a)
  m.onCtl fun c => c.useCellar.emit (.hostRead a (leVal (memRead m.cellar a k ++ List.replicate (n - k) 0xFF)))

/-- A held request served: a host read is answered, any other source's engine goes on. -/
def Mach.serveReq (m : Mach) (k : Nat) (r : CellarReq) : Mach :=
  let m1 := m.onCtl fun c => c.emit (.served k r.source r.address)
  if r.source = .bar2 then m1.answerRead r.address r.bytes else m1

/-- What a controller holds and may serve now, served channel by channel. -/
def Mach.serveHeld (m : Mach) (k : Nat) : Mach :=
  let c := m.ctl
  let may (r : CellarReq) : Bool := c.bulkMay || decide (classOf r.source < 2)
  let q := (c.heldBy k).filter may
  if c.frozen k || q.isEmpty then m
  else
    let order := ((List.range 4).map fun ch => c.serveOrder q.length [] 0 (q.filter fun r => cellarChannel r.address == ch)).flatten
    forEach order (fun m r => m.serveReq k r)
      (m.onCtl fun c => { c with mem := { c.mem with held := kvSet [] c.mem.held k ((c.heldBy k).filter fun r => !may r) } })

/-- Both controllers. -/
def Mach.serveAll (m : Mach) : Mach := (m.serveHeld 0).serveHeld 1

end Sys2Proof.Machine
end

