-- ==== Sys2Proof/Machine/Admission.lean ====
section
/-! DEFINITION. The slot and admission commands, the doorbell, the sequencer's steps and cue marks (chapter 03). -/

namespace Sys2Proof.Machine

/-! ### Slots (R62) -/

/-- SEAL_SLOT. -/
def execSealSlot (r : Req) (slot arg : Nat) (s : State) : Host.Outcome State Fault Refusal :=
  nextMach s (s.mach.ctlRow r (Obj.seal_slot slot) (arg1 arg) fun n c => (St.STARTED, c.sealSlot slot n))

/-- UNSEAL_SLOT. -/
def execUnsealSlot (r : Req) (slot arg : Nat) (s : State) : Host.Outcome State Fault Refusal :=
  nextMach s (s.mach.ctlRow r (Obj.unseal_slot slot) (arg1 arg) fun n c => (St.STARTED, c.unsealSlot slot n))

/-- The owner of clear_slot: refused SLOT_SEALED, else the slot is EMPTY, which a waiting descriptor is checked against. -/
def ownClearSlot (slot n : Nat) (m : Mach) : Nat × Mach :=
  if m.ctl.nat (Obj.slot_state slot) = 2 then (St.SLOT_SEALED, m)
  else (St.STARTED, m.onCtl fun c => ((c.emptySlot slot).cmdNow (Obj.clear_slot slot) n Src.ADMIT_CMD_DONE slot).noteChange (.slot slot))

/-- CLEAR_SLOT. -/
def execClearSlot (r : Req) (slot arg : Nat) (s : State) : Host.Outcome State Fault Refusal :=
  nextMach s (s.mach.writeRow r (Obj.clear_slot slot) (arg1 arg) (rechecked (ownClearSlot slot)))

/-! ### Opening and closing (R71, R92, R402) -/

/-- Why admission cannot open, 0 for nothing: the rings after CLOSED_RESET alone, and at each opening an active fault (R463), a position
that is not valid (R211) and a full store, which close it again whatever 6000:14 names (R71; log entry 140). -/
def Ctl.openCode (c : Ctl) : Nat :=
  if c.nat Obj.closed_reason = St.CLOSED_RESET ∧ (c.nat Obj.submit_ring_base = 0 ∨ c.nat Obj.completion_ring_base = 0) then
    St.RING_NOT_SET
  else if c.faulted then St.FAULT_ACTIVE
  else if !c.on Obj.position_valid then St.ENCODER_INVALID
  else if c.nat Obj.store_state = 2 then St.USAGE_STORE_FULL
  else 0

/-- open_admission ends: OPEN and DONE, or FAILED. -/
def Ctl.finishOpening (c : Ctl) : Ctl :=
  if !c.cmdBusy Obj.open_admission then c
  else if c.openCode ≠ 0 then c.cmdFail Obj.open_admission c.openCode Src.ADMIT_CMD_DONE
  else (({ c with adm := { c.adm with stopped := false } }.putN Obj.admission_state 1).receiling).cmdDone Obj.open_admission Src.ADMIT_CMD_DONE

/-- The owner of open_admission: it waits for the print ride (R402). -/
def ownOpenAdmission (n : Nat) (c : Ctl) : Nat × Ctl :=
  let c1 := c.cmdRun Obj.open_admission n
  (St.STARTED,
    if c.nat Obj.admission_state = 1 then c1.cmdDone Obj.open_admission Src.ADMIT_CMD_DONE
    else if c1.openCode ≠ 0 ∨ c1.rideRuns ridePrint then c1.finishOpening
    else c1.needRide ridePrint)

/-- OPEN_ADMISSION. -/
def execOpenAdmission (r : Req) (arg : Nat) (s : State) : Host.Outcome State Fault Refusal :=
  nextMach s (s.mach.ctlRow r Obj.open_admission (arg1 arg) ownOpenAdmission)

/-- CLOSE_ADMISSION. -/
def execCloseAdmission (r : Req) (arg : Nat) (s : State) : Host.Outcome State Fault Refusal :=
  nextMach s (s.mach.ctlRow r Obj.close_admission (arg1 arg) fun n c =>
    (St.STARTED, (c.closeAdmission St.CLOSED_COMMAND).cmdNow Obj.close_admission n Src.ADMIT_CMD_DONE))

/-! ### Withdrawal (R82) -/

/-- The position below which 6000:03 may not fall: the print position plus the stopping distance and the margin. -/
def Ctl.stopPoint (c : Ctl) : Nat :=
  let v := (c.int Obj.web_speed).toNat
  let um : Frac := ⟨v * v + 2 * c.nat Obj.drive_deceleration * c.nat Obj.stop_margin, 2 * c.nat Obj.drive_deceleration⟩
  c.pp + advanceTicks c.stretches c.stretches.length c.pp (um.mul ⟨1000, 1⟩)

/-- Stretches that withdrawn pages had begun ahead of the print position go (R8; log entry 126). -/
def Ctl.dropStretches (c : Ctl) (from_ : Nat) : Ctl :=
  { c with adm := { c.adm with stretches := c.adm.stretches.filter fun x => decide (x.1 ≤ c.pp ∨ x.1 < from_) } }

/-- A ticket withdrawn behind which none is kept: 6000:03 and prev_end fall back to before it. -/
def Ctl.withdrawLast (c : Ctl) (t : Ticket) : Ctl :=
  let c1 := (c.onTicket t.number fun x => x.endWith reasonWithdrawn).dropStretches t.gapStart
  { c1.putN Obj.horizon_end t.work.before with adm := { c1.adm with prevEnd := t.gapStart } }

/-- Withdrawal from the last ticket back, latest first; how many were withdrawn. A page of which a line has fired, or whose lines are
all settled, is kept, and with it 6000:03 and prev_end; `kept` says that a later one was. It stops before the first ticket that would
bring 6000:03 below `limit`. -/
def Ctl.withdrawWhile (c : Ctl) (limit : Nat) (kept : Bool) : List Ticket → Nat × Ctl
  | [] => (0, c)
  | t :: r =>
    if t.begun || t.complete then c.withdrawWhile limit true r
    else if kept then
      let x := (c.onTicket t.number fun x => x.endWith reasonWithdrawn).withdrawWhile limit true r
      (x.1 + 1, x.2)
    else if t.work.before < limit then (0, c)
    else let x := (c.withdrawLast t).withdrawWhile limit false r; (x.1 + 1, x.2)

/-- Ticket number `x` was given before number `n`, as numbers run from 2^32 - 1 on to 1 (R76). -/
def numberedBefore (x n : Nat) : Bool :=
  let d := (n + (2 ^ 32 - 1) - x) % (2 ^ 32 - 1)
  decide (0 < d ∧ d < 2 ^ 31)

/-- Live tickets from number `n` on, in ticket order. -/
def Ctl.liveFrom (c : Ctl) (n : Nat) : List Ticket := c.live.dropWhile fun t => numberedBefore t.number n

/-- The owner of withdraw_from. -/
def ownWithdraw (arg n : Nat) (c : Ctl) : Nat × Ctl :=
  let x := c.withdrawWhile c.stopPoint false (c.liveFrom arg).reverse
  (St.STARTED,
    if x.1 = 0 then c.cmdNowFail Obj.withdraw_from n 0x0239 Src.ADMIT_CMD_DONE
    else ((x.2.receiling).tidyPlaces).cmdNow Obj.withdraw_from n Src.ADMIT_CMD_DONE)

/-- WITHDRAW_FROM. -/
def execWithdrawFrom (r : Req) (arg : Nat) (s : State) : Host.Outcome State Fault Refusal :=
  nextMach s (s.mach.ctlRow r Obj.withdraw_from (le 4 arg) (ownWithdraw arg))

/-! ### The doorbell (R66) -/

/-- A submit tail that neither overfills the ring nor takes back a descriptor. -/
def Ctl.tailOk (c : Ctl) (v : Nat) : Bool :=
  let h := c.nat Obj.submit_head
  decide ((v + 8192 - h) % 8192 ≤ 4096 ∧ (c.nat Obj.submit_tail + 8192 - h) % 8192 ≤ (v + 8192 - h) % 8192)

/-- A tail written: its status and the controller. -/
def Ctl.submitTail (c : Ctl) (v : Nat) : Nat × Ctl :=
  if c.tailOk v then (St.OK, c.putN Obj.submit_tail v)
  else (St.OUT_OF_RANGE, c.ring Src.ADMIT_RING_ERROR 0xFFFF Obj.submit_tail)

/-- PAGE_DOORBELL. -/
def execPageDoorbell (w : TailWrite) (s : State) : Host.Outcome State Fault Refusal :=
  match w with
  | .reg v => if s.mach.ctl.awake then nextCtl s (s.mach.ctl.submitTail (v % 8192)).2 else .next s
  | .obj r v => nextMach s (s.mach.ctlRow r Obj.submit_tail (le 2 v) fun _ c => c.submitTail v)

/-! ### The sequencer (R72 to R74) -/

/-- A step that reads the cellar: it starts a stopped cellar ride and is held meanwhile (R401). -/
def Mach.withCellar (m : Mach) (f : Mach → Mach) : Mach :=
  if m.ctl.cellarUp then f (m.onCtl (·.useCellar)) else if m.ctl.usable = 0 then m else m.onCtl (·.needRide rideCellar)

/-- The descriptor at the head checked: refused, waiting or ticketed. -/
def Mach.takeDescriptor (m : Mach) : Mach :=
  let b := m.headDesc
  let d := descOf b
  let r := m.eightSteps d
  let w : Waiting := ⟨b, d.verify || m.ctl.on (Obj.verify d.slot), 0, 0, m.ctl.now, none, none⟩
  if r.1 ≠ 0 then m.refusePage w r else (m.onCtl (·.hold w)).judge w

/-- ADMIT_DESCRIPTOR: due while admission is OPEN, the ring is not empty and no descriptor waits. -/
def execAdmitDescriptor (s : State) : Host.Outcome State Fault Refusal :=
  let c := s.mach.ctl
  if c.nat Obj.admission_state = 1 ∧ c.nat Obj.submit_head ≠ c.nat Obj.submit_tail ∧ c.adm.waiting.isNone ∧ c.bulkMay = true then
    nextMach s (s.mach.withCellar Mach.takeDescriptor)
  else .next s

/-- Step 9 carried on (R115, R116): the crates for which the check engines have had time; panic level 3 holds their reads (R346). -/
def Mach.runVerify (m : Mach) (w : Waiting) : Waiting × Mach :=
  let c := m.ctl
  let d := descOf w.bytes
  let w1 := { w with credit := w.credit + c.verifyRate * (c.now - w.since), since := c.now }
  if w.left.isEmpty || !c.bulkMay then (w, m)
  else
    let x := verifyPlaces m.cellar d.map (c.nat Obj.submit_head) w.left w1 c
    (x.1, { m with ctl := x.2.hold x.1 })

/-- ADMISSION_WAIT_END. -/
def execAdmissionWaitEnd (s : State) : Host.Outcome State Fault Refusal :=
  match s.mach.ctl.adm.waiting with
  | none => .next s
  | some w =>
    if s.mach.ctl.nat Obj.admission_state = 1 then
      nextMach s (s.mach.withCellar fun m => let x := m.runVerify w; x.2.judge x.1)
    else .next s

/-- The waiting page's next array loaded into a free place (R20). -/
def Mach.loadArray (m : Mach) (d : Desc) : Mach :=
  match m.ctl.missingArray d.slot d.bars, m.ctl.loadPlace d.slot d.bars with
  | some a, some p => m.onCtl fun c => c.setPlace p a (memRead m.cellar (c.libraryAt a) 458752)
  | _, _ => m

/-- ARRAY_PLACE_LOAD. -/
def execArrayPlaceLoad (s : State) : Host.Outcome State Fault Refusal :=
  match s.mach.ctl.adm.waiting with
  | none => .next s
  | some w =>
    if s.mach.ctl.rangeFrozen (s.mach.ctl.usable - libraryBytes) libraryBytes then .next s
    else nextMach s (s.mach.withCellar fun m => m.loadArray (descOf w.bytes))

/-- CEILING_RECOMPUTE, every 50 us (R86). -/
def execCeilingRecompute (s : State) : Host.Outcome State Fault Refusal :=
  let c := s.mach.ctl
  if c.adm.ceilingAt + 50000 ≤ c.now then nextCtl s c.receiling else .next s

/-! ### Cue marks (R89, R90) -/

/-- The web point under a cue sensor when the print position is `x`. -/
def Ctl.underCue (c : Ctl) (input x : Nat) : Nat := x + c.ticksOver x (c.cueDistance (input + 1))

/-- The first cue page of an input that waits for its mark. -/
def Ctl.cueTicket (c : Ctl) (input : Nat) : Option Ticket :=
  c.live.find? fun t => t.pos.isNone && c.nat (Obj.cue_mode t.slot) == input + 1

/-- A stretch whose gap start moves while it lies ahead. -/
def Ctl.moveStretch (c : Ctl) (old new : Nat) : Ctl :=
  { c with adm := { c.adm with stretches := c.adm.stretches.map fun x =>
      if x.1 = old ∧ c.pp < x.1 then (max new c.pp, x.2) else x } }

/-- Cue pages that follow one another keep their gaps when the end before them moves to `end_`. -/
def Ctl.rechain (c : Ctl) (end_ : Nat) : List Ticket → Ctl
  | [] => { c with adm := { c.adm with prevEnd := end_ } }
  | t :: r =>
    if t.pos.isSome then c
    else
      let e := end_ + (t.earliest - t.gapStart)
      let c1 := (c.moveStretch t.gapStart end_).onTicket t.number fun x => { x with gapStart := end_, earliest := e }
      c1.rechain (e + 64 * t.length) r

/-- Live tickets after a number. -/
def Ctl.after (c : Ctl) (n : Nat) : List Ticket := ((c.live.dropWhile fun t => t.number != n)).drop 1

/-- What 6000:03 is before each ticket of a list, once pages have moved: the end of the page before it, where that one is not withdrawn
and did not end by a stop. -/
def Ctl.beforeFrom (c : Ctl) : Option Nat → List Ticket → List Ticket
  | _, [] => []
  | e, t :: r =>
    { t with work := { t.work with before := if t.ended then t.work.before else e.getD t.work.before } } ::
      c.beforeFrom (if t.withdrawn then e else if !t.ended || bit t.flags 5 then some (c.ticketEnd t) else none) r

/-- 6000:03 before each ticket afresh. -/
def Ctl.rebefore (c : Ctl) : Ctl := c.setTickets (c.beforeFrom none c.adm.tickets)

/-- A cue page placed, the pages behind it, horizon and ceiling. -/
def Ctl.placePage (c : Ctl) (t : Ticket) (p : Nat) : Ctl :=
  let c1 := c.onTicket t.number fun x => { x with pos := some p }
  (((c1.rechain (p + 64 * t.length) (c.after t.number)).rebefore).rehorizon).receiling

/-- The edge of an input leaves. -/
def Ctl.clearEdge (c : Ctl) (input : Nat) : Ctl :=
  { c with adm := { c.adm with cueEdge := kvSet none c.adm.cueEdge input none } }

/-- A qualified mark at print position `x`: it places the waiting page if its P lies in the window; one before the window is
ignored, one past it is judged once the window has closed. -/
def Mach.qualify (m : Mach) (input x : Nat) : Mach :=
  let c := m.ctl
  match c.cueTicket input with
  | none => m.onCtl (·.clearEdge input)
  | some t =>
    let p : Int := c.underCue input x + c.int (Obj.cue_offset t.slot)
    if p < t.earliest then m.onCtl (·.clearEdge input)
    else if p ≤ t.earliest + t.window then
      let c1 := (c.clearEdge input).placePage t p.toNat
      match c1.ticket t.number with
      | some u => { m with ctl := c1 }.postEntry (c1.ticketEntry u 3 0 0)
      | none => { m with ctl := c1 }
    else m

/-- CUE_MARK_QUALIFIED: due once cue_min_width of web has followed the edge. -/
def execCueMarkQualified (input : Nat) (s : State) : Host.Outcome State Fault Refusal :=
  let c := s.mach.ctl
  match kvGet none c.adm.cueEdge input with
  | none => .next s
  | some e =>
    match e.pos with
    | none => .next s
    | some x =>
      if input < 2 ∧ (Frac.ofInt (c.nat Obj.cue_min_width * 1000)).le (c.nmBetween x c.pp) then
        nextMach s (s.mach.qualify input x)
      else .next s

/-- A page whose window closed without a mark (R90). -/
def Ctl.closeWindow (c : Ctl) (t : Ticket) : Ctl :=
  let after := c.after t.number
  let c1 := c.onTicket t.number fun x => x.endWith reasonCue
  (((((c1.rechain (t.earliest + t.window) after).rebefore).rehorizon).receiling).tidyPlaces)

/-- CUE_WINDOW_CLOSE: due when the sensor has passed the point that would give E + cue_window. -/
def execCueWindowClose (ticket : Nat) (s : State) : Host.Outcome State Fault Refusal :=
  let c := s.mach.ctl
  match c.ticket ticket with
  | none => .next s
  | some t =>
    let input := c.nat (Obj.cue_mode t.slot) - 1
    if t.ended || t.pos.isSome then .next s
    else if (t.earliest + t.window : Int) < c.underCue input c.pp + c.int (Obj.cue_offset t.slot) then nextCtl s (c.closeWindow t)
    else .next s

end Sys2Proof.Machine
end

