-- ==== Sys2Proof/Machine/Axes.lean ====
section
/-! DEFINITION. The axis commands and events (chapter 17): the bus cycle, replies, targets, homing, limit switches,
errors. -/

namespace Sys2Proof.Machine

/-! ### Errors (R453) -/

/-- The code an axis error ends a running home with (R457). -/
def homeErrorCode (e : Nat) : Nat :=
  if e = 1 then 0x030E else if e = 3 then 0x030F else if e = 4 then 0x0310 else if e = 5 then 0x0311
  else if e = 8 then 0x0312 else if e = 6 then St.HOME_LIMIT else St.HOME_NOT_FOUND

/-- Errors that clear homed. -/
def clearsHomed (e : Nat) : Bool := e == 1 || e == 3 || e == 4 || e == 5 || e == 8

/-- axis_error recorded; AXIS_EVENT rings. -/
def Ctl.setAxisError (c : Ctl) (a e : Nat) : Ctl :=
  if c.nat (Obj.axis_error a) = e then c else (c.putN (Obj.axis_error a) e).ring (Src.AXIS_EVENT a) a (Obj.axis_error a)

/-- A LOST axis stands where it was: it can no longer be driven. -/
def Ctl.loseAxis (c : Ctl) (a : Nat) : Ctl :=
  (c.setAxis a { c.axis a with v := 0, a := 0, goalAt := none, emergency := false, halting := false, homeStep := 0,
                               standSince := c.now }).setAxisState a 6

/-- An axis error (R453): the stop of R447 into ERROR, or LOST for BUS; a home ends; the fault source if masked in. An
axis in error keeps its first error. -/
def Ctl.axisFail (c : Ctl) (a e : Nat) : Ctl :=
  if c.axisState a = 0 ∨ c.axisState a = 5 ∨ c.axisState a = 6 then c
  else
    let c1 := (c.failHome a (homeErrorCode e)).setAxisError a e
    let c2 := if clearsHomed e then c1.putB (Obj.homed a) false else c1
    let c3 := if e = 8 then c2.loseAxis a else c2.axisEmergency a (if c.on (Obj.axis_enable a) then 5 else 0)
    if bit (c.nat (Obj.fault_mask a)) (e - 1) then c3.raiseFault (faultAxisError a) else c3

/-! ### Limit inputs by axis (R449 to R451) -/

/-- State of a named input: 0 CLEAR for none. -/
def Ctl.limOf (c : Ctl) (i : Nat) : Nat := if i < 16 then c.nat (Obj.lim_state i) else 0

/-- A named input counts as tripped (TRIPPED or RELEASING). -/
def Ctl.tripped (c : Ctl) (i : Nat) : Bool := c.limOf i != 0

/-- Search direction of a homing mode: -1 for the NEG modes. -/
def homeDir (mode : Nat) : Int := if mode = 1 ∨ mode = 3 then -1 else 1

/-- A homing mode whose reference is a limit input. -/
def limitMode (mode : Nat) : Bool := mode == 3 || mode == 4

/-- The reference input of an axis's homing mode. -/
def Ctl.homeRef (c : Ctl) (a : Nat) : Nat :=
  let m := c.nat (Obj.home_mode a)
  if m = 1 ∨ m = 2 then c.nat (Obj.home_input a)
  else if m = 3 then c.nat (Obj.lim_negative a)
  else if m = 4 then c.nat (Obj.lim_positive a) else 0xFF

/-- The limit in the search direction. -/
def Ctl.searchLimit (c : Ctl) (a : Nat) : Nat :=
  if homeDir (c.nat (Obj.home_mode a)) < 0 then c.nat (Obj.lim_negative a) else c.nat (Obj.lim_positive a)

/-! ### The bus cycle (R437, R438, R443 to R445) -/

/-- An exact speed limit from microsteps/s. -/
def speedUnits (v : Nat) : Int := (v : Int) * 400000000

/-- An exact acceleration from microsteps/s^2. -/
def accelUnits (a : Nat) : Int := (a : Int) * 20000

/-- One cycle toward an exact position under the axis's limits and a speed limit. -/
def Ctl.stepToward (c : Ctl) (a : Nat) (goal : Int) (limit : Nat) : Axis :=
  (c.axis a).toward goal (speedUnits (min limit (c.nat (Obj.max_speed a)))) (accelUnits (c.nat (Obj.max_accel a)))
    (accelUnits (c.nat (Obj.max_decel a))) (c.nat (Obj.max_jerk a))

/-- One cycle of the normal stop. -/
def Ctl.stepBrake (c : Ctl) (a : Nat) : Axis :=
  (c.axis a).brake (accelUnits (c.nat (Obj.max_decel a))) (c.nat (Obj.max_jerk a))

/-- A position no move reaches, in a direction. -/
def farGoal (x : Axis) (dir : Int) : Int := x.p + dir * 2 ^ 40 * stepUnit

/-- An axis at rest takes a standing state; a stop that runs is DONE. -/
def Ctl.comeToRest (c : Ctl) (a st : Nat) : Ctl :=
  let c1 := (c.setAxis a { c.axis a with v := 0, a := 0, emergency := false, halting := false, standSince := c.now,
                                         mode := if st = 0 then 0 else (c.axis a).mode }).setAxisState a st
  if c1.cmdBusy (Obj.stop a) then c1.cmdDone (Obj.stop a) Src.AXIS_CMD_DONE a else c1

/-- Homing reaches step 4 (R451): the position set from the release transition, homed, DONE. -/
def Ctl.homeFinish (c : Ctl) (a : Nat) : Ctl :=
  let x := c.axis a
  let inactive := kvGet 0 (kvGet Lim.reset c.axs.lims (c.homeRef a)).atInactive a
  let c1 := c.setAxis a { x with p := c.int (Obj.home_position a) * stepUnit + (x.p - inactive * stepUnit), homeStep := 0 }
  ((c1.putB (Obj.homed a) true).comeToRest a 1).cmdDone (Obj.home a) Src.AXIS_CMD_DONE a

/-- Travel of a homing step beyond home_travel (R451). -/
def Ctl.overTravel (c : Ctl) (a : Nat) (x : Axis) : Bool :=
  decide ((c.nat (Obj.home_travel a) : Int) * stepUnit < ((x.p - x.homeFrom).natAbs : Int))

/-- One cycle of homing (R451). -/
def Ctl.homeCycle (c : Ctl) (a : Nat) : Ctl :=
  let x := c.axis a
  let mode := c.nat (Obj.home_mode a)
  let dir := homeDir mode
  let ref := c.homeRef a
  let lim := c.searchLimit a
  if x.homeStep = 1 then
    if !c.tripped ref && !(lim != ref && c.tripped lim) then
      c.setAxis a { c.stepBrake a with homeStep := 2, homeFrom := x.p }
    else
      let y := c.stepToward a (farGoal x (-dir)) (c.nat (Obj.home_creep a))
      let c1 := c.setAxis a y
      if c.overTravel a y then c1.axisFail a 7 else c1
  else if x.homeStep = 2 then
    if c.tripped ref && c.limOf ref == 1 then
      if limitMode mode then c.setAxis a { x.emergencyCycle (c.nat (Obj.emergency_decel a)) with homeStep := 23 }
      else c.setAxis a { c.stepBrake a with homeStep := 23 }
    else
      let y := c.stepToward a (farGoal x dir) (c.nat (Obj.home_speed a))
      let c1 := c.setAxis a y
      if c.overTravel a y then c1.axisFail a 7 else c1
  else if x.homeStep = 23 then
    if x.v = 0 ∧ x.a = 0 then c.setAxis a { x with homeStep := 3 }
    else if limitMode mode then c.setAxis a (x.emergencyCycle (c.nat (Obj.emergency_decel a)))
    else c.setAxis a (c.stepBrake a)
  else if x.homeStep = 3 then
    if c.tripped ref then c.setAxis a (c.stepToward a (farGoal x (-dir)) (c.nat (Obj.home_creep a)))
    else c.setAxis a { c.stepBrake a with homeStep := 34 }
  else if x.homeStep = 34 then
    if x.v = 0 ∧ x.a = 0 then c.homeFinish a else c.setAxis a (c.stepBrake a)
  else c

/-- A written target takes effect (R446). -/
def Ctl.takeTarget (c : Ctl) (a : Nat) : Ctl :=
  let x := c.axis a
  match x.goalAt with
  | none => c
  | some t =>
    if t ≤ c.now then
      let c1 := if c.cmdBusy (Obj.stop a) then c.cmdDone (Obj.stop a) Src.AXIS_CMD_DONE a else c
      (c1.setAxis a { x with goal := c.int (Obj.target a) * stepUnit, goalAt := none, halting := false }).setAxisState a 2
    else c

/-- One cycle of motion. -/
def Ctl.moveAxis (c : Ctl) (a : Nat) : Ctl :=
  let c1 := c.takeTarget a
  let x := c1.axis a
  if x.emergency then
    let y := x.emergencyCycle (c.nat (Obj.emergency_decel a))
    if y.v = 0 then (c1.setAxis a y).comeToRest a x.after else c1.setAxis a y
  else if c1.axisState a = 3 then if x.ramp = 0 then c1.homeCycle a else c1
  else if c1.axisState a = 2 then
    let y := if x.halting then c1.stepBrake a else c1.stepToward a x.goal (c.nat (Obj.max_speed a))
    let rest := y.v = 0 ∧ y.a = 0 ∧ (x.halting = true ∨ y.p = x.goal)
    if rest then (c1.setAxis a y).comeToRest a 1 else c1.setAxis a y
  else c1

/-- The table index of an axis (R443). -/
def Ctl.axisIndex (c : Ctl) (a : Nat) : Nat :=
  let d : Int := if c.nat (Obj.direction a) = 1 then -1 else 1
  ((d * wholeSteps (c.axis a).p + c.nat (Obj.index_offset a)) % 1024).toNat

/-- Current scale: run_current in motion, hold_current in REDUCE, ramped from 0 over 20 cycles (R445, R448, R455). -/
def Ctl.axisScale (c : Ctl) (a : Nat) : Nat :=
  let x := c.axis a
  let full := if x.mode = 4 then c.nat (Obj.hold_current a) else c.nat (Obj.run_current a)
  full * (20 - x.ramp) / 20

/-- The command slot of an axis (R438): mode, silent action, index, scale, sequence, CRC. -/
def Ctl.commandSlot (c : Ctl) (a seq : Nat) : List Byte :=
  let x := c.axis a
  let off := c.axisState a == 0 || c.axisState a == 6 || x.mode == 0
  let mode := if off ∨ x.mode = 3 then 0 else if x.mode = 2 then 2 else 1
  let index := if off then 0 else c.axisIndex a
  let scale := if off then 0 else c.axisScale a
  let body := be 6 (mode * 2 ^ 46 + c.nat (Obj.silent_action a) * 2 ^ 44 + index * 2 ^ 34 + scale * 2 ^ 24 +
    seq % 256 * 2 ^ 16)
  body ++ be 2 (crc16 body)

/-- The slot sent, and what later replies are judged by. -/
def Ctl.sendSlot (c : Ctl) (a seq : Nat) : Ctl :=
  let x := c.axis a
  (c.emit (.slot a (c.commandSlot a seq))).setAxis a
    { x with sent := ((c.axisIndex a, x.v / 400000000) :: x.sent).take 3, ramp := x.ramp - 1 }

/-- AXIS_BUS_CYCLE (R437): the header, trajectories, command slots, the cycle counted. -/
def Ctl.busCycle (c : Ctl) : Ctl :=
  let seq := c.nat Obj.bus_cycles
  let c1 := forEach (List.range 8) (fun c a => ((c.moveAxis a).showAxis a).sendSlot a seq)
    (c.emit (.busHeader [0xA5, BitVec.ofNat 8 seq]))
  let c2 := c1.bump Obj.bus_cycles
  { c2 with axs := { c2.axs with cycleAt := some c.now } }

/-- AXIS_BUS_CYCLE (R437). -/
def execAxisBusCycle (s : State) : Host.Outcome State Fault Refusal :=
  let c := s.mach.ctl
  let due := match c.axs.cycleAt with
    | none => true
    | some t => decide (t + 50000 ≤ c.now)
  if c.awake && c.on Obj.bus_enable && due then nextCtl s c.busCycle else .next s

/-! ### Replies (R439, R442, R444) -/

/-- AXIS_BUS rings, at most once per ms (R457). -/
def Ctl.busRing (c : Ctl) (a : Nat) : Ctl :=
  let x := c.axis a
  let due := match x.busRangAt with
    | none => true
    | some t => decide (t + ms ≤ c.now)
  if due then (c.setAxis a { x with busRangAt := some c.now }).ring Src.AXIS_BUS a (Obj.bus_errors a) else c

/-- The load angle of a reply (R444): the index and speed are those of the cycle reported. -/
def loadAngle (index phase : Nat) (v : Int) : Int :=
  let sg : Int := if v < 0 then -1 else if v = 0 then 0 else 1
  let rotor := ((phase : Int) - 256 * sg) % 1024
  sg * (((index : Int) - rotor + 512) % 1024 - 512)

/-- Stall and drift counting on a valid reply (R444, R448): the slot in force was sent the cycle before the cycle reported. -/
def Ctl.judgeLoad (c : Ctl) (a amp phase : Nat) : Ctl :=
  let x := c.axis a
  let at_ := ((x.sent.getD 2 (0, 0)).1, (x.sent.getD 1 (0, 0)).2)
  let fast := decide (c.nat (Obj.stall_min_speed a) ≤ at_.2.natAbs)
  let strong := decide (c.nat (Obj.bemf_min a) ≤ amp)
  let angle := loadAngle at_.1 phase at_.2
  let c1 := if !fast then c.putI (Obj.load_angle a) 0 else if strong then c.putI (Obj.load_angle a) angle else c
  let stalled := if fast && (!strong || decide (c.nat (Obj.stall_angle a) < angle.natAbs)) then x.stalled + 1 else 0
  let drifted := if x.mode = 3 && strong then x.drifted + 1 else 0
  let c2 := c1.setAxis a { x with stalled := stalled, drifted := drifted }
  if c.nat (Obj.stall_cycles a) ≤ stalled ∧ c.axisState a ≠ 0 then ((c2.bump (Obj.stalls a)).setAxis a
    { c2.axis a with stalled := 0 }).axisFail a 1
  else if 8 ≤ drifted then c2.axisFail a 5
  else c2

/-- A valid reply. -/
def Ctl.replyIn (c : Ctl) (a w : Nat) : Ctl :=
  let amp := bits w 47 38
  let c1 := ((c.putN (Obj.stage_flags a) (bits w 63 56)).putN (Obj.bemf_amplitude a) amp).setAxis a
    { c.axis a with reply := some (c.nat Obj.bus_cycles) }
  let c2 := c1.judgeLoad a amp (bits w 37 28)
  if bits w 63 60 ≠ 0 then c2.axisFail a 3 else c2

/-- AXIS_REPLY (R439, R442): the 64-bit reply of a stage. -/
def execAxisReply (axis reply : Nat) (s : State) : Host.Outcome State Fault Refusal :=
  let c := s.mach.ctl
  let b := be 8 reply
  let ok := crc16 (b.take 6) == beVal (b.drop 6) && bits reply 55 48 == (c.nat Obj.bus_cycles + 253) % 256
  if !(decide (axis < 8) && c.awake) then .next s
  else if ok then nextCtl s (c.replyIn axis reply)
  else nextCtl s ((c.bump (Obj.bus_errors axis)).busRing axis)

/-- STAGE_TIMEOUT (R442): an enabled axis with no valid reply for stage_timeout cycles is LOST with BUS. -/
def execStageTimeout (axis : Nat) (s : State) : Host.Outcome State Fault Refusal :=
  let c := s.mach.ctl
  let last := (c.axis axis).reply.getD 0
  if axis < 8 ∧ c.on (Obj.axis_enable axis) ∧ last + c.nat Obj.stage_timeout ≤ c.nat Obj.bus_cycles then
    nextCtl s (c.axisFail axis 8)
  else .next s

/-! ### Commands -/

/-- SSI homing: o is set so that the measured position is the present one (R452). -/
def Ctl.ssiHome (c : Ctl) (a i : Nat) : Ctl :=
  let m : Frac := ⟨c.int (Obj.ssi_value i) * c.int (Obj.ssi_ratio a), 65536⟩
  let x := c.axis a
  (c.setAxis a { x with ssiOffset := some (Frac.sub ⟨x.p, stepUnit.toNat⟩ m), homeStep := 0 }).putB (Obj.homed a) true

/-- Enable and disable (R455). -/
def ownAxisEnable (a arg _n : Nat) (c : Ctl) : Nat × Ctl :=
  let x := c.axis a
  let fresh := match x.reply with
    | none => false
    | some k => decide (c.nat Obj.bus_cycles ≤ k + 4)
  if arg = 1 then
    if c.on (Obj.axis_enable a) then (St.OK, c)
    else if !fresh then refuse St.AXIS_NO_STAGE c
    else
      let c1 := ((c.putB (Obj.axis_enable a) true).putB (Obj.homed a) false).setAxisError a 0
      let c2 := c1.setAxis a { x with mode := 4, ramp := 20, standSince := c.now, stalled := 0, drifted := 0, goalAt := none,
                                      ssiOffset := none }
      let c3 := if c2.axisState a = 4 then c2.setAxis a { c2.axis a with after := 1 } else c2.setAxisState a 1
      let i := c.nat (Obj.ssi_input a)
      (St.OK, if c.nat (Obj.home_mode a) = 5 ∧ i < 4 ∧ c.nat (Obj.ssi_state i) = 1 then c3.ssiHome a i else c3)
  else
    let c1 := (c.failHome a St.AXIS_DISABLED).putB (Obj.axis_enable a) false
    (St.OK, if c.axisState a = 0 then c1
      else
        let c2 := c1.axisEmergency a 0
        if c2.axisState a = 0 then c2.setAxis a { c2.axis a with mode := 0 } else c2)

/-- AXIS_ENABLE (R455). -/
def execAxisEnable (r : Req) (axis arg : Nat) (s : State) : Host.Outcome State Fault Refusal :=
  if axis < 8 then nextMach s (s.mach.ctlRow r (Obj.axis_enable axis) (le 1 arg) (ownAxisEnable axis arg)) else .next s

/-- A ticket that masks the axis's interlock bar is outstanding (R454). -/
def Ctl.interlocked (c : Ctl) (a : Nat) : Bool :=
  let b := c.nat (Obj.interlock_bar a)
  decide (b < 8) && c.adm.tickets.any fun t => bit t.bars b

/-- Why a target write is refused, 0 for not (R446, R454). -/
def Ctl.targetCode (c : Ctl) (a : Nat) (v : Int) : Nat :=
  let st := c.axisState a
  let here := c.int (Obj.position a)
  if st = 0 then St.AXIS_DISABLED
  else if c.faulted then St.FAULT_ACTIVE
  else if st = 5 ∨ st = 6 then St.AXIS_ERROR_ACTIVE
  else if st = 3 then St.AXIS_HOMING
  else if st = 4 then St.AXIS_STOPPING
  else if c.interlocked a then St.AXIS_INTERLOCK
  else if c.nat (Obj.home_mode a) ≠ 0 ∧ c.on (Obj.homed a) = false then St.AXIS_NOT_HOMED
  else if v < c.int (Obj.position_min a) ∨ c.int (Obj.position_max a) < v then St.AXIS_SOFT_LIMIT
  else if (v < here ∧ c.tripped (c.nat (Obj.lim_negative a)) = true) ∨
      (here < v ∧ c.tripped (c.nat (Obj.lim_positive a)) = true) then St.AXIS_LIMIT_TRIPPED
  else St.OK

/-- A target accepted (R446, R448): in force 2 us on, 1 ms later out of FREEWHEEL or BRAKE. -/
def Ctl.aim (c : Ctl) (a : Nat) (v : Int) : Ctl :=
  let x := c.axis a
  let asleep := x.mode == 2 || x.mode == 3
  (c.putI (Obj.target a) v).setAxis a
    { x with goalAt := some (max (c.now + 2000 + if asleep then ms else 0) (if x.ramp = 0 then 0 else x.goalAt.getD 0)), mode := 1,
             ramp := if asleep then 20 else x.ramp }

/-- target (R446). -/
def ownAxisTarget (a : Nat) (v : Int) (_n : Nat) (c : Ctl) : Nat × Ctl :=
  if c.targetCode a v = St.OK then (St.OK, c.aim a v) else refuse (c.targetCode a v) c

/-- AXIS_TARGET (R446). -/
def execAxisTarget (r : Req) (axis : Nat) (value : Int) (s : State) : Host.Outcome State Fault Refusal :=
  if axis < 8 then nextMach s (s.mach.ctlRow r (Obj.target axis) (le 4 (uns 32 value)) (ownAxisTarget axis value))
  else .next s

/-- stop (R447): at rest it is DONE; a home it stops ends FAILED (log entry 24). -/
def ownStop (a n : Nat) (c : Ctl) : Nat × Ctl :=
  let st := c.axisState a
  if st = 0 then refuse St.AXIS_DISABLED c
  else
    let c1 := c.cmdRun (Obj.stop a) n
    if st = 2 then (St.STARTED, c1.setAxis a { c1.axis a with halting := true, goalAt := none })
    else if st = 3 then
      (St.STARTED, ((c1.failHome a St.AXIS_STOPPING).setAxis a
        { c1.axis a with halting := true, homeStep := 0, goalAt := none }).setAxisState a 2)
    else if st = 4 then (St.STARTED, c1)
    else (St.STARTED, (c1.setAxis a { c1.axis a with goalAt := none }).cmdDone (Obj.stop a) Src.AXIS_CMD_DONE a)

/-- STOP (R447). -/
def execStop (r : Req) (axis arg : Nat) (s : State) : Host.Outcome State Fault Refusal :=
  if axis < 8 then nextMach s (s.mach.ctlRow r (Obj.stop axis) (le 1 arg) (ownStop axis)) else .next s

/-- The inputs a home mode needs are named (R451). -/
def Ctl.homeConfigured (c : Ctl) (a : Nat) : Bool :=
  let m := c.nat (Obj.home_mode a)
  if m = 5 then decide (c.nat (Obj.ssi_input a) < 4) else decide (c.homeRef a < 16)

/-- Why home is refused, 0 for not. -/
def Ctl.homeCode (c : Ctl) (a : Nat) : Nat :=
  let st := c.axisState a
  if st = 0 then St.AXIS_DISABLED
  else if c.faulted then St.FAULT_ACTIVE
  else if st = 5 ∨ st = 6 then St.AXIS_ERROR_ACTIVE
  else if st = 4 then St.AXIS_STOPPING
  else if c.interlocked a then St.AXIS_INTERLOCK
  else if st ≠ 1 then St.AXIS_MOVING
  else if !c.homeConfigured a then St.AXIS_HOME_CONFIG
  else St.OK

/-- Homing begins (R451): homed cleared, at step 1 if the reference or the limit ahead is tripped, else at step 2. -/
def Ctl.startHome (c : Ctl) (a : Nat) : Ctl :=
  let x := c.axis a
  let lim := c.searchLimit a
  let step := if c.nat (Obj.home_mode a) = 5 then 5
    else if c.tripped (c.homeRef a) || (lim != c.homeRef a && c.tripped lim) then 1 else 2
  ((c.putB (Obj.homed a) false).setAxis a
    { x with homeStep := step, homeFrom := x.p, goalAt := none, mode := 1, ramp := if x.mode = 2 ∨ x.mode = 3 then 20 else x.ramp }).setAxisState a 3

/-- home (R451). -/
def ownHome (a n : Nat) (c : Ctl) : Nat × Ctl :=
  if c.homeCode a = St.OK then (St.STARTED, (c.cmdRun (Obj.home a) n).startHome a) else refuse (c.homeCode a) c

/-- HOME (R451). -/
def execHome (r : Req) (axis arg : Nat) (s : State) : Host.Outcome State Fault Refusal :=
  if axis < 8 then nextMach s (s.mach.ctlRow r (Obj.home axis) (le 1 arg) (ownHome axis)) else .next s

/-- clear_error (R453). -/
def ownClearError (a n : Nat) (c : Ctl) : Nat × Ctl :=
  let c1 := c.cmdRun (Obj.clear_error a) n
  if c.axisState a = 5 ∧ c.nat (Obj.stage_flags a) / 16 = 0 then
    (St.STARTED, ((c1.setAxisError a 0).comeToRest a 1).cmdDone (Obj.clear_error a) Src.AXIS_CMD_DONE a)
  else if c.nat (Obj.axis_error a) = 0 then (St.STARTED, c1.cmdDone (Obj.clear_error a) Src.AXIS_CMD_DONE a)
  else (St.STARTED, c1.cmdFail (Obj.clear_error a) St.AXIS_ERROR_ACTIVE Src.AXIS_CMD_DONE a)

/-- CLEAR_ERROR (R453). -/
def execClearError (r : Req) (axis arg : Nat) (s : State) : Host.Outcome State Fault Refusal :=
  if axis < 8 then nextMach s (s.mach.ctlRow r (Obj.clear_error axis) (le 1 arg) (ownClearError axis)) else .next s

/-- STANDSTILL_DELAY (R448). -/
def execStandstillDelay (axis : Nat) (s : State) : Host.Outcome State Fault Refusal :=
  let c := s.mach.ctl
  let x := c.axis axis
  let st := c.axisState axis
  if axis < 8 ∧ (st = 1 ∨ st = 5) ∧ x.goalAt = none ∧ x.standSince + c.nat (Obj.standstill_delay axis) * ms ≤ c.now then
    let m := c.nat (Obj.standstill_mode axis)
    nextCtl s (c.setAxis axis { x with mode := if m = 1 then 3 else if m = 2 then 2 else 4, drifted := 0 })
  else .next s

/-! ### Limit switches (R449, R450) -/

/-- An input's tracking. -/
def Ctl.lim (c : Ctl) (i : Nat) : Lim := kvGet Lim.reset c.axs.lims i

/-- An input's tracking replaced. -/
def Ctl.setLim (c : Ctl) (i : Nat) (x : Lim) : Ctl := { c with axs := { c.axs with lims := kvSet Lim.reset c.axs.lims i x } }

/-- Axes that name an input. -/
def Ctl.namedBy (c : Ctl) (i : Nat) : List Nat :=
  (List.range 8).filter fun a =>
    c.nat (Obj.lim_negative a) == i || c.nat (Obj.lim_positive a) == i || c.nat (Obj.home_input a) == i

/-- lim_state given; LIM_CHANGE rings on a change. -/
def Ctl.setLimState (c : Ctl) (i v : Nat) : Ctl :=
  if c.nat (Obj.lim_state i) = v then c else (c.putN (Obj.lim_state i) v).ring Src.LIM_CHANGE i (Obj.lim_state i)

/-- A limit trips while an axis moves toward it (R450, R451). -/
def Ctl.limitHits (c : Ctl) (i a : Nat) : Ctl :=
  let x := c.axis a
  let toward := (c.nat (Obj.lim_negative a) == i && decide (x.v < 0)) || (c.nat (Obj.lim_positive a) == i && decide (0 < x.v))
  if !toward then c
  else if c.axisState a = 3 then
    if limitMode (c.nat (Obj.home_mode a)) ∧ c.homeRef a = i ∧ x.homeStep = 2 then c.setAxis a { x with homeStep := 23 }
    else c.axisFail a 6
  else c.axisFail a 2

/-- An input becomes TRIPPED. -/
def Ctl.trip (c : Ctl) (i : Nat) : Ctl :=
  if c.nat (Obj.lim_state i) = 1 then c
  else forEach (List.range 8) (fun c a => c.limitHits i a) (c.setLimState i 1)

/-- Times an input went active within the chatter window, this one included. -/
def Ctl.chatter (c : Ctl) (i : Nat) : List Nat :=
  (c.now :: (c.lim i).edges).filter fun t => decide (c.now ≤ t + c.nat (Obj.lim_chatter_window i) * ms)

/-- A transition of an input into active. -/
def Ctl.limActive (c : Ctl) (i : Nat) : Ctl :=
  let x := c.lim i
  let es := c.chatter i
  let pos := forEach (c.namedBy i) (fun m a => kvSet 0 m a (wholeSteps (c.axis a).p)) x.atActive
  let c1 := c.setLim i { x with active := true, since := c.now, edges := es, atActive := pos }
  if c.nat (Obj.lim_chatter_count i) ≠ 0 ∧ c.nat (Obj.lim_chatter_count i) ≤ es.length then c1.trip i else c1

/-- A transition of an input into inactive. -/
def Ctl.limInactive (c : Ctl) (i : Nat) : Ctl :=
  let x := c.lim i
  let pos := forEach (c.namedBy i) (fun m a => kvSet 0 m a (wholeSteps (c.axis a).p)) x.atInactive
  let c1 := c.setLim i { x with active := false, since := c.now, atInactive := pos }
  if c.nat (Obj.lim_state i) = 1 then c1.setLimState i 2 else c1

/-- An input sampled, its pin judged by lim_active_level. -/
def Ctl.sampleLim (c : Ctl) (i : Nat) : Ctl :=
  let active := (c.lim i).level == (c.nat (Obj.lim_active_level i) == 1)
  if active = (c.lim i).active then c else if active then c.limActive i else c.limInactive i

/-- LIMIT_SWITCH_INPUT (R449): the pin keeps its level through resets and SLEEP, in which nothing samples it. -/
def execLimitSwitchInput (input : Nat) (level : Bool) (s : State) : Host.Outcome State Fault Refusal :=
  let c := s.mach.ctl
  if input < 16 then
    let c1 := c.setLim input { c.lim input with level := level }
    nextCtl s (if c.awake then c1.sampleLim input else c1)
  else .next s

/-- LIM_FILTER_EXPIRY (R449). -/
def execLimFilterExpiry (input : Nat) (s : State) : Host.Outcome State Fault Refusal :=
  let c := s.mach.ctl
  if input < 16 ∧ (c.lim input).active = true ∧ (c.lim input).since + c.nat (Obj.lim_filter input) * 1000 ≤ c.now then
    nextCtl s (c.trip input)
  else .next s

/-- LIM_RELEASE_EXPIRY (R449). -/
def execLimReleaseExpiry (input : Nat) (s : State) : Host.Outcome State Fault Refusal :=
  let c := s.mach.ctl
  if input < 16 ∧ (c.lim input).active = false ∧ c.nat (Obj.lim_state input) = 2 ∧
      (c.lim input).since + c.nat (Obj.lim_release input) * ms ≤ c.now then
    nextCtl s (c.setLimState input 0)
  else .next s

/-! ### Shared with the SSI inputs (R452) -/

/-- A fresh SSI value at an axis: it ends an SSI homing, or is compared with the position. -/
def Ctl.ssiAtAxis (c : Ctl) (i a : Nat) : Ctl :=
  let x := c.axis a
  if c.nat (Obj.ssi_input a) ≠ i then c
  else if x.homeStep = 5 then ((c.ssiHome a i).comeToRest a 1).cmdDone (Obj.home a) Src.AXIS_CMD_DONE a
  else match x.ssiOffset with
    | none => c
    | some o =>
      let m := (Frac.add ⟨c.int (Obj.ssi_value i) * c.int (Obj.ssi_ratio a), 65536⟩ o)
      if (Frac.ofInt (c.nat (Obj.following_limit a))).lt ((Frac.sub ⟨x.p, stepUnit.toNat⟩ m).abs) then c.axisFail a 4 else c

/-- A fresh value of SSI input `i` at every axis. -/
def Ctl.ssiFresh (c : Ctl) (i : Nat) : Ctl := forEach (List.range 8) (fun c a => c.ssiAtAxis i a) c

/-- A write of an axis object R455 locks while the axis is enabled, and of bus_enable (R456), after which no reply counts as
recent. -/
def ownAxisConfig (key : Nat) (v : Val) (c : Ctl) : Nat × Ctl :=
  let a := key / 256 - 0x6A00
  if key = Obj.bus_enable then
    if v = .num 0 ∧ (List.range 8).any (fun a => c.on (Obj.axis_enable a)) then refuse St.AXIS_ENABLED c
    else if v = .num 0 then (St.OK, (forEach (List.range 8) (fun c a => c.setAxis a { c.axis a with reply := none }) c).put key v)
    else (St.OK, c.put key v)
  else if c.on (Obj.axis_enable a) then refuse St.AXIS_ENABLED c else (St.OK, c.put key v)

end Sys2Proof.Machine
end

