-- ==== Sys2Proof/Machine/Session.lean ====
section
/-! DEFINITION. Sessions (R35 to R42, R54): opening, closing and silence, the control grant, the SERVICE challenge, EVENT
frames and their acknowledgement. -/

namespace Sys2Proof.Machine

/-! ### Closing (R40, R41) -/

/-- The grant given to session `n`, 0 for none; YDP_CONTROL rings on a change. A forced move names the former holder as unit. -/
def Ctl.setGrant (c : Ctl) (n : Nat) (unit : Nat := 0xFFFF) : Ctl :=
  if c.nat Obj.controlling_session = n then c
  else (c.putN Obj.controlling_session n).ring Src.YDP_CONTROL unit Obj.controlling_session

/-- The grant released: admission closes and the ceiling follows the remaining horizon (R40, R41, R92). -/
def Ctl.dropGrant (c : Ctl) : Ctl := ((c.setGrant 0).closeAdmission St.CLOSED_SESSION).receiling

/-- The session objects of a session at their defaults. -/
def Ctl.clearSessObjs (c : Ctl) (n : Nat) : Ctl :=
  forEach [Obj.session_state n, Obj.session_role n, Obj.session_path n, Obj.session_peer n, Obj.session_idle_time n,
    Obj.events_enable n, Obj.events_lost n] (fun c k => c.put k (dfltOf k)) c

/-- A segmented transfer of session `n` has no owner any more; the buffer is freed once it is abandoned (R50, 13). -/
def Ctl.orphanStaging (c : Ctl) (n : Nat) : Ctl :=
  match c.ydp.staging with
  | some g => if g.owner = n then { c with ydp := { c.ydp with staging := some { g with owner := 0 } } } else c
  | none => c

/-- A session closed (R40, R41, R42). -/
def Ctl.shutSession (c : Ctl) (n : Nat) : Ctl :=
  if !(c.sess n).isOpen then c
  else
    let c1 := (((c.setSess n Session.closed).clearSessObjs n).orphanStaging n).ring Src.YDP_SESSION n (Obj.session_state n)
    if c1.nat Obj.controlling_session = n then c1.dropGrant else c1

/-- Every session closed (R42). -/
def Ctl.shutAll (c : Ctl) : Ctl := forEach (List.range 8) (fun c i => c.shutSession (i + 1)) c

/-- A mailbox session falls silent when the PCI Express link goes down (R41). -/
def Ctl.shutMailbox (c : Ctl) : Ctl :=
  forEach (List.range 8) (fun c i => if (c.sess (i + 1)).isOpen && (c.sess (i + 1)).path == 2 then c.shutSession (i + 1) else c) c

/-! ### OPEN and DISCOVER (R35, R36, R43) -/

/-- One READ response entry: reference, status, length, value padded to 4 bytes (R46). -/
def readEntry (key st : Nat) (v : List Byte) : List Byte :=
  let w := if st = St.OK then v else []
  le 2 (key / 256) ++ le 1 (key % 256) ++ [0] ++ le 2 st ++ le 2 w.length ++ padTo (roundUp w.length 4) w

/-- The stored value of an object as bytes. -/
def Ctl.storedBytes (c : Ctl) (key : Nat) : List Byte :=
  match objOf key with
  | some r => encVal (if r.acc = .cmd then .u32 else r.ty) (c.val key)
  | none => []

/-- The DISCOVER response (R43). -/
def Ctl.discoverPayload (c : Ctl) : List Byte :=
  [4, 0, 0, 0] ++ (([Obj.product_name, Obj.device_id, Obj.power_state, Obj.controlling_session]).map fun k =>
    readEntry k St.OK (c.storedBytes k)).flatten

/-- DISCOVER as served. -/
def Mach.discover (m : Mach) (f : Frame) : Mach :=
  m.frame 0x01 f f.payload.isEmpty fun m =>
    m.onCtl fun c => c.reply f.path f.peer ⟨0x01, 0, f.seq, 0, St.OK, c.discoverPayload⟩

/-- DISCOVER (R43). -/
def execDiscover (f : Frame) (s : State) : Host.Outcome State Fault Refusal := nextMach s (s.mach.discover f)

/-- Numbers of closed sessions, lowest first (R35). -/
def Ctl.freeSessions (c : Ctl) : List Nat := ((List.range 8).map (· + 1)).filter fun n => !(c.sess n).isOpen

/-- An open mailbox session exists: MBX_STATUS SESSION_OPEN (R51). -/
def Ctl.mailboxOpen (c : Ctl) : Bool := (List.range 8).any fun i => (c.sess (i + 1)).isOpen && (c.sess (i + 1)).path == 2

/-- The role ceiling of a path (R36). -/
def Ctl.roleCeiling (c : Ctl) (path : Nat) : Nat :=
  if path = 2 then c.nat Obj.role_ceiling_mailbox else c.nat Obj.role_ceiling_field

/-- A session opened with a tag drawn from the random generator, here a free value (R36). -/
def Ctl.startSession (c : Ctl) (n role path : Nat) (peer : List Byte) : Ctl :=
  let tag := c.fresh (2 ^ 32)
  let x := { Session.closed with isOpen := true, role := role, path := path, peer := peer, tag := tag, heardAt := c.now }
  let c1 := (((c.took.setSess n x).putN (Obj.session_state n) 1).putN (Obj.session_role n) role).putN (Obj.session_path n) path
  (c1.putO (Obj.session_peer n) (if path = 2 then zeros 6 else peer.drop 6)).ring Src.YDP_SESSION n (Obj.session_state n)

/-- OPEN on a frame that passed check 1 (R35, R36); a running life-cycle transition refuses it (R431). -/
def Ctl.open (c : Ctl) (f : Frame) : Ctl :=
  let want := fld f.payload 0 1
  if c.nat Obj.lifecycle_pending ≠ 0xFF then c.reply f.path f.peer (headerOnly 0x02 0 f.seq 0 St.LIFECYCLE)
  else if want ≠ 1 ∧ want ≠ 2 then c.reply f.path f.peer (headerOnly 0x02 0 f.seq 0 St.OUT_OF_RANGE)
  else if f.path = 2 ∧ c.mailboxOpen then c.reply f.path f.peer (headerOnly 0x02 0 f.seq 0 St.NO_SESSION_FREE)
  else match c.freeSessions with
    | [] => c.reply f.path f.peer (headerOnly 0x02 0 f.seq 0 St.NO_SESSION_FREE)
    | n :: _ =>
      let role := min want (c.roleCeiling f.path)
      let c1 := c.startSession n role f.path f.peer
      c1.reply f.path f.peer ⟨0x02, 0, f.seq, 0, St.OK, le 1 n ++ le 1 role ++ zeros 2 ++ le 4 (c1.sess n).tag⟩

/-- OPEN as served. -/
def Mach.openFrame (m : Mach) (f : Frame) : Mach :=
  m.frame 0x02 f (f.payload.length == 4 && fld f.payload 1 3 == 0) fun m => m.onCtl (·.open f)

/-- OPEN (R36). -/
def execOpenSession (f : Frame) (s : State) : Host.Outcome State Fault Refusal := nextMach s (s.mach.openFrame f)

/-! ### CLOSE and KEEPALIVE -/

/-- CLOSE as served: a holder releases the grant (R40). -/
def Mach.closeFrame (m : Mach) (f : Frame) : Mach :=
  m.sessionFrame 0x03 f f.payload.isEmpty fun m => (St.OK, [], m.onCtl (·.shutSession f.session))

/-- CLOSE (R40). -/
def execClose (f : Frame) (s : State) : Host.Outcome State Fault Refusal := nextMach s (s.mach.closeFrame f)

/-- KEEPALIVE as served (R41, R44). -/
def Mach.keepaliveFrame (m : Mach) (f : Frame) : Mach :=
  m.sessionFrame 0x04 f f.payload.isEmpty fun m => (St.OK, [], m)

/-- KEEPALIVE (R41). -/
def execKeepalive (f : Frame) (s : State) : Host.Outcome State Fault Refusal := nextMach s (s.mach.keepaliveFrame f)

/-! ### The SERVICE challenge (R37, R38) -/

/-- The service key, where one is fused and readable (R37, R420, R485). -/
def Ctl.serviceKey (c : Ctl) : Option (List Byte) :=
  if c.nat Obj.service_key_state = 2 ∧ c.on Obj.fuse_integrity then
    some (if c.keys.fused then c.keys.staged else (List.range 32).map fun i => BitVec.ofNat 8 (Config.fusedServiceKey i))
  else none

/-- SERVICE challenges are suspended (R38). -/
def Ctl.lockedOut (c : Ctl) : Bool := c.ydp.lockoutEnd.isSome

/-- CHALLENGE of session `n`. -/
def serveChallenge (n : Nat) (m : Mach) : Answer :=
  let c := m.ctl
  if c.nat Obj.lifecycle_state = 4 then (St.LIFECYCLE, [], m)
  else if c.serviceKey = none then (St.NO_KEY, [], m)
  else if c.lockedOut then (St.LOCKED_OUT, [], m)
  else
    let b := freeBytes c.free 16
    let c1 := { c with free := c.free + 16 }
    (St.OK, b, { m with ctl := c1.setSess n { c1.sess n with nonce := some ⟨b, c.now⟩ } })

/-- CHALLENGE as served. -/
def Mach.challengeFrame (m : Mach) (f : Frame) : Mach :=
  m.sessionFrame 0x05 f f.payload.isEmpty (serveChallenge f.session)

/-- CHALLENGE (R37). -/
def execChallenge (f : Frame) (s : State) : Host.Outcome State Fault Refusal := nextMach s (s.mach.challengeFrame f)

/-- Ten seconds in ns (R37). -/
def nonceLife : Nat := 10000 * ms

/-- The nonce of a session, if it is still valid. -/
def Ctl.validNonce (c : Ctl) (n : Nat) : Option (List Byte) :=
  match (c.sess n).nonce with
  | some x => if c.now < x.at_ + nonceLife then some x.bytes else none
  | none => none

/-- A session without a nonce. -/
def Ctl.spendNonce (c : Ctl) (n : Nat) : Ctl := c.setSess n { c.sess n with nonce := none }

/-- A failed proof counted; the third suspends challenges for 60 s and voids every nonce (R38). -/
def Ctl.failedProof (c : Ctl) : Ctl :=
  let c1 := c.putN Obj.service_failures (c.nat Obj.service_failures + 1)
  if c1.nat Obj.service_failures < 3 then c1
  else forEach (List.range 8) (fun c i => c.spendNonce (i + 1))
    { c1 with ydp := { c1.ydp with lockoutEnd := some (c1.now + 60000 * ms) } }

/-- PROVE of session `n`. -/
def serveProve (n : Nat) (proof : List Byte) (m : Mach) : Answer :=
  let c := m.ctl
  if c.lockedOut then (St.LOCKED_OUT, [], m)
  else match c.validNonce n, c.serviceKey with
    | some b, some k =>
      let want := (hmac k (b ++ le 1 n ++ le 4 (c.sess n).tag)).take 16
      let c1 := c.spendNonce n
      if proof = want then
        let c2 := (c1.setSess n { c1.sess n with role := 3 }).putN (Obj.session_role n) 3
        (St.OK, [], { m with ctl := c2.putN Obj.service_failures 0 })
      else (St.CHALLENGE_FAILED, [], { m with ctl := c1.failedProof })
    | _, _ => (St.CHALLENGE_FAILED, [], { m with ctl := c.spendNonce n })

/-- PROVE as served. -/
def Mach.proveFrame (m : Mach) (f : Frame) : Mach :=
  m.sessionFrame 0x06 f (f.payload.length == 16) (serveProve f.session f.payload)

/-- PROVE (R37, R38). -/
def execProve (f : Frame) (s : State) : Host.Outcome State Fault Refusal := nextMach s (s.mach.proveFrame f)

/-- NONCE_EXPIRE: the 10 s of a session's nonce have passed (R37). -/
def execNonceExpire (session : Nat) (s : State) : Host.Outcome State Fault Refusal :=
  let c := s.mach.ctl
  if (c.sess session).nonce.isSome ∧ c.validNonce session = none then nextCtl s (c.spendNonce session) else .next s

/-- SERVICE_LOCKOUT_END: the suspension ends and the failure count returns to 0 (R38). -/
def execServiceLockoutEnd (s : State) : Host.Outcome State Fault Refusal :=
  let c := s.mach.ctl
  match c.ydp.lockoutEnd with
  | some t =>
    if t ≤ c.now then nextCtl s ({ c with ydp := { c.ydp with lockoutEnd := none } }.putN Obj.service_failures 0)
    else .next s
  | none => .next s

/-! ### Silence (R41) -/

/-- SESSION_SILENT: due once session_timeout has passed since the last frame heard. -/
def execSessionSilent (session : Nat) (s : State) : Host.Outcome State Fault Refusal :=
  let c := s.mach.ctl
  if (c.sess session).isOpen ∧ (c.sess session).heardAt + c.nat Obj.session_timeout * ms ≤ c.now then
    nextCtl s (c.shutSession session)
  else .next s

/-! ### The grant (R40) -/

/-- take_control (R40); no bell source and no DONE of its own, so it ends at once. A session that an earlier entry of the frame closed is
refused (log entry 123). -/
def ownTakeControl (arg n : Nat) (c : Ctl) : Nat × Ctl :=
  let h := c.nat Obj.controlling_session
  if !(c.sess n).isOpen then refuse St.SESSION_UNKNOWN c
  else if h ≠ 0 ∧ h ≠ n ∧ arg = 0 then refuse St.CONTROL_HELD c
  else if h = n then (St.OK, c)
  else (St.STARTED, (c.setGrant n (if h = 0 then 0xFFFF else h)).putN Obj.take_control (cmdWord 2 n 0))

/-- TAKE_CONTROL (R40). -/
def execTakeControl (r : Req) (arg : Nat) (s : State) : Host.Outcome State Fault Refusal :=
  nextMach s (s.mach.ctlRow r Obj.take_control (le 1 arg) (ownTakeControl arg))

/-- release_control (R40; log entry 133). -/
def ownReleaseControl (n : Nat) (c : Ctl) : Nat × Ctl := (St.STARTED, c.dropGrant.putN Obj.release_control (cmdWord 2 n 0))

/-- RELEASE_CONTROL (R40). -/
def execReleaseControl (r : Req) (arg : Nat) (s : State) : Host.Outcome State Fault Refusal :=
  nextMach s (s.mach.ctlRow r Obj.release_control (le 1 arg) ownReleaseControl)

/-- hand_over (R40; log entries 131, 133). -/
def ownHandOver (m n : Nat) (c : Ctl) : Nat × Ctl :=
  if m = n ∨ !(c.sess m).isOpen then refuse St.OUT_OF_RANGE c
  else (St.STARTED, (c.setGrant m).putN Obj.hand_over (cmdWord 2 n 0))

/-- HAND_OVER (R40). -/
def execHandOver (r : Req) (arg : Nat) (s : State) : Host.Outcome State Fault Refusal :=
  nextMach s (s.mach.ctlRow r Obj.hand_over (le 1 arg) (ownHandOver arg))

/-- close_session (R40). -/
def ownCloseSession (m n : Nat) (c : Ctl) : Nat × Ctl :=
  if (c.sess m).isOpen then (St.STARTED, (c.shutSession m).putN Obj.close_session (cmdWord 2 n 0))
  else refuse St.OUT_OF_RANGE c

/-- CLOSE_SESSION (R40). -/
def execCloseSession (r : Req) (arg : Nat) (s : State) : Host.Outcome State Fault Refusal :=
  nextMach s (s.mach.ctlRow r Obj.close_session (le 1 arg) (ownCloseSession arg))

/-! ### EVENT frames (R54, R51) -/

/-- An event record's 32 bytes (R385). -/
def EvRec.bytes (r : EvRec) : List Byte :=
  le 2 r.source ++ le 1 r.level ++ le 1 r.flags ++ le 4 r.sequence ++ le 4 r.firstTime ++ le 2 r.rings ++ le 2 r.unit ++
    le 2 (r.object / 256) ++ le 1 (r.object % 256) ++ [0] ++ le 4 r.value ++ le 4 r.lastTime ++ zeros 4

/-- The payload of an EVENT frame (R54). -/
def Flight.payload (f : Flight) : List Byte :=
  le 4 f.sequence ++ le 2 f.records.length ++ le 2 f.lost ++ (f.records.map EvRec.bytes).flatten

/-- The mailbox's event ring is full: head and tail differ by 8 (R51). -/
def Ctl.evtFull (c : Ctl) : Bool := (c.ydp.evtHead + 16 - c.ydp.evtTail) % 16 == 8

/-- A frame put into the next slot of the mailbox's event ring (R51). -/
def Ctl.fillSlot (c : Ctl) (b : List Byte) : Ctl :=
  if c.evtFull then c
  else
    ({ c with ydp := { c.ydp with evtRing := kvSet [] c.ydp.evtRing (c.ydp.evtHead % 8) b,
                                  evtHead := (c.ydp.evtHead + 1) % 16 } }).ring Src.MBX_EVENT

/-- A PUBLISH or EVENT frame to a session: sequence 0, its number and tag (R54). -/
def Ctl.unasked (c : Ctl) (n op : Nat) (payload : List Byte) : Ctl :=
  let x := c.sess n
  let f : Sent := ⟨op, n, 0, x.tag, 0, payload⟩
  if x.path = 2 then c.fillSlot f.bytes else c.sendYdp x.path x.peer f

/-- A new EVENT frame of a session, up to 43 records (R54). A lost count above 65,535 carries its rest on. -/
def Ctl.sendEvent (c : Ctl) (n : Nat) : Ctl :=
  let x := c.sess n
  let q := (x.evSeq + 1) % 2 ^ 32
  let lost := min 65535 x.pendingLost
  let f : Flight := ⟨q, x.queue.take 43, lost, 0, c.now⟩
  (c.setSess n { x with queue := x.queue.drop 43, flight := some f, evSeq := q, pendingLost := x.pendingLost - lost }).unasked n
    0x22 f.payload

/-- EVENT: due while records wait, none is in flight and 1100+n:06 is 1; the mailbox's ring must have a free slot (log entry 138). -/
def execEvent (session : Nat) (s : State) : Host.Outcome State Fault Refusal :=
  let c := s.mach.ctl
  let x := c.sess session
  if x.isOpen ∧ c.on (Obj.events_enable session) ∧ x.queue ≠ [] ∧ x.flight = none ∧ !(x.path == 2 && c.evtFull) then nextCtl s (c.sendEvent session) else .next s

/-- A frame unacknowledged after its fifth resend is discarded, its records counted lost (R54). -/
def Ctl.discardFlight (c : Ctl) (n : Nat) (f : Flight) : Ctl :=
  let x := c.sess n
  (c.setSess n { x with flight := none, pendingLost := x.pendingLost + f.records.length + f.lost }).bumpBy (Obj.events_lost n)
    f.records.length

/-- EVENT_RESEND: every 20 ms, up to 5 times, while 1100+n:06 is 1 (R54; log entry 138). -/
def execEventResend (session : Nat) (s : State) : Host.Outcome State Fault Refusal :=
  let c := s.mach.ctl
  match (c.sess session).flight with
  | some f =>
    if c.now < f.sentAt + 20 * ms ∨ !c.on (Obj.events_enable session) then .next s
    else if f.resends < 5 then
      let c1 := c.setSess session { c.sess session with flight := some { f with resends := f.resends + 1, sentAt := c.now } }
      nextCtl s (c1.unasked session 0x22 f.payload)
    else nextCtl s (c.discardFlight session f)
  | none => .next s

/-- The frame in flight of a session acknowledged if its sequence is `q` (R54). -/
def Ctl.acknowledge (c : Ctl) (n q : Nat) : Ctl :=
  match (c.sess n).flight with
  | some f => if f.sequence = q then c.setSess n { c.sess n with flight := none } else c
  | none => c

/-- EVENT_ACK as received: checks 1 and 2 apply, nothing is answered, in SLEEP neither (R33, R54; log entry 132). -/
def Ctl.eventAck (c : Ctl) (f : Frame) : Ctl :=
  let good := headerOk 0x23 f && f.payload.length == 4
  if c.phase = .asleep then c.wakeByField (good && decide (f.path < 2))
  else if !c.awake then c
  else if c.rxFull f.path then (c.receivedOn f.path).bump Obj.ydp_frames_dropped
  else
    let c1 := c.arrived f.path f.seq
    if good && c1.knows f.session f.tag then (c1.heard f.session f.path f.peer).acknowledge f.session (fld f.payload 0 4) else c1

/-- EVENT_ACK (R54). -/
def execEventAck (f : Frame) (s : State) : Host.Outcome State Fault Refusal := nextCtl s (s.mach.ctl.eventAck f)

/-- A ring slot passed by the tail: an EVENT frame in it is acknowledged (R51). -/
def Ctl.passSlot (c : Ctl) (k : Nat) : Ctl :=
  let b := kvGet [] c.ydp.evtRing k
  if fld b 3 1 = 0x22 then c.acknowledge (fld b 4 1) (fld b 16 4) else c

/-- MBX_EVT_TAIL_WRITE (R51): slots from the old tail to the new one, the head at most, are passed. -/
def execMbxEvtTailWrite (value : Nat) (s : State) : Host.Outcome State Fault Refusal :=
  let c := s.mach.ctl
  if !c.awake then .next s
  else
    let y := c.ydp
    let n := (value % 16 + 16 - y.evtTail) % 16
    if (y.evtHead + 16 - y.evtTail) % 16 < n then .next s
    else nextCtl s (forEach (List.range n) (fun c i => c.passSlot ((y.evtTail + i) % 8)) { c with ydp := { y with evtTail := value % 16 } })

end Sys2Proof.Machine
end

