-- ==== Sys2Proof/Machine/Bells.lean ====
section
/-! DEFINITION. The bell's commands (chapter 14): software rings, claims, completions, configuration. -/

namespace Sys2Proof.Machine

/-- A command without a bell source of its own that ends at once. -/
def Ctl.cmdQuiet (c : Ctl) (k n : Nat) : Ctl := c.putN k (cmdWord 2 n 0)

/-! ### Rings (R376) -/

/-- BELL_RING (R376): another number than a software source's is ignored and counted. -/
def execBellRing (value : Nat) (s : State) : Host.Outcome State Fault Refusal :=
  let c := s.mach.ctl
  if !c.awake then .next s
  else if 960 ≤ value ∧ value ≤ 1023 then nextCtl s (c.ring value (value - 960))
  else nextCtl s (c.bump Obj.doorbell_errors)

/-- ring_software (R376). -/
def ownRingSoftware (x n : Nat) (c : Ctl) : Nat × Ctl :=
  if 960 ≤ x ∧ x ≤ 1023 then (St.STARTED, (c.ring x (x - 960)).cmdQuiet Obj.ring_software n)
  else refuse St.BELL_NOT_SOFTWARE c

/-- RING_SOFTWARE (R376). -/
def execRingSoftware (r : Req) (arg : Nat) (s : State) : Host.Outcome State Fault Refusal :=
  nextMach s (s.mach.ctlRow r Obj.ring_software (le 2 arg) (ownRingSoftware arg))

/-! ### Claims (R380) -/


/-- The handler of a READ of 1920+t:01. -/
def claimHandler (n t : Nat) (m : Mach) : Answer :=
  let key := Obj.claim t
  let code := m.ctl.checkRead n key
  if code = St.OK then
    let a := m.ctl.claimTarget t
    (St.OK, [1, 0, 0, 0] ++ readEntry key St.OK (le 4 a.1), { m with ctl := a.2 })
  else (St.OK, [1, 0, 0, 0] ++ readEntry key code [], m)

/-- BAR0 address of CLAIM[t] (R387). -/
def claimAddress (t : Nat) : Nat := 0x12000 + 0x100 * t

/-- CLAIM (R380). -/
def execClaim (by_ : Accessor) (target : Nat) (s : State) : Host.Outcome State Fault Refusal :=
  let c := s.mach.ctl
  if 3 ≤ target then .next s
  else match by_ with
    | .bar0 =>
      let a := c.claimTarget target
      if c.awake then nextCtl s (a.2.emit (.hostRead (claimAddress target) a.1)) else .next s
    | .dict r =>
      nextMach s (s.mach.rowFrame r 0x10 (claimHandler r.session target))

/-! ### Completions (R381) -/

/-- A completion of target `t`: another number than the top's counts and raises BELL_ORDER. -/
def Ctl.completeTarget (c : Ctl) (t x : Nat) : Ctl :=
  match c.popTarget t x with
  | some d => d
  | none => (c.bump Obj.order_faults).raiseFault faultBellOrder

/-- complete through the dictionary. -/
def ownComplete (t x n : Nat) (c : Ctl) : Nat × Ctl := (St.STARTED, (c.completeTarget t x).cmdQuiet (Obj.complete t) n)

/-- COMPLETE (R381). -/
def execComplete (by_ : Accessor) (target source : Nat) (s : State) : Host.Outcome State Fault Refusal :=
  let c := s.mach.ctl
  if !decide (target < 3) || !c.awake then .next s
  else match by_ with
    | .bar0 => nextCtl s (c.completeTarget target (source % 1024))
    | .dict r => nextMach s (s.mach.ctlRow r (Obj.complete target) (le 2 source) (ownComplete target source))

/-- reset_target (R381). -/
def ownResetTarget (t n : Nat) (c : Ctl) : Nat × Ctl := (St.STARTED, (c.emptyTarget t).cmdQuiet (Obj.reset_target t) n)

/-- RESET_TARGET (R381). -/
def execResetTarget (r : Req) (target arg : Nat) (s : State) : Host.Outcome State Fault Refusal :=
  if target < 3 then nextMach s (s.mach.ctlRow r (Obj.reset_target target) (le 1 arg) (ownResetTarget target)) else .next s

/-! ### PENDING of EVENT sources (R383, R384) -/

/-- clear_pending (R383, R384). -/
def ownClearPending (x n : Nat) (c : Ctl) : Nat × Ctl :=
  if cfgTarget (c.bellCfg x) = 3 then (St.STARTED, (c.clearPend x).cmdQuiet Obj.clear_pending n)
  else refuse St.BELL_NOT_EVENT c

/-- CLEAR_PENDING (R383). -/
def execClearPending (r : Req) (arg : Nat) (s : State) : Host.Outcome State Fault Refusal :=
  nextMach s (s.mach.ctlRow r Obj.clear_pending (le 2 arg) (ownClearPending arg))

/-- PENDING_W1C (R384): a 1 to a source not routed to EVENT is ignored. -/
def execPendingW1c (word value : Nat) (s : State) : Host.Outcome State Fault Refusal :=
  let c := s.mach.ctl
  if word < 32 ∧ c.awake = true then
    nextCtl s (forEach ((List.range 32).filter fun i => bit value i)
      (fun c i => if cfgTarget (c.bellCfg (32 * word + i)) = 3 then c.clearPend (32 * word + i) else c) c)
  else .next s

/-! ### Configuration words (R377) -/

/-- A configuration word written (R377). -/
def ownSourceConfig (x v : Nat) (c : Ctl) : Nat × Ctl :=
  let w := c.bellCfg x
  if bellReserved x then (St.OK, c)
  else if c.isActive x ∧ (cfgTarget w ≠ cfgTarget v ∨ cfgLevel w ≠ cfgLevel v) then refuse St.BELL_ACTIVE c
  else (St.OK, c.rebell { c.bell with config := kvSet (bellDefault x) c.bell.config x (cfgKept v) })

/-- SOURCE_CONFIG_WRITE (R377): source `x` in the session's window of 128 (R388). -/
def execSourceConfigWrite (r : Req) (x value : Nat) (s : State) : Host.Outcome State Fault Refusal :=
  let w := (s.mach.ctl.sess r.session).bellWindow
  if w ≤ x ∧ x < w + 128 then
    nextMach s (s.mach.ctlRow r (Obj.source_config (x - w)) (le 4 value) (fun _ c => ownSourceConfig x value c))
  else .next s

end Sys2Proof.Machine
end

