-- ==== Sys2Proof/Machine/Care.lean ====
section
/-! DEFINITION. The library and the nozzle table (chapter 05): tone curves, threshold arrays, nozzle entries, table loads and
exports. -/

namespace Sys2Proof.Machine

/-! ### Tone curves (R121, R123) -/

/-- A library change: slots revalidated, and a waiting descriptor is checked again at the end of the cycle (R73, R123). -/
def Mach.libraryChanged (m : Mach) (x : Recheck) : Mach := m.onCtl fun c => c.revalidateAll.noteChange x

/-- The owner of a tone curve. -/
def ownToneCurve (k : Nat) (b : List Byte) (m : Mach) : Nat × Mach :=
  if m.ctl.nat (Obj.curve_state k) = 2 then (St.LIBRARY_IN_USE, m)
  else (St.OK, (m.onCtl fun c => (c.putO (Obj.tone_curve k) b).putN (Obj.curve_state k) 1).libraryChanged (.curve k))

/-- TONE_CURVE_WRITE. -/
def execToneCurveWrite (r : Req) (curve : Nat) (value : List Byte) (s : State) : Host.Outcome State Fault Refusal :=
  nextMach s (s.mach.writeRow r (Obj.tone_curve curve) value (rechecked fun _ m => ownToneCurve curve value m))

/-- The owner of curve_clear. -/
def ownCurveClear (k n : Nat) (m : Mach) : Nat × Mach :=
  if m.ctl.nat (Obj.curve_state k) = 2 then (St.LIBRARY_IN_USE, m)
  else (St.STARTED, (m.onCtl fun c => ((c.putO (Obj.tone_curve k) (zeros 512)).putN (Obj.curve_state k) 0).cmdNow Obj.curve_clear n
    Src.CARE_CMD_DONE).libraryChanged (.curve k))

/-- CURVE_CLEAR. -/
def execCurveClear (r : Req) (arg : Nat) (s : State) : Host.Outcome State Fault Refusal :=
  nextMach s (s.mach.writeRow r Obj.curve_clear (arg1 arg) (rechecked (ownCurveClear arg)))

/-! ### Threshold arrays (R122, R123) -/

/-- Bytes of an array. -/
abbrev arrayBytes : Nat := 458752

/-- The first cell whose planes fall: byte offset of the cell and plane p. -/
def orderBreak : Nat → Nat → List Byte → Option (Nat × Nat)
  | 0, _, _ => none
  | f + 1, o, b =>
    match (List.range 6).find? fun p => decide ((b.getD (p + 1) 0).toNat < (b.getD p 0).toNat) with
    | some p => some (o, p + 1)
    | none => orderBreak f (o + 7) (b.drop 7)

/-- Address rule of a load: a multiple of 64, the whole range inside the crate region. -/
def Ctl.loadOk (c : Ctl) (a len : Nat) : Bool := a % 64 == 0 && c.inCrates a len

/-- array_load. -/
def ownArrayLoad (v : List Byte) (n : Nat) (m : Mach) : Nat × Mach :=
  let a := fld v 0 8
  let k := fld v 12 1
  let fail (code : Nat) (m : Mach) : Nat × Mach := (St.STARTED, m.onCtl (·.cmdNowFail Obj.array_load n code Src.CARE_CMD_DONE))
  let b := memRead m.cellar a arrayBytes
  if !m.ctl.loadOk a arrayBytes then fail St.LOAD_ADDRESS m
  else if m.ctl.nat (Obj.array_state k) = 2 then fail St.LIBRARY_IN_USE m
  else if m.ctl.rangeFrozen a arrayBytes || m.ctl.rangeFrozen (m.ctl.libraryAt k) arrayBytes then (St.CELLAR_FROZEN, m)
  else if crc32c b ≠ fld v 8 4 then fail St.ARRAY_CRC m
  else match orderBreak 65536 0 b with
    | some (o, p) =>
      fail St.ARRAY_ORDER (m.onCtl (·.putO Obj.library_fault (le 4 o ++ le 1 p ++ le 1 k ++ zeros 2)))
    | none =>
      let m1 : Mach := { ctl := (((m.ctl.useCellar).evict k).putN (Obj.array_state k) 1).cmdNow Obj.array_load n Src.CARE_CMD_DONE,
                         cellar := memWrite m.cellar (m.ctl.libraryAt k) b }
      (St.STARTED, m1.libraryChanged (.array k))

/-- ARRAY_LOAD. -/
def execArrayLoad (r : Req) (value : List Byte) (s : State) : Host.Outcome State Fault Refusal :=
  nextMach s (s.mach.writeRow r Obj.array_load value (rechecked (ownArrayLoad value)))

/-- array_clear. -/
def ownArrayClear (k n : Nat) (m : Mach) : Nat × Mach :=
  if m.ctl.nat (Obj.array_state k) = 2 then (St.LIBRARY_IN_USE, m)
  else (St.STARTED, (m.onCtl fun c => ((c.evict k).putN (Obj.array_state k) 0).cmdNow Obj.array_clear n
    Src.CARE_CMD_DONE).libraryChanged (.array k))

/-- ARRAY_CLEAR. -/
def execArrayClear (r : Req) (arg : Nat) (s : State) : Host.Outcome State Fault Refusal :=
  nextMach s (s.mach.writeRow r Obj.array_clear (arg1 arg) (rechecked (ownArrayClear arg)))

/-! ### Entries of a frame (R127, R136) -/

/-- A care entry: the object's key, the commit's key (a nozzle, or 2^19 plus the subindex of 3410+b), the bar, the value. -/
structure CareEntry where
  key : Nat
  item : Nat
  bar : Option Nat
  value : Nat
  deriving DecidableEq, Repr

/-- The care entry of an object: 3500 through the session's window in force, 3410+b:03 to 05 (R128, R135). -/
def Ctl.careEntry (c : Ctl) (window key value : Nat) : Option CareEntry :=
  let i := key / 256
  let s := key % 256
  if i = 0x3500 then
    let z := window + s - 1
    some ⟨key, z, c.barOfNozzle z, value⟩
  else if 0x3410 ≤ i ∧ i ≤ 0x3417 ∧ 3 ≤ s ∧ s ≤ 5 then some ⟨key, barEntry s, some (i - 0x3410), value⟩
  else none

/-- An entry is a nozzle's. -/
def CareEntry.nozzle (e : CareEntry) : Bool := decide (e.item < 2 ^ 19)

/-- A nozzle as written is RETIRED and the entry takes it out of that state, below SERVICE (R125). -/
def Ctl.retiredLocked (c : Ctl) (role z v : Nat) : Bool :=
  nozState (kvGet 0 c.care.written z) == 3 && nozState v != 3 && decide (role < 3)

/-- An entry stored at once: UNUSED, on a chain assigned to no bar (R136). -/
def CareEntry.loose (e : CareEntry) : Bool := e.nozzle && e.bar.isNone && nozRole e.value == 0

/-- Nozzle and sub-code recorded in 3400:04. -/
def orderFaultBytes (z code : Nat) : List Byte := le 4 z ++ le 1 code ++ zeros 3

/-- The codes of the entries of one frame before the staging limits: RETIRED_LOCKED, ORDER_INVALID or OK. -/
def Ctl.careCodes (c : Ctl) (role : Nat) (es : List CareEntry) : List (CareEntry × Nat) :=
  let open_ := es.filter fun e => e.nozzle && !e.loose && !c.retiredLocked role e.item e.value
  let ok := c.admissible c.care.written (open_.length + 1) (open_.map fun e => (e.item, e.value))
  es.map fun e =>
    (e, if !e.nozzle then St.OK
        else if c.retiredLocked role e.item e.value then St.RETIRED_LOCKED
        else if e.loose || ok.contains (e.item, e.value) then St.OK
        else St.ORDER_INVALID)

/-- 3400:04 names the first entry refused ORDER_INVALID in list order, with the violation that named it when the loop of R127 refused
it. -/
def Ctl.recordOrder (c : Ctl) (r : List (CareEntry × Nat)) : Ctl :=
  let open_ := (r.filter fun x => x.1.nozzle && !x.1.loose && x.2 != St.RETIRED_LOCKED).map fun x => (x.1.item, x.1.value)
  match r.find? fun x => x.2 == St.ORDER_INVALID with
  | some x =>
    let code := ((c.orderRounds c.care.written (open_.length + 1) open_).find? fun y => y.1 == (x.1.item, x.1.value)).map (·.2)
    c.putO Obj.order_fault (orderFaultBytes x.1.item (code.getD 0))
  | none => c

/-- A loose entry stored in both tables. -/
def Ctl.storeLoose (c : Ctl) (e : CareEntry) : Ctl :=
  { c with care := { c.care with written := kvSet 0 c.care.written e.item e.value, live := kvSet 0 c.care.live e.item e.value } }

/-- The accepted entries of one bar made one commit, or refused STAGE_FULL. -/
def Ctl.commitBar (c : Ctl) (r : List (CareEntry × Nat)) (b : Nat) : List (CareEntry × Nat) × Ctl :=
  let mine (x : CareEntry × Nat) : Bool := x.1.bar == some b && x.2 == St.OK && !x.1.loose
  let es := (r.filter mine).map fun x => (x.1.item, x.1.value)
  if es.isEmpty then (r, c)
  else if c.stageFull b es.length then (r.map fun x => if mine x then (x.1, St.STAGE_FULL) else x, c)
  else (r, c.commit b es (c.nat Obj.commit_boundary == 1))

/-- The care entries of one frame: one commit per bar (R136). The key and code of each, and the controller. -/
def Ctl.careFrame (c : Ctl) (role : Nat) (es : List CareEntry) : List (Nat × Nat) × Ctl :=
  let r0 := c.careCodes role es
  let c0 := forEach (es.filter (·.loose)) Ctl.storeLoose (c.recordOrder r0)
  let x := forEach (List.range 8) (fun (a : List (CareEntry × Nat) × Ctl) b => a.2.commitBar a.1 b) (r0, c0)
  (x.1.map fun y => (y.1.key, y.2), x.2.refreshGeometry)

/-- The entries of a frame given to their owner as a whole (R47). -/
def serveAll (n : Nat) (own : List Entry → Mach → List (Nat × Nat) × Mach) (es : List Entry) (m : Mach) : Answer :=
  let codes := es.map fun e => (e.1, m.ctl.checkWrite n e.1 e.2)
  if codes.all (fun e => e.2 == St.OK) then
    let a := own es m
    (St.OK, writePayload a.1, a.2)
  else (St.OK, writePayload (codes.map fun e => (e.1, if e.2 = St.OK then St.NOT_APPLIED else e.2)), m)

/-- The owner of a frame of nozzle entries. -/
def ownNozzles (n : Nat) (es : List Entry) (m : Mach) : List (Nat × Nat) × Mach :=
  let c := m.ctl
  let x := c.careFrame (c.sess n).role (es.filterMap fun e => c.careEntry (c.sess n).nozzleWindow e.1 (fld e.2 0 8))
  (x.1, { m with ctl := x.2 })

/-- NOZZLE_ENTRY_WRITE: entries as (place in the window from 0, value), at most 32. -/
def execNozzleEntryWrite (r : Req) (entries : List (Nat × Nat)) (s : State) : Host.Outcome State Fault Refusal :=
  let es : List Entry := entries.map fun e => (0x3500 * 256 + 1 + e.1, le 4 e.2)
  if 1 ≤ entries.length ∧ entries.length ≤ 32 then
    nextMach s (s.mach.rowFrame r 0x11 (serveAll r.session (ownNozzles r.session) es))
  else .next s

/-! ### Whole tables (R129) -/

/-- The entries of a load as read from the cellar. -/
def loadEntries (c : Ctl) (b : List Byte) (first : Nat) : Nat → List CareEntry
  | 0 => []
  | n + 1 => ⟨0, first, c.barOfNozzle first, fld b 0 4⟩ :: loadEntries c (b.drop 4) (first + 1) n

/-- The code of a load as a whole, 0 for none: range, RETIRED_LOCKED, then ORDER_INVALID. -/
def Ctl.loadCode (c : Ctl) (role : Nat) (es : List CareEntry) : Nat :=
  let w := overlay c.care.written (es.map fun e => (e.item, e.value))
  if es.any fun e => !nozRangeOk e.value then St.OUT_OF_RANGE
  else if es.any fun e => c.retiredLocked role e.item e.value then St.RETIRED_LOCKED
  else if es.any fun e => !e.loose && c.orderFault w e.item != 0 then St.ORDER_INVALID
  else 0

/-- A load that fails; 3400:04 names the lowest nozzle in a violation. -/
def Ctl.loadFails (c : Ctl) (n code : Nat) (es : List CareEntry) : Ctl :=
  let w := overlay c.care.written (es.map fun e => (e.item, e.value))
  let c1 := match (es.find? fun e => !e.loose && c.orderFault w e.item != 0), decide (code = St.ORDER_INVALID) with
    | some e, true => c.putO Obj.order_fault (orderFaultBytes e.item (c.orderFault w e.item))
    | _, _ => c
  c1.cmdNowFail Obj.load_table n code Src.CARE_CMD_DONE

/-- Entries of a load that make commits, per bar. -/
def loadOf (es : List CareEntry) (b : Nat) : List (Nat × Nat) :=
  (es.filter fun e => e.bar == some b && !e.loose).map fun e => (e.item, e.value)

/-- The commits of a load, one per bar it touches. -/
def Ctl.commitLoad (c : Ctl) (es : List CareEntry) : Ctl :=
  let c0 := forEach (es.filter (·.loose)) Ctl.storeLoose c
  (forEach (List.range 8) (fun c b =>
    if (loadOf es b).isEmpty then c else c.commit b (loadOf es b) (c.nat Obj.commit_boundary == 1)) c0).refreshGeometry

/-- load_table: address, first nozzle, count. -/
def ownLoadTable (v : List Byte) (n : Nat) (m : Mach) : Nat × Mach :=
  let c := m.ctl
  let a := fld v 0 8
  let first := fld v 8 4
  let count := fld v 12 4
  let es := loadEntries c (memRead m.cellar a (4 * count)) first count
  let fail (code : Nat) : Nat × Mach := (St.STARTED, m.onCtl (·.loadFails n code es))
  if count < 1 ∨ 262144 < count ∨ 524288 < first + count then (St.STARTED, m.onCtl (·.loadFails n St.OUT_OF_RANGE []))
  else if !c.loadOk a (4 * count) then (St.STARTED, m.onCtl (·.loadFails n St.LOAD_ADDRESS []))
  else if c.rangeFrozen a (4 * count) then (St.CELLAR_FROZEN, m)
  else if c.nat Obj.staging_free < count then (St.STARTED, m.onCtl (·.loadFails n St.STAGE_FULL []))
  else if c.loadCode (c.sess n).role es ≠ 0 then fail (c.loadCode (c.sess n).role es)
  else if (List.range 8).any fun b => !(loadOf es b).isEmpty && decide (16 ≤ c.commitsOf b) then fail St.STAGE_FULL
  else (St.STARTED, m.onCtl fun c => ((c.useCellar).commitLoad es).cmdNow Obj.load_table n Src.CARE_CMD_DONE)

/-- LOAD_TABLE. -/
def execLoadTable (r : Req) (value : List Byte) (s : State) : Host.Outcome State Fault Refusal :=
  nextMach s (s.mach.writeRow r Obj.load_table value (ownLoadTable value))

/-- Entries of the table as written from a nozzle on. -/
def exportBytes (t : Kv Nat) (first : Nat) : Nat → List Byte
  | 0 => []
  | n + 1 => le 4 (kvGet 0 t first) ++ exportBytes t (first + 1) n

/-- export_table: address, first nozzle, count. -/
def ownExportTable (v : List Byte) (n : Nat) (m : Mach) : Nat × Mach :=
  let c := m.ctl
  let a := fld v 0 8
  let first := fld v 8 4
  let count := fld v 12 4
  let fail (code : Nat) : Nat × Mach := (St.STARTED, m.onCtl (·.cmdNowFail Obj.export_table n code Src.CARE_CMD_DONE))
  if count < 1 ∨ 262144 < count ∨ 524288 < first + count then fail St.OUT_OF_RANGE
  else if !c.loadOk a (4 * count) then fail St.LOAD_ADDRESS
  else if c.rangeFrozen a (4 * count) then (St.CELLAR_FROZEN, m)
  else (St.STARTED, { ctl := (c.useCellar).cmdNow Obj.export_table n Src.CARE_CMD_DONE,
                      cellar := memWrite m.cellar a (exportBytes c.care.written first count) })

/-- EXPORT_TABLE. -/
def execExportTable (r : Req) (value : List Byte) (s : State) : Host.Outcome State Fault Refusal :=
  nextMach s (s.mach.writeRow r Obj.export_table value (ownExportTable value))

end Sys2Proof.Machine
end

