-- ==== Sys2Proof/Machine/Attic.lean ====
section
/-! DEFINITION. The attic (R422 to R427): slots, records and their validity, and the queue of writes. -/

namespace Sys2Proof.Machine

/-! ### Regions and slots (R423) -/

abbrev regionDirectory : Nat := 1
abbrev regionLifecycle : Nat := 2
abbrev regionKeys : Nat := 3
abbrev regionPersistent : Nat := 4
abbrev regionCare : Nat := 5
abbrev regionCalibration : Nat := 6
abbrev regionUsage : Nat := 7

/-- Kinds of calibration record. -/
abbrev kindSlicer : Nat := 1
abbrev kindFlat : Nat := 2
abbrev kindRegistration : Nat := 3

/-- Base and bytes of slot `s` (0 A, 1 B) of a region, kind and target. -/
def slotPlace (region kind target s : Nat) : Nat × Nat :=
  if region = 1 then (0x1000 * s, 0x1000)
  else if region = 2 then (0x2000 + 0x1000 * s, 0x1000)
  else if region = 3 then (0x10000 + 0x10000 * s, 0x10000)
  else if region = 4 then (0x1000000 + 0x400000 * s, 0x400000)
  else if region = 5 then (0x800000 + 0x400000 * s, 0x400000)
  else if kind = 1 then (0x100000 + (2 * target + s) * 0x1000, 0x1000)
  else if kind = 2 then (0x140000 + (2 * target + s) * 0x10000, 0x10000)
  else (0x340000 + s * 0x1000, 0x1000)

/-- Every kind and target of a region. -/
def targetsOf (region : Nat) : List (Nat × Nat) :=
  if region = regionCalibration then
    ((List.range 32).map fun l => (kindSlicer, l)) ++ ((List.range 16).map fun t => (kindFlat, t)) ++ [(kindRegistration, 0)]
  else [(0, 0)]

/-- Base of the usage slot of a sequence (R481). -/
def usageSlot (seq : Nat) : Nat := 0x400000 + seq % 4096 * 1024

/-- What a slot holds. -/
def Ctl.slotBytes (c : Ctl) (base : Nat) : List Byte := kvGet [] c.attic.slots base

/-- A slot given its bytes; none is an erased slot. -/
def Ctl.setSlot (c : Ctl) (base : Nat) (b : List Byte) : Ctl :=
  { c with attic := { c.attic with slots := kvSet [] c.attic.slots base b } }

/-- The magic of a slot: 0xFFFF BLANK, 0x5241 COMMITTED, 0x0000 VOID, others CORRUPT (R425). -/
def slotMagic (b : List Byte) : Nat := if b.isEmpty then 0xFFFF else fld b 0 2

/-- The sequence of a record. -/
def recordSeq (b : List Byte) : Nat := fld b 8 4

/-- Sequence `a` is later than `b` modulo 2^32 over a half range (R426). -/
def seqLater (a b : Nat) : Bool := decide (0 < (a + 2 ^ 32 - b) % 2 ^ 32 ∧ (a + 2 ^ 32 - b) % 2 ^ 32 < 2 ^ 31)

/-- A slot that holds a record whole, in force or void. -/
def holdsRecord (b : List Byte) : Bool := slotMagic b == 0x5241 || slotMagic b == 0

/-- The slot (0 or 1) of the latest record of a region, kind and target, COMMITTED or VOID (R426). -/
def Ctl.latestSlot (c : Ctl) (region kind target : Nat) : Option Nat :=
  let a := c.slotBytes (slotPlace region kind target 0).1
  let b := c.slotBytes (slotPlace region kind target 1).1
  if holdsRecord a then
    if holdsRecord b && seqLater (recordSeq b) (recordSeq a) then some 1 else some 0
  else if holdsRecord b then some 1
  else none

/-! ### Records (R424) -/

/-- The device key's 32 bytes (R484). -/
def deviceKeyBytes : List Byte := (List.range 32).map fun i => BitVec.ofNat 8 (Config.deviceKey i)

/-- Regions whose records carry a mac. -/
def hasMac (region : Nat) : Bool := region == 2 || region == 3

/-- The bytes of a record. -/
def Ctl.recordBytes (c : Ctl) (region kind target seq : Nat) (data : List Byte) : List Byte :=
  let head := [0x41, 0x52, 0x01] ++ le 1 region ++ le 1 kind ++ [0] ++ le 2 target ++ le 4 seq ++ le 4 data.length ++
    le 8 Config.deviceId ++ timeBytes c.localNs ++ zeros 6
  let body := head ++ data
  let checked := body ++ le 4 (crc32c body)
  if hasMac region then checked ++ (hmac deviceKeyBytes checked).take 16 else checked

/-- The data of a record. -/
def recordData (b : List Byte) : List Byte := slice b 40 (fld b 12 4)

/-- The time of a record in ns. -/
def recordNs (b : List Byte) : Nat := fld b 28 6 * 10 ^ 9 + fld b 24 4

/-- A COMMITTED record is valid in its slot (R426). -/
def slotRecordOk (region kind target size : Nat) (b : List Byte) : Bool :=
  let n := fld b 12 4
  let full := 44 + n + (if hasMac region then 16 else 0)
  slotMagic b == 0x5241 && fld b 2 1 == 1 && fld b 3 1 == region && fld b 4 1 == kind && fld b 6 2 == target &&
    decide (full ≤ size) && fld b 16 8 == Config.deviceId % 2 ^ 64 && fld b (40 + n) 4 == crc32c (b.take (40 + n)) &&
    (!hasMac region || slice b (44 + n) 16 == (hmac deviceKeyBytes (b.take (44 + n))).take 16)

/-- What a region and target hold: no record, a void one, a bad one, or a valid record's bytes. -/
inductive Held
  | empty
  | void
  | bad
  | valid (b : List Byte)
  deriving DecidableEq, Repr

/-- The latest record of a region, kind and target on the flash, judged (R426); never the older slot's. -/
def Ctl.onFlash (c : Ctl) (region kind target : Nat) : Held :=
  match c.latestSlot region kind target with
  | none => .empty
  | some s =>
    let p := slotPlace region kind target s
    let b := c.slotBytes p.1
    if slotMagic b = 0 then .void else if slotRecordOk region kind target p.2 b then .valid b else .bad

/-- The attic is READY. -/
def Ctl.atticReady (c : Ctl) : Bool := c.nat Obj.attic_state == 2

/-- The latest record of a region, kind and target: of an attic that is not READY only the DIRECTORY is read, where it answers
(R427, log entry 165). -/
def Ctl.held (c : Ctl) (region kind target : Nat) : Held :=
  if c.atticReady || (region == regionDirectory && c.nat Obj.attic_state != 0) then c.onFlash region kind target else .empty

/-- The valid latest record. -/
def Ctl.validRecord (c : Ctl) (region kind target : Nat) : Option (List Byte) :=
  match c.held region kind target with
  | .valid b => some b
  | _ => none

/-- Key of the sequence count of a region, kind and target. -/
def seqKey (region kind target : Nat) : Nat := (region * 256 + kind) * 65536 + target

/-- The sequence of the next record of a region, kind and target: 1 more than the last. -/
def Ctl.nextSeq (c : Ctl) (region kind target : Nat) : Nat :=
  let held := match c.latestSlot region kind target with
    | some s => recordSeq (c.slotBytes (slotPlace region kind target s).1)
    | none => 0
  (max held (kvGet 0 c.attic.seqs (seqKey region kind target)) + 1) % 2 ^ 32

/-! ### State of the attic (R427, R433) -/

/-- attic_state given, ringing on a change. -/
def Ctl.setAttic (c : Ctl) (v : Nat) : Ctl :=
  if c.nat Obj.attic_state = v then c else (c.putN Obj.attic_state v).ring Src.ATTIC_STATE 0xFFFF Obj.attic_state

/-- The state of a region as 1200:13 shows it: BAD if any record is bad, else VALID if any is, else VOID, else EMPTY. -/
def Ctl.regionByte (c : Ctl) (region : Nat) : Nat :=
  let hs := (targetsOf region).map fun t => c.held region t.1 t.2
  if hs.any (· == .bad) then 2
  else if hs.any (fun h => match h with | .valid _ => true | _ => false) then 1
  else if hs.any (· == .void) then 3 else 0

/-- The usage region holds a record. -/
def Ctl.usageByte (c : Ctl) : Nat :=
  if c.atticReady && c.attic.slots.any (fun e => decide (0x400000 ≤ e.1 ∧ e.1 < 0x800000) && fld e.2 0 2 == 0x5355) then 1 else 0

/-- region_state (1200:13) after a change of a region. -/
def Ctl.showRegion (c : Ctl) (region : Nat) : Ctl :=
  let v := if region = regionUsage then c.usageByte else c.regionByte region
  c.putO Obj.region_state (splice (c.oct Obj.region_state) (region - 1) (le 1 v))

/-- region_state of every region. -/
def Ctl.showRegions (c : Ctl) : Ctl := forEach [1, 2, 3, 4, 5, 6, 7] Ctl.showRegion c

/-! ### Writes (R425) -/

/-- The attic's queue. -/
def Ctl.setJobs (c : Ctl) (js : List AtticJob) : Ctl := { c with attic := { c.attic with jobs := js } }

/-- A write requested. -/
def Ctl.atticWrite (c : Ctl) (j : AtticJob) : Ctl := c.setJobs (c.attic.jobs ++ [j])

/-- A slot's magic programmed to 0x0000. -/
def Ctl.voidSlot (c : Ctl) (base : Nat) : Ctl :=
  let b := c.slotBytes base
  if b.isEmpty then c.setSlot base [0, 0] else c.setSlot base (splice b 0 [0, 0])

/-- The latest record of a target made VOID. -/
def Ctl.voidLatest (c : Ctl) (region kind target : Nat) : Ctl :=
  match c.latestSlot region kind target with
  | some s => c.voidSlot (slotPlace region kind target s).1
  | none => c

/-- A record committed into the slot that does not hold the latest one, whose slot is then erased. -/
def Ctl.commitRecord (c : Ctl) (region kind target : Nat) (data : List Byte) : Ctl :=
  let seq := c.nextSeq region kind target
  let old := (c.latestSlot region kind target).getD 1
  let bytes := c.recordBytes region kind target seq data
  let c1 := (c.setSlot (slotPlace region kind target (1 - old)).1 bytes).setSlot (slotPlace region kind target old).1 []
  let c2 := { c1 with attic := { c1.attic with seqs := kvSet 0 c1.attic.seqs (seqKey region kind target) seq } }
  c2.showRegion region

/-- Regions erased whole: their slots are blank and their sequences start again (R424). -/
def Ctl.eraseRegions (c : Ctl) (rs : List Nat) : Ctl :=
  let inRegion (a : Nat) : Bool := rs.any fun r =>
    if r = 1 then decide (a < 0x2000) else if r = 2 then decide (0x2000 ≤ a ∧ a < 0x4000)
    else if r = 3 then decide (0x10000 ≤ a ∧ a < 0x30000) else if r = 4 then decide (0x1000000 ≤ a ∧ a < 0x1800000)
    else if r = 5 then decide (0x800000 ≤ a ∧ a < 0x1000000) else if r = 6 then decide (0x100000 ≤ a ∧ a < 0x400000)
    else decide (0x400000 ≤ a ∧ a < 0x800000)
  let c1 := { c with attic := { c.attic with
    slots := c.attic.slots.filter fun e => !inRegion e.1
    seqs := c.attic.seqs.filter fun e => !rs.contains (e.1 / 2 ^ 24) } }
  forEach rs Ctl.showRegion c1

/-- A program or erase the flash reports as failed (R425). -/
def Ctl.atticFails (c : Ctl) : Ctl := (c.bump Obj.attic_errors).ring Src.ATTIC_ERROR 0xFFFF Obj.attic_errors

/-- Bell source of the command a write belongs to. -/
def atticSource (cmd : Nat) : Nat :=
  if cmd = Obj.save_care then Src.CARE_CMD_DONE
  else if cmd = Obj.clear_cal_records ∨ cmd = Obj.cal_flat_field ∨ cmd = Obj.cal_registration then Src.CAL_CMD_DONE
  else if cmd / 256 = 0x6C00 then Src.USAGE_CMD_DONE
  else Src.PERSIST_CMD_DONE

/-- The command of a write ends. -/
def Ctl.atticEnds (c : Ctl) (cmd : Nat) (ok : Bool) : Ctl :=
  if cmd = 0 then c
  else if ok then c.cmdDone cmd (atticSource cmd) else c.cmdFail cmd St.ATTIC_WRITE (atticSource cmd)

/-! ### Bad records (R426) -/

/-- Records of a region found invalid are counted and rung. -/
def Ctl.badRecord (c : Ctl) : Ctl := (c.bump Obj.attic_records_bad).ring Src.ATTIC_RECORD_BAD 0xFFFF Obj.attic_records_bad

/-! ### The persistent record (R55, R509) -/

/-- Every object of an index, in order of subindex: its key and row. -/
def objectsOfIndex (idx : Nat) (rows : List ObjRow) : List (Nat × ObjRow) :=
  (List.range 256).filterMap fun sub => (rows.find? fun r => r.covers idx sub).map fun r => (idx * 256 + sub, r)

/-- Every object, in ascending order. -/
def allObjects : List (Nat × ObjRow) :=
  (objectPages.map fun p => ((List.range p.2.1).map fun i => objectsOfIndex (p.1 + i) p.2.2).flatten).flatten

/-- The persistent objects. -/
def persistentObjects : List (Nat × ObjRow) := allObjects.filter fun e => e.2.persistent

/-- The live value of a persistent object; the window of 1910 stands at source 0, as after a reset (log entry 100). -/
def Ctl.liveVal (c : Ctl) (key : Nat) : Val :=
  if key / 256 = 0x1910 then .num (c.bellCfg (key % 256 - 1)) else c.val key

/-- A persistent object's default. -/
def persistDefault (key : Nat) : Val :=
  if key / 256 = 0x1910 then .num (bellDefault (key % 256 - 1)) else dfltOf key

/-- A persistent object given its saved value. -/
def Ctl.restoreVal (c : Ctl) (key : Nat) (v : Val) : Ctl :=
  match v with
  | .num n =>
    if key / 256 = 0x1910 then
      let x := key % 256 - 1
      { c with bell := { c.bell with config := kvSet (bellDefault x) c.bell.config x (cfgKept n.toNat) } }
    else c.put key v
  | .oct _ => c.put key v

/-- The entry of an object. -/
def Ctl.persistEntry (c : Ctl) (key : Nat) (r : ObjRow) : List Byte :=
  let v := encVal r.ty (c.liveVal key)
  le 2 (key / 256) ++ le 1 (key % 256) ++ le 1 r.ty.code ++ le 4 v.length ++ v ++ zeros ((4 - v.length % 4) % 4)

/-- The data of a PERSISTENT record at the live values. -/
def Ctl.persistData (c : Ctl) : List Byte := (persistentObjects.map fun e => c.persistEntry e.1 e.2).flatten

/-- Entries of a record: key, type code and value bytes. -/
def persistEntries : Nat → List Byte → List (Nat × Nat × List Byte)
  | 0, _ => []
  | f + 1, b =>
    if b.length < 8 then []
    else
      let n := fld b 4 4
      (fld b 0 2 * 256 + fld b 2 1, fld b 3 1, slice b 8 n) :: persistEntries f (b.drop (8 + (n + 3) / 4 * 4))

/-- The largest cellar's usable bytes: 31/32 of 64 GiB (R333, R337). -/
def greatestCellar : Nat := 64 * 2 ^ 30 / 32 * 31

/-- The value a saved entry gives its object, where the object exists with the type and the value passes checks 8 and 9; addresses
are judged in the largest cellar, since the present one is not trained yet (log entry 139). -/
def Ctl.entryValue (c : Ctl) (e : Nat × Nat × List Byte) : Option (Nat × Val) :=
  match objOf e.1 with
  | some r =>
    if r.persistent && r.ty.code == e.2.1 && lengthOk r e.2.2 && rangeOk r e.2.2 && contentIn c greatestCellar e.1 e.2.2 then
      some (e.1, decVal r.ty e.2.2)
    else none
  | none => none

/-- The entries of the valid PERSISTENT record. -/
def Ctl.savedEntries (c : Ctl) : List (Nat × Nat × List Byte) :=
  match c.validRecord regionPersistent 0 0 with
  | some b => persistEntries (recordData b).length (recordData b)
  | none => []

/-- The saved values applied, in order (R29). -/
def Ctl.applySaved (c : Ctl) (want : Nat → Bool) : Ctl :=
  forEach (c.savedEntries.filter fun e => want e.1) (fun c e => match c.entryValue e with
    | some (k, v) => c.restoreVal k v
    | none => c) c

/-- 1200:03 and 1200:04: time and sequence of the valid PERSISTENT record. -/
def Ctl.showSaved (c : Ctl) : Ctl :=
  match c.validRecord regionPersistent 0 0 with
  | some b => (c.putN Obj.last_save_time (recordNs b)).putN Obj.save_count (recordSeq b)
  | none => (c.putN Obj.last_save_time 0).putN Obj.save_count 0

/-- unsaved_changes: a persistent object would take another value at the next reset (R55). -/
def Ctl.unsaved (c : Ctl) : Bool :=
  let saved := c.savedEntries.filterMap c.entryValue
  persistentObjects.any fun e =>
    (match saved.find? (fun s => s.1 == e.1) with
      | some s => s.2
      | none => persistDefault e.1) != c.liveVal e.1

end Sys2Proof.Machine
end

