-- ==== Sys2Proof/Machine/LinkOps.lean ====
section
/-! DEFINITION. Shared operations of the Adeord Link (chapter 07): taps, lanes starting, falling and
becoming ACTIVE, training, the end of a slicer calibration. -/

namespace Sys2Proof.Machine

/-! ### Lanes -/

/-- lane_role: 0 UNUSED, 1 HEAD_CHAIN, 2 CAMERA, 3 SPARE. -/
def Ctl.role (c : Ctl) (l : Nat) : Nat := c.nat (Obj.lane_role l)

/-- The lanes of a quad. -/
def lanesOfQuad (q : Nat) : List Nat := (List.range 4).map fun i => 4 * q + i

/-- A receiver is aligned. -/
def rxAligned (v : Nat) : Bool := v == 4 || v == 5 || v == 6
def Ctl.aligned (c : Ctl) (l : Nat) : Bool := rxAligned (c.rx l)

/-- Code groups of a lane's rate in a time (R183). -/
def Ctl.groupsIn (c : Ctl) (l ns : Nat) : Nat := ns * c.rateOf l / 50

/-- Code groups received by an aligned lane beyond 3140+l:09 as stored (R205). -/
def Ctl.groupsSince (c : Ctl) (l : Nat) : Nat := c.groupsIn l (c.now - (c.lane l).countFrom.getD c.now)

/-- 3140+l:09 and 0A raised, modulo their width (R205). -/
def Ctl.addGroups (c : Ctl) (l n : Nat) : Ctl := c.putN (Obj.groups_received l) ((c.nat (Obj.groups_received l) + n) % 2 ^ 64)
def Ctl.addErrors (c : Ctl) (l n : Nat) : Ctl := c.bumpWrap (Obj.code_errors l) n

/-- rx_state given: code groups count while the receiver is aligned. -/
def Ctl.setRx (c : Ctl) (l v : Nat) : Ctl :=
  let c1 := c.putN (Obj.rx_state l) v
  match c.aligned l, rxAligned v with
  | true, false => (c1.addGroups l (c.groupsSince l)).setLane l { c.lane l with countFrom := none }
  | false, true => c1.setLane l { c.lane l with countFrom := some c.now }
  | _, _ => c1

/-- The lane's chain names it. -/
def Ctl.onChain (c : Ctl) (l : Nat) : Bool := (c.chainOfLane l).isSome

/-- A lane starts with its quad: HEAD_CHAIN named by a chain, CAMERA of an enabled camera (R197, R202). -/
def Ctl.laneWanted (c : Ctl) (l : Nat) : Bool :=
  (c.role l == 1 && c.onChain l) || (c.role l == 2 && (match c.camOfLane l with
    | some k => c.camOn k
    | none => false))

/-- Downstream camera traffic uses bond index 0 alone (R191). -/
def Ctl.transmits (c : Ctl) (l : Nat) : Bool :=
  match c.role l, c.camOfLane l with
  | 2, some k => c.bondLane k == some l
  | _, _ => true

/-! ### Taps (R192, R193) -/

/-- Limits of tap `i`, 0 c(-1) to 3 c(2). -/
def tapRange (i : Nat) : Int × Int :=
  if i = 0 then (-16, 0) else if i = 1 then (32, 64) else if i = 2 then (-24, 0) else (-8, 8)

/-- The taps c(-1), c(0), c(1), c(2) of a preset. -/
def presetTaps (p : Nat) : List Int :=
  if p = 0 then [0, 64, 0, 0] else if p = 1 then [-4, 52, -8, 0] else if p = 2 then [-8, 44, -12, 0] else [0, 48, -16, 0]

/-- The word of R205 for taps. -/
def tapsWord (t : List Int) : Nat :=
  ((List.range 4).map fun i => uns 8 (t.getD i 0) * 256 ^ i).sum

/-- The taps of a word. -/
def wordTaps (w : Nat) : List Int := (List.range 4).map fun i => sgn 8 (w / 256 ^ i % 256)

/-- |c(-1)| + c(0) + |c(1)| + |c(2)|. -/
def tapSum (t : List Int) : Nat := (t.map Int.natAbs).sum

/-- The answer to a request and the taps after it: 0 UPDATED, 1 AT_MIN, 2 AT_MAX, 3 BAD_REQUEST (R193). -/
def applyTap (t : List Int) (req : Nat) : Nat × List Int :=
  let i := bits req 5 4
  let act := bits req 3 2
  if req % 4 ≠ 0 then (3, t)
  else if act = 0 then (0, t)
  else if act = 3 then (0, presetTaps i)
  else
    let v := t.getD i 0 + (if act = 1 then 1 else -1)
    let u := t.set i v
    if act = 2 ∧ v < (tapRange i).1 then (1, t)
    else if (tapRange i).2 < v ∨ 64 < tapSum u then (2, t)
    else (0, u)

/-! ### Starting (R197, R302) -/

/-- The stored slicer results a receiver applies as it starts, where its quad runs at the recorded rate. -/
def Ctl.loadSlicer (c : Ctl) (l : Nat) : Ctl :=
  match c.validRecord regionCalibration kindSlicer l with
  | some b =>
    let d := recordData b
    if fld d 10 2 = c.nat (Obj.quad_rate (quadOf l)) then
      (c.putO (Obj.rx_thresholds l) (slice d 0 6)).putN (Obj.rx_dfe l) (fld d 6 4)
    else c
  | none => c

/-- A lane of a quad whose PLL is locked starts: IDLE at preset 1 with precoder state 0, its receiver acquiring; a spare sleeps, others
are off. -/
def Ctl.startLane (c : Ctl) (l : Nat) : Ctl :=
  if c.laneWanted l then
    let sleep := c.on (Obj.tx_sleep l) || !c.transmits l
    let c1 := ((c.putN (Obj.tx_state l) (if c.transmits l then (if sleep then 1 else 2) else 0)).setRx l 2).putN
      (Obj.tx_taps l) (tapsWord (presetTaps 1))
    let x := c1.lane l
    let c2 := (c1.loadSlicer l).setLane l { Lane.reset with
      skipAt := c.now, toggle := x.toggle, retraining := x.retraining, sleptAt := c.now, code := { TxCode.reset with at_ := c.now } }
    let c3 := (c2.putN (Obj.hop_received l) 0xFF).putN (Obj.lane_down_reason l) 0
    if sleep then c3 else c3.sendSet l (.idle (c3.hopByte l))
  else
    let v := if c.role l = 3 then 1 else 0
    (c.putN (Obj.tx_state l) v).setRx l v

/-- A lane that a unit needs now: its ride starts, or the lane itself where the ride runs already. -/
def Ctl.wantLane (c : Ctl) (l : Nat) : Ctl :=
  if c.nat (Obj.quad_state (quadOf l)) = 2 then
    let c1 := c.needRide (rideLink (quadOf l))
    if c1.rx l = 0 ∨ c1.rx l = 1 ∧ c1.tx l = 0 then c1.startLane l else c1
  else c.needRide (rideLink (quadOf l))

/-! ### Slicer calibration (R204) -/

/-- The end of a calibration: output back on the lane's own slicer, the spare asleep. -/
def Ctl.calOver (c : Ctl) (l : Nat) : Ctl :=
  (c.putN (Obj.cal_spare l) 0xFF).setLane l { c.lane l with cal := none }

/-- The lane takes its values of before back. -/
def Ctl.calRestore (c : Ctl) (l : Nat) (k : LaneCal) : Ctl :=
  (c.putO (Obj.rx_thresholds l) k.thresholds).putN (Obj.rx_dfe l) k.dfe

/-- A calibration ends FAILED, its values restored. -/
def Ctl.calFail (c : Ctl) (l code : Nat) : Ctl :=
  match (c.lane l).cal with
  | some k => (((c.calRestore l k).calOver l)).cmdFail (Obj.calibrate_slicer l) code Src.LANE_CMD_DONE l
  | none => c

/-- A spare serves a lane. -/
def Ctl.spareBusy (c : Ctl) (s : Nat) : Bool :=
  (List.range 32).any fun l => match (c.lane l).cal with
    | some k => k.spare == s
    | none => false

/-! ### Loss (R191, R198) -/

/-- The counter of a loss: LOS, LOL, ALIGN, TRAIN_TIMEOUT, ELASTIC. -/
def lossCounter (l reason : Nat) : Nat :=
  if reason = 1 then Obj.los_events l else if reason = 2 then Obj.lol_events l
  else if reason = 3 then Obj.align_losses l else if reason = 4 then Obj.train_timeouts l else Obj.elastic_overruns l

/-- One receiver goes DOWN with a reason. -/
def Ctl.rxDown (c : Ctl) (l reason : Nat) : Ctl :=
  let c1 := c.calFail l St.CAL_ABORTED
  let c2 := (c1.setRx l 7).putN (Obj.lane_down_reason l) reason
  (c2.setLane l { c2.lane l with request := none, downAt := c.now }).ring (Src.LANE_DOWN l) l (Obj.lane_down_reason l)

/-- Receivers that can be lost: not OFF, asleep or DOWN. -/
def Ctl.canFall (c : Ctl) (l : Nat) : Bool := decide (2 ≤ c.rx l ∧ c.rx l ≤ 6)

/-- A loss on a lane: counted, the lane DOWN, bonded lanes with it; its chain or camera reacts. -/
def Ctl.laneFalls (c : Ctl) (l reason : Nat) : Ctl :=
  if !c.canFall l then c
  else
    let c1 := (c.bumpWrap (lossCounter l reason) 1).rxDown l reason
    match c1.camOfLane l, c1.chainOfLane l with
    | some k, _ =>
      let c2 := forEach ((c1.camLanes k).filter c1.canFall) (fun c j => c.rxDown j reason) c1
      if c2.camOn k then c2.camLost k 1 else c2
    | none, some (ch, _) => c1.judgeBreaks ch
    | none, none => c1

/-! ### Training (R193 to R196) -/

/-- The target byte of a path (true B) and hop. -/
def targetByte (b : Bool) (hop : Nat) : Nat := (if b then 128 else 0) + hop % 32

/-- The path a lane's receiver receives: B on the primary lane of a folded chain, else A (R195). -/
def Ctl.rxPathB (c : Ctl) (l : Nat) : Bool :=
  match c.chainOfLane l with
  | some (ch, primary) => primary && c.folded ch
  | none => false

/-- The path a lane's transmitter starts: B on the secondary lane of a folded chain, else A. -/
def Ctl.txPathB (c : Ctl) (l : Nat) : Bool :=
  match c.chainOfLane l with
  | some (_, primary) => !primary
  | none => false

/-- Every lane of the chain or camera of a lane. -/
def Ctl.lanesWith (c : Ctl) (l : Nat) : List Nat :=
  match c.chainOfLane l, c.camOfLane l with
  | some (ch, _), _ => c.lanesOf ch
  | none, some k => c.camLanes k
  | none, none => [l]

/-- Target bytes whose RX_READY a lane waits for: every receiver of every path it serves (R196). -/
def Ctl.awaited (c : Ctl) (l : Nat) : Option (List Nat) :=
  let ends := if c.onChain l then c.lanesWith l else [l]
  ends.foldl (fun acc e =>
    let hop := c.nat (Obj.hop_received e) % 32
    match acc with
    | none => none
    | some ts =>
      if hop = 0x1F then (if c.onChain l then none else some (ts ++ [targetByte (c.rxPathB e) hop]))
      else if 16 < hop then none
      else some (ts ++ (List.range (hop + 1)).map (targetByte (c.rxPathB e)))) (some [])

/-- A lane becomes ACTIVE; a retrain of it is DONE (R197, R205). -/
def Ctl.laneActive (c : Ctl) (l : Nat) : Ctl :=
  let c1 := (c.setRx l 5).putN (Obj.lane_down_reason l) 0
  let c2 := (c1.setLane l { c1.lane l with retraining := false }).ring (Src.LANE_UP l) l (Obj.rx_state l)
  if (c.lane l).retraining && c2.cmdBusy (Obj.retrain l) then c2.cmdDone (Obj.retrain l) Src.LANE_CMD_DONE l else c2

/-- A lane in training whose receivers have all shown RX_READY becomes ACTIVE. -/
def Ctl.checkTrained (c : Ctl) (l : Nat) : Ctl :=
  let x := c.lane l
  let ok := match c.awaited l with
    | some ts => ts.all x.ready.contains
    | none => false
  if c.rx l = 4 && x.trained && ok then c.laneActive l else c

/-- RX_READY of a target has been seen by every lane of a chain or camera. -/
def Ctl.sawReady (c : Ctl) (l target : Nat) : Ctl :=
  let ls := c.lanesWith l
  let c1 := forEach ls (fun c j =>
    let x := c.lane j
    if x.ready.contains target then c else c.setLane j { x with ready := x.ready ++ [target] }) c
  forEach ls Ctl.checkTrained c1

/-- The request byte of a lane's requester: RX_READY, toggle, HOLD. -/
def requestByte (ready toggle : Bool) : Nat := (if ready then 128 else 0) + (if toggle then 64 else 0)

/-- The target of a lane's own receiver. -/
def Ctl.ownTarget (c : Ctl) (l : Nat) : Nat := targetByte (c.rxPathB l) (c.nat (Obj.hop_received l))

/-- A request of a lane's receiver leaves on every lane of the chain or camera concerned (R195), 16 times over with RX_READY (R196). -/
def Ctl.sendRequest (c : Ctl) (l : Nat) (ready : Bool) : Ctl :=
  let t := !(c.lane l).toggle
  let q := requestByte ready t
  let c1 := c.setLane l { c.lane l with toggle := t, request := if ready then none else some q }
  forEach (c1.lanesWith l) (fun c j => c.sendSet j (.trainReq (c.ownTarget l) q) (if ready then 16 else 1)) c1

/-- A receiver starts training from the taps in force, with a HOLD request (R196). -/
def Ctl.startTraining (c : Ctl) (l : Nat) : Ctl :=
  let c1 := c.setRx l 4
  (c1.setLane l { c1.lane l with alignedAt := c.now, trained := false }).sendRequest l false

/-- A receiver ends its training: RX_READY in 16 requests. -/
def Ctl.finishTraining (c : Ctl) (l : Nat) : Ctl :=
  let c1 := c.sendRequest l true
  (c1.setLane l { c1.lane l with trained := true, request := none }).sawReady l (c1.ownTarget l)

/-! ### Receiving (R187, R188) -/

/-- A receiver aligns on a stretch of symbols that holds an alignment: its hop byte, and its decoder with no error counted. -/
def Ctl.aligns (c : Ctl) (l : Nat) (symbols : List Nat) : Option Ctl :=
  (alignWords symbols).map fun a =>
    let c1 := match lastHop a.1 with
      | some h => c.putN (Obj.hop_received l) h
      | none => c
    c1.setLane l { c1.lane l with elastic := 32, rxCode := ⟨a.2, c.now, 0, 0⟩ }

/-- An aligned receiver takes a stretch of symbols: its invalid code groups are counted, and its hop byte shows. -/
def Ctl.takeSymbols (c : Ctl) (l : Nat) (symbols : List Nat) : Ctl :=
  let x := c.lane l
  let a := x.rxCode.words c.now symbols
  let vs := (a.1.map wordValid).flatten
  let c1 := match lastHop a.1 with
    | some h => c.putN (Obj.hop_received l) h
    | none => c
  (c1.setLane l { x with rxCode := { vs.foldl RxCode.group x.rxCode with rd := a.2, at_ := c.now } }).addErrors l
    (vs.filter (! ·)).length

end Sys2Proof.Machine
end

