-- ==== Sys2Proof/Machine/UsageOps.lean ====
section
/-! DEFINITION. The usage sequencer (R474 to R483): the store, closing a period, its records. -/

namespace Sys2Proof.Machine

/-! ### The store (R481 to R483) -/

/-- The bytes of the usage region's slots that are not erased; an attic that is not READY holds no usage ring (R427). -/
def Ctl.usageSlots (c : Ctl) : List (List Byte) :=
  if !c.atticReady then [] else (c.attic.slots.filter fun e => decide (0x400000 ≤ e.1 ∧ e.1 < 0x800000)).map (·.2)

/-- A usage slot is COMMITTED. -/
def usageCommitted (b : List Byte) : Bool := fld b 0 2 == 0x5355

/-- Sequence of a usage record. -/
def usageSeq (b : List Byte) : Nat := fld b 4 4

/-- A COMMITTED usage record is this controller's own and its mac is right, or it is UNSIGNED. -/
def usageValid (b : List Byte) : Bool :=
  usageCommitted b && fld b 8 8 == Config.deviceId % 2 ^ 64 &&
    (bit (fld b 20 1) 6 || slice b 1008 16 == (hmac deviceKeyBytes (b.take 1008)).take 16)

/-- Erased slots ahead of usage_head; an attic that is not READY holds none. -/
def Ctl.storeFree (c : Ctl) : Nat := if c.atticReady then 4096 - c.usageSlots.length else 0

/-- store_free and store_state after a change; on entry to FULL admission closes (R483). -/
def Ctl.showStore (c : Ctl) : Ctl :=
  let free := c.storeFree
  let st := if free < 19 then 2 else if free < c.nat Obj.low_water then 1 else 0
  let c1 := c.putN Obj.usage_store_free free
  if c1.nat Obj.store_state = st then c1
  else
    let c2 := (c1.putN Obj.store_state st).ring Src.USAGE_STORE 0xFFFF Obj.store_state
    if st = 2 then (c2.closeAdmission St.USAGE_STORE_FULL).receiling else c2

/-- The store is FULL. -/
def Ctl.storeFull (c : Ctl) : Bool := c.nat Obj.store_state == 2

/-- The usage sequencer's state replaced. -/
def Ctl.setUse (c : Ctl) (u : Usage) : Ctl := { c with use := u }

/-! ### Records (R480) -/

/-- Heads an entry of a record stands for that are not AUTHENTIC. -/
def Ctl.unauth (c : Ctl) (heads : Kv (Nat × Nat)) : Bool := heads.any fun e => c.nat (Obj.auth_state e.1) != 1

/-- The first 64 bytes of a record, its sequence still 0. -/
def Ctl.usageHeader (c : Ctl) (p : UsePeriod) (kind unit : Nat) (more unauth : Bool) : List Byte :=
  let flags := p.flags + (if more then 8 else 0) + (if unauth then 16 else 0) +
    (if c.nat Obj.device_key_state = 1 then 64 else 0)
  [0x55, 0x53, 0x01] ++ le 1 kind ++ le 4 0 ++ le 8 Config.deviceId ++ le 4 p.number ++ le 1 flags ++
    le 1 (c.nat Obj.lifecycle_state) ++ le 1 unit ++ le 1 p.clockStatus ++ le 8 p.start ++ le 8 p.end_ ++
    timeBytes p.endNs ++ zeros 14

/-- The entry of position `p` of a chain. -/
def Ctl.headEntry (c : Ctl) (u : UsePeriod) (h : Nat) : List Byte :=
  let e := kvGet (0, 0) u.heads h
  le 8 e.1 ++ le 1 e.2 ++ le 1 (c.nat (Obj.auth_state h)) ++ le 6 (kvGet 0 u.counts.strobes h) ++
    ((List.range 7).map fun l => le 6 (kvGet 0 u.counts.drops (8 * h + l + 1))).flatten

/-- A CHAIN record. -/
def Ctl.chainRecord (c : Ctl) (u : UsePeriod) (ch : Nat) : List Byte :=
  c.usageHeader u 2 ch false (c.unauth (u.heads.filter fun e => chainOf e.1 == ch)) ++
    ((headsOfChain ch).map (c.headEntry u)).flatten ++ zeros 16

/-- Slots that ended a ticket in the period, ascending. -/
def usedSlots (u : UseCounts) : List Nat :=
  (List.range 256).filter fun n => kvGet 0 u.delivered n + kvGet 0 u.notDelivered n != 0

/-- The slot entry of a PERIOD record. -/
def slotEntry (u : UseCounts) (n : Nat) : List Byte :=
  le 1 n ++ [0] ++ le 2 (kvGet 0 u.notDelivered n) ++ le 4 (kvGet 0 u.delivered n)

/-- The values of a store added up. -/
def kvSum (m : Kv Nat) : Nat := (m.map (·.2)).sum

/-- Part `k` of `n` of a PERIOD record. -/
def Ctl.periodRecord (c : Ctl) (u : UsePeriod) (k n : Nat) : List Byte :=
  let mine := ((usedSlots u.counts).drop (108 * k)).take 108
  let first := k == 0
  c.usageHeader u 1 k (decide (k + 1 < n)) (c.unauth u.heads) ++
    ((List.range 8).map fun b => le 8 (if first then kvGet 0 u.ink b else 0)).flatten ++
    le 4 (if first then kvSum u.counts.delivered else 0) ++ le 4 (if first then kvSum u.counts.notDelivered else 0) ++
    le 2 u.chains ++ le 2 mine.length ++ zeros 4 ++ padTo 864 (mine.map (slotEntry u.counts)).flatten

/-- The records of a period in the order in which they are written: chains ascending, then parts descending (R477). -/
def Ctl.periodRecords (c : Ctl) (u : UsePeriod) : List (List Byte) :=
  let n := max 1 (((usedSlots u.counts).length + 107) / 108)
  (if u.alone then [] else ((List.range 16).filter fun ch => bit u.chains ch).map (c.chainRecord u)) ++
    (List.range n).reverse.map fun k => c.periodRecord u k n

/-- A record with its sequence and its mac (R480). -/
def Ctl.signUsage (c : Ctl) (content : List Byte) (seq : Nat) : List Byte :=
  let b := splice (content.take 1008) 4 (le 4 seq)
  b ++ (if c.nat Obj.device_key_state = 1 then zeros 16 else (hmac deviceKeyBytes b).take 16)

/-! ### Closing (R477) -/

/-- Each bar's ink of the open period in 0.01 pL, with the rest carried in (R475). -/
def Ctl.inkNow (c : Ctl) (b : Nat) : Nat := kvGet 0 c.use.counts.ink b + kvGet 0 c.use.rest b

/-- A store of numbers by index. -/
def kvOf (n : Nat) (f : Nat → Nat) : Kv Nat := forEach (List.range n) (fun m i => kvSet 0 m i (f i)) []

/-- Heads with a serial: their serial and state. -/
def Ctl.headsNow (c : Ctl) : Kv (Nat × Nat) :=
  (allHeads.filter fun h => c.nat (Obj.serial h) != 0).map fun h => (h, (c.nat (Obj.serial h), c.headState h))

/-- Chains that get a CHAIN record: assigned to a bar, or with a head that counted. -/
def Ctl.chainsNow (c : Ctl) : Nat :=
  ((List.range 16).map fun ch =>
    let counted := (headsOfChain ch).any fun h =>
      kvGet 0 c.use.counts.strobes h != 0 || (List.range 7).any fun l => kvGet 0 c.use.counts.drops (8 * h + l + 1) != 0
    if (c.chainBar ch).isSome || counted then 2 ^ ch else 0).sum

/-- Flags of the period that closes now. -/
def Ctl.periodFlags (c : Ctl) : Nat :=
  (if c.on Obj.time_stepped then 1 else 0) + (if c.use.interrupted then 2 else 0) + (if c.use.overdue then 4 else 0) +
    (if c.nat Obj.clock_status = 0 then 32 else 0)

/-- Counting passes to fresh counters (R477 step 1). -/
def Ctl.cutPeriod (c : Ctl) : Ctl :=
  let ink (b : Nat) : Nat := c.inkNow b / 100
  let u : UsePeriod := ⟨c.use.counts, kvOf 8 ink, c.headsNow, c.chainsNow, c.nat Obj.period_number, c.nat Obj.period_start,
    c.powered, c.localNs, c.nat Obj.clock_status, c.periodFlags, false, false⟩
  let c1 := c.setUse ⟨UseCounts.zero, c.nat Obj.period_length, false, false, some u, 0, 0, kvOf 8 fun b => c.inkNow b % 100⟩
  ((c1.putB Obj.time_stepped false).putN Obj.period_number (c.nat Obj.period_number + 1)).putN Obj.period_start c.powered

/-- Challenges outstanding of a period's close. -/
def Ctl.closeWaits (c : Ctl) : Bool := allHeads.any fun h => (c.headMgr h).challenges.contains 2

/-- Each RUNNING or BENCHED head is challenged (R477 step 2). -/
def Ctl.closeChallenges (c : Ctl) : Ctl :=
  forEach (allHeads.filter fun h => c.headState h == 2 || c.headState h == 4) (fun c h =>
    if recAuth (c.oct (Obj.capability h)) then c.askUsage h 2
    else c.putN (Obj.auth_state h) 4) c

/-- Once the challenges have ended the records go to the attic (R477 step 3). -/
def Ctl.closeRecords (c : Ctl) : Ctl :=
  match c.use.closing with
  | some u =>
    if u.writing || c.closeWaits then c
    else
      forEach (c.periodRecords u) (fun c b => c.atticWrite (.usage b))
        (c.setUse { c.use with closing := some { u with writing := true } })
  | none => c

/-- The open period closes: cut, challenged, written. -/
def Ctl.closePeriod (c : Ctl) : Ctl := c.cutPeriod.closeChallenges.closeRecords

/-- The writes of a life-cycle transition that waited for the open period's close are queued (R431, R479). -/
def Ctl.startMove (c : Ctl) : Ctl :=
  let queued := c.attic.jobs.any fun j => match j with
    | .life _ => true
    | _ => false
  if c.life.moving.isSome && c.use.closing.isNone && !queued then
    ((c.atticWrite (.life false)).atticWrite .wipe).atticWrite (.life true)
  else c

/-- The last record of a period is in the store (R477 step 4). -/
def Ctl.periodStored (c : Ctl) (u : UsePeriod) : Ctl :=
  let c1 := (c.putN Obj.usage_head (c.nat Obj.usage_head + c.use.written)).setUse { c.use with closing := none, written := 0 }
  let c2 := c1.showStore.ring Src.USAGE_RECORD (u.number % 65536) Obj.usage_head
  let c3 := if bit u.flags 1 then c2.ring Src.USAGE_INTERRUPTED (u.number % 65536) Obj.usage_head else c2
  (if c3.cmdBusy Obj.close_period then c3.cmdDone Obj.close_period Src.USAGE_CMD_DONE else c3).startMove

/-- A usage record's program ends (R481): committed, or the slot VOID and the record to be written again. -/
def Ctl.usageWritten (c : Ctl) (content : List Byte) (rest : List AtticJob) (ok : Bool) : Ctl :=
  let seq := c.nat Obj.usage_head + c.use.written
  let b := c.signUsage content seq
  let step (c : Ctl) : Ctl := c.setUse { c.use with written := c.use.written + 1 }
  if ok then
    let c1 := (step (c.setSlot (usageSlot seq) b)).setJobs rest |>.showRegion regionUsage
    match c1.use.closing with
    | some u => if rest.any (fun j => match j with | .usage _ => true | _ => false) then c1 else c1.periodStored u
    | none => c1
  else
    ((step (c.setSlot (usageSlot seq) (splice b 0 [0, 0]))).atticFails).showRegion regionUsage

/-! ### Start-up (R479, R482) -/

/-- The usage record of the highest sequence, COMMITTED or VOID. -/
def Ctl.lastUsage (c : Ctl) : Option (List Byte) :=
  (c.usageSlots.filter holdsUsage).foldl (fun best b => match best with
    | none => some b
    | some a => if usageSeq a < usageSeq b then some b else some a) none
where
  /-- A usage slot with a sequence. -/
  holdsUsage (b : List Byte) : Bool := usageCommitted b || (fld b 0 2 == 0 && decide (8 ≤ b.length))

/-- usage_head and usage_tail from the store. -/
def Ctl.findUsage (c : Ctl) : Ctl :=
  let seqs := (c.usageSlots.filter Ctl.lastUsage.holdsUsage).map usageSeq
  if seqs.isEmpty then c
  else (c.putN Obj.usage_head (maxOf seqs + 1)).putN Obj.usage_tail (minOf seqs)

/-- The latest end among the valid usage records. -/
def Ctl.lastUsageEnd (c : Ctl) : Option Nat :=
  let ends := (c.usageSlots.filter usageValid).map fun b => fld b 32 8
  if ends.isEmpty then none else some (maxOf ends)

/-- The period a start-up interrupted: its number and start, and the chains whose CHAIN records stand already. -/
def Ctl.brokenPeriod (c : Ctl) : Nat × Nat × Nat :=
  let recs := c.usageSlots.filter usageCommitted
  let number := maxOf (recs.map fun b => fld b 16 4)
  let mine := recs.filter fun b => fld b 16 4 == number
  if recs.isEmpty then (0, 0, 0)
  else if mine.any fun b => fld b 3 1 == 1 && fld b 22 1 == 0 then (number + 1, maxOf (mine.map fun b => fld b 32 8), 0)
  else (number, maxOf (mine.map fun b => fld b 24 8),
    ((List.range 16).map fun ch => if mine.any fun b => fld b 3 1 == 2 && fld b 22 1 == ch then 2 ^ ch else 0).sum)

/-- The interrupted period closed by a PERIOD record alone, or left open where the store has no room (R478, R479). -/
def Ctl.closeBroken (c : Ctl) : Ctl :=
  let p := c.brokenPeriod
  let c1 := (c.putN Obj.period_number p.1).putN Obj.period_start p.2.1
  if c1.storeFull then c1.setUse { c1.use with interrupted := true, length := c1.nat Obj.period_length }
  else
    let u : UsePeriod := ⟨UseCounts.zero, [], [], p.2.2, p.1, p.2.1, c1.powered, c1.localNs, c1.nat Obj.clock_status,
      2 + (if c1.on Obj.time_stepped then 1 else 0) + (if c1.nat Obj.clock_status = 0 then 32 else 0), false, true⟩
    let c2 := c1.setUse ⟨UseCounts.zero, c1.nat Obj.period_length, false, false, some u, 0, 0, []⟩
    (((c2.putB Obj.time_stepped false).putN Obj.period_number (p.1 + 1)).putN Obj.period_start c1.powered).closeRecords

end Sys2Proof.Machine
end

