-- ==== Sys2Proof/Machine/Heads.lean ====
section
/-! DEFINITION. The head chains (chapter 06): discovery, head_in and head_out, frames received from heads, timers, the
dispatch of lines. -/

namespace Sys2Proof.Machine

/-! ### Discovery (R149, R163, R164) -/

/-- DISCOVER sent with hop count 0 on some lanes. -/
def Ctl.sendDiscover (c : Ctl) (ch : Nat) (lanes : List Nat) : Ctl :=
  let c1 := c.sendSeq ch lanes 0x07 0x1F 0 []
  c1.setMgr ch { c1.mgr ch with discoverAt := c.now, portUp := false }

/-- Step 1 of R163 begins on path A. -/
def Ctl.startDiscovery (c : Ctl) (ch : Nat) : Ctl :=
  let c1 := c.sendDiscover ch (c.pathA ch)
  c1.setMgr ch { c1.mgr ch with stage := 2, replies := [] }

/-- ASSIGN of a position to a serial. -/
def Ctl.sendAssign (c : Ctl) (ch : Nat) (lanes : List Nat) (serial pos : Nat) : Ctl :=
  c.sendSeq ch lanes 0x08 0x1F 0 (le 8 serial ++ le 1 pos ++ zeros 7)

/-- The challenges of a head end with it: challenge_usage is DONE, a closing period waits for it no longer (log entry 148). -/
def Ctl.endChallenges (c : Ctl) (h : Nat) : Ctl :=
  let ws := (c.headMgr h).challenges
  let c1 := c.setHeadMgr h { c.headMgr h with usage := none, due := [] }
  let c2 := if ws.contains 1 then c1.cmdDone (Obj.challenge_usage h) Src.CHAIN_CMD_DONE h else c1
  if ws.contains 2 then c2.closeRecords else c2

/-- A position without a head (R163 step 2). -/
def Ctl.vacate (c0 : Ctl) (h : Nat) : Ctl :=
  let c := c0.endChallenges h
  ((((((((c.putN (Obj.head_state h) 0).putN (Obj.serial h) 0).putN (Obj.head_family h) 0).putO (Obj.capability h)
    (zeros 128)).putN (Obj.auth_state h) 0).putN (Obj.out_reason h) 0).putN (Obj.status_flags h) 0x2000).putO
    (Obj.last_fired h) (List.replicate 8 0xFF)).setHeadMgr h HeadMgr.reset

/-- A head takes its position: ASSIGN, then CAP_REQUEST (steps 2 and 3). -/
def Ctl.takeIn (c : Ctl) (h : Nat) (r : Found) (lanes : List Nat) : Ctl :=
  let c1 := (((c.vacate h).putN (Obj.serial h) r.serial).putN (Obj.head_family h) r.family).sendAssign (chainOf h) lanes r.serial
    (posOf h)
  (c1.sendSeq (chainOf h) lanes 0x06 (posOf h) 0 []).setHeadMgr h
    { c1.headMgr h with asked := .capability, askedAt := c.now, viaB := r.pathB }

/-- Heads without a position, by serial: counted up to 255 (R164). -/
def Ctl.setExcess (c : Ctl) (ch : Nat) (serials : List Nat) : Ctl :=
  (c.setMgr ch { c.mgr ch with excess := serials }).putN (Obj.heads_excess ch) (min 255 serials.length)

/-- One more head without a position; each is counted once. -/
def Ctl.addExcess (c : Ctl) (ch serial : Nat) : Ctl :=
  if (c.mgr ch).excess.contains serial then c else c.setExcess ch ((c.mgr ch).excess ++ [serial])

/-- Positions of the heads found (R149): those of path A at their hop, the rest counted on from the primary side. -/
def placeFound (rs : List Found) : List (Nat × Found) :=
  let a := rs.filter fun r => !r.pathB
  let b := rs.filter fun r => r.pathB && !(a.any fun x => x.serial == r.serial)
  let base := if a.isEmpty then 0 else maxOf (a.map (·.hop)) + 1
  (a.map fun r => (r.hop, r)) ++ (b.map fun r => (base + (b.length - 1 - r.hop), r))

/-- Discovery ends once no head of the chain owes a reply (R163, R164): SERVING, SPLIT as found, or OFF with no head. -/
def Ctl.discoveryEnd (c : Ctl) (ch : Nat) : Ctl :=
  let m := c.mgr ch
  let owes := (headsOfChain ch).any fun h => (c.headMgr h).asked != .nothing || (c.headMgr h).challenges.contains 0
  if m.stage = 4 ∧ owes = false then
    let split := m.replies.any fun r => r.pathB && !(m.replies.any fun x => !x.pathB && x.serial == r.serial)
    let last := maxOf ((m.replies.filter fun r => !r.pathB).map (·.hop))
    let st := if m.replies.isEmpty then 0 else if split then 3 else 2
    let c1 := ((c.setMgr ch { m with stage := 0, healFrom := none }).putN (Obj.chain_state ch) st).putN (Obj.split_after ch) 0xFF
    let c2 := (if st = 3 then c1.splitAt ch (if m.replies.any (fun r => !r.pathB) then last + 1 else 0) else c1).refreshGeometry
    if c2.nat (Obj.heads_excess ch) = 0 then c2.cmdDone (Obj.discover_chain ch) Src.CHAIN_CMD_DONE ch
    else c2.cmdFail (Obj.discover_chain ch) St.CHAIN_TOO_LONG Src.CHAIN_CMD_DONE ch
  else c

/-- Step 2: positions assigned, positions beyond the last found ABSENT, excess heads counted. -/
def Ctl.assignPositions (c : Ctl) (ch : Nat) : Ctl :=
  let m := c.mgr ch
  let ps := placeFound m.replies
  let ok := ps.filter fun p => decide (p.1 < 16)
  let c1 := forEach (headsOfChain ch) (fun c h => (c.cancelIn h St.HEAD_STATE).vacate h) c
  let c2 := (c1.putN (Obj.heads_found ch) (ok.map (·.1)).eraseDups.length).setMgr ch { m with stage := 4, mapped := true }
  let c3 := c2.setExcess ch ((ps.filter fun p => decide (16 ≤ p.1)).map (·.2.serial)).eraseDups
  let c4 := forEach ok (fun c p => c.takeIn (16 * ch + p.1) p.2 (if p.2.pathB then c.pathB ch else c.pathA ch)) c3
  c4.discoveryEnd ch

/-- A refusal reason leaves a head REFUSED; a discovery may end with it. -/
def Ctl.failStep (c : Ctl) (h reason : Nat) : Ctl :=
  let c1 := c.refuseHead h reason
  (c1.setHeadMgr h { c1.headMgr h with statusAt := c.now }).discoveryEnd (chainOf h)

/-- Step 5 once step 4 allows it (R179): under REFUSE a head that is not AUTHENTIC is REFUSED with AUTH. -/
def Ctl.afterAuth (c : Ctl) (h : Nat) : Ctl :=
  if c.nat Obj.unauth_policy = 1 ∧ c.nat (Obj.auth_state h) ≠ 1 then c.failStep h 10 else c.askConfig h 0

/-- Bytes `o` to `o + n - 1` are zero. -/
def zeroAt (b : List Byte) (o n : Nat) : Bool := (slice b o n).all (· == 0)

/-- The record's blocks and rows fit (R166, R167). -/
def rowMapOk (r : List Byte) : Bool :=
  let blocks := (recNozzles r + 63) / 64
  (List.range blocks).all (fun k => decide (recRow r (64 * k) < recRows r)) &&
    (List.range (recRows r)).all fun row => (List.range blocks).any fun k => recRow r (64 * k) == row

/-- R167 on a record, the mode of its chain given. -/
def recordOk (r : List Byte) (folded : Bool) : Bool :=
  fld r 0 1 == 1 && fld r 1 1 == 1 && fld r 4 8 != 0 && decide (1 ≤ recNozzles r ∧ recNozzles r ≤ 2048) &&
    decide (1 ≤ recRows r ∧ recRows r ≤ 8) && decide (1 ≤ recLevels r ∧ recLevels r ≤ 7) &&
    decide (1 ≤ recRate r ∧ recRate r ≤ 192000) && decide (64 ≤ fld r 24 2) && decide (fld r 28 1 < 4) &&
    zeroAt r 29 3 && zeroAt r 96 32 && rowMapOk r && (!folded || recFold r)

/-! ### Authentication (R178, R179) -/

/-- The key provisioned for a family. -/
def Ctl.familyKey (c : Ctl) (fam : Nat) : Option (List Byte) :=
  ((List.range 4).find? fun j => !(kvGet [] c.keys.family j).isEmpty && c.nat (Obj.key_family j) == fam).map fun j =>
    kvGet [] c.keys.family j

/-- auth_state of a record against the challenge's nonce. -/
def Ctl.judgeUsage (c : Ctl) (h : Nat) (r : List Byte) : Nat :=
  match c.familyKey (c.nat (Obj.head_family h)) with
  | none => 3
  | some k =>
    if slice r 96 16 = (hmac k (r.take 96)).take 16 ∧ fld r 0 8 = c.nat (Obj.serial h) ∧ slice r 8 16 = (c.headMgr h).nonce
    then 1 else 2

/-- What follows the end of a challenge: a discovery goes on, challenge_usage is DONE, a closing period writes its records; the next
challenge that waits is sent. -/
def Ctl.afterUsage (c : Ctl) (h why : Nat) : Ctl :=
  let m := c.headMgr h
  let c0 := c.setHeadMgr h { m with usage := none, due := m.due.drop 1 }
  let c1 := match m.due with
    | w :: _ => c0.sendChallenge h w
    | [] => c0
  if why = 0 then c1.afterAuth h
  else if why = 1 then c1.cmdDone (Obj.challenge_usage h) Src.CHAIN_CMD_DONE h
  else c1.closeRecords

/-- A challenge where the head supports it; without USAGE_AUTH the result is NO_SUPPORT at once. -/
def Ctl.challengeHead (c : Ctl) (h why : Nat) : Ctl :=
  if recAuth (c.oct (Obj.capability h)) then c.askUsage h why
  else
    let c1 := c.putN (Obj.auth_state h) 4
    if why = 0 then c1.afterAuth h else c1.cmdDone (Obj.challenge_usage h) Src.CHAIN_CMD_DONE h

/-! ### Commands -/

/-- discover_chain (R163). -/
def ownDiscoverChain (ch n : Nat) (c : Ctl) : Nat × Ctl :=
  let busy := (headsOfChain ch).any (fun h => c.headState h == 2) ||
    c.adm.tickets.any fun t => match c.chainBar ch with
      | some b => bit t.bars b
      | none => false
  if busy then refuse St.CHAIN_RUNNING c
  else
    let c1 := (c.cmdRun (Obj.discover_chain ch) n).putN (Obj.chain_state ch) 1
    let c2 := forEach (c.lanesOf ch) Ctl.wantLane c1
    (St.STARTED, if (c.chainRides ch).all c2.rideRuns then c2.startDiscovery ch
      else c2.setMgr ch { c2.mgr ch with stage := 1, replies := [] })

/-- DISCOVER_CHAIN (R163). -/
def execDiscoverChain (r : Req) (chain arg : Nat) (s : State) : Host.Outcome State Fault Refusal :=
  if chain < 16 then
    nextMach s (s.mach.ctlRow r (Obj.discover_chain chain) (le 1 arg) (ownDiscoverChain chain))
  else .next s

/-- Why head_in is refused, 0 for not (R174), in the order of its table; R179 for an unauthenticated head. -/
def Ctl.headInCode (c : Ctl) (h : Nat) : Nat :=
  let rec_ := c.oct (Obj.capability h)
  let onBar (mask : Nat) : Bool := match c.chainBar (chainOf h) with
    | some b => bit mask b
    | none => false
  let limit (n : Nat) : Nat := match c.chainBar (chainOf h) with
    | some b => c.nat (Obj.drop_limit n b)
    | none => 0
  if !(c.headState h == 1 || c.headState h == 4) || c.on (Obj.pending_in h) || c.cmdBusy (Obj.head_in h) ||
      (c.nat Obj.unauth_policy == 1 && c.nat (Obj.auth_state h) != 1) then St.HEAD_STATE
  else if (List.range 256).any (fun n => c.nat (Obj.slot_state n) == 2 && onBar (c.nat (Obj.bar_mask n)) &&
      decide (recLevels rec_ < limit n)) then St.HEAD_LEVELS
  else if c.live.any (fun t => onBar t.bars && decide (recRate rec_ * 25400 / t.pitch < t.cap)) then St.HEAD_RATE
  else if c.headOrderBad h then St.ORDER_INVALID
  else if c.chainBar (chainOf h) = none then St.CHAIN_NO_BAR
  else St.OK

/-- head_in begins (R174 step 1). -/
def Ctl.startIn (c : Ctl) (h n : Nat) : Ctl := (c.cmdRun (Obj.head_in h) n).askConfig h 1

/-- head_in (R174). -/
def ownHeadIn (h n : Nat) (c : Ctl) : Nat × Ctl :=
  if c.headInCode h = St.OK then (St.STARTED, c.startIn h n) else refuse (c.headInCode h) c

/-- HEAD_IN (R174). -/
def execHeadIn (r : Req) (head arg : Nat) (s : State) : Host.Outcome State Fault Refusal :=
  if head < 256 then nextMach s (s.mach.ctlRow r (Obj.head_in head) (le 1 arg) (ownHeadIn head)) else .next s

/-- heads_in (R174): head_in of every DISCOVERED and BENCHED head in position order. -/
def ownHeadsIn (ch n : Nat) (c : Ctl) : Nat × Ctl :=
  if c.chainBar ch = none then refuse St.CHAIN_NO_BAR c
  else
    let hs := (headsOfChain ch).filter fun h => c.headState h == 1 || c.headState h == 4
    let c1 := forEach hs (fun c h =>
      if c.cmdBusy (Obj.head_in h) then c
      else if c.headInCode h = St.OK then c.startIn h n
      else c.cmdNowFail (Obj.head_in h) n (c.headInCode h) Src.CHAIN_CMD_DONE h) (c.cmdRun (Obj.heads_in ch) n)
    (St.STARTED, c1.headsInEnd ch)

/-- HEADS_IN (R174). -/
def execHeadsIn (r : Req) (chain arg : Nat) (s : State) : Host.Outcome State Fault Refusal :=
  if chain < 16 then nextMach s (s.mach.ctlRow r (Obj.heads_in chain) (le 1 arg) (ownHeadsIn chain)) else .next s

/-- head_out (R175): the head-out change is requested; the head fires what was dispatched to it. -/
def ownHeadOut (h n : Nat) (c : Ctl) : Nat × Ctl :=
  if c.headState h = 2 then
    let lines := match c.chainBar (chainOf h) with
      | some b => (c.careBar b).lines
      | none => 0
    let c1 := ((c.cmdRun (Obj.head_out h) n).putN (Obj.out_reason h) 7).requestOut h
    (St.STARTED, c1.setHeadMgr h { c1.headMgr h with leaving := some (lines, c.now) })
  else refuse St.HEAD_STATE c

/-- HEAD_OUT (R175). -/
def execHeadOut (r : Req) (head arg : Nat) (s : State) : Host.Outcome State Fault Refusal :=
  if head < 256 then nextMach s (s.mach.ctlRow r (Obj.head_out head) (le 1 arg) (ownHeadOut head)) else .next s

/-- Every line the head received or is to receive has been shown fired. -/
def Ctl.firedOut (c : Ctl) (h : Nat) : Bool :=
  (c.care.store.all fun e => e.head != h || c.shownFired h e.group e.count) &&
    c.care.shelf.all fun x => !(x.heads.contains h) || (c.groupsOfHead h).all fun g => kvGet false x.sent (4 * chainOf h + g)

/-- HEAD_OUT_COMPLETE (R175). -/
def execHeadOutComplete (head : Nat) (s : State) : Host.Outcome State Fault Refusal :=
  let c := s.mach.ctl
  match (c.headMgr head).leaving with
  | none => .next s
  | some (_, at_) =>
    if head < 256 ∧ (c.firedOut head = true ∨ (at_ + 10 * ms ≤ c.now ∧ c.int Obj.web_speed = 0)) then
      let sent := c.dispatchedFor head
      let lost := c.shelvedFor head ++ lostOf sent
      let c1 := ((((c.haltHead head).loseLines head lost).takeBack sent).forget head).setHeadMgr head
        { c.headMgr head with leaving := none }
      nextCtl s ((c1.setHead head 5).cmdDone (Obj.head_out head) Src.CHAIN_CMD_DONE head)
    else .next s

/-- challenge_usage (R179). -/
def ownChallengeUsage (h n : Nat) (c : Ctl) : Nat × Ctl :=
  (St.STARTED, (c.cmdRun (Obj.challenge_usage h) n).challengeHead h 1)

/-- CHALLENGE_USAGE (R179). -/
def execChallengeUsage (r : Req) (head arg : Nat) (s : State) : Host.Outcome State Fault Refusal :=
  if head < 256 then nextMach s (s.mach.ctlRow r (Obj.challenge_usage head) (le 1 arg) (ownChallengeUsage head))
  else .next s

/-! ### Frames from heads (R150 to R155) -/

/-- A frame from a chain: one that breaks R150 or the layout `ok` of its type is discarded and counted (R155; log entry 150), a frame
of the controller's own that comes back is discarded (R163), others go to the head at their address. -/
def Ctl.headFrame (c : Ctl) (m : HeadFrame) (type : Nat) (ok : Bool) (f : Nat → Ctl → Ctl) : Ctl :=
  match c.chainOfLane m.lane with
  | none => c
  | some (ch, _) =>
    if frameOk m.bytes && decide (1 ≤ frameType m.bytes ∧ frameType m.bytes ≤ 0x0A) then c
    else if frameOk m.bytes && frameType m.bytes == type && ok && decide (frameAddress m.bytes < 16) then
      f (16 * ch + frameAddress m.bytes) c
    else c.bump (Obj.chain_frames_bad ch)

/-- STATUS layout (R152, R161). -/
def statusOk (aux : Nat) (b : List Byte) : Bool := aux == 0 && b.length == 24 && fld b 0 2 % 256 == 0 && zeroAt b 20 4

/-- Rises of frames_bad within the last 1 ms, this report's included. -/
def risesNow (m : HeadMgr) (now bad : Nat) : List (Nat × Nat) :=
  (((now, (bad + 65536 - m.bad) % 65536) :: m.badRises).filter fun r => decide (now ≤ r.1 + ms ∧ r.2 ≠ 0))

/-- The cause of R171 a RUNNING head's STATUS gives, 0 for none. A SAFE that the controller's own HALT asked for is no
cause until SYNC (log entry 12). -/
def Ctl.statusCause (c : Ctl) (h flags : Nat) : Nat :=
  if bit flags 15 || bit flags 14 then 2
  else if 16 < ((c.headMgr h).badRises.map (·.2)).sum then 4
  else if bit flags 13 && (c.headMgr h).owed == 0 then 5
  else 0

/-- Port flags of a STATUS move the chain (R148): a port down breaks it, all ports up begin the heal time. -/
def Ctl.portsSeen (c : Ctl) (h before after : Nat) : Ctl :=
  let ch := chainOf h
  let c1 := if bit after 11 || bit after 10 then c.judgeBreaks ch else c
  let up := (bit before 11 && !bit after 11) || (bit before 10 && !bit after 10)
  let c2 := if up then c1.setMgr ch { c1.mgr ch with portUp := true } else c1
  if (c2.breaks ch).isEmpty && (c2.chainState ch == 3 || c2.chainState ch == 4) && (c2.mgr ch).healFrom == none then
    c2.setMgr ch { c2.mgr ch with healFrom := some c.now } else c2

/-- A valid STATUS of an accepted head (R161, R171 to R173, R177). -/
def Ctl.statusIn (c : Ctl) (h : Nat) (b : List Byte) : Ctl :=
  let st := c.headState h
  if st = 0 ∨ st = 5 then c
  else
    let before := c.nat (Obj.status_flags h)
    let flags := fld b 0 2
    let m := c.headMgr h
    let c0 := if st = 3 then c.setHead h 4 else c
    let c1 := (((c0.putN (Obj.status_flags h) flags).putI (Obj.head_temperature h) (sfld b 2 2)).putO (Obj.last_fired h)
      (slice b 4 8)).setHeadMgr h { m with statusAt := c.now, bad := fld b 14 2, badRises := risesNow m c.now (fld b 14 2) }
    let c2 := c1.keepStore fun e => e.head != h || !c1.shownFired h e.group e.count
    let c3 := if c2.headState h = 2 ∧ c2.statusCause h flags ≠ 0 then c2.declareDead h (c2.statusCause h flags) else c2
    let c4 := c3.portsSeen h before flags
    if bit before 13 && !bit flags 13 && (c4.headState h == 1 || c4.headState h == 2 || c4.headState h == 4) &&
        (c4.headMgr h).asked == .nothing then c4.askConfig h 2 else c4

/-- STATUS (R161). -/
def execStatus (m : HeadFrame) (s : State) : Host.Outcome State Fault Refusal :=
  let b := framePayload m.bytes
  nextCtl s (s.mach.ctl.headFrame m 0x81 (statusOk (frameAux m.bytes) b) (fun h c => c.statusIn h b))

/-- The latest line of a bar with a 16-bit tag was omitted by the ringmaster. -/
def Ctl.omittedTag (c : Ctl) (b tag : Nat) : Bool :=
  c.care.omitted.any fun o => o.1 == b && o.2 % 65536 == tag && decide ((c.careBar b).lines ≤ o.2 + 65536)

/-- A missing report of a line (R162, R171, R172): counted, the line unfired where its levels are not all 0, and DEAD
with MISSING past 8 within 1,024 lines of the bar. -/
def Ctl.missing (c : Ctl) (h g tag : Nat) : Ctl :=
  let hit (e : TagEntry) : Bool := e.head == h && e.group == g && e.count % 65536 == tag
  let lost := c.care.store.filter fun e => hit e && e.nonzero
  let c1 := ((c.bump (Obj.lines_missing h)).loseLines h (lostOf lost)).takeBack lost
  let c2 := c1.keepStore fun e => !hit e
  match c2.chainBar (chainOf h) with
  | none => c2
  | some b =>
    let n := (c2.careBar b).lines
    let recent := n :: (c2.headMgr h).missed.filter fun x => decide (n < x + 1024)
    let c3 := c2.setHeadMgr h { c2.headMgr h with missed := recent }
    if 8 < recent.length ∧ c3.headState h = 2 then c3.declareDead h 6 else c3

/-- A valid LINE_REPORT (R162). -/
def Ctl.reportIn (c : Ctl) (h aux tag : Nat) : Ctl :=
  let st := c.headState h
  let kind := bits aux 9 8
  let b := (c.chainBar (chainOf h)).getD 8
  if st = 0 ∨ st = 3 ∨ st = 5 then c
  else if kind = 0 ∨ (kind = 1 ∧ c.omittedTag b tag = false) then c.missing h (aux % 4) tag
  else c

/-- LINE_REPORT (R162). -/
def execLineReport (m : HeadFrame) (s : State) : Host.Outcome State Fault Refusal :=
  let aux := frameAux m.bytes
  nextCtl s (s.mach.ctl.headFrame m 0x86
    ((framePayload m.bytes).isEmpty && decide (bits aux 9 8 < 3 ∧ aux % 256 < 4 ∧ aux < 1024))
    (fun h c => c.reportIn h aux (frameTag m.bytes)))

/-! #### Discovery replies (R149, R176) -/

/-- A head known by its serial on a chain. -/
def Ctl.knownSerial (c : Ctl) (ch serial : Nat) : Option Nat :=
  (headsOfChain ch).find? fun h => c.headState h != 0 && c.nat (Obj.serial h) == serial

/-- A new head refused without a position, shown at the first ABSENT one (log entry 13), or counted as excess. -/
def Ctl.refuseNew (c : Ctl) (ch : Nat) (r : Found) (reason : Nat) : Ctl :=
  match (headsOfChain ch).find? fun h => c.headState h == 0 with
  | some h => (((c.vacate h).putN (Obj.serial h) r.serial).putN (Obj.head_family h) r.family).refuseHead h reason
  | none => c.addExcess ch r.serial

/-- A reply of hot discovery (R176). -/
def Ctl.hotReply (c : Ctl) (ch : Nat) (r : Found) : Ctl :=
  let lanes := if r.pathB then c.pathB ch else c.pathA ch
  let at_ := 16 * ch + r.hop
  let free := c.headState at_ == 5 || (c.headState at_ == 3 && c.nat (Obj.serial at_) != r.serial) ||
    (c.headState at_ == 0 && (c.present ch).all fun h => decide (h < at_))
  match c.knownSerial ch r.serial with
  | some h => if c.headState h = 5 ∧ h = at_ then c.takeIn h r lanes else c
  | none =>
    if r.pathB then c.refuseNew ch r 11
    else if 16 ≤ r.hop then c.addExcess ch r.serial
    else if !free then c.refuseNew ch r 11
    else if c.nat (Obj.expected_serial at_) ≠ 0 ∧ c.nat (Obj.expected_serial at_) ≠ r.serial then
      (((c.vacate at_).putN (Obj.serial at_) r.serial).putN (Obj.head_family at_) r.family).refuseHead at_ 8
    else c.takeIn at_ r lanes

/-- DISCOVER_REPLY (R149): kept until positions are assigned, or taken at once in hot discovery. -/
def execDiscoverReply (m : HeadFrame) (s : State) : Host.Outcome State Fault Refusal :=
  let c := s.mach.ctl
  match c.chainOfLane m.lane with
  | none => .next s
  | some (ch, primary) =>
    let g := c.mgr ch
    let hot := g.stage == 0 && (c.chainState ch == 2 || c.chainState ch == 3)
    let p := framePayload m.bytes
    let a := frameAddress m.bytes
    let r : Found := ⟨if hot then c.chainState ch == 3 && !primary else g.stage == 3, frameAux m.bytes, fld p 0 8, fld p 8 2, fld p 10 1⟩
    if frameOk m.bytes ∧ 1 ≤ frameType m.bytes ∧ frameType m.bytes ≤ 0x0A then .next s
    else if !(frameOk m.bytes && frameType m.bytes == 0x83 && p.length == 16 && zeroAt p 11 5 && decide (a < 16 ∨ a = 0x1F)) then
      nextCtl s (c.bump (Obj.chain_frames_bad ch))
    else if hot then nextCtl s (c.hotReply ch r)
    else if g.stage = 2 ∨ g.stage = 3 then nextCtl s (c.setMgr ch { g with replies := g.replies ++ [r] })
    else .next s

/-- A capability record (R167), then authentication (R179). -/
def Ctl.capabilityIn (c : Ctl) (h : Nat) (r : List Byte) : Ctl :=
  if (c.headMgr h).asked = .capability then
    let c1 := ((c.putO (Obj.capability h) r).putN (Obj.head_family h) (fld r 2 2)).setHeadMgr h
      { c.headMgr h with asked := .nothing }
    if !recordOk r (c.nat (Obj.chain_mode (chainOf h)) == 1) then (c1.putO (Obj.capability h) (zeros 128)).failStep h 9
    else
      let c2 := (c1.putN (Obj.serial h) (fld r 4 8)).refreshGeometry
      if c.nat (Obj.expected_serial h) ≠ 0 ∧ c.nat (Obj.expected_serial h) ≠ fld r 4 8 then c2.failStep h 8
      else c2.challengeHead h 0
  else c

/-- CAPABILITY (R167). -/
def execCapability (m : HeadFrame) (s : State) : Host.Outcome State Fault Refusal :=
  let b := framePayload m.bytes
  nextCtl s (s.mach.ctl.headFrame m 0x82 (b.length == 128 && frameAux m.bytes == 0) (fun h c => c.capabilityIn h b))

/-- CONFIG_ACK of a discovery, of head_in or of a change (R163 step 5, R168, R174). A head-back change above the limit of
R136 ends the command FAILED with STAGE_FULL (log entry 122). -/
def Ctl.configAckIn (c : Ctl) (h aux : Nat) : Ctl :=
  let c1 := c.setHeadMgr h { c.headMgr h with asked := .nothing }
  match (c.headMgr h).asked with
  | .config 0 =>
    if aux = 0 then
      (((c1.sync h).setHeadMgr h { c1.headMgr h with statusAt := c.now }).setHead h 1).discoveryEnd (chainOf h)
    else c1.failStep h 9
  | .config 1 =>
    if aux = 0 then
      let c2 := c1.sync h
      if c2.backFull h then (c2.cmdFail (Obj.head_in h) St.STAGE_FULL Src.CHAIN_CMD_DONE h).headsInEnd (chainOf h)
      else (c2.putB (Obj.pending_in h) true).requestBack h
    else (c1.cmdFail (Obj.head_in h) St.CONFIG_NACK Src.CHAIN_CMD_DONE h).headsInEnd (chainOf h)
  | .config _ => c1
  | _ => c

/-- CONFIG_ACK (R168). -/
def execConfigAck (m : HeadFrame) (s : State) : Host.Outcome State Fault Refusal :=
  let aux := frameAux m.bytes
  nextCtl s (s.mach.ctl.headFrame m 0x85 ((framePayload m.bytes).isEmpty && decide (aux < 3)) (fun h c => c.configAckIn h aux))

/-- A usage record checked (R178, R179). -/
def Ctl.usageIn (c : Ctl) (h : Nat) (r : List Byte) : Ctl :=
  match (c.headMgr h).usage with
  | none => c
  | some why => ((c.putO (Obj.head_usage_record h) r).putN (Obj.auth_state h) (c.judgeUsage h r)).afterUsage h why

/-- USAGE_RECORD (R179). -/
def execUsageRecord (m : HeadFrame) (s : State) : Host.Outcome State Fault Refusal :=
  let b := framePayload m.bytes
  nextCtl s (s.mach.ctl.headFrame m 0x84 (b.length == 112 && frameAux m.bytes == 0 && zeroAt b 28 4) (fun h c => c.usageIn h b))

/-! ### Timers -/

/-- HEAD_REPLY_TIMEOUT (R163, R174, R179). -/
def execHeadReplyTimeout (head : Nat) (s : State) : Host.Outcome State Fault Refusal :=
  let c := s.mach.ctl
  let m := c.headMgr head
  if !decide (head < 256) then .next s
  else if m.asked ≠ .nothing ∧ m.askedAt + ms ≤ c.now then
    let c1 := c.setHeadMgr head { m with asked := .nothing }
    nextCtl s (match m.asked with
      | .config 1 => (c1.cmdFail (Obj.head_in head) St.CONFIG_NACK Src.CHAIN_CMD_DONE head).headsInEnd (chainOf head)
      | .config 0 => c1.failStep head 1
      | .capability => c1.failStep head 1
      | _ => c1)
  else match m.usage with
    | some why =>
      if m.usageAt + 2 * ms ≤ c.now then nextCtl s ((c.putN (Obj.auth_state head) 5).afterUsage head why) else .next s
    | none => .next s

/-- HEAD_TIMEOUT (R170, R171). -/
def execHeadTimeout (head : Nat) (s : State) : Host.Outcome State Fault Refusal :=
  let c := s.mach.ctl
  let st := c.headState head
  if head < 256 ∧ (c.headMgr head).statusAt + c.nat (Obj.head_timeout (chainOf head)) * 1000 ≤ c.now then
    if st = 2 then nextCtl s (c.declareDead head 1)
    else if st = 1 ∨ st = 4 ∨ st = 6 then nextCtl s (c.fallSilent head 1)
    else .next s
  else .next s

/-- TICK (R160), which also ends the collection of replies 1 ms after each DISCOVER of a discovery (log entry 11). -/
def execTick (chain : Nat) (s : State) : Host.Outcome State Fault Refusal :=
  let c := s.mach.ctl
  let m := c.mgr chain
  let st := c.chainState chain
  let due := decide (m.discoverAt + ms ≤ c.now)
  if !decide (chain < 16) then .next s
  else
    let c1 := if m.stage = 2 ∧ due = true then
        if c.folded chain then
          let d := c.sendDiscover chain (c.pathB chain)
          d.setMgr chain { d.mgr chain with stage := 3 }
        else c.assignPositions chain
      else if m.stage = 3 ∧ due = true then c.assignPositions chain
      else c
    if st = 1 ∨ st = 2 ∨ st = 3 then
      let c2 := c1.sendSeq chain (c1.lanesOf chain) 0x0A 0x1F 0 []
      nextCtl s (c2.setMgr chain { c2.mgr chain with tickAt := c.now })
    else nextCtl s c1

/-- CHAIN_HEAL (R148). -/
def execChainHeal (chain : Nat) (s : State) : Host.Outcome State Fault Refusal :=
  let c := s.mach.ctl
  match (c.mgr chain).healFrom with
  | none => .next s
  | some t =>
    if chain < 16 ∧ t + c.nat Obj.heal_hold * ms ≤ c.now ∧ (c.breaks chain).isEmpty = true then
      let c1 := ((c.putN (Obj.chain_state chain) 2).putN (Obj.split_after chain) 0xFF).setMgr chain
        { c.mgr chain with healFrom := none }
      nextCtl s (c1.ring (Src.CHAIN chain 7) chain (Obj.chain_state chain))
    else .next s

/-- HOT_DISCOVERY (R176). -/
def execHotDiscovery (chain : Nat) (s : State) : Host.Outcome State Fault Refusal :=
  let c := s.mach.ctl
  let m := c.mgr chain
  let st := c.chainState chain
  if chain < 16 ∧ c.on Obj.hot_discovery = true ∧ (st = 2 ∨ st = 3) ∧ m.stage = 0 ∧
      (m.portUp = true ∨ m.discoverAt + 100 * ms ≤ c.now) then
    nextCtl s (c.sendDiscover chain (if st = 3 then c.lanesOf chain else c.pathA chain))
  else .next s

/-! ### Dispatch (R145, R153) -/

/-- The nozzles of a head whose rows belong to a group, in ascending local index. -/
def Ctl.nozzlesOf (c : Ctl) (h g : Nat) : List Nat :=
  let r := c.oct (Obj.capability h)
  ((List.range (recNozzles r)).filter fun i => c.groupOfRow h (recRow r i) == g).map fun i => 2048 * h + i

/-- Levels packed 3 bits each, the k-th at bits 3k + 2 to 3k, in whole 4-byte words (R153). -/
def packLevels (ls : List Nat) : List Byte :=
  le ((3 * ls.length + 31) / 32 * 4) (ls.foldr (fun l v => l % 8 + 8 * v) 0)

/-- How many nozzles fire at each level 1 to 7. -/
def dropsOf (ls : List Nat) : List Nat := (List.range 7).map fun i => (ls.filter (· == i + 1)).length

/-- The frame of a head, group and line: DATA, or DATA_ZERO where every level is 0. The line tag is R156's. -/
def Ctl.dispatchHead (c : Ctl) (x : ShelfLine) (g : Nat) (h : Nat) : Ctl :=
  let zs := c.nozzlesOf h g
  if zs.isEmpty then c
  else
    let ls := zs.map fun z => kvGet 0 x.levels z
    let zero := ls.all (· == 0)
    let c1 := c.send (c.laneTo h) (.frame (frameBytes (if zero then 0x02 else 0x01) (posOf h) (x.count % 65536) g
      (if zero then [] else packLevels ls)))
    { c1 with care := { c1.care with store := c1.care.store ++ [⟨h, g, x.count, x.ticket, !zero, dropsOf ls, false⟩] } }

/-- The shelves replaced. -/
def Ctl.setShelf (c : Ctl) (ls : List ShelfLine) : Ctl := { c with care := { c.care with shelf := ls } }

/-- What is owed to a head goes to it before its next line: CONFIG after a long sleep, and SYNC (R160, R201). -/
def Ctl.payOwed (c : Ctl) (h : Nat) : Ctl :=
  let n := (c.headMgr h).owed
  if n = 0 then c else (if n = 2 then c.askConfig h 2 else c).sync h

/-- A line of a group dispatched by a chain. -/
def Ctl.dispatch (c : Ctl) (ch g : Nat) (x : ShelfLine) : Ctl :=
  let hs := x.heads.filter fun h => chainOf h == ch && c.headState h == 2
  let c1 := forEach hs (fun c h => (c.payOwed h).dispatchHead x g h) c
  let y := { x with sent := kvSet false x.sent (4 * ch + g) true }
  c1.setShelf (c1.care.shelf.map fun z => if z.bar = x.bar ∧ z.count = x.count then y else z)

/-- DISPATCH_LINE (R145): `line` is the bar's count of the line since reset. -/
def execDispatchLine (chain line group : Nat) (s : State) : Host.Outcome State Fault Refusal :=
  let c := s.mach.ctl
  match c.chainBar chain with
  | none => .next s
  | some b =>
    match c.care.shelf.find? (fun x => x.bar == b && x.count == line) with
    | none => .next s
    | some x =>
      let w := (match c.strobePage x.ticket with
        | some t => t.place
        | none => 0) + 64 * x.line
      if chain < 16 ∧ group < 4 ∧ kvGet false x.sent (4 * chain + group) = false ∧
          c.chainCarries chain = true ∧ (c.chainState chain = 2 ∨ c.chainState chain = 3) ∧ c.groupAt w b group ≤ c.pp + 48 * 64 then
        nextCtl s (c.dispatch chain group x)
      else .next s

/-! ### Writes of chain objects (R146, R168, R180) -/

/-- A lane the head-chain role holds, or none. -/
def Ctl.chainLaneOk (c : Ctl) (l : Nat) : Bool := l == 0xFF || (decide (l < 32) && c.nat (Obj.lane_role l) == 1)

/-- CHAIN_LANES of a chain's mode and lanes (R146). -/
def Ctl.chainLanesOk (c : Ctl) (ch mode p q : Nat) : Bool :=
  let used (l : Nat) : Bool := l != 0xFF && (List.range 16).any fun x =>
    x != ch && (c.nat (Obj.primary_lane x) == l || c.nat (Obj.secondary_lane x) == l)
  c.chainLaneOk p && c.chainLaneOk q && !(used p || used q) && (p == 0xFF || p != q) && (if mode = 1 then q != 0xFF else q == 0xFF)

/-- Writes of 3110+c:01 to 04 in one frame, judged together (log entry 14): CHAIN_RUNNING, CHAIN_LANES, ORDER_INVALID;
then the values, the geometry, and CONFIG where the mode changes. Each entry is subindex and value. -/
def ownChainConfig (ch : Nat) (es : List (Nat × Nat)) (c : Ctl) : Nat × Ctl :=
  let c1 := forEach es (fun c e => c.putN (Obj.chain_bar ch - 1 + e.1) e.2) c
  if (headsOfChain ch).any (fun h => c.headState h == 2) then refuse St.CHAIN_RUNNING c
  else if es.any (fun e => e.1 != 1) && !(c1.chainLanesOk ch (c1.nat (Obj.chain_mode ch)) (c1.nat (Obj.primary_lane ch))
      (c1.nat (Obj.secondary_lane ch))) then refuse St.CHAIN_LANES c
  else if es.any (fun e => e.1 == 1) && c1.orderBad then refuse St.ORDER_INVALID c
  else
    let c2 := c1.refreshGeometry
    let live := (headsOfChain ch).filter fun h => c2.headState h == 1 || c2.headState h == 4
    (St.OK, if es.any (fun e => e.1 == 2) then forEach live (fun c h => c.askConfig h 2) c2 else c2)

/-- A write of row_groups (R168). -/
def ownRowGroups (h v : Nat) (c : Ctl) : Nat × Ctl :=
  let c1 := (c.putN (Obj.row_groups h) v).refreshGeometry
  (St.OK, if c1.headState h = 1 ∨ c1.headState h = 2 ∨ c1.headState h = 4 then c1.askConfig h 2 else c1)

/-- A write of a group distance (R144). -/
def ownGroupDistance (key v : Nat) (c : Ctl) : Nat × Ctl := (St.OK, (c.putN key v).refreshGeometry)

end Sys2Proof.Machine
end

