-- ==== Sys2Proof/Machine/Screen.lean ====
section
/-! DEFINITION. From sample to drop (R119, R130 to R134) and the screener's step (R133, R137, R145, R156, R174). -/

namespace Sys2Proof.Machine

/-! ### A line to screen -/

/-- The next line a bar screens: the first ticket that masks it with lines left, once it is placed (R133). -/
def Ctl.nextScreen (c : Ctl) (b : Nat) : Option (Ticket × Nat) :=
  match c.live.find? fun t => bit t.bars b && decide (kvGet 0 t.screened b < t.length) with
  | some t => if t.pos.isSome then some (t, kvGet 0 t.screened b) else none
  | none => none

/-- The assembled line, once the print fetch delivered it. -/
def Ctl.contone (c : Ctl) (t b n : Nat) : Option ContoneLine :=
  c.page.lines.find? fun x => x.ticket == t && x.bar == b && x.line == n

/-- A sample lies in a region that failed in the print fetch (R113). -/
def Ticket.failedAt (t : Ticket) (b n col : Nat) : Bool :=
  t.work.bad.any fun x => x.print && x.bar == b && x.band == n / 256 && x.column == col / 256 && decide (x.row ≤ n % 256)

/-! ### Tone values and redistribution (R130, R131) -/

/-- What the screener knows of one page column: the nozzle that fires it, and its tone value, 0 in a failed region. -/
structure Column where
  nozzle : Option Nat
  tone : Nat
  failed : Bool
  deriving DecidableEq, Repr

/-- Entry `s` of a tone curve (R121). -/
def toneOf (curve : List Byte) (s : Nat) : Nat := fld curve (2 * s) 2

/-- The columns of a line. -/
def Ctl.columnsOf (c : Ctl) (t : Ticket) (b n : Nat) (samples : List Byte) : List Column :=
  let curve := c.oct (Obj.tone_curve (c.nat (Obj.slot_tone_curve t.slot b)))
  samples.zipIdx.map fun x =>
    let bad := t.failedAt b n x.2
    ⟨c.covers b x.2, if bad then 0 else toneOf curve x.1.toNat, bad⟩

/-- The column at a place. -/
def columnAt (cs : Array Column) (i : Nat) : Column := cs.getD i ⟨none, 0, false⟩

/-- The share an uncovered column `u` sends to a receiver `r`, by weights w1, w2 (R131). -/
def share (cs : Array Column) (w1 w2 u r : Nat) : Nat :=
  let w (x : Nat) : Nat := if max x u - min x u = 1 then w1 else w2
  let total := ((receivers (fun k => (columnAt cs k).nozzle.isSome) cs.size u).map w).sum
  if total = 0 then 0 else (columnAt cs u).tone * (2 * (w1 + w2)) * w r / (256 * total)

/-- a_c of a covered column: its tone and the shares of its uncovered neighbours. -/
def toneSum (cs : Array Column) (w1 w2 i : Nat) : Nat :=
  let near := ((if 2 ≤ i then [i - 2] else []) ++ (if 1 ≤ i then [i - 1] else []) ++ [i + 1, i + 2]).filter fun u =>
    decide (u < cs.size) && (columnAt cs u).nozzle.isNone
  (columnAt cs i).tone + (near.map fun u => share cs w1 w2 u i).sum

/-! ### Correction, threshold and limits (R132) -/

/-- The level of a column: x from the corrected tone, planes of the resident array, the limits. -/
def levelOf (theta : Array Byte) (x i j limit : Nat) : Nat :=
  let base := (j % 256 * 256 + i % 256) * 7
  min (((List.range 7).filter fun p => decide (16 * (theta.getD (base + p) 0).toNat + 8 ≤ x)).length) limit

/-- x_c (R132). -/
def corrected (a : Nat) (k : Int) : Nat := min 4095 ((a * (1000 + k).toNat + 500) / 1000)

/-- The bytes of an array on chip. -/
def Ctl.residentBytes (c : Ctl) (a : Nat) : List Byte :=
  match (List.range 10).find? fun p => c.arrayIn p == a with
  | some p => kvGet [] c.adm.places p
  | none => []

/-- The level each firing nozzle of a bar fires for a line, zero levels left out. -/
def Ctl.levels (c : Ctl) (t : Ticket) (b n : Nat) (samples : List Byte) : Kv Nat :=
  let cs := (c.columnsOf t b n samples).toArray
  let x := c.careBar b
  let theta := (c.residentBytes (c.nat (Obj.slot_screen t.slot b))).toArray
  let limit := c.nat (Obj.drop_limit t.slot b)
  forEach (List.range cs.size) (fun m i =>
    let col := columnAt cs i
    match col.nozzle with
    | none => m
    | some z =>
      let v := corrected (toneSum cs (x.weights / 256) (x.weights % 256) i) (nozCorrection (kvGet 0 c.care.live z))
      let l := levelOf theta v (i + x.origin / 256) (n + x.origin % 256)
        (if c.effState z = 1 then min limit x.weakLimit else limit)
      kvSet 0 m z (if col.failed then 0 else l)) []

/-- The line holds an unhideable gap over the page's columns (R134). -/
def Ctl.lineGapped (c : Ctl) (t : Ticket) (b : Nat) : Bool :=
  !(badRuns (fun k => (c.covers b k).isSome) (t.width * 256)).isEmpty

/-! ### The first line of a page on a bar (R59, R156, R221) -/

/-- A registration change of the loop at the bar's page boundary (R291): in force, or on a page below ACT taken back (R293). -/
def Ctl.registrationDue (c : Ctl) (slot : Nat) (x : LoopChange × Bool) : Ctl :=
  let key := if x.1.kind = kindOffset then Obj.column_offset x.1.target else Obj.tap_trim x.1.target
  if x.2 ∨ 2 ≤ c.nat (Obj.autonomy slot) then c.acted x.1
  else
    let c1 := if c.int key = x.1.new then
        (c.putI key x.1.old).newGeneration (if x.1.kind = kindOffset then 32 + x.1.target else x.1.target) else c
    c1.discarded x.1 18

/-- The registration changes that wait for the bar's page. -/
def Ctl.takeRegistration (c : Ctl) (b slot : Nat) : Ctl :=
  forEach (c.loop.taking.filter fun x => x.1.bar == b) (fun c x => c.registrationDue slot x)
    (c.setLoop { c.loop with taking := c.loop.taking.filter fun x => x.1.bar != b })

/-- The column offset and the trims of the bar's pairs as they stand, and the line count, hold for the page. -/
def Ctl.pageStarts (c0 : Ctl) (t : Ticket) (b : Nat) : Ctl :=
  let c := c0.takeRegistration b t.slot
  let x := c.careBar b
  let o := c.int (Obj.column_offset b)
  let c1 := c.setCareBar b { x with offset := o }
  let c2 := if x.offset = o then c1 else c1.careCounts b
  c2.onTicket t.number fun u =>
    { u with work := { u.work with
        firstCount := kvSet 0 u.work.firstCount b x.lines
        gens := forEach [4 * b, 4 * b + 1, 4 * b + 2, 4 * b + 3, 32 + b] (fun m i => kvSet 0 m i (c.generation i)) u.work.gens
        offsets := kvSet 0 u.work.offsets b o
        trims := forEach (List.range 4) (fun m g => kvSet 0 m (4 * b + g) (c.nat (Obj.tap_trim (4 * b + g)))) u.work.trims } }

/-- A DISCOVERED or BENCHED head whose head-back change took effect is RUNNING (R170, R174). -/
def Ctl.headRuns (c : Ctl) (h : Nat) : Ctl :=
  if c.headState h ≠ 1 ∧ c.headState h ≠ 4 then c
  else
  let c1 := ((c.putB (Obj.pending_in h) false).putN (Obj.out_reason h) 0).setHead h 2
  let c2 := if c1.cmdBusy (Obj.head_in h) then c1.cmdDone (Obj.head_in h) Src.CHAIN_CMD_DONE h else c1
  c2.headsInEnd (chainOf h)

/-- The effect line of a head that leaves (R175). -/
def Ctl.leavesAt (c : Ctl) (b h : Nat) : Ctl :=
  match (c.headMgr h).leaving with
  | some _ => c.setHeadMgr h { c.headMgr h with leaving := some ((c.careBar b).lines, c.now) }
  | none => c

/-- Changes that take effect at a line of a page on a bar (R137), its page start included. -/
def Ctl.lineStarts (c : Ctl) (t : Ticket) (b n : Nat) : Ctl :=
  let outs := (c.careBar b).outs
  let c1 := if n = 0 then c.pageStarts t b else c
  let x := c1.takeEffect b (t.place + 64 * n) t.slot (n == 0)
  forEach x.1 Ctl.headRuns (forEach outs (fun c h => c.leavesAt b h) x.2)

/-- The next line of a bar is counted as screened or skipped: page line and line count advance. -/
def Ctl.lineCounts (c : Ctl) (t b n : Nat) : Ctl :=
  let x := c.careBar b
  let c1 := c.setCareBar b { x with lines := x.lines + 1 }
  let c2 := { c1 with page := { c1.page with lines := c1.page.lines.filter fun y => !(y.ticket == t && y.bar == b && y.line == n) } }
  (c2.onTicket t fun u => { u with screened := kvSet 0 u.screened b (n + 1) }).tidyPlaces

/-! ### The mark zone (R300) -/

/-- A mark block's nozzles of pair `s`: GOOD or WEAK, of RUNNING heads, with a row in the group, in the block's columns. -/
def Ctl.blockNozzles (c : Ctl) (s : Nat) : List Nat :=
  let b := s / 4
  let lo := 2048 * s + 896
  (c.care.live.filter fun e =>
    nozRole e.2 != 0 && decide (lo ≤ nozColumn e.2 ∧ nozColumn e.2 < lo + 256) && c.barOfNozzle e.1 == some b &&
      c.headState (headOfNozzle e.1) == 2 && c.canFire e.1 && c.groupOfNozzle e.1 == s % 4).map (·.1)

/-- The level a nozzle fires a mark at: the head's drop levels and the limit of WEAK nozzles bound it. -/
def Ctl.markLevel (c : Ctl) (b level z : Nat) : Nat :=
  let l := min level (recLevels (c.oct (Obj.capability (headOfNozzle z))))
  if c.effState z = 1 then min l (c.careBar b).weakLimit else l

/-- The levels of a mark line of a bar. -/
def Ctl.markLevels (c : Ctl) (b level : Nat) : Kv Nat :=
  forEach ((List.range 4).map fun g => c.blockNozzles (4 * b + g)).flatten
    (fun m z => kvSet 0 m z (c.markLevel b level z)) []

/-- The mark lines of a bar put into the shelves in place of screened ones, and counted among its lines (R156). -/
def Ctl.placeMarks (c : Ctl) (g : RegCal) (z : Ticket) (b : Nat) : Ctl :=
  let x := c.careBar b
  let heads := (c.headsOfBar b).filter fun h => c.headFires h && c.headState h == 2
  let levels := c.markLevels b g.level
  let epoch := c.nat (Obj.care_epoch b)
  let lines := (List.range z.length).map fun i => (⟨b, x.lines + i, markNumber, i, epoch, heads, levels, []⟩ : ShelfLine)
  let trims := forEach (List.range 4) (fun m i => kvSet 0 m (4 * b + i) (c.nat (Obj.tap_trim (4 * b + i)))) z.work.trims
  let z1 : Ticket := { z with work := { z.work with firstCount := kvSet 0 z.work.firstCount b x.lines, trims := trims } }
  let blocks := (List.range 4).filterMap fun i => if (c.blockNozzles (4 * b + i)).isEmpty then none else some (4 * b + i)
  let c1 := { c with care := { c.care with shelf := c.care.shelf ++ (if (c.groupsOfBar b).isEmpty then [] else lines) } }
  (c1.setCareBar b { x with lines := x.lines + z.length }).setLoop
    { c1.loop with reg := some { g with zone := some z1, placed := b :: g.placed, blocks := g.blocks ++ blocks } }

/-- Before a page past the zone starts on a bar, the bar's marks are placed. -/
def Ctl.marksBefore (c : Ctl) (t : Ticket) (b : Nat) : Ctl :=
  match c.loop.reg with
  | some g =>
    match g.zone with
    | some z => if bit z.bars b && !g.placed.contains b && decide (z.place < t.place) then c.placeMarks g z b else c
    | none => c
  | none => c

/-! ### The screener's step -/

/-- A page's unhideable gap on a bar: HEADS, counted once per page and bar. -/
def Ctl.pageGapped (c : Ctl) (t : Ticket) (b : Nat) : Ctl :=
  let c1 := if t.work.gapped.contains b then c else c.bump (Obj.pages_gapped b)
  c1.onTicket t.number fun u =>
    let v := u.affect reasonHeads
    { v with work := { v.work with gapped := if v.work.gapped.contains b then v.work.gapped else b :: v.work.gapped } }

/-- A line screened: its levels go to the shelves; a bar without groups settles it at once. -/
def Ctl.screen (c00 : Ctl) (t0 : Ticket) (b n : Nat) (samples : List Byte) : Ctl :=
  let c0 := if n = 0 then c00.marksBefore t0 b else c00
  let c := c0.lineStarts t0 b n
  let t := (c.ticket t0.number).getD t0
  let epoch := c.nat (Obj.care_epoch b)
  let c1 := if c.lineGapped t b then c.pageGapped t b else c
  let c2 := if n = 0 then c1.onTicket t.number fun u => { u with firstEpoch := kvSet 0 u.firstEpoch b epoch } else c1
  let heads := (c.headsOfBar b).filter fun h => c.headFires h && c.headState h == 2
  let count := (c.careBar b).lines
  let levels := c.levels t b n samples
  let line : ShelfLine := ⟨b, count, t.number, n, epoch, heads, levels, []⟩
  let d := c2.recordLine t b n count levels
  let c3 := if (c.groupsOfBar b).isEmpty then d.settleLine ⟨t.number, b, n, [], false⟩ epoch
    else { d with care := { d.care with shelf := d.care.shelf ++ [line] } }
  c3.lineCounts t.number b n

/-- The loop's records put into its ring, where neither a FROZEN controller nor panic level 3 holds them. -/
def Mach.loopFlush (m : Mach) : Mach :=
  let c := m.ctl
  if c.loop.outbox.isEmpty || !c.bulkMay then m
  else if c.nat Obj.loop_ring_base != 0 && c.rangeFrozen (c.nat Obj.loop_ring_base) (64 * c.nat Obj.loop_ring_entries) then m
  else m.putRecords

/-- SCREEN_LINE: due from 48 lines upstream of the bar's offset, with the line delivered and the print ride running. -/
def execScreenLine (bar : Nat) (s : State) : Host.Outcome State Fault Refusal :=
  let c := s.mach.ctl
  match c.nextScreen bar with
  | none => .next s
  | some (t, n) =>
    match c.contone t.number bar n with
    | none => .next s
    | some l =>
      if bar < 8 ∧ c.barAt (t.place + 64 * n) bar ≤ c.pp + 48 * 64 ∧ c.rideRuns ridePrint = true then
        nextMach s (s.mach.onCtl fun c => c.screen t bar n l.samples).loopFlush
      else .next s

end Sys2Proof.Machine
end

