-- ==== Sys2Proof/Machine/Fetch.lean ====
section
/-! DEFINITION. The print fetch (R105 to R109, R111 to R114): bands decoded into lines, crate errors, missed deadlines. -/

namespace Sys2Proof.Machine

/-! ### Crate errors of a fetch (R113, R114, R118) -/

/-- A crate failed in a fetch of a page: its place, its error, and whether the print fetch met it. -/
structure CrateFail where
  bar : Nat
  band : Nat
  column : Nat
  err : CrateErr
  print : Bool
  deriving DecidableEq, Repr

/-- The detail of a failure. -/
def CrateFail.detail (f : CrateFail) : Nat := crateDetail f.err.code f.bar f.band f.column

/-- The failure kept with the page: where measurement and firing stop. -/
def CrateFail.kept (f : CrateFail) : BadCrate := ⟨f.bar, f.band, f.column, f.err.row, f.print⟩

/-- A failure counted and rung; in the print fetch the page is affected with DATA. -/
def Ctl.crateFailed (c : Ctl) (ticket : Nat) (f : CrateFail) : Ctl :=
  let key := if f.print then Obj.crate_errors_print else Obj.crate_errors_inspect
  let c1 := (c.bump key).putO Obj.last_crate_error (crateErrorBytes ticket f.detail (if f.print then 0 else 1) f.err)
  let c2 := c1.onTicket ticket fun t =>
    let u := if f.print then { t.affect reasonData with detail := if t.detail = 0 then f.detail else t.detail } else t
    { u with work := { u.work with bad := u.work.bad ++ [f.kept] } }
  c2.ring (if f.print then Src.FETCH_DATA_ERROR else Src.INSPECT_DATA_ERROR) 0xFFFF key

/-- Failures in the order in which they are detected: by row, then by column (log entry 52). -/
def insertFail (f : CrateFail) : List CrateFail → List CrateFail
  | [] => [f]
  | g :: r => if f.err.row < g.err.row then f :: g :: r else g :: insertFail f r

/-- The failures of decoded crates of a band. -/
def failsOf (b k : Nat) (print : Bool) (cs : List (Nat × Crate)) : List CrateFail :=
  (cs.filterMap fun x => x.2.err.map fun e => (⟨b, k, x.1, e, print⟩ : CrateFail)).foldl (fun l f => insertFail f l) []

/-! ### A band (R105 to R107) -/

/-- The crates of a band of a bar, decoded, with their columns. -/
def PageMap.bandCrates (mem : Kv Byte) (p : PageMap) (b k : Nat) : List (Nat × Crate) :=
  (List.range p.width).map fun c => (c, p.crate mem k b c)

/-- Line `r` of a band across the page width. -/
def bandLine (cs : List (Nat × Crate)) (r : Nat) : List Byte := (cs.map fun x => x.2.rows.getD r (zeros 256)).flatten

/-- A FROZEN controller holds a crate read of the band. -/
def Mach.bandStalls (m : Mach) (p : PageMap) (b k : Nat) : Bool :=
  (List.range p.width).any fun c => m.ctl.rangeFrozen (entryAddress (p.entry m.cellar k b c)) (entryBytes (p.entry m.cellar k b c))

/-- Lines of a band delivered, those already skipped as late left out. -/
def Ctl.deliver (c : Ctl) (t : Ticket) (b k : Nat) (cs : List (Nat × Crate)) : Ctl :=
  let from_ := kvGet 0 t.screened b
  let ls := ((List.range (t.map.bandLines k)).filter fun r => decide (from_ ≤ 256 * k + r)).map fun r =>
    (⟨t.number, b, 256 * k + r, bandLine cs r⟩ : ContoneLine)
  { c with page := { c.page with lines := c.page.lines ++ ls } }

/-- The band fetched: lines delivered, failures reported, the bar's count of bands raised. -/
def Mach.fetchBand (m : Mach) (t : Ticket) (b k : Nat) : Mach :=
  let cs := t.map.bandCrates m.cellar b k
  m.onCtl fun c =>
    let c1 := (c.useCellar).deliver t b k cs
    let c2 := forEach (failsOf b k true cs) (fun c f => c.crateFailed t.number f) c1
    c2.onTicket t.number fun u => { u with printDone := kvSet 0 u.printDone b (k + 1) }

/-! ### PRINT_FETCH_BAND -/

/-- The reads of a band that a FROZEN controller holds (R341). -/
def Mach.holdBand (m : Mach) (src : CellarSource) (p : PageMap) (b k : Nat) : Mach :=
  m.onCtl fun c => forEach (List.range p.width) (fun c x =>
    c.holdFrozen src (entryAddress (p.entry m.cellar k b x)) (entryBytes (p.entry m.cellar k b x))) c

/-- PRINT_FETCH_BAND: due from 208 lines upstream of the bar's offset, bands of a bar in order; a stalled read holds it. -/
def execPrintFetchBand (ticket bar band : Nat) (s : State) : Host.Outcome State Fault Refusal :=
  let c := s.mach.ctl
  match c.ticket ticket with
  | none => .next s
  | some t =>
    if !t.ended && t.pos.isSome && decide (bar < 8) && bit t.bars bar && decide (band < t.map.bands) &&
        kvGet 0 t.printDone bar == band && decide (c.barAt (t.place + 64 * 256 * band) bar ≤ c.pp + 208 * 64) &&
        c.rideRuns ridePrint then
      nextMach s (if s.mach.bandStalls t.map bar band then s.mach.holdBand .printFetch t.map bar band
        else (((s.mach.onCtl Ctl.notePanic).fetchBand t bar band).onCtl Ctl.notePanic).serveAll)
    else .next s

/-! ### A missed deadline (R109) -/

/-- Pages the print fetch is serving: bands left to fetch of a bar whose fetch may have begun. -/
def Ctl.serving (c : Ctl) : List Ticket :=
  c.live.filter fun t => t.pos.isSome && (barsOf t.bars).any fun b =>
    let k := kvGet 0 t.printDone b
    decide (k < t.map.bands) && decide (c.barAt (t.place + 64 * 256 * k) b ≤ c.pp + 208 * 64)

/-- The line rate is above the page cap of a page being served. -/
def Ctl.overCap (c : Ctl) : Bool := c.serving.any fun t => decide ((t.cap : Int) < c.int Obj.web_speed)

/-- A line marked late: its changes take effect, it is counted, and its strobe lines will be omitted. -/
def Ctl.skipLine (c0 : Ctl) (t0 : Ticket) (b n : Nat) : Ctl :=
  let c := c0.lineStarts t0 b n
  let epoch := c.nat (Obj.care_epoch b)
  let t := (c.ticket t0.number).getD t0
  let c1 := ((c.recordLine t b n (c.careBar b).lines []).bump Obj.late_lines).onTicket t0.number fun u =>
    { u with work := { u.work with late := u.work.late ++ [(b, n)] }
             firstEpoch := if n = 0 then kvSet 0 u.firstEpoch b epoch else u.firstEpoch }
  let c2 := if (c.groupsOfBar b).isEmpty then
      (c1.settleLine ⟨t0.number, b, n, [], true⟩ epoch).onTicket t0.number fun u => u.affect reasonOverspeed
    else c1
  c2.lineCounts t0.number b n

/-- FETCH_DEADLINE_MISS: the next line of a bar, not delivered though it is 32 lines upstream of the bar's offset. -/
def execFetchDeadlineMiss (ticket bar line : Nat) (s : State) : Host.Outcome State Fault Refusal :=
  let c := s.mach.ctl
  match c.nextScreen bar with
  | none => .next s
  | some (t, n) =>
    if bar < 8 ∧ t.number = ticket ∧ n = line ∧ (c.contone ticket bar line).isNone = true ∧
        c.barAt (t.place + 64 * n) bar ≤ c.pp + 32 * 64 then
      nextCtl s (if c.overCap then c.skipLine t bar n else c.raiseFault faultFetchUnderrun)
    else .next s

end Sys2Proof.Machine
end

