-- ==== Sys2Proof/Machine/Expose.lean ====
section
/-! DEFINITION. When a camera's next exposure falls due and its TRIGGER starts (R245, R247, R263). -/

namespace Sys2Proof.Machine

/-- The due point of the next exposure as a print position: the travel still to come. -/
def Ctl.duePoint (c : Ctl) (k : Nat) : Frac :=
  let x := c.cam k
  let d := (Frac.ofInt (x.nextDue * c.nat (Obj.advance_rows k) * c.nat (Obj.image_pitch_y k))).sub x.travel
  if d.num ≤ 0 then c.pos.ticks else forwardBy c.stretches c.stretches.length c.pos.ticks d

/-- trigger_delay + exposure_time / 2, 250 ps units. -/
def Ctl.triggerLead (c : Ctl) (k : Nat) : Nat := 4 * c.nat (Obj.trigger_delay k) + 2 * c.nat (Obj.exposure_time k)

/-- The 36 code groups of a TRIGGER frame, 250 ps units. -/
def Ctl.triggerFrame (c : Ctl) (k : Nat) : Nat :=
  match c.bondLane k with
  | some l => 7200 / max 1 (c.nat (Obj.quad_rate (quadOf l))) + 1
  | none => 0

/-- The downstream transmitter sends no frame for 60 us after it wakes (R263). -/
def Ctl.downQuiet (c : Ctl) (k : Nat) : Bool := decide (c.now < (c.cam k).wokeAt + 60000)

/-- t_c of the next exposure as the travel has it (R245): the prediction, if it lies within `ahead` (250 ps) of the start of its frame, or
what it was when it fell due while the transmitter woke. -/
def Ctl.duePrediction (c : Ctl) (k ahead : Nat) : Option Nat :=
  match (c.cam k).waking with
  | some t => some t
  | none => c.crossingOf (c.duePoint k) (c.now250 + c.triggerLead k + c.triggerFrame k + ahead)

/-- The instant of an exposure's centre and whether it is late (R245, R247, R263); none while it is not predicted near. -/
def Ctl.exposureCentre (c : Ctl) (k ahead : Nat) : Option (Nat × Bool) :=
  let x := c.cam k
  (c.duePrediction k ahead).map fun t =>
    let period := (-(Frac.floor ⟨-4 * (c.camPeriod k).num, (c.camPeriod k).den⟩)).toNat
    let afterLast := match x.lastCentre with
      | some l => max t (l + period)
      | none => t
    let awake := 4 * (x.wokeAt + 60000) + c.triggerFrame k + c.triggerLead k
    let t1 := if x.waking.isSome || c.downQuiet k then max afterLast awake else afterLast
    (t1, decide (t < t1))

/-- The frame of an exposure centred at `t` has to start now. -/
def Ctl.startsNow (c : Ctl) (k t : Nat) : Bool := decide (t ≤ c.now250 + c.triggerLead k + c.triggerFrame k)

/-- When the next TRIGGER frame starts, in ns, if that is within `ahead` ns of now. -/
def Ctl.triggerAt (c : Ctl) (k ahead : Nat) : Option Nat :=
  if c.camState k ≠ 3 then none
  else
    match c.exposureCentre k (4 * ahead) with
    | some (t, _) =>
      let s := (t - c.triggerLead k - c.triggerFrame k) / 4
      if c.now < s ∧ s ≤ c.now + ahead then some s else none
    | none => none

end Sys2Proof.Machine
end

