-- ==== Sys2Proof/Machine/Link.lean ====
section
/-! DEFINITION. The lane commands and events (chapter 07). -/

namespace Sys2Proof.Machine

/-! ### Bring-up (R187, R197) -/

/-- QUAD_PLL_LOCKED: a locking PLL judged stable by 16 windows (R391) starts the quad's lanes; a lane that is DOWN recovers by
itself, without training (R199). -/
def execQuadPllLocked (quad : Nat) (s : State) : Host.Outcome State Fault Refusal :=
  let c := s.mach.ctl
  if quad < 8 ∧ c.nat (Obj.quad_state quad) = 1 ∧ 16 ≤ kvGet 0 c.pwr.runs (12 + quad) then
    nextCtl s (forEach ((lanesOfQuad quad).filter fun l => c.rx l != 7) Ctl.startLane (c.putN (Obj.quad_state quad) 2))
  else .next s

/-- CLOCK_RECOVERY_LOCK: ACQUIRE to ALIGN. -/
def execClockRecoveryLock (lane : Nat) (s : State) : Host.Outcome State Fault Refusal :=
  let c := s.mach.ctl
  if lane < 32 ∧ c.rx lane = 2 then nextCtl s (c.putN (Obj.rx_state lane) 3) else .next s

/-- RX_ALIGNED: a receiver that finds alignment in what it receives shows the hop and starts training. -/
def execRxAligned (lane : Nat) (symbols : List Nat) (s : State) : Host.Outcome State Fault Refusal :=
  let c := s.mach.ctl
  match if lane < 32 ∧ c.rx lane = 3 then c.aligns lane symbols else none with
  | some d => nextCtl s (d.startTraining lane)
  | none => .next s

/-! ### Training (R194 to R196) -/

/-- The lane whose transmitter owns a target of hop 0 (R195). -/
def Ctl.ownerOf (c : Ctl) (l target : Nat) : Option Nat :=
  if target % 32 ≠ 0 then none
  else (c.lanesWith l).find? fun j => decide (c.txPathB j = bit target 7) && c.transmits j

/-- A request the controller owns is applied where its toggle is new, and answered; one with the toggle of the last is answered again
(R194; log entry 151). -/
def Ctl.answerRequest (c : Ctl) (l req : Nat) : Ctl :=
  let x := c.lane l
  let a := applyTap (wordTaps (c.nat (Obj.tx_taps l))) req
  let old := match x.applied with
    | some p => if p.1 = bit req 6 then some p.2 else none
    | none => none
  let c1 := if old.isNone then c.putN (Obj.tx_taps l) (tapsWord a.2) else c
  let status := if req % 4 ≠ 0 then 3 else old.getD a.1
  let echo := req / 4 % 32 * 4
  (c1.setLane l { x with applied := some (bit req 6, status), answer := some (echo, status, c.now) }).sendSet l (.trainRsp echo status)

/-- The lane onto which a request at the end of a path is relayed, none on a camera lane (R195). -/
def Ctl.relayLane (c : Ctl) (l : Nat) : Option Nat :=
  match c.chainOfLane l with
  | some (ch, primary) =>
    if !c.folded ch then some l
    else some (if primary then c.nat (Obj.secondary_lane ch) else c.nat (Obj.primary_lane ch))
  | none => none

/-- The receivers of the paths restart training on RETRAIN_ALL (R196); a calibration of one is aborted (log entry 152). -/
def Ctl.restartTraining (c : Ctl) (l : Nat) : Ctl :=
  let ls := c.lanesWith l
  let c1 := forEach ls (fun c j => c.setLane j { c.lane j with ready := [] }) c
  forEach (ls.filter c1.aligned) (fun c j => (c.calFail j St.CAL_ABORTED).startTraining j) c1

/-- TRAIN_REQ: RETRAIN_ALL is removed by its originator and forwarded by others; any other request is applied by its owner,
removed by its requester, or relayed; RX_READY of its target is seen in passing. -/
def Ctl.trainReq (c : Ctl) (l target req : Nat) : Ctl :=
  let relay (c : Ctl) : Ctl := match c.relayLane l with
    | some j => c.sendSet j (.trainReq target req)
    | none => c
  if target = 0xFF then
    if (c.lanesWith l).any fun j => (c.lane j).retraining then c else relay (c.restartTraining l)
  else
    let c1 := if bit req 7 then c.sawReady l target else c
    match c1.ownerOf l target with
    | some j => c1.answerRequest j req
    | none => if (c1.lanesWith l).any fun j => c1.ownTarget j == target then c1 else relay c1

/-- TRAIN_REQ. -/
def execTrainReq (lane target request : Nat) (s : State) : Host.Outcome State Fault Refusal :=
  let c := s.mach.ctl
  if lane < 32 ∧ target < 256 ∧ request < 256 ∧ c.aligned lane = true then nextCtl s (c.trainReq lane target request)
  else .next s

/-- TRAIN_RSP: the echo of the request outstanding; after it the receiver, content with the taps as they stand, ends its
training (log entry 57). -/
def execTrainRsp (lane echo status : Nat) (s : State) : Host.Outcome State Fault Refusal :=
  let c := s.mach.ctl
  if lane < 32 ∧ status < 4 ∧ c.rx lane = 4 then
    match (c.lane lane).request with
    | some q => if echo = q / 4 % 32 * 4 then nextCtl s (c.finishTraining lane) else .next s
    | none => .next s
  else .next s

/-- TRAIN_TIMEOUT: 6 ms after alignment the receiver sets RX_READY with the taps as they stand and the lane goes DOWN. -/
def execTrainTimeout (lane : Nat) (s : State) : Host.Outcome State Fault Refusal :=
  let c := s.mach.ctl
  let x := c.lane lane
  if lane < 32 ∧ c.rx lane = 4 ∧ x.trained = false ∧ x.alignedAt + 6 * ms ≤ c.now then
    let c1 := (c.sendRequest lane true).laneFalls lane 4
    let c2 := c1.setLane lane { c1.lane lane with request := none, retraining := false }
    nextCtl s (if c2.cmdBusy (Obj.retrain lane) then c2.cmdFail (Obj.retrain lane) St.TRAIN_TIMEOUT Src.LANE_CMD_DONE lane else c2)
  else .next s

/-! ### Loss and recovery (R187, R198, R199) -/

/-- ALIGN_LOSS: a stretch of what an aligned receiver receives, after which its error count may stand at 4. -/
def execAlignLoss (lane : Nat) (symbols : List Nat) (s : State) : Host.Outcome State Fault Refusal :=
  let c := s.mach.ctl
  if lane < 32 ∧ c.aligned lane = true then
    let d := c.takeSymbols lane symbols
    nextCtl s (if (d.lane lane).rxCode.errors = 4 then d.laneFalls lane 3 else d)
  else .next s

/-- LANE_LOSS: LOS, or LOL where the lock was lost. -/
def execLaneLoss (lane : Nat) (lockLost : Bool) (s : State) : Host.Outcome State Fault Refusal :=
  if lane < 32 then nextCtl s (s.mach.ctl.laneFalls lane (if lockLost then 2 else 1)) else .next s

/-- A chain none of whose ports is down any more begins its heal time (R148). -/
def Ctl.healStarts (c : Ctl) (l : Nat) : Ctl :=
  match c.chainOfLane l with
  | some (ch, _) =>
    if (c.breaks ch).isEmpty && (c.chainState ch == 3 || c.chainState ch == 4) && (c.mgr ch).healFrom == none then
      c.setMgr ch { c.mgr ch with healFrom := some c.now } else c
  | none => c

/-- LOS is clear: 10 us of swing have passed since it was declared (R198). -/
def Ctl.losClear (c : Ctl) (l : Nat) : Bool := c.nat (Obj.lane_down_reason l) != 1 || decide ((c.lane l).downAt + 10000 ≤ c.now)

/-- LANE_RECOVER: a DOWN receiver that aligns is ACTIVE without training; one that went DOWN with TRAIN_TIMEOUT trains again. -/
def execLaneRecover (lane : Nat) (symbols : List Nat) (s : State) : Host.Outcome State Fault Refusal :=
  let c := s.mach.ctl
  let ready := decide (lane < 32 ∧ c.rx lane = 7 ∧ c.nat (Obj.quad_state (quadOf lane)) = 2) && c.losClear lane
  match if ready then c.aligns lane symbols else none with
  | some d => nextCtl s (if c.nat (Obj.lane_down_reason lane) = 4 then d.startTraining lane else (d.laneActive lane).healStarts lane)
  | none => .next s

/-! ### Rate matching (R189, R190) -/

/-- A SKIP of a lane is due: 11,520 code groups after the start of the last. -/
def Ctl.skipDue (c : Ctl) (l : Nat) : Bool := decide (11520 ≤ c.groupsIn l (c.now - (c.lane l).skipAt))

/-- A SKIP leaves. -/
def Ctl.sendSkip (c : Ctl) (l : Nat) : Ctl := (c.setLane l { c.lane l with skipAt := c.now }).sendNow l (.sets [.skip] 1)

/-- The response of a lane and the requests of its receivers are repeated, one in every 256 code groups up to the next SKIP; a response
ends 100 us after its last request (R194). -/
def Ctl.repeatTraining (c : Ctl) (l : Nat) : Ctl :=
  let c1 := match (c.lane l).answer with
    | some (echo, status, at_) =>
      if c.now < at_ + 100000 then c.sendSpaced l (.trainRsp echo status) 45 else c.setLane l { c.lane l with answer := none }
    | none => c
  forEach (c1.lanesWith l) (fun c j => match (c.lane j).request with
    | some q => c.sendSpaced l (.trainReq (c.ownTarget j) q) 45
    | none => c) c1

/-- A TRIGGER of the lane's camera starts within the next 8 code groups (R245). -/
def Ctl.triggerNear (c : Ctl) (l : Nat) : Bool :=
  match c.camOfLane l with
  | some k => c.bondLane k == some l && match c.triggerAt k 5 with
    | some t => decide (c.now < t ∧ c.groupsIn l (t - c.now) < 8)
    | none => false
  | none => false

/-- SKIP_SEND (R189): a SKIP that is due leaves, one within the 8 code groups before a TRIGGER only after that (R245). -/
def execSkipSend (lane : Nat) (s : State) : Host.Outcome State Fault Refusal :=
  let c := s.mach.ctl
  if lane < 32 ∧ c.tx lane = 2 ∧ c.skipDue lane = true ∧ c.triggerNear lane = false then
    nextCtl s (((c.sendSkip lane).sendHeld lane).repeatTraining lane)
  else .next s

/-- The lanes whose buffers act together: a camera's bonded lanes, or the lane alone (R191). -/
def Ctl.bonded (c : Ctl) (l : Nat) : List Nat :=
  match c.camOfLane l with
  | some k => c.camLanes k
  | none => [l]

/-- A received SKIP deleted or doubled on every bonded lane. -/
def Ctl.matchRate (c : Ctl) (l held : Nat) : Ctl :=
  forEach (c.bonded l) (fun c j =>
    let x := c.lane j
    let h := if j = l then held else x.elastic
    if 40 < held then (c.setLane j { x with elastic := h - 4 }).bumpWrap (Obj.skips_deleted j) 1
    else if held < 24 then (c.setLane j { x with elastic := h + 4 }).bumpWrap (Obj.skips_inserted j) 1
    else c.setLane j { x with elastic := h }) c

/-- SKIP_RECEIVED: `held` code groups stand in the elastic buffer; at 0 or 64 it has overrun. -/
def execSkipReceived (lane held : Nat) (s : State) : Host.Outcome State Fault Refusal :=
  let c := s.mach.ctl
  if lane < 32 ∧ c.aligned lane = true then
    if held = 0 ∨ 64 ≤ held then
      nextCtl s ((c.laneFalls lane 5).ring Src.LANE_SLIP lane (Obj.elastic_overruns lane))
    else nextCtl s (c.matchRate lane held)
  else .next s

/-! ### Sleep (R200, R201) -/

/-- SLEEP_RECEIVED: on the second SLEEP set the receiver sleeps. -/
def execSleepReceived (lane : Nat) (s : State) : Host.Outcome State Fault Refusal :=
  let c := s.mach.ctl
  if lane < 32 ∧ c.aligned lane = true then
    let before := if c.rx lane = 6 then 5 else c.rx lane
    let c1 := c.calFail lane St.CAL_ABORTED
    let c2 := c1.setRx lane 1
    nextCtl s (c2.setLane lane { c2.lane lane with before := before, signalAt := none })
  else .next s

/-- A lane sleeps after it has received SLEEP, not as a spare. -/
def Ctl.asleep (c : Ctl) (l : Nat) : Bool := c.rx l == 1 && decide ((c.lane l).before ≠ 0)

/-- LANE_WAKE: a sleeping receiver detects signal; once it aligns it is back in its state before sleep, without training. -/
def execLaneWake (lane : Nat) (symbols : List Nat) (s : State) : Host.Outcome State Fault Refusal :=
  let c := s.mach.ctl
  if lane < 32 ∧ c.asleep lane = true then
    match c.aligns lane symbols with
    | some d =>
      let d1 := d.setRx lane (c.lane lane).before
      nextCtl s ((d1.setLane lane { d1.lane lane with before := 0, signalAt := none }).checkTrained lane)
    | none => nextCtl s (c.setLane lane { c.lane lane with signalAt := some ((c.lane lane).signalAt.getD c.now) })
  else .next s

/-- WAKE_ALIGN_TIMEOUT: a receiver that has not aligned 100 us after it detected signal is DOWN with ALIGN. -/
def execWakeAlignTimeout (lane : Nat) (s : State) : Host.Outcome State Fault Refusal :=
  let c := s.mach.ctl
  match if lane < 32 ∧ c.asleep lane = true then (c.lane lane).signalAt else none with
  | some t =>
    if t + 100000 ≤ c.now then
      let c1 := (c.setRx lane 3).setLane lane { c.lane lane with before := 0, signalAt := none }
      nextCtl s (c1.laneFalls lane 3)
    else .next s
  | none => .next s

/-- A transmitter goes to sleep with 16 SLEEP sets. -/
def Ctl.txSleeps (c : Ctl) (l : Nat) : Ctl :=
  if c.tx l = 2 then
    let c1 := c.sendNow l (.sets [.sleep] 16)
    (c1.putN (Obj.tx_state l) 1).setLane l { c1.lane l with sleptAt := c.now, held := [], wokeAt := none }
  else c

/-- Every transmitter of a chain has slept for longer than 500 us: its heads are in SAFE (R160, R201). -/
def Ctl.sleptLong (c : Ctl) (ch : Nat) : Bool :=
  (c.lanesOf ch).all fun l => c.tx l == 1 && decide ((c.lane l).sleptAt + 500000 < c.now)

/-- Heads of a chain that has slept long are owed CONFIG and SYNC (R201). -/
def Ctl.oweConfig (c : Ctl) (l : Nat) : Ctl :=
  match c.chainOfLane l with
  | some (ch, _) =>
    if c.sleptLong ch then forEach (headsOfChain ch) (fun c h => c.setHeadMgr h { c.headMgr h with owed := 2 }) c else c
  | none => c

/-- A sleeping transmitter wakes, driving IDLE with precoder state 0. -/
def Ctl.txWakes (c0 : Ctl) (l : Nat) : Ctl :=
  if c0.tx l = 1 then
    let c := c0.oweConfig l
    let x := c.lane l
    ((c.putN (Obj.tx_state l) 2).setLane l { x with skipAt := c.now, wokeAt := some c.now, code := { x.code with p := 0, at_ := c.now }
                                                    }).sendNow l (.sets [.idle (c.hopByte l)] 1)
  else c0

/-- The lane's chain has a RUNNING head. -/
def Ctl.chainRuns (c : Ctl) (l : Nat) : Bool :=
  match c.chainOfLane l with
  | some (ch, _) => (headsOfChain ch).any fun h => c.headState h == 2
  | none => false

/-- The lane's camera is STREAMING. -/
def Ctl.camRuns (c : Ctl) (l : Nat) : Bool :=
  match c.camOfLane l with
  | some k => c.camState k == 3
  | none => false

/-- A write of tx_sleep (R201, R205). -/
def ownTxSleep (l v _n : Nat) (c : Ctl) : Nat × Ctl :=
  if c.chainRuns l then refuse St.LANE_IN_USE c
  else
    let c1 := c.putN (Obj.tx_sleep l) v
    (St.OK, if v = 1 then c1.txSleeps l else if c1.laneWanted l && c1.transmits l then c1.txWakes l else c1)

/-- TX_SLEEP_WRITE. -/
def execTxSleepWrite (r : Req) (lane arg : Nat) (s : State) : Host.Outcome State Fault Refusal :=
  if lane < 32 then nextMach s (s.mach.ctlRow r (Obj.tx_sleep lane) (le 1 arg) (ownTxSleep lane arg)) else .next s

/-! ### Roles and rates (R202) -/

/-- A lane is named by a chain or a camera, or serves a calibration. -/
def Ctl.laneInUse (c : Ctl) (l : Nat) : Bool :=
  c.onChain l || (c.camOfLane l).isSome || c.spareBusy l || (c.lane l).cal.isSome

/-- A write of lane_role: a lane of a quad that runs starts in its new role. -/
def ownLaneRole (l v _n : Nat) (c : Ctl) : Nat × Ctl :=
  if v = 1 ∧ c.nat (Obj.quad_rate (quadOf l)) < 160 then refuse St.RATE_MISMATCH c
  else if v ≠ c.role l ∧ c.laneInUse l = true then refuse St.LANE_IN_USE c
  else
    let c1 := c.putN (Obj.lane_role l) v
    (St.OK, if c.nat (Obj.quad_state (quadOf l)) = 2 ∧ v ≠ c.role l then c1.startLane l else c1)

/-- LANE_ROLE_WRITE. -/
def execLaneRoleWrite (r : Req) (lane arg : Nat) (s : State) : Host.Outcome State Fault Refusal :=
  if lane < 32 then nextMach s (s.mach.ctlRow r (Obj.lane_role lane) (le 1 arg) (ownLaneRole lane arg)) else .next s

/-- A quad whose ride runs starts again (R197): its PLL locks anew, its lanes are off until then; a calibration that one of its lanes
takes part in is aborted (R16, R204). -/
def Ctl.restartQuad (c : Ctl) (q : Nat) : Ctl :=
  if c.nat (Obj.quad_state q) = 0 then c
  else
    let c0 := forEach (List.range 32) (fun c l => match (c.lane l).cal with
      | some k => if quadOf k.spare = q ∧ quadOf l ≠ q then
          (if c.rx l = 6 then c.setRx l 5 else c).calFail l St.CAL_ABORTED else c
      | none => c) c
    forEach (lanesOfQuad q) (fun c l => ((c.calFail l St.CAL_ABORTED).setRx l 0).putN (Obj.tx_state l) 0)
      ((c0.putN (Obj.quad_state q) 1).clockStarts (12 + q))

/-- quad_rate, and the net rate it gives (R206). -/
def Ctl.putQuadRate (c : Ctl) (q v : Nat) : Ctl := (c.putN (Obj.quad_rate q) v).putN (Obj.lane_net_rate q) (v * 160)

/-- A write of quad_rate. -/
def ownQuadRate (q v _n : Nat) (c : Ctl) : Nat × Ctl :=
  let ls := lanesOfQuad q
  if v < 160 ∧ ls.any (fun l => c.role l == 1) = true then refuse St.RATE_MISMATCH c
  else if ls.any (fun l => c.chainRuns l || c.camRuns l) then refuse St.LANE_IN_USE c
  else
    let c1 := c.putQuadRate q v
    (St.OK, if v = c.nat (Obj.quad_rate q) then c1 else (c.restartQuad q).putQuadRate q v)

/-- QUAD_RATE_WRITE. -/
def execQuadRateWrite (r : Req) (quad arg : Nat) (s : State) : Host.Outcome State Fault Refusal :=
  if quad < 8 then nextMach s (s.mach.ctlRow r (Obj.quad_rate quad) (le 2 arg) (ownQuadRate quad arg)) else .next s

/-! ### Lane commands (R203 to R205) -/

/-- retrain: RETRAIN_ALL on the lane's paths, every receiver training from the taps in force. -/
def ownRetrain (l n : Nat) (c : Ctl) : Nat × Ctl :=
  if c.chainRuns l || c.camRuns l then refuse St.LANE_IN_USE c
  else if c.cmdBusy (Obj.calibrate_slicer l) then refuse St.LANE_BUSY c
  else
    let c1 := (c.cmdRun (Obj.retrain l) n).setLane l { c.lane l with retraining := true }
    let c2 := forEach (c1.lanesWith l) (fun c j => c.sendSet j (.trainReq 0xFF 0)) c1
    (St.STARTED, c2.restartTraining l)

/-- RETRAIN. -/
def execRetrain (r : Req) (lane arg : Nat) (s : State) : Host.Outcome State Fault Refusal :=
  if lane < 32 then nextMach s (s.mach.ctlRow r (Obj.retrain lane) (le 1 arg) (ownRetrain lane)) else .next s

/-- A free spare at a lane's symbol rate. -/
def Ctl.spareFor (c : Ctl) (l j : Nat) : Bool :=
  c.role j == 3 && !c.spareBusy j && c.nat (Obj.quad_rate (quadOf j)) == c.nat (Obj.quad_rate (quadOf l))

/-- Why calibrate_slicer is refused, or its spare (R203). -/
def Ctl.calSpare (c : Ctl) (l arg : Nat) : Except Nat Nat :=
  if c.rx l ≠ 5 then .error St.LANE_DOWN
  else if arg ≠ 0xFF ∧ c.spareFor l arg = false then .error St.RATE_MISMATCH
  else
    match if arg = 0xFF then (List.range 32).find? (c.spareFor l) else some arg with
    | none => .error St.BUSY_NO_SPARE
    | some j => if (c.lane l).retraining then .error St.LANE_BUSY else .ok j

/-- calibrate_slicer: the spare wakes on the lane's input (R204 step 1). -/
def ownCalibrate (l arg n : Nat) (c : Ctl) : Nat × Ctl :=
  match c.calSpare l arg with
  | .error e => refuse e c
  | .ok j =>
    let c1 := (c.cmdRun (Obj.calibrate_slicer l) n).needRide (rideLink (quadOf j))
    (St.STARTED, c1.setLane l { c1.lane l with cal := some ⟨j, 1, 0, c.oct (Obj.rx_thresholds l), c.nat (Obj.rx_dfe l)⟩ })

/-- CALIBRATE_SLICER. -/
def execCalibrateSlicer (r : Req) (lane arg : Nat) (s : State) : Host.Outcome State Fault Refusal :=
  if lane < 32 then nextMach s (s.mach.ctlRow r (Obj.calibrate_slicer lane) (le 1 arg) (ownCalibrate lane arg)) else .next s

/-- The calibration of a lane at a stage. -/
def Ctl.calAt (c : Ctl) (l stage : Nat) : Option LaneCal := (c.lane l).cal.filter fun k => k.stage == stage

/-- CAL_SWITCH_TO_SPARE: the output switches, rx_state is CAL (R204 step 2), to a spare at the lane's rate (R16). -/
def execCalSwitchToSpare (lane : Nat) (s : State) : Host.Outcome State Fault Refusal :=
  let c := s.mach.ctl
  match if lane < 32 then (c.calAt lane 1).filter (fun k => c.rateOf k.spare == c.rateOf lane) else none with
  | some k =>
    let c1 := (c.setRx lane 6).putN (Obj.cal_spare lane) k.spare
    nextCtl s (c1.setLane lane { c1.lane lane with cal := some { k with stage := 2 } })
  | none => .next s

/-- Three thresholds as I16 and four taps as I8 (R205). -/
def thresholdBytes (t : List Int) : List Byte := ((List.range 3).map fun i => le 2 (uns 16 (t.getD i 0))).flatten
def dfeWord (d : List Int) : Nat := ((List.range 4).map fun i => uns 8 (d.getD i 0) * 256 ^ i).sum

/-- The steps of the sampler's sweep that a median lies at, in whole steps: the first by which half the samples are counted (R204; log
entry 153). -/
def medianStep (hist : List Nat) : Nat :=
  ((List.range hist.length).find? fun i => decide (hist.sum ≤ 2 * (hist.take (i + 1)).sum)).getD 0

/-- Thresholds midway between the medians of adjacent levels; what a sampler step is in 0.25 mV is open (log entry 153). -/
def sweepThresholds (levels : List (List Nat)) : List Int :=
  (List.range 3).map fun i => Config.sweepValue 2 (medianStep (levels.getD i []) + medianStep (levels.getD (i + 1) []) : Nat)

/-- Taps one sixth of the difference of the two medians, with the symbol k earlier at +3 and at -3, in 0.5 mV. -/
def sweepTaps (pairs : List (List Nat × List Nat)) : List Int :=
  (List.range 4).map fun i =>
    let p := pairs.getD i ([], [])
    Config.sweepValue 6 ((medianStep p.1 : Int) - medianStep p.2)

/-- CAL_HISTOGRAMS_DONE: the levels' histograms and, for each of h1 to h4, those with the earlier symbol +3 and -3 give the thresholds and
taps, which are loaded (R204 steps 3 and 4). -/
def execCalHistogramsDone (lane : Nat) (levels : List (List Nat)) (pairs : List (List Nat × List Nat)) (s : State) :
    Host.Outcome State Fault Refusal :=
  let c := s.mach.ctl
  match if lane < 32 then c.calAt lane 2 else none with
  | some k =>
    let c1 := (c.putO (Obj.rx_thresholds lane) (thresholdBytes (sweepThresholds levels))).putN (Obj.rx_dfe lane)
      (dfeWord (sweepTaps pairs))
    nextCtl s (c1.setLane lane { c1.lane lane with cal := some { k with stage := 3, loadedAt := c.now } })
  | none => .next s

/-- CAL_SWITCH_BACK: the output is the lane's own again, the spare sleeps, the result goes to the attic (R204, R302). -/
def execCalSwitchBack (lane : Nat) (s : State) : Host.Outcome State Fault Refusal :=
  let c := s.mach.ctl
  match if lane < 32 then c.calAt lane 3 else none with
  | some _ =>
    let c1 := ((c.setRx lane 5).calOver lane).putN (Obj.last_cal_time lane) c.localNs
    let data := c1.oct (Obj.rx_thresholds lane) ++ le 4 (c1.nat (Obj.rx_dfe lane)) ++ le 2 (c1.nat (Obj.quad_rate (quadOf lane)))
    let c2 := if c1.atticReady then c1.atticWrite (.record regionCalibration kindSlicer lane data 0) else c1
    nextCtl s (c2.cmdDone (Obj.calibrate_slicer lane) Src.LANE_CMD_DONE lane)
  | none => .next s

/-- CAL_DIVERGE_TIMEOUT: 1 ms after loading the lane takes its values back and switches back. -/
def execCalDivergeTimeout (lane : Nat) (s : State) : Host.Outcome State Fault Refusal :=
  let c := s.mach.ctl
  match if lane < 32 then c.calAt lane 3 else none with
  | some k =>
    if k.loadedAt + ms ≤ c.now then nextCtl s ((c.setRx lane 5).calFail lane St.CAL_DIVERGED) else .next s
  | none => .next s

/-- CAL_SPARE_LOST: a serving spare lost alignment; values restored, output back at once, the groups lost meanwhile counted. -/
def execCalSpareLost (lane lost : Nat) (s : State) : Host.Outcome State Fault Refusal :=
  let c := s.mach.ctl
  if lane < 32 ∧ ((c.calAt lane 2).isSome || (c.calAt lane 3).isSome) = true then
    nextCtl s (((c.setRx lane 5).addErrors lane lost).calFail lane St.CAL_ABORTED)
  else .next s

/-- clear_counters: 3140+l:09 to 11 to 0. -/
def ownClearCounters (l n : Nat) (c : Ctl) : Nat × Ctl :=
  let c1 := forEach (List.range 9) (fun c i => c.putN (Obj.groups_received l + i) 0) c
  (St.STARTED, (c1.setLane l { c1.lane l with countFrom := (c1.lane l).countFrom.map fun _ => c.now }).cmdNow (Obj.clear_counters l) n
    Src.LANE_CMD_DONE l)

/-- CLEAR_COUNTERS. -/
def execClearCounters (r : Req) (lane arg : Nat) (s : State) : Host.Outcome State Fault Refusal :=
  if lane < 32 then nextMach s (s.mach.ctlRow r (Obj.clear_counters lane) (le 1 arg) (ownClearCounters lane)) else .next s

end Sys2Proof.Machine
end

