-- ==== Sys2Proof/Machine/Color.lean ====
section
/-! DEFINITION. CIE L*a*b* (R255, R271) and the colour difference CIEDE2000 (R276), worked out far more finely than the rules ask; within
what they allow, the controller's own result is free. -/

namespace Sys2Proof.Machine

/-! ### Numbers in 1/2^64 -/

/-- One. -/
abbrev fxOne : Int := 2 ^ 64

/-- A fraction. -/
def fxOf (a : Frac) : Int := a.num * fxOne / a.den

/-- Product, quotient, square root. -/
def fxMul (a b : Int) : Int := a * b / fxOne
def fxDiv (a b : Int) : Int := if b = 0 then 0 else a * fxOne / b
def fxSqrt (a : Int) : Int := isqrt (a.toNat * 2 ^ 64)

/-- The cube root of a number of `f` bits, rounded down. -/
def icbrt : Nat → Nat → Nat → Nat
  | 0, _, r => r
  | f + 1, n, r => let s := r + 2 ^ f; icbrt f n (if s * s * s ≤ n then s else r)

/-- The sum of `n` terms, each made of the one before it. -/
def fxSeries (next : Nat → Int → Int) : Nat → Nat → Int → Int
  | 0, _, _ => 0
  | n + 1, k, t => t + fxSeries next n (k + 1) (next k t)

/-- Half a turn. -/
abbrev fxPi : Int := 57952155664616982739

/-- An angle in degrees. -/
def fxDegrees (d : Int) : Int := d * fxPi / 180

/-- Sine and cosine, by their series of the angle less half a turn. -/
def fxSin (x : Int) : Int :=
  let r := x % (2 * fxPi) - fxPi
  Int.neg (fxSeries (fun k t => -(fxMul t (fxMul r r)) / ((2 * k + 2) * (2 * k + 3) : Nat)) 32 0 r)
def fxCos (x : Int) : Int :=
  let r := x % (2 * fxPi) - fxPi
  Int.neg (fxSeries (fun k t => -(fxMul t (fxMul r r)) / ((2 * k + 1) * (2 * k + 2) : Nat)) 32 0 fxOne)

/-- The angle whose tangent is a number of 0 to 1: four times that of a quarter of it, by its series. -/
def fxAtan (x : Int) : Int :=
  let half (t : Int) : Int := fxDiv t (fxOne + fxSqrt (fxOne + fxMul t t))
  let y := half (half x)
  4 * fxSeries (fun k t => -(fxMul t (fxMul y y)) * (2 * k + 1 : Nat) / (2 * k + 3 : Nat)) 32 0 y

/-- The angle of a point, from 0 to a whole turn; 0 for the origin. -/
def fxAngle (y x : Int) : Int :=
  let p := (y.natAbs : Int)
  let q := (x.natAbs : Int)
  let base := if p ≤ q then fxAtan (fxDiv p q) else fxPi / 2 - fxAtan (fxDiv q p)
  let upper := if 0 ≤ x then base else fxPi - base
  if 0 ≤ y then upper else 2 * fxPi - upper

/-- e to the minus x, for x at least 0. -/
def fxExpNeg (x : Int) : Int :=
  if 64 * fxOne < x then 0
  else
    let part := fxSeries (fun k t => -(fxMul t (x / 64)) / (k + 1 : Nat)) 32 0 fxOne
    (List.range 6).foldl (fun p _ => fxMul p p) part

/-! ### L*a*b* (R255, R271) -/

/-- The function of the CIE 1976 equations. -/
def cieRoot (t : Frac) : Int :=
  if Frac.lt ⟨216, 24389⟩ t then icbrt 72 (t.num.toNat * 2 ^ 192 / t.den) 0
  else fxOf ((Frac.mk 841 108).mul t |>.add ⟨4, 29⟩)

/-- The D50 white. -/
abbrev whiteD50 : List Frac := [⟨9642, 10000⟩, ⟨1, 1⟩, ⟨8252, 10000⟩]

/-- How far a measured (0) or expected (1) component may lie from the exact one, in 1/65,536: 0.02 and 0.05. -/
def labBound (which : Nat) : Nat := if which = 0 then 1310 else 3276

/-- CIE L*a*b* as encoded, from X, Y and Z, measured (0) or expected (1): the exact value, off by a free amount within the bound. -/
def labOf (which : Nat) (xyz : List Frac) : Lab :=
  let f (i : Nat) : Int := cieRoot ((xyz.getD i ⟨0, 1⟩).div (whiteD50.getD i ⟨1, 1⟩))
  let args := (xyz.map fun v => [v.num, (v.den : Int)]).flatten
  let b := labBound which
  let off (i : Nat) : Int := ((Config.labSlip which i args % (2 * b + 1) : Nat) - (b : Int)) * 2 ^ 48
  let encode (scale lo hi v : Int) : Int := clampI lo hi ((2 * v * scale + fxOne) / (2 * fxOne))
  ⟨(encode 512 0 51200 (116 * f 1 - 16 * fxOne + off 0)).toNat, encode 256 (-32768) 32767 (500 * (f 0 - f 1) + off 1),
    encode 256 (-32768) 32767 (200 * (f 1 - f 2) + off 2)⟩

/-! ### CIEDE2000 (R276) -/

/-- x^7 / (x^7 + 25^7). -/
def seventh (x : Int) : Int :=
  let x2 := fxMul x x
  let x7 := fxMul (fxMul (fxMul x2 x2) x2) x
  fxDiv x7 (x7 + 6103515625 * fxOne)

/-- The difference of two colours as (L*, a*, b*) with the factors kL, kC, kH, as ISO/CIE 11664-6 has it. -/
def deltaE00 (l1 a1 b1 l2 a2 b2 kL kC kH : Int) : Int :=
  let chroma (a b : Int) : Int := fxSqrt (fxMul a a + fxMul b b)
  let g := (fxOne - fxSqrt (seventh ((chroma a1 b1 + chroma a2 b2) / 2))) / 2
  let p1 := a1 + fxMul g a1
  let p2 := a2 + fxMul g a2
  let c1 := chroma p1 b1
  let c2 := chroma p2 b2
  let h1 := if c1 = 0 then 0 else fxAngle b1 p1
  let h2 := if c2 = 0 then 0 else fxAngle b2 p2
  let grey := decide (c1 = 0 ∨ c2 = 0)
  let wide := decide (fxPi < (h2 - h1).natAbs)
  let dh := if grey then 0 else if !wide then h2 - h1 else if h2 ≤ h1 then h2 - h1 + 2 * fxPi else h2 - h1 - 2 * fxPi
  let dH := 2 * fxMul (fxSqrt (fxMul c1 c2)) (if 0 ≤ dh then fxSin (dh / 2) else -(fxSin (-dh / 2)))
  let lm := (l1 + l2) / 2 - 50 * fxOne
  let cm := (c1 + c2) / 2
  let hm := if grey then h1 + h2 else if !wide then (h1 + h2) / 2 else if h1 + h2 < 2 * fxPi then (h1 + h2) / 2 + fxPi else (h1 + h2) / 2 - fxPi
  let t := fxOne + (-17 * fxCos (hm - fxDegrees 30) + 24 * fxCos (2 * hm) + 32 * fxCos (3 * hm + fxDegrees 6) -
    20 * fxCos (4 * hm - fxDegrees 63)) / 100
  let turn := fxDiv (hm - fxDegrees 275) (fxDegrees 25)
  let rc := 2 * fxSqrt (seventh cm)
  let rt := -(fxMul (fxSin (2 * (fxMul (fxDegrees 30) (fxExpNeg (fxMul turn turn))))) rc)
  let sl := fxOne + fxDiv (15 * fxMul lm lm / 1000) (fxSqrt (20 * fxOne + fxMul lm lm))
  let x := fxDiv (l2 - l1) (fxMul kL sl)
  let y := fxDiv (c2 - c1) (fxMul kC (fxOne + 45 * cm / 1000))
  let z := fxDiv dH (fxMul kH (fxOne + 15 * fxMul cm t / 1000))
  fxSqrt (fxMul x x + fxMul y y + fxMul z z + fxMul rt (fxMul y z))

/-- The difference of two encoded means under factors in 0.01, in 0.01, within 0.01 of the exact one; it saturates (R276). -/
def reportedDe (m : List Int) (factors : List Byte) : Nat :=
  let v (i scale : Nat) : Int := m.getD i 0 * fxOne / scale
  let k (i : Nat) : Int := fld factors (2 * i) 2 * fxOne / 100
  let de := deltaE00 (v 0 512) (v 1 256) (v 2 256) (v 3 512) (v 4 256) (v 5 256) (k 0) (k 1) (k 2)
  min 65535 ((100 * de / fxOne).toNat + Config.deSlip m % 2)

end Sys2Proof.Machine
end

