-- ==== Sys2Proof/Machine/CsiOps.lean ====
section
/-! DEFINITION. The CSI-2 packet layer a camera sends (R241), and the pixel stages up to the stitch (R252). -/

namespace Sys2Proof.Machine

/-! ### Packet layer (R241, log entry 62) -/

/-- The syndrome of each header bit, 24 and 25 being VCX. -/
def eccCodes : List Nat :=
  [0x07, 0x0B, 0x0D, 0x0E, 0x13, 0x15, 0x16, 0x19, 0x1A, 0x1C, 0x23, 0x25, 0x26, 0x29, 0x2A, 0x2C, 0x31, 0x32, 0x34, 0x38,
    0x1F, 0x2F, 0x37, 0x3B, 0x3D, 0x3E]

/-- The ECC of 26 header bits. -/
def csiEcc (d : Nat) : Nat :=
  (List.range 26).foldl (fun e i => if bit d i then e ^^^ eccCodes.getD i 0 else e) 0

/-- The 26 header bits of a received header, a single-bit error corrected; none for any other error. -/
def csiHeader (h : Nat) : Option Nat :=
  let d := h % 2 ^ 24 + h / 2 ^ 30 % 4 * 2 ^ 24
  let e := csiEcc d ^^^ (h / 2 ^ 24 % 64)
  if e = 0 ∨ [1, 2, 4, 8, 16, 32].contains e = true then some d
  else match (List.range 26).find? fun i => eccCodes.getD i 0 == e with
    | some i => some (d ^^^ 2 ^ i)
    | none => none

/-- One bit of the footer checksum. -/
def csiCrcBit : Nat → Nat → Nat
  | 0, v => v
  | f + 1, v => csiCrcBit f (if v % 2 = 1 then v / 2 ^^^ 0x8408 else v / 2)

/-- The footer checksum of a payload. -/
def csiChecksum (b : List Byte) : Nat := b.foldl (fun v x => csiCrcBit 8 (v ^^^ x.toNat)) 0xFFFF

/-- Pixels of a group of bytes that share their low bits: `n` pixels' high bytes, then their low bits, lowest pixel first. -/
def groupPixels (n low : Nat) (g : List Byte) : List Nat :=
  let tail := leVal (g.drop n)
  (List.range n).map fun i => (g.getD i 0).toNat * 2 ^ low + tail / 2 ^ (low * i) % 2 ^ low

/-- A payload cut into groups of `m` bytes. -/
def groupsOf (m : Nat) : Nat → List Byte → List (List Byte)
  | 0, _ => []
  | f + 1, b => if b.isEmpty then [] else b.take m :: groupsOf m f (b.drop m)

/-- Raw pixels of a row of a RAW type. -/
def rawPixels (dt : Nat) (b : List Byte) : List Nat :=
  if dt = 0x2A then b.map (·.toNat)
  else if dt = 0x2B then ((groupsOf 5 b.length b).map (groupPixels 4 2)).flatten
  else if dt = 0x2C then ((groupsOf 3 b.length b).map (groupPixels 2 4)).flatten
  else if dt = 0x2D then ((groupsOf 7 b.length b).map (groupPixels 4 6)).flatten
  else (groupsOf 2 b.length b).map beVal

/-- Stage 1 (R252): a row of `w` pixels unpacked to 16 bits. -/
def unpackRow (dt w : Nat) (b : List Byte) : List Nat := ((rawPixels dt b).take w).map fun v => v * 2 ^ (16 - rawBits dt)

/-! ### Stages 2 to 4 (R252) -/

/-- The black-level phase of a pixel: 0 R, 1 Gr, 2 Gb, 3 B. -/
def phaseOf (bayer r x : Nat) : Nat :=
  let p := 2 * (r % 2) + x % 2
  if bayer = 0 then p
  else if bayer = 1 then [1, 0, 3, 2].getD p 0
  else if bayer = 2 then [2, 3, 0, 1].getD p 0
  else if bayer = 3 then 3 - p
  else 0

/-- What the stages need of a tile. -/
structure TileSet where
  width : Nat
  rows : Nat
  bayer : Nat
  black : List Byte
  defects : List Byte
  dynamic : Nat
  flat : List Byte
  deriving DecidableEq, Repr

/-- The settings of tile `v` of camera `k` for a frame, with the flat-field bank in force since its Frame Start. -/
def Ctl.tileSet (c : Ctl) (k v : Nat) (f : SensorFrame) : TileSet :=
  let t := 4 * k + v
  ⟨c.nat (Obj.tile_width t), c.nat (Obj.sensor_rows t), c.nat (Obj.bayer t), c.oct (Obj.black_level t), c.oct (Obj.defect_list t),
    c.nat (Obj.dynamic_defect t), f.flat⟩

/-- Stage 2 of a pixel of a frame, if its row is there. -/
def TileSet.black2 (s : TileSet) (f : SensorFrame) (r x : Nat) : Option Nat :=
  match kvGet [] f.rows r with
  | [] => none
  | row => if x < s.width then some (row.getD x 0 - fld s.black (2 * phaseOf s.bayer r x) 2) else none

/-- Neighbours of the same phase at distance 2 within the frame. -/
def TileSet.neighbours (s : TileSet) (f : SensorFrame) (r x : Nat) : List Nat :=
  ((if 2 ≤ r then [s.black2 f (r - 2) x] else []) ++ (if r + 2 < s.rows then [s.black2 f (r + 2) x] else []) ++
    (if 2 ≤ x then [s.black2 f r (x - 2)] else []) ++ [s.black2 f r (x + 2)]).filterMap id

/-- A number put into a rising list. -/
def insertUp (n : Nat) : List Nat → List Nat
  | [] => [n]
  | m :: r => if n ≤ m then n :: m :: r else m :: insertUp n r

/-- A list in rising order. -/
def sortUp (l : List Nat) : List Nat := l.foldl (fun acc n => insertUp n acc) []

/-- The mean of two values; which way a half goes is open (log entry 61). -/
def mean2 (p q : Nat) : Nat := (p + q + (if (p + q) % 2 = 1 then Config.halfOf (p + q) % 2 else 0)) / 2

/-- The mean of the two middle values, or the median of three. -/
def middle (l : List Nat) : Nat :=
  let s := sortUp l
  if l.length % 2 = 1 then s.getD (l.length / 2) 0 else mean2 (s.getD (l.length / 2 - 1) 0) (s.getD (l.length / 2) 0)

/-- A pixel is in the defect list. -/
def TileSet.listed (s : TileSet) (r x : Nat) : Bool :=
  (List.range (s.defects.length / 4)).any fun i => fld s.defects (4 * i) 4 == r * 65536 + x

/-- Stage 3 of a pixel. -/
def TileSet.stage3 (s : TileSet) (f : SensorFrame) (r x : Nat) : Option Nat :=
  match s.black2 f r x with
  | none => none
  | some v =>
    let ns := s.neighbours f r x
    let out := ns.all (fun n => decide (n + s.dynamic < v)) || ns.all (fun n => decide (v + s.dynamic < n))
    some (if !ns.isEmpty && (s.listed r x || (s.dynamic != 0 && out)) then middle ns else v)

/-- Stage 4 of a pixel: the flat field (R252, R265). -/
def TileSet.stage4 (s : TileSet) (f : SensorFrame) (r x : Nat) : Option Nat :=
  (s.stage3 f r x).map fun v =>
    min 65535 (v * fld s.flat (4 * x + 2 * (r % 2)) 2 / 16384 * fld s.flat (32768 + 2 * r) 2 / 16384)

/-! ### The stitch (R248 to R250) -/

/-- The enabled tile that owns an image column of camera `k`. -/
def Ctl.ownerTile (c : Ctl) (k x : Nat) : Option Nat :=
  ((c.tiles k).filter fun v => decide (c.nat (Obj.seam (4 * k + v)) ≤ x)).getLast?

/-- The sensor row of an image row in a tile, if it has one. -/
def Ctl.sensorRow (c : Ctl) (k v : Nat) (y : Int) : Option Nat :=
  let r := y - c.int (Obj.tile_y (4 * k + v))
  if 0 ≤ r ∧ r < c.nat (Obj.sensor_rows (4 * k + v)) then some r.toNat else none

/-- The frame of a sensor of an exposure. -/
def Exposure.frame (e : Exposure) (v : Nat) : Option SensorFrame := e.frames.find? fun f => f.sensor == v

/-- The pixels of an image row, none where missing. -/
def Ctl.stitchRow (c : Ctl) (k : Nat) (e : Exposure) (y : Int) : List (Option Nat) :=
  (List.range (c.stitched k)).map fun x =>
    match c.ownerTile k x with
    | none => none
    | some v =>
      match e.frame v, c.sensorRow k v y with
      | some f, some r =>
        let left := c.nat (Obj.tile_x (4 * k + v))
        if left ≤ x then (c.tileSet k v f).stage4 f r (x - left) else none
      | _, _ => none

/-- Image rows that every enabled tile covers: the first, and how many pairs (log entry 68). -/
def Ctl.imageRows (c : Ctl) (k : Nat) : Int × Nat :=
  let ends := (c.tiles k).map fun v => c.int (Obj.tile_y (4 * k + v)) + c.nat (Obj.sensor_rows (4 * k + v))
  let lo := c.firstRow k
  let hi := ends.foldl min 272
  (lo, ((hi - lo) / 2).toNat)

/-- A tile's row is missing in an exposure: no frame, or its row never came whole. -/
def Ctl.rowMissing (c : Ctl) (k : Nat) (e : Exposure) (v : Nat) (y : Int) : Bool :=
  match e.frame v, c.sensorRow k v y with
  | some f, some r => (kvGet [] f.rows r).isEmpty
  | _, _ => true

/-- Some tile's row was lost for skew. -/
def Ctl.rowSkewed (c : Ctl) (k : Nat) (e : Exposure) (y : Int) : Bool :=
  (c.tiles k).any fun v =>
    match e.frame v, c.sensorRow k v y with
    | some f, some r => f.skewed.contains r
    | _, _ => false

/-- Flags of a strip row (R256). -/
def Ctl.rowFlags (c : Ctl) (k : Nat) (e : Exposure) (y : Int) (gap : Bool) : Nat :=
  (((c.tiles k).filter fun v => c.rowMissing k e v y).map fun v => 2 ^ (4 + v)).sum + (if c.rowSkewed k e y then 2 else 0) +
    (if gap then 1 else 0)

/-- Image pitch in 1/256 tick at a web position (R248). -/
def Ctl.pitch256 (c : Ctl) (k : Nat) (at_ : Int) : Int :=
  to256 ((Frac.ofInt (c.nat (Obj.image_pitch_y k))).div (tickPm (pitchAt c.stretches at_.toNat)))

/-- Coordinate of an image row of a tagged exposure, and the pitch there, in 1/256 tick (R248). -/
def Ctl.rowCoordinate (c : Ctl) (k : Nat) (tag y : Int) : Int × Int :=
  let x : Frac := ⟨tag, 256⟩
  let w0 := to256 (backwardBy c.stretches c.stretches.length x (Frac.ofInt (1000 * c.nat (Obj.camera_distance k))))
  let p := c.pitch256 k (w0 / 256)
  (w0 + (y - c.nat (Obj.reference_row k)) * p, p)

end Sys2Proof.Machine
end

