-- ==== Sys2Proof/Machine/Recon.lean ====
section
/-! DEFINITION. Reconstruction, rendering and the measurement path of the pipeline (R253 to R255). -/

namespace Sys2Proof.Machine

/-- A quotient of naturals; which way an inexact one goes is open (log entry 61). -/
def openDiv (a n : Nat) : Nat := a / n + (if a % n = 0 then 0 else Config.roundsUp a n % 2)

/-- A fraction as a whole number, rounded in an open way. -/
def openRound (f : Frac) : Int := if f.num % f.den = 0 then f.floor else f.floor + (Config.roundsUp f.num.natAbs f.den % 2 : Nat)

/-- A value clamped to 16 bits. -/
def clamp16 (v : Int) : Nat := (clampI 0 65535 v).toNat

/-- An index mirrored into 0 to n - 1 (R252). -/
def mirror (i : Int) (n : Nat) : Nat := if i < 0 then (-i).toNat else if (n : Int) ≤ i then (2 * ((n : Int) - 1) - i).toNat else i.toNat

/-- A colour pixel: R, G, B. -/
abbrev Rgb := Nat × Nat × Nat

/-! ### DEMOSAIC (R253) -/

/-- A pixel after stage 4, mirrored at the edges; one of a row that never came is open. -/
def TileSet.at (s : TileSet) (f : SensorFrame) (r x : Int) : Nat :=
  let y := mirror r s.rows
  let z := mirror x s.width
  (s.stage4 f y z).getD (Config.lostPixel (y * 65536 + z) % 65536)

/-- The absolute difference of two values. -/
def apart (a b : Nat) : Nat := max a b - min a b

/-- The gradient along a direction: neighbours at distance 1 and 2 on both sides of a value. -/
def gradient (l r c ll rr : Nat) : Nat := apart l r + ((2 * (c : Int) - ll - rr).natAbs)

/-- A place in the 5 x 5 window of a pixel; one beyond it is mirrored at the window's edge (log entry 92). -/
def inWindow (d : Int) : Int := if 2 < d then 4 - d else if d < -2 then -4 - d else d

/-- Green at a place of a pixel's window: its own, or along the direction of the smaller gradient (R253). -/
def TileSet.greenAt (s : TileSet) (f : SensorFrame) (r x : Nat) (er ex : Int) : Nat :=
  let p := phaseOf s.bayer (mirror (r + er) s.rows) (mirror (x + ex) s.width)
  let v (dr dx : Int) : Nat := s.at f (r + inWindow (er + dr)) (x + inWindow (ex + dx))
  if p = 1 ∨ p = 2 then v 0 0
  else
    let h := gradient (v 0 (-1)) (v 0 1) (v 0 0) (v 0 (-2)) (v 0 2)
    let w := gradient (v (-1) 0) (v 1 0) (v 0 0) (v (-2) 0) (v 2 0)
    if h < w then mean2 (v 0 (-1)) (v 0 1)
    else if w < h then mean2 (v (-1) 0) (v 1 0)
    else openDiv (v 0 (-1) + v 0 1 + v (-1) 0 + v 1 0) 4

/-- Red (phase 0) or blue (3) at a pixel: its own, or green plus the mean colour difference of the nearest sites of that colour, the two
beside or above and below a green site, the four diagonal ones of the other colour's (R253). -/
def TileSet.colour (s : TileSet) (f : SensorFrame) (r x colour : Nat) : Nat :=
  let phase (dr dx : Int) : Nat := phaseOf s.bayer (mirror (r + dr) s.rows) (mirror (x + dx) s.width)
  if phase 0 0 = colour then s.at f r x
  else
    let near : List (Int × Int) := [(0, -1), (0, 1), (-1, 0), (1, 0), (-1, -1), (-1, 1), (1, -1), (1, 1)]
    let sites := near.filter fun d => phase d.1 d.2 == colour
    let diffs : List Int := sites.map fun d => (s.at f (r + d.1) (x + d.2) : Int) - s.greenAt f r x d.1 d.2
    clamp16 (s.greenAt f r x 0 0 + openRound ⟨diffs.sum, max 1 sites.length⟩)

/-- A pixel reconstructed at full resolution; a MONO tile gives grey. -/
def TileSet.full (s : TileSet) (f : SensorFrame) (r x : Nat) : Rgb :=
  let own := s.at f r x
  if s.bayer = 4 then (own, own, own) else (s.colour f r x 0, s.greenAt f r x 0 0, s.colour f r x 3)

/-- The frame, tile and place of an image pixel, if its row came. -/
def Ctl.pixelHome (c : Ctl) (k : Nat) (e : Exposure) (y : Int) (x : Nat) : Option (TileSet × SensorFrame × Nat × Nat) :=
  match c.ownerTile k x with
  | none => none
  | some v =>
    match e.frame v, c.sensorRow k v y with
    | some f, some r =>
      let left := c.nat (Obj.tile_x (4 * k + v))
      let s := c.tileSet k v f
      if left ≤ x ∧ (s.stage4 f r (x - left)).isSome = true then some (s, f, r, x - left) else none
    | _, _ => none

/-- A row at full resolution. -/
def Ctl.fullRow (c : Ctl) (k : Nat) (e : Exposure) (y : Int) : List (Option Rgb) :=
  (List.range (c.stitched k)).map fun x => (c.pixelHome k e y x).map fun h => h.1.full h.2.1 h.2.2.1 h.2.2.2

/-! ### QUAD (R253) -/

/-- A 2 x 2 block: R and B as they are, G the mean of both greens. -/
def quadOfBlock (s : TileSet) (r x : Nat) (b : List Nat) : Rgb :=
  let at_ (p : Nat) : Nat := ((List.range 4).find? fun i => phaseOf s.bayer (r + i / 2) (x + i % 2) == p).getD 0
  let g (p : Nat) : Nat := b.getD (at_ p) 0
  if s.bayer = 4 then let m := openDiv b.sum 4; (m, m, m) else (g 0, mean2 (g 1) (g 2), g 3)

/-- The QUAD row of image rows y and y + 1. -/
def Ctl.quadRow (c : Ctl) (k : Nat) (e : Exposure) (y : Int) : List (Option Rgb) :=
  (List.range (c.stitched k / 2)).map fun i =>
    let x := 2 * i
    match c.pixelHome k e y x, c.pixelHome k e y (x + 1), c.pixelHome k e (y + 1) x, c.pixelHome k e (y + 1) (x + 1) with
    | some a, some b, some d, some f =>
      let v (h : TileSet × SensorFrame × Nat × Nat) : Nat := (h.1.stage4 h.2.1 h.2.2.1 h.2.2.2).getD 0
      some (quadOfBlock a.1 a.2.2.1 a.2.2.2 [v a, v b, v d, v f])
    | _, _, _, _ => none

/-- The reconstruction a choice asks for; a QUAD row comes with the first row of its pair. -/
def Ctl.reconRow (c : Ctl) (k : Nat) (e : Exposure) (y : Int) (quad first : Bool) : List (Option Rgb) :=
  if quad then (if first then c.quadRow k e y else []) else c.fullRow k e y

/-! ### Rendering (R254) -/

/-- A table of the camera as in force for an exposure since its latest Frame Start (R266). -/
def Ctl.colourTable (c : Ctl) (e : Exposure) (key : Nat) : List Byte :=
  let b := kvGet [] e.colours (key % 256)
  if b.isEmpty then c.oct key else b

/-- A 3 x 3 matrix in Q16.16 applied: sums in 1/65,536. -/
def matrixTimes (m : List Byte) (p : Rgb) : List Int :=
  (List.range 3).map fun i =>
    sfld m (12 * i) 4 * p.1 + sfld m (12 * i + 4) 4 * p.2.1 + sfld m (12 * i + 8) 4 * p.2.2

/-- A pixel rendered with set A or B to 10 bits. -/
def Ctl.render (c : Ctl) (k : Nat) (e : Exposure) (setB : Bool) (p : Rgb) : Rgb :=
  let wb := c.colourTable e (if setB then Obj.wb_b k else Obj.wb_a k)
  let m := c.colourTable e (if setB then Obj.matrix_b k else Obj.matrix_a k)
  let curves := c.oct (if setB then Obj.curves_b k else Obj.curves_a k)
  let gain (i v : Nat) : Nat := clamp16 (openDiv (v * fld wb (2 * i) 2) 4096)
  let q := matrixTimes m (gain 0 p.1, gain 1 p.2.1, gain 2 p.2.2)
  let tone (i : Nat) : Nat := fld curves (8192 * i + 2 * (clamp16 (openRound ⟨q.getD i 0, 65536⟩) / 16)) 2
  (tone 0, tone 1, tone 2)

/-- The 8-bit form of a 10-bit value. -/
def eight (e : Nat) : Nat := min 255 ((e + 2) / 4)

/-! ### Tetrahedral interpolation (R255, R271) -/

/-- Axes sorted by the fraction within the cell, greatest first. -/
def sortDown (l : List (Nat × Frac)) : List (Nat × Frac) :=
  l.foldl (fun acc x => acc.takeWhile (fun y => !y.2.lt x.2) ++ [x] ++ acc.dropWhile (fun y => !y.2.lt x.2)) []

/-- Interpolation on a lattice whose axes have the given places: the nodes on the path from a cell's lowest to its highest node,
weighted. `node` reads a node by its indices; a place past the last cell lies at its end. -/
def onLattice (last : Nat) (node : List Nat → Frac) (places : List Frac) : Frac :=
  let cell := places.map fun p => min (last - 1) p.floor.toNat
  let fracs := sortDown ((places.zip cell).zipIdx.map fun x => (x.2, x.1.1.sub (Frac.ofInt x.1.2)))
  let start := cell
  let go (acc : List Nat × Frac × Frac) (x : Nat × Frac) : List Nat × Frac × Frac :=
    let next := acc.1.zipIdx.map fun y => if y.2 = x.1 then y.1 + 1 else y.1
    (next, (acc.2.1.add ((acc.2.2.sub x.2).mul (node acc.1))), x.2)
  let r := fracs.foldl go (start, ⟨0, 1⟩, ⟨1, 1⟩)
  r.2.1.add (r.2.2.mul (node r.1))

/-! ### The measurement path (R255) -/

/-- A fraction clamped to 0 to a bound. -/
def clampFrac (hi : Frac) (f : Frac) : Frac := if f.num < 0 then ⟨0, 1⟩ else if hi.lt f then hi else f

/-- A pixel measured. -/
def Ctl.measurePixel (c : Ctl) (k : Nat) (e : Exposure) (p : Rgb) : Lab :=
  let m := c.colourTable e (Obj.xyz_matrix k)
  let table := c.oct (Obj.xyz_table k)
  let xyz := (matrixTimes m p).map fun v => clampFrac ⟨1, 1⟩ (Frac.norm ⟨v, 65536 * 65535⟩)
  let places := xyz.map fun f => f.mul ⟨32, 1⟩
  let node (i : Nat) (n : List Nat) : Frac :=
    ⟨fld table (6 * ((n.getD 0 0 * 33 + n.getD 1 0) * 33 + n.getD 2 0) + 2 * i) 2, 32768⟩
  labOf 0 ((List.range 3).map fun i => onLattice 32 (node i) places)

/-- A row of the measurement stream as 6440+k:01 in force asks (R256): 0 OFF, 1 QUAD, 2 DEMOSAIC. -/
def Ctl.measureRow (c : Ctl) (k : Nat) (e : Exposure) (y : Int) (first : Bool) : List (Option Lab) :=
  let mode := (c.cam k).measure
  if mode = 0 then [] else (c.reconRow k e y (mode == 1) first).map fun p => p.map (c.measurePixel k e)

/-- A row rendered for a view in force. -/
def Ctl.viewRow (c : Ctl) (k : Nat) (e : Exposure) (y : Int) (first : Bool) (v : List Byte) : List (Option Rgb) :=
  if viewOn v then (c.reconRow k e y (viewQuad v) first).map fun p => p.map (c.render k e (fld v 2 1 == 1)) else []

/-! ### Scaling (R258) -/

/-- How far two ranges of the line overlap. -/
def overlapOf (a b c d : Frac) : Frac :=
  let lo := if a.lt c then c else a
  let hi := if b.lt d then b else d
  if lo.lt hi then hi.sub lo else ⟨0, 1⟩

/-- The area average of a channel over columns and rows given as ranges; a missing pixel is open. -/
def areaMean (rows : List (List (Option Rgb))) (ch : Rgb → Nat) (x0 x1 y0 y1 : Frac) : Nat :=
  let cell (y x : Nat) : Nat := match (rows.getD y []).getD x none with
    | some p => ch p
    | none => Config.lostPixel (y * 65536 + x) % 1024
  let span (a b : Frac) : List Nat := (List.range (b.floor.toNat + 1 - a.floor.toNat)).map fun i => a.floor.toNat + i
  let part (y x : Nat) : Frac := ((overlapOf y0 y1 (Frac.ofInt y) (Frac.ofInt (y + 1))).mul
    (overlapOf x0 x1 (Frac.ofInt x) (Frac.ofInt (x + 1)))).mul ⟨cell y x, 1⟩
  let total : Frac := forEach (span y0 y1) (fun acc y => forEach (span x0 x1) (fun acc x => Frac.add acc (part y x)) acc) ⟨0, 1⟩
  clamp16 (openRound (total.div ((x1.sub x0).mul (y1.sub y0))))

/-- The scaled pixels of a frame of a view from its source rows, row 0 first: R, G and B of 10 bits. -/
def frameRgb (v : List Byte) (rows : List (List (Option Rgb))) : List (List Rgb) :=
  let f := viewScale v
  let left := Frac.ofInt (viewX v / (if viewQuad v then 2 else 1))
  let at_ (i : Nat) : Frac := Frac.div (Frac.ofInt i) f
  (List.range (viewHeight v)).map fun y => (List.range (viewWidth v)).map fun x =>
    let m (ch : Rgb → Nat) : Nat := areaMean rows ch (left.add (at_ x)) (left.add (at_ (x + 1))) (at_ y) (at_ (y + 1))
    (m (·.1), m (·.2.1), m (·.2.2))

/-! ### YCbCr (R254) -/

/-- Y, Cb and Cr of 10 bits in limited range from R, G and B of 10 bits, with the coefficients of ITU-R BT.709: 0.2126, 0.7152, 0.0722;
how they are rounded is open (log entry 61). -/
def yccOf (p : Rgb) : Nat × Nat × Nat :=
  let y : Int := 2126 * p.1 + 7152 * p.2.1 + 722 * p.2.2
  let chroma (v : Nat) (kv : Nat) : Nat := (512 + openRound ⟨896 * (10000 * (v : Int) - y), 2 * (10000 - kv) * 1023⟩).toNat
  ((64 + openRound ⟨876 * y, 10000 * 1023⟩).toNat, chroma p.2.2 722, chroma p.1 2126)

/-- Adjacent pairs of a row averaged. -/
def pairMean : List Nat → List Nat
  | a :: b :: r => mean2 a b :: pairMean r
  | l => l

/-- Adjacent pairs of rows averaged. -/
def rowMean : List (List Nat) → List (List Nat)
  | a :: b :: r => (List.zipWith mean2 a b) :: rowMean r
  | l => l

/-- The Y, Cb and Cr samples of 10 bits of a frame, plane after plane, chroma averaged over pairs of columns and, for 4:2:0, of rows. -/
def framePlanes (half : Bool) (px : List (List Rgb)) : List Nat :=
  let ycc := px.map fun r => r.map yccOf
  let chroma (ch : Nat × Nat × Nat → Nat) : List Nat :=
    let rows := ycc.map fun r => pairMean (r.map ch)
    (if half then rowMean rows else rows).flatten
  (ycc.map fun r => r.map (·.1)).flatten ++ chroma (·.2.1) ++ chroma (·.2.2)

/-- The bytes of a monitor frame: RGB8, or YCBCR422_8, the arrangement of whose samples is open (R258; log entry 61). -/
def frameBytes8 (v : List Byte) (rows : List (List (Option Rgb))) : List Byte :=
  let px := frameRgb v rows
  if viewFormat v = 0 then (px.flatten.map fun p => le 1 (eight p.1) ++ le 1 (eight p.2.1) ++ le 1 (eight p.2.2)).flatten
  else
    let s := (framePlanes false px).map eight
    ((List.range s.length).map fun i => le 1 (s.getD (Config.order422 s.length i % s.length) 0)).flatten

/-- The samples of a record frame in its view's format: Y, Cb and Cr planes, of 8 or 10 bits. -/
def recordSamples (v : List Byte) (rows : List (List (Option Rgb))) : List Nat :=
  let s := framePlanes (viewFormat v == 2 || viewFormat v == 3) (frameRgb v rows)
  if viewFormat v = 2 then s.map eight else s

end Sys2Proof.Machine
end

