-- ==== Sys2Proof/Machine/StripOps.lean ====
section
/-! DEFINITION. The crop ring and the strip (R249, R257, R259). -/

namespace Sys2Proof.Machine

/-! ### The crop ring (R257) -/

/-- A pixel with a free value where it is missing. -/
def pixelOr (free i : Nat) (p : Option Nat) : Nat := p.getD (Config.freeNat (free + i) % 65536)

/-- Two 12-bit pixels in 3 bytes. -/
def pack12 : List Nat → List Byte
  | [] => []
  | [p] => le 3 (p / 16)
  | p :: q :: r => le 3 (p / 16 + q / 16 * 4096) ++ pack12 r

/-- The pixel bytes of a row in a RAW format. -/
def cropBytes (format free : Nat) (row : List (Option Nat)) : List Byte :=
  let px := row.zipIdx.map fun e => pixelOr free e.2 e.1
  if format = 0 then (px.map fun p => le 1 (p / 256)).flatten
  else if format = 1 then pack12 px
  else (px.map (le 2)).flatten

/-- The pixel bytes of a rendered QUAD row; a missing pixel is open. -/
def quadBytes (free : Nat) (row : List (Option Rgb)) : List Byte :=
  (row.zipIdx.map fun e => match e.1 with
    | some p => le 1 (eight p.1) ++ le 1 (eight p.2.1) ++ le 1 (eight p.2.2)
    | none => freeBytes (free + 3 * e.2) 3).flatten

/-- A row slot: header and pixels, padded. -/
def cropSlotOf (slot : Nat) (w : Int) (exposure flags : Nat) (pixels : List Byte) : List Byte :=
  padTo slot (le 8 (uns 64 w) ++ le 2 exposure ++ le 1 flags ++ zeros 5 ++ pixels)

/-- A row written to camera `k`'s crop ring, where the cellar takes it, and its number there. -/
def Mach.cropRow (m : Mach) (k : Nat) (w : Int) (exposure flags : Nat) (pixels : List Byte) : Mach × Option Nat :=
  let c := m.ctl
  let r := (c.cam k).crop
  let slot := cropSlotBytes (ringFormat r) (c.stitched k)
  let n := ringBytes r / slot
  let a := ringBase r + (c.cam k).cropSlot * slot
  if !ringOn r || n == 0 || !c.cellarUp || c.rangeFrozen a slot then (m, none)
  else
    let b := cropSlotOf slot w exposure flags pixels
    let c1 := (c.useCellar.setCam k { c.cam k with cropSlot := ((c.cam k).cropSlot + 1) % n }).bump (Obj.crop_rows_written k)
    (⟨{ c1 with free := c1.free + 3 * c.stitched k }, memWrite m.cellar a b⟩,
      some (c.nat (Obj.crop_rows_written k)))

/-! ### Strip rows (R249, R259) -/

/-- Rows of the strip that are kept at least: the longest window any output can ask for. -/
abbrev stripMax : Nat := 140000

/-- A row joins the strip. -/
def Ctl.stripRow (c : Ctl) (k : Nat) (r : StripRow) : Ctl :=
  let x := c.cam k
  c.setCam k { x with strip := (r :: x.strip).take (max stripMax (c.nat (Obj.crop_ring_rows k) + 1)), rows := x.rows + 1, wLast := some r.coordinate }

/-- Half of a pitch added to a coordinate: the mean of the coordinates of a pair. -/
def midCoordinate (w p : Int) : Int := (2 * w + p + (if p % 2 = 1 then (Config.halfOf p.natAbs % 2 : Nat) else 0)) / 2

/-- Row pair `i` of an exposure taken: kept if it goes on from the last row kept, with its rows in the crop ring. -/
def Mach.takePair (m : Mach) (k : Nat) (e : Exposure) (tag : Int) (i : Nat) : Mach × Bool :=
  let c := m.ctl
  let y := (c.imageRows k).1 + 2 * i
  let a := c.rowCoordinate k tag y
  let keep := match (c.cam k).wLast with
    | some l => decide (2 * l + a.2 < 2 * a.1)
    | none => true
  if !keep then (m, false)
  else
    let gap := !e.kept && match (c.cam k).wLast with
      | some l => decide (2 * l + 3 * a.2 < 2 * a.1)
      | none => false
    let f0 := c.rowFlags k e y gap
    let f1 := c.rowFlags k e (y + 1) false
    let fmt := ringFormat (c.cam k).crop
    let on := ringOn (c.cam k).crop
    let r0 :=
      if !on then (m, none)
      else if fmt = 3 then m.cropRow k (midCoordinate a.1 a.2) e.number f0
        (quadBytes c.free ((c.quadRow k e y).map fun p => p.map (c.render k e false)))
      else m.cropRow k a.1 e.number f0 (cropBytes fmt c.free (c.stitchRow k e y))
    let r1 := if !on ∨ fmt = 3 then r0 else r0.1.cropRow k (a.1 + a.2) e.number f1
      (cropBytes fmt r0.1.ctl.free (c.stitchRow k e (y + 1)))
    let mon := (c.cam k).monitor
    let rec_ := (c.cam k).record
    let m2 := r1.1.onCtl fun d =>
      (d.stripRow k ⟨a.1, e.number, f0, r0.2, c.measureRow k e y true, c.viewRow k e y true mon, c.viewRow k e y true rec_⟩).stripRow k
        ⟨a.1 + a.2, e.number, f1, r1.2, c.measureRow k e (y + 1) false, c.viewRow k e (y + 1) false mon,
          c.viewRow k e (y + 1) false rec_⟩
    (m2, true)

/-- An output in force reconstructs at full resolution. -/
def Ctl.fullOutput (c : Ctl) (k : Nat) : Bool :=
  let x := c.cam k
  x.measure == 2 || (viewOn x.monitor && !viewQuad x.monitor) || (viewOn x.record && !viewQuad x.record)

/-- Rows of a tile beyond a pair that its pixels depend on: two of the reconstruction window where an output demosaics (R259), two more
where the tile corrects defects (log entry 156). -/
def Ctl.rowsBeyond (c : Ctl) (k v : Nat) : Nat :=
  let t := 4 * k + v
  (if c.fullOutput k then 2 else 0) + (if c.nat (Obj.dynamic_defect t) ≠ 0 ∨ (c.oct (Obj.defect_list t)).isEmpty = false then 2 else 0)

/-- Every tile has delivered what pair `i` needs, or its frame has ended (R259). -/
def Ctl.pairReady (c : Ctl) (k : Nat) (e : Exposure) (i : Nat) : Bool :=
  (c.tiles k).all fun v =>
    !bit e.sensors v || e.missing.contains v ||
      (match e.frame v with
        | some f =>
          !f.isOpen || decide (c.firstRow k + 2 * i + 1 - c.int (Obj.tile_y (4 * k + v)) + c.rowsBeyond k v < f.packets)
        | none => false)

/-- The front exposure of a camera replaced. -/
def Ctl.setFront (c : Ctl) (k : Nat) (e : Option Exposure) : Ctl :=
  let x := c.cam k
  c.setCam k { x with exposures := (match e with
    | some e => [e]
    | none => []) ++ x.exposures.drop 1 }

/-- Every frame of an exposure has ended. -/
def Ctl.exposureOver (c : Ctl) (k : Nat) (e : Exposure) : Bool :=
  (c.tiles k).all fun v => !bit e.sensors v || e.missing.contains v || (match e.frame v with
    | some f => !f.isOpen
    | none => false)

/-! ### Rows for a flat-field calibration (R299) -/

/-- A coordinate in 1/256 tick lies in a page's lines or a mark zone. -/
def Ctl.printedAt (c : Ctl) (w : Int) : Bool :=
  let inside (lo hi : Nat) : Bool := decide ((lo : Int) * 256 ≤ w ∧ w < (hi : Int) * 256)
  c.adm.tickets.any (fun t => t.pos.isSome && inside t.place (t.place + 64 * t.length)) ||
    c.recorder.past.any (fun p => inside p.place (p.place + 64 * p.length)) || c.loop.zones.any fun z => inside z.1 z.2

/-- Stage 3 of a sensor row, if it came. -/
def TileSet.row3 (s : TileSet) (f : SensorFrame) (r : Nat) : Option (List Nat) :=
  if (kvGet [] f.rows r).isEmpty then none else some ((List.range s.width).map fun x => (s.stage3 f r x).getD 0)

/-- A row added to a calibration's sums, while it needs more. -/
def FlatCal.add (g : FlatCal) (t r : Nat) (row : List Nat) : FlatCal :=
  let key := t * 65536 + r
  if g.wanted ≤ kvGet 0 g.counts key then g
  else
    let old := kvGet [] g.sums key
    { g with counts := kvAdd g.counts key 1, sums := kvSet [] g.sums key (row.zipIdx.map fun x => x.1 + old.getD x.2 0) }

/-- The unprinted rows of an exposure collected; the first of them sets a queued calibration running. -/
def Ctl.collectFlat (c : Ctl) (k : Nat) (e : Exposure) (tag : Int) : Ctl :=
  match c.loop.flat with
  | none => c
  | some g =>
    if g.camera ≠ k then c
    else
      let rows : List (Nat × Nat × List Nat) := ((e.frames.filter fun f => bit g.mask f.sensor).map fun f =>
        (List.range (c.nat (Obj.sensor_rows (4 * k + f.sensor)))).filterMap fun (r : Nat) =>
          if c.printedAt (c.rowCoordinate k tag ((r : Int) + c.int (Obj.tile_y (4 * k + f.sensor)))).1 then none
          else ((c.tileSet k f.sensor f).row3 f r).map fun row => (f.sensor, r, row)).flatten
      let g1 := forEach rows (fun g x => g.add x.1 x.2.1 x.2.2) g
      let c1 := c.setLoop { c.loop with flat := some g1 }
      if rows.isEmpty || c1.cmdState Obj.cal_flat_field != 4 then c1
      else c1.cmdRun Obj.cal_flat_field (c1.cmdStarter Obj.cal_flat_field)

/-- Row pairs of the oldest exposures taken as far as their rows are in; `fuel` bounds the pairs. -/
def Mach.stitch (m : Mach) (k : Nat) : Nat → Mach
  | 0 => m
  | fuel + 1 =>
    match (m.ctl.cam k).exposures with
    | [] => m
    | e :: _ =>
      match e.tag with
      | none => m
      | some tag =>
        if (m.ctl.imageRows k).2 ≤ e.pairs then
          if m.ctl.exposureOver k e then Mach.stitch (m.onCtl fun c => (c.collectFlat k e tag).setFront k none) k fuel else m
        else if m.ctl.pairReady k e e.pairs then
          let a := m.takePair k e tag e.pairs
          Mach.stitch (a.1.onCtl fun c => c.setFront k (some { e with pairs := e.pairs + 1, kept := e.kept || a.2 })) k fuel
        else m

/-- The strip built as far as it goes. -/
def Mach.buildStrip (m : Mach) (k : Nat) : Mach := m.stitch k (200 * ((m.ctl.cam k).exposures.length + 1))

end Sys2Proof.Machine
end

