-- ==== Sys2Proof/Machine/Camera.lean ====
section
/-! DEFINITION. The camera commands and events (chapter 09), and the inspection fetch (R110). -/

namespace Sys2Proof.Machine

/-! ### Frames to the bridge (R239) -/

/-- A frame leaves on the lane of bond index 0 with its type's sequence count. -/
def Ctl.sendBridge (c : Ctl) (k type : Nat) (payload : List Byte) : Ctl :=
  match c.bondLane k with
  | none => c
  | some l =>
    let x := c.cam k
    let n := kvGet 0 x.seqs type
    (c.setCam k { x with seqs := kvSet 0 x.seqs type ((n + 1) % 65536) }).send l (.frame (frameBytes type 0 n 0 payload))

/-- The downstream transmitter sleeps. -/
def Ctl.downAsleep (c : Ctl) (k : Nat) : Bool :=
  match c.bondLane k with
  | some l => c.tx l == 1
  | none => false

/-- The downstream transmitter wakes if it sleeps (R263). -/
def Ctl.wakeDown (c : Ctl) (k : Nat) : Ctl :=
  match c.bondLane k with
  | some l => if c.tx l = 1 ∧ c.on (Obj.tx_sleep l) = false then (c.txWakes l).setCam k { c.cam k with wokeAt := c.now } else c
  | none => c

/-- CAM_FRAME_ERROR rings for an object. -/
def Ctl.frameError (c : Ctl) (k key : Nat) : Ctl := c.ring (Src.CAM k 1) k key

/-! ### camera_enable (R260 to R263) -/

/-- The field and the figures of an enabled camera. -/
def Ctl.showCam (c : Ctl) (k : Nat) : Ctl :=
  let f := c.fieldOf k
  let c1 := (c.putN (Obj.field_first k) ((f.map (·.1)).getD 0xFFFFFFFF)).putN (Obj.field_last k) ((f.map (·.2)).getD 0xFFFFFFFF)
  let c2 := (c1.putN (Obj.stitched_width k) (c.stitched k)).putN (Obj.pixel_rate k)
    ((c.camRate k (c.camPixels k fun _ => 1)).divNat 1000000).floor.toNat
  (c2.putN (Obj.iso_demand k) (c.camDemandNow k)).showIso

/-- The figures of a disabled camera. -/
def Ctl.hideCam (c : Ctl) (k : Nat) : Ctl :=
  (((((c.putN (Obj.field_first k) 0xFFFFFFFF).putN (Obj.field_last k) 0xFFFFFFFF).putN (Obj.stitched_width k) 0).putN
    (Obj.pixel_rate k) 0).putN (Obj.iso_demand k) 0).showIso

/-- A camera enabled: its ride and its lanes' rides start. -/
def Ctl.enableCam (c : Ctl) (k : Nat) : Ctl :=
  let c1 := ((c.setCam k { Camera.reset with seqs := (c.cam k).seqs, wokeAt := c.now }).putN (Obj.camera_enable k) 1).putN
    (Obj.lost_reason k) 0
  let c2 := (c1.setCamState k 1).needRide (rideCamera k)
  ((forEach (c2.camLanes k) Ctl.wantLane c2).wakeDown k).showCam k

/-- A camera disabled: OFF, the transmitters of its lanes sleeping (R263). -/
def Ctl.disableCam (c : Ctl) (k : Nat) : Ctl :=
  let c1 := ((c.putN (Obj.camera_enable k) 0).setCamState k 0).setCam k { Camera.reset with seqs := (c.cam k).seqs }
  let c2 := forEach (c1.camLanes k) Ctl.txSleeps c1
  (c2.hideCam k).usedRide (rideCamera k)

/-- Fields of the cameras that are on, and columns per pixel of those that measure, afresh (R251, R282). -/
def Ctl.refreshCams (c : Ctl) : Ctl :=
  forEach (List.range 4) (fun c k =>
    let c1 := if c.camOn k then c.showCam k else c
    if c1.nat (Obj.align_state k) = 0 then c1 else c1.putN (Obj.columns_per_pixel k) (c1.columnsPerPixel k)) c

/-- A write of camera_enable. -/
def ownCameraEnable (k v _n : Nat) (c : Ctl) : Nat × Ctl :=
  if v = 0 then (St.OK, if c.camOn k then c.disableCam k else c)
  else if c.camOn k then (St.OK, c)
  else
    let e := c.camCode k (c.nat (Obj.measurement k)) (c.oct (Obj.crop_ring k)) (c.oct (Obj.record_view k)) (c.oct (Obj.monitor_view k))
    if e = 0 then (St.OK, c.enableCam k) else refuse e c

/-- CAMERA_ENABLE. -/
def execCameraEnable (r : Req) (camera arg : Nat) (s : State) : Host.Outcome State Fault Refusal :=
  if camera < 4 then nextMach s (s.mach.ctlRow r (Obj.camera_enable camera) (le 1 arg) (ownCameraEnable camera arg))
  else .next s

/-! ### Outputs (R258, R260, R267) -/

/-- An enabled stream takes its frames from this camera's record view (R308). -/
def Ctl.viewStreams (c : Ctl) (k : Nat) : Bool :=
  let v := c.oct (Obj.record_view k)
  viewOn v && c.on (Obj.stream_enable (viewStream v))

/-- The output object of a subindex switched on. -/
def outputOn (sub : Nat) (v : List Byte) : Bool :=
  if sub = 1 then fld v 0 1 != 0 else if sub = 3 then ringOn v else viewOn v

/-- A write of an output: its own checks, its area, then the checks at enable where the camera runs. -/
def ownOutput (k sub : Nat) (v : List Byte) (_n : Nat) (c : Ctl) : Nat × Ctl :=
  let key := Obj.measurement k + (sub - 1)
  let c1 := if sub = 1 then c.putN key (fld v 0 1) else c.putO key v
  let e := c1.camCode k (c1.nat (Obj.measurement k)) (c1.oct (Obj.crop_ring k)) (c1.oct (Obj.record_view k))
    (c1.oct (Obj.monitor_view k))
  if sub = 2 ∧ c.viewStreams k = true then refuse St.REC_ENABLED c
  else if (sub = 2 ∨ sub = 4) ∧ c.viewOk k (sub == 2) v = false then refuse St.VIEW_INVALID c
  else if (sub = 3 ∨ sub = 4) ∧ Ctl.areasBreak c c1 key = true then refuse St.OUT_OF_RANGE c
  else if c.camOn k && outputOn sub v && e != 0 then refuse e c
  else (St.OK, if c.camOn k then c1.showCam k else c1)

/-- OUTPUT_VIEW_WRITE: 1 measurement, 2 record_view, 3 crop_ring, 4 monitor_view. -/
def execOutputViewWrite (r : Req) (camera sub : Nat) (value : List Byte) (s : State) : Host.Outcome State Fault Refusal :=
  if camera < 4 ∧ 1 ≤ sub ∧ sub ≤ 4 then
    nextMach s (s.mach.ctlRow r (Obj.measurement camera + (sub - 1)) value (ownOutput camera sub value))
  else .next s

/-- Outputs as set take effect at an exposure: what starts anew counts anew (R257, R267). -/
def Ctl.takeOutputs (c : Ctl) (k : Nat) : Ctl :=
  let x := c.cam k
  let ring := c.oct (Obj.crop_ring k)
  let mon := c.oct (Obj.monitor_view k)
  let rec_ := c.oct (Obj.record_view k)
  let index (v : List Byte) : Nat := c.localNs * viewRate v / 10 ^ 9
  let y := { x with outOn := true, measure := c.nat (Obj.measurement k), crop := ring, monitor := mon, record := rec_,
                    cropSlot := if ring = x.crop then x.cropSlot else 0,
                    strip := if ring = x.crop then x.strip else x.strip.map fun r => { r with ring := none },
                    frames := if mon = x.monitor then x.frames else 0,
                    monitorAt := if mon = x.monitor then x.monitorAt else index mon,
                    recordAt := if rec_ = x.record then x.recordAt else index rec_,
                    recordRow := if rec_ = x.record then x.recordRow else none }
  let c1 := ((if x.measure = y.measure then c.setCam k y else (c.setCam k y).setAlign k 0)).loopFollow k
  let slot := cropSlotBytes (ringFormat ring) (c.stitched k)
  if ring = x.crop then c1
  else (c1.putN (Obj.crop_ring_rows k) (if ringOn ring then ringBytes ring / slot else 0)).putN (Obj.crop_rows_written k) 0

/-- A flat-field table given, kept as a calibration record where the attic takes it (R265, R302). -/
def Ctl.giveFlat (c : Ctl) (t : Nat) (v : List Byte) (cmd : Nat) : Ctl :=
  let x := c.cam (t / 4)
  let c1 := (c.putO (Obj.flat_field t) v).setCam (t / 4) { x with banks := if x.banks.contains (t % 4) then x.banks else x.banks ++ [t % 4] }
  if c1.atticReady then c1.atticWrite (.record regionCalibration kindFlat t (v ++ le 2 (c.nat (Obj.tile_width t))) cmd) else c1

/-- A write of flat_field, restarting the loop's accumulation (R284). -/
def ownFlatField (t : Nat) (v : List Byte) (_n : Nat) (c : Ctl) : Nat × Ctl := (St.OK, c.giveFlat t v 0)

/-- FLAT_FIELD_WRITE. -/
def execFlatFieldWrite (r : Req) (tile : Nat) (value : List Byte) (s : State) : Host.Outcome State Fault Refusal :=
  if tile < 16 then nextMach s (s.mach.ctlRow r (Obj.flat_field tile) value (ownFlatField tile value)) else .next s

/-! ### Exposures (R244 to R247) -/

/-- The sensors a TRIGGER selects: every enabled tile's. -/
def Ctl.sensorMask (c : Ctl) (k : Nat) : Nat := ((c.tiles k).map fun v => 2 ^ v).sum

/-- A TRIGGER sent for an exposure centred at `t`. -/
def Ctl.trigger (c : Ctl) (k t : Nat) (late : Bool) : Ctl :=
  let x := c.cam k
  let n := x.number % 65535 + 1
  let payload := le 2 n ++ le 1 (c.sensorMask k) ++ [0] ++ le 4 (c.nat (Obj.exposure_time k)) ++ le 4 (c.nat (Obj.flash_time k)) ++
    zeros 4
  let e : Exposure := ⟨n, c.sensorMask k, (t - c.triggerLead k) / 4, t, none, none, [], [], 0, false, false, false, []⟩
  let c1 := (c.takeOutputs k).sendBridge k 0x41 payload
  let y := c1.cam k
  let c2 := c1.setCam k { y with number := n, nextDue := y.nextDue + 1, lastCentre := some t, downAt := c.now, waking := none,
                                 exposures := y.exposures ++ [e] }
  let c3 := (c2.bump (Obj.exposures k)).putN (Obj.last_exposure k) n
  if late then c3.bump (Obj.exposures_late k) else c3

/-- What waited for a TRIGGER leaves directly after it: a SKIP that is due, then a CCI_REQUEST (R245). -/
def Ctl.afterTrigger (c : Ctl) (k : Nat) : Ctl :=
  let c1 := match c.bondLane k with
    | some l => if c.tx l = 2 ∧ c.skipDue l = true then c.sendSkip l else c
    | none => c
  match (c1.cam k).cciHeld with
  | some v => (c1.setCam k { c1.cam k with cciHeld := none, downAt := c.now }).sendBridge k 0x42 v
  | none => c1

/-- An exposure whose frame has to start now waits for its transmitter, which wakes if it sleeps, or is triggered. -/
def Ctl.expose (c : Ctl) (k t : Nat) (late : Bool) : Ctl :=
  if c.downAsleep k || c.downQuiet k then
    let c1 := if c.downAsleep k then c.wakeDown k else c
    c1.setCam k { c1.cam k with waking := some ((c.cam k).waking.getD t) }
  else (c.trigger k t late).afterTrigger k

/-- EXPOSURE_TRIGGER: due once the frame has to start. -/
def execExposureTrigger (camera : Nat) (s : State) : Host.Outcome State Fault Refusal :=
  let c := s.mach.ctl
  if camera < 4 ∧ c.camState camera = 3 then
    match c.exposureCentre camera 16 with
    | none => .next s
    | some (t, late) =>
      let d := (c.duePrediction camera 16).getD t
      if c.startsNow camera t then nextCtl s (c.expose camera t late)
      else if (c.downAsleep camera || c.downQuiet camera) && c.startsNow camera d then nextCtl s (c.expose camera d late)
      else .next s
  else .next s

/-- A change of one of a camera's exposures. -/
def Ctl.onExposure (c : Ctl) (k : Nat) (p : Exposure → Bool) (f : Exposure → Exposure) : Ctl :=
  let x := c.cam k
  c.setCam k { x with exposures := x.exposures.map fun e => if p e then f e else e }

/-- EXPOSURE_TAG (R246): once a latch pair lies beyond the centre, the interpolated position is the exposure's tag. -/
def execExposureTag (camera exposure : Nat) (s : State) : Host.Outcome State Fault Refusal :=
  if camera < 4 then
    let m := s.mach.onCtl fun c => c.onExposure camera (fun e => e.number == exposure && e.tag.isNone) fun e =>
      { e with tag := e.measured }
    nextMach s (m.buildStrip camera)
  else .next s

/-! ### CSI frames (R240 to R242) -/

/-- A bad packet counted. -/
def Ctl.badPacket (c : Ctl) (k : Nat) : Ctl := c.bump (Obj.packets_bad k)

/-- Missing rows of an exposure are counted and rung once for it. -/
def Ctl.missRows (c : Ctl) (k number rows : Nat) : Ctl :=
  if rows = 0 then c
  else
    let told := (c.cam k).exposures.any fun e => e.number == number && e.reported
    let c1 := (c.bumpBy (Obj.rows_missing k) rows).onExposure k (fun e => e.number == number) fun e => { e with reported := true }
    if told then c1 else c1.frameError k (Obj.rows_missing k)

/-- A frame replaced in its exposure. -/
def Exposure.setFrame (e : Exposure) (f : SensorFrame) : Exposure :=
  { e with frames := e.frames.map fun g => if g.sensor = f.sensor then f else g }

/-- An open frame of sensor `v` ends; the rows it did not bring are missing. -/
def Ctl.endFrame (c : Ctl) (k v : Nat) (e : Exposure) (f : SensorFrame) : Ctl :=
  let short := c.nat (Obj.sensor_rows (4 * k + v)) - f.rows.length - f.skewed.length
  (c.onExposure k (fun x => x.number == e.number) fun x => x.setFrame { f with isOpen := false }).missRows k e.number short

/-- The exposure in which a sensor's frame is open. -/
def Ctl.openFrame (c : Ctl) (k v : Nat) : Option (Exposure × SensorFrame) :=
  (c.cam k).exposures.findSome? fun e => (e.frames.find? fun f => f.sensor == v && f.isOpen).map fun f => (e, f)

/-- A sensor's frame of an exposure missing whole (R242). -/
def Ctl.missFrame (c : Ctl) (k v : Nat) (e : Exposure) : Ctl :=
  (c.onExposure k (fun x => x.number == e.number) fun x => { x with missing := x.missing ++ [v] }).missRows k e.number
    (c.nat (Obj.sensor_rows (4 * k + v)))

/-- The Frame Start of an exposure is overdue. -/
def Ctl.frameLate (c : Ctl) (k : Nat) (e : Exposure) : Bool := decide (e.eofAt + 1000 * c.nat (Obj.frame_timeout k) < c.now)

/-- A sensor's frame of an exposure is outstanding. -/
def Exposure.outstanding (e : Exposure) (v : Nat) : Bool :=
  bit e.sensors v && !e.missing.contains v && (e.frame v).isNone

/-- A Frame Start switches banks: the sensor's flat field where its idle bank is filled, which restarts every accumulation (R265, R284),
white balance and matrices of its exposure (R266). -/
def Ctl.takeTables (c : Ctl) (k v number : Nat) : Ctl :=
  let x := c.cam k
  let colours := forEach [Obj.wb_a k, Obj.matrix_a k, Obj.wb_b k, Obj.matrix_b k, Obj.xyz_matrix k]
    (fun m key => kvSet [] m (key % 256) (c.oct key)) []
  let c1 := (c.setCam k { x with banks := x.banks.filter (· != v) }).onExposure k (fun e => e.number == number) fun e =>
    { e with colours := colours }
  if x.banks.contains v then c1.restartResiduals else c1

/-- An exposure's number counted once in 6410+k:16 and rung once (R242); one that is not outstanding is remembered among the strays. -/
def Ctl.discardOf (c : Ctl) (k number : Nat) : Ctl :=
  let x := c.cam k
  match x.exposures.find? fun e => e.number == number with
  | some e =>
    let c1 := if e.counted then c else c.bump (Obj.frames_discarded k)
    let c2 := c1.onExposure k (fun e => e.number == number) fun e => { e with counted := true, reported := true }
    if e.reported then c2 else c2.frameError k (Obj.frames_discarded k)
  | none =>
    if x.strays.contains number then c
    else ((c.setCam k { x with strays := (number :: x.strays).take 16 }).bump (Obj.frames_discarded k)).frameError k
      (Obj.frames_discarded k)

/-- Frame Start: the banks switch; a number that matches nothing is discarded, one that is late is missing. -/
def Ctl.frameStart (c : Ctl) (k v number : Nat) : Ctl :=
  let c0 := match c.openFrame k v with
    | some (e, f) => c.endFrame k v e f
    | none => c
  match (c0.cam k).exposures.find? fun e => e.number == number && e.outstanding v with
  | none => c0.discardOf k number
  | some e =>
    if c0.frameLate k e then c0.missFrame k v e
    else
      let f : SensorFrame := ⟨v, true, [], 0, [], c0.oct (Obj.flat_field (4 * k + v))⟩
      (c0.onExposure k (fun x => x.number == number) fun x => { x with frames := x.frames ++ [f] }).takeTables k v number

/-- Frame End of the open frame. -/
def Ctl.frameEnd (c : Ctl) (k v number : Nat) : Ctl :=
  match c.openFrame k v with
  | some (e, f) => if e.number = number then c.endFrame k v e f else c
  | none => c

/-- The image row that another tile still waits for: the lowest next row of the other frames of an exposure. -/
def Ctl.slowestRow (c : Ctl) (k v : Nat) (e : Exposure) : Option Int :=
  ((c.tiles k).filter fun u => u != v && bit e.sensors u && !e.missing.contains u).foldl (fun acc u =>
    let row := c.int (Obj.tile_y (4 * k + u)) + (match e.frame u with
      | some f => if f.isOpen then (f.packets : Int) else 1000000
      | none => 0)
    match acc with
    | some m => some (if row < m then row else m)
    | none => some row) none

/-- Held rows beyond 16 of a tile that leads are lost, oldest first (R250). -/
def Ctl.skew (c : Ctl) (k v : Nat) (e : Exposure) (f : SensorFrame) : Ctl :=
  match c.slowestRow k v e with
  | none => c
  | some slow =>
    let top := c.int (Obj.tile_y (4 * k + v))
    let lost : List Nat := (f.rows.map (·.1)).filter fun (r : Nat) => decide (slow ≤ top + r ∧ top + r + 16 < top + f.packets)
    if lost.isEmpty then c
    else
      let g := { f with rows := f.rows.filter (fun r => !lost.contains r.1), skewed := f.skewed ++ lost }
      (c.onExposure k (fun x => x.number == e.number) fun x => x.setFrame g).missRows k e.number lost.length

/-- A long packet of a tile's type: the next row of the open frame, kept where its word count and checksum are right. -/
def Ctl.rowPacket (c : Ctl) (k v wc : Nat) (p : List Byte) : Ctl :=
  match c.openFrame k v with
  | none => c
  | some (e, f) =>
    let t := 4 * k + v
    let w := c.nat (Obj.tile_width t)
    let dt := c.nat (Obj.data_type t)
    let body := slice p 4 wc
    let good := wc * 8 == w * rawBits dt && p.length == wc + 6 && csiChecksum body == fld p (4 + wc) 2
    if c.nat (Obj.sensor_rows t) ≤ f.packets then c.discardOf k e.number
    else
      let g := { f with packets := f.packets + 1, rows := if good then kvSet [] f.rows f.packets (unpackRow dt w body) else f.rows }
      let c1 := c.onExposure k (fun x => x.number == e.number) fun x => x.setFrame g
      c1.skew k v (e.setFrame g) g

/-- A CSI-2 packet (R241). -/
def Ctl.csiPacket (c : Ctl) (k : Nat) (p : List Byte) : Ctl :=
  match if p.length < 4 then none else csiHeader (fld p 0 4) with
  | none => c.badPacket k
  | some h =>
    let dt := h % 64
    let v := h / 64 % 4
    let wc := h / 256 % 65536
    if h / 2 ^ 24 ≠ 0 then c.badPacket k
    else if dt = 0 then c.frameStart k v wc
    else if dt = 1 then c.frameEnd k v wc
    else if dt = 2 ∨ dt = 3 ∨ (8 ≤ dt ∧ dt ≤ 15) ∨ dt = 0x12 then c
    else if 0x2A ≤ dt ∧ dt ≤ 0x2E then (if dt = c.nat (Obj.data_type (4 * k + v)) then c.rowPacket k v wc p else c)
    else c.badPacket k

/-- A CSI frame: the packet in progress goes on, or is discarded and counted (R240). -/
def Ctl.csiFrame (c : Ctl) (k tag aux : Nat) (bytes : List Byte) : Ctl :=
  let x := c.cam k
  let gap := match x.csiSeq with
    | some q => tag != (q + 1) % 65536
    | none => false
  let held := if gap then none else x.packet
  let first := bit aux 15
  let bad := (gap && x.packet.isSome) || (!first && held.isNone) || (first && held.isSome)
  let packet := if first then some bytes else held.map (· ++ bytes)
  let c1 := c.setCam k { x with csiSeq := some tag, packet := if bit aux 14 then none else packet }
  let c2 := if bad then c1.badPacket k else c1
  match if bit aux 14 then packet else none with
  | some p => c2.csiPacket k (p.take (p.length - aux % 4))
  | none => c2

/-- The bytes of a frame on a camera's lanes, its words in order, and its fields, if R150 and R239 take it. -/
def Ctl.camFrame (c : Ctl) (f : CamFrame) (type : Nat) : Option (List Byte) :=
  if f.camera < 4 ∧ c.camState f.camera ≠ 0 then
    (destriped f (c.camLanes f.camera).length).filter fun b => frameOk b && frameType b == type && frameAddress b == 0
  else none

/-- CSI: a frame on a camera's lanes, and the strip rows it completes. -/
def execCsi (f : CamFrame) (s : State) : Host.Outcome State Fault Refusal :=
  match s.mach.ctl.camFrame f 0xC1 with
  | some b =>
    if frameAux b / 4 % 4096 = 0 then
      nextMach s ((s.mach.onCtl fun c => c.csiFrame f.camera (frameTag b) (frameAux b) (framePayload b)).buildStrip f.camera)
    else .next s
  | none => .next s

/-- FRAME_TIMEOUT (R242): the oldest outstanding frame of a sensor, once its Frame Start is overdue. -/
def execFrameTimeout (camera sensor : Nat) (s : State) : Host.Outcome State Fault Refusal :=
  let c := s.mach.ctl
  if camera < 4 ∧ sensor < 4 then
    match (c.cam camera).exposures.find? fun e => e.outstanding sensor with
    | some e =>
      if c.frameLate camera e then nextMach s ((s.mach.onCtl fun c => c.missFrame camera sensor e).buildStrip camera) else .next s
    | none => .next s
  else .next s

/-! ### The bridge (R239, R262) -/

/-- Every lane of a camera is ACTIVE. -/
def Ctl.camLanesUp (c : Ctl) (k : Nat) : Bool := (c.camLanes k).all fun l => c.rx l == 5 || c.rx l == 6

/-- What a BRIDGE_STATUS reports against a camera: 3 SENSOR_FAULT of an enabled tile, 4 OVERTEMP, 0 nothing. -/
def Ctl.bridgeFault (c : Ctl) (k : Nat) (payload : List Byte) : Nat :=
  let f := fld payload 0 2
  if (c.tiles k).any fun v => bit f v then 3 else if bit f 7 then 4 else 0

/-- BRIDGE_STATUS: kept; a camera that starts becomes ready, one that is LOST waits for its cause to stay away. -/
def Ctl.bridgeStatus (c : Ctl) (k : Nat) (payload : List Byte) : Ctl :=
  let c1 := (c.putO (Obj.bridge_status k) payload).setCam k { c.cam k with statusAt := some c.now }
  let bad := c1.bridgeFault k payload
  if bad ≠ 0 then c1.camLost k bad
  else if c1.camState k = 1 then (if c1.camLanesUp k then c1.camReady k else c1)
  else if c1.camState k = 4 then
    let x := c1.cam k
    c1.setCam k { x with clearAt := if c1.camLanesUp k then some (x.clearAt.getD c.now) else none }
  else c1

/-- A BRIDGE_STATUS payload with its reserved fields zero. -/
def statusPayloadOk (p : List Byte) : Bool := p.length == 16 && fld p 0 2 / 256 == 0 && bits (fld p 0 2) 5 4 == 0 && fld p 8 8 == 0

/-- BRIDGE_STATUS. -/
def execBridgeStatus (f : CamFrame) (s : State) : Host.Outcome State Fault Refusal :=
  let c := s.mach.ctl
  match c.camFrame f 0xC3 with
  | some b => if frameAux b = 0 ∧ statusPayloadOk (framePayload b) = true then nextCtl s (c.bridgeStatus f.camera (framePayload b)) else .next s
  | none => .next s

/-- No valid BRIDGE_STATUS for 1 ms, the time of a downstream wake counting as one: asleep, none is expected (R263). -/
def Ctl.statusStale (c : Ctl) (k : Nat) : Bool :=
  let x := c.cam k
  !c.downAsleep k && decide (max (x.statusAt.getD 0) x.wokeAt + ms ≤ c.now)

/-- BRIDGE_STATUS_TIMEOUT. -/
def execBridgeStatusTimeout (camera : Nat) (s : State) : Host.Outcome State Fault Refusal :=
  let c := s.mach.ctl
  if camera < 4 ∧ 2 ≤ c.camState camera ∧ c.statusStale camera = true then nextCtl s (c.camLost camera 2) else .next s

/-- CAMERA_LOST_CLEAR: 10 ms after the cause has gone the camera is IDLE or STREAMING again. -/
def execCameraLostClear (camera : Nat) (s : State) : Host.Outcome State Fault Refusal :=
  let c := s.mach.ctl
  if camera < 4 ∧ c.camState camera = 4 then
    match (c.cam camera).clearAt with
    | some t =>
      if t + 10 * ms ≤ c.now ∧ c.statusStale camera = false ∧ c.camLanesUp camera = true then
        nextCtl s ((c.setCam camera { c.cam camera with clearAt := none }).camReady camera)
      else .next s
    | none => .next s
  else .next s

/-! ### Sensor control (R243) -/

/-- A CCI_REQUEST leaves, or waits for the next TRIGGER where it would end less than 100 ns before its start (R245). -/
def Ctl.sendCci (c : Ctl) (k : Nat) (v : List Byte) : Ctl :=
  let dur := match c.bondLane k with
    | some l => 60 * 50 / max 1 (c.rateOf l) + 1
    | none => 0
  if (c.triggerAt k (dur + 100)).isSome then c.setCam k { c.cam k with cciHeld := some v }
  else (c.setCam k { c.cam k with downAt := c.now }).sendBridge k 0x42 v

/-- cci_transfer. -/
def ownCci (k : Nat) (v : List Byte) (n : Nat) (c : Ctl) : Nat × Ctl :=
  if c.camState k ≠ 2 ∧ c.camState k ≠ 3 then refuse St.CAM_NOT_READY c
  else
    let c1 := (c.cmdRun (Obj.cci_transfer k) n).wakeDown k
    (St.STARTED, (c1.setCam k { c1.cam k with cciAt := c.now }).sendCci k v)

/-- CCI_TRANSFER. -/
def execCciTransfer (r : Req) (camera : Nat) (value : List Byte) (s : State) : Host.Outcome State Fault Refusal :=
  if camera < 4 then nextMach s (s.mach.ctlRow r (Obj.cci_transfer camera) value (ownCci camera value)) else .next s

/-- CCI_REPLY: DONE with the reply copied, or FAILED by its status. -/
def execCciReply (f : CamFrame) (s : State) : Host.Outcome State Fault Refusal :=
  let c := s.mach.ctl
  let key := Obj.cci_transfer f.camera
  let src := Src.CAM f.camera 3
  match c.camFrame f 0xC2 with
  | some b =>
    let p := framePayload b
    if frameAux b = 0 ∧ p.length = 36 ∧ fld p 2 2 = 0 ∧ c.cmdBusy key = true then
      nextCtl s (match fld p 0 1 with
        | 0 => (c.putO (Obj.cci_result f.camera) p).cmdDone key src f.camera
        | 1 => c.cmdFail key St.CCI_NACK src f.camera
        | 2 => c.cmdFail key St.CCI_TIMEOUT src f.camera
        | 3 => c.cmdFail key St.CCI_BUS_ERROR src f.camera
        | _ => c)
    else .next s
  | none => .next s

/-- CCI_TIMEOUT: 10 ms without a reply. -/
def execCciTimeout (camera : Nat) (s : State) : Host.Outcome State Fault Refusal :=
  let c := s.mach.ctl
  let key := Obj.cci_transfer camera
  if camera < 4 ∧ c.cmdBusy key = true ∧ (c.cam camera).cciAt + 10 * ms ≤ c.now then
    nextCtl s ((c.setCam camera { c.cam camera with cciHeld := none }).cmdFail key St.CCI_TIMEOUT (Src.CAM camera 3) camera)
  else .next s

/-- CAMERA_IDLE_SLEEP (R263). -/
def execCameraIdleSleep (camera : Nat) (s : State) : Host.Outcome State Fault Refusal :=
  let c := s.mach.ctl
  let wait := c.nat (Obj.idle_sleep camera)
  if camera < 4 ∧ (c.camState camera = 2 ∨ c.camState camera = 3) ∧ wait ≠ 0 ∧ c.cmdBusy (Obj.cci_transfer camera) = false ∧
      (c.cam camera).downAt + wait * ms ≤ c.now then
    match c.bondLane camera with
    | some l => nextCtl s (c.txSleeps l)
    | none => .next s
  else .next s

/-! ### The monitor (R258) -/

/-- Strip rows that `out_height` output rows of a view cover. -/
def viewRows (v : List Byte) : Nat :=
  let f := viewScale v
  let rows := (viewHeight v * f.den + f.num.toNat - 1) / max 1 f.num.toNat
  if viewQuad v then 2 * rows else rows

/-- The coordinate of row 0 of a view's window in the strip, if the strip holds so many rows (log entry 71). -/
def Ctl.viewRow0 (c : Ctl) (k : Nat) (v : List Byte) : Option Int :=
  (((c.cam k).strip.drop (viewRows v - 1)).head?).map (·.coordinate)

/-- The index of the latest whole multiple of 1 / rate of the local clock. -/
def Ctl.frameIndex (c : Ctl) (rate : Nat) : Nat := c.localNs * rate / 10 ^ 9

/-- The header of a monitor slot. -/
def monitorHeader (count : Nat) (v : List Byte) (row0 : Int) (ns : Nat) : List Byte :=
  le 4 count ++ le 2 (viewWidth v) ++ le 2 (viewHeight v) ++ le 1 (viewFormat v) ++ zeros 7 ++ le 8 (uns 64 row0) ++ timeBytes ns ++
    zeros 30

/-- The source rows of a view's frame, row 0 first. -/
def Ctl.viewSourceRows (c : Ctl) (k : Nat) (v : List Byte) (row : StripRow → List (Option Rgb)) : List (List (Option Rgb)) :=
  (((c.cam k).strip.take (viewRows v)).reverse.map row).filter fun r => !r.isEmpty

/-- The pixel bytes of a monitor frame. -/
def Ctl.monitorBytes (c : Ctl) (k : Nat) (v : List Byte) : List Byte := frameBytes8 v (c.viewSourceRows k v (·.monitor))

/-- A monitor frame written to the next slot of its ring (R258). -/
def Mach.monitorFrame (m : Mach) (k : Nat) (v : List Byte) (row0 : Int) : Mach :=
  let c := m.ctl
  let x := c.cam k
  let slot := x.frames % max 1 (viewFrames v)
  let a := viewBase v + slot * monitorSlotBytes v
  let i := c.frameIndex (viewRate v)
  let b := monitorHeader (x.frames + 1) v row0 (i * 10 ^ 9 / max 1 (viewRate v)) ++ c.monitorBytes k v
  let c1 := (c.useCellar.setCam k { x with frames := x.frames + 1, monitorAt := i }).putN (Obj.monitor_slot k) slot
  ⟨{ c1.ring (Src.CAM k 2) k (Obj.monitor_slot k) with free := c.free + viewBytes v }, memWrite m.cellar a b⟩

/-- MONITOR_FRAME: due at each whole multiple of 1 / rate while the camera is IDLE or STREAMING. -/
def execMonitorFrame (camera : Nat) (s : State) : Host.Outcome State Fault Refusal :=
  let c := s.mach.ctl
  let v := (c.cam camera).monitor
  if camera < 4 ∧ (c.cam camera).outOn = true ∧ (c.camState camera = 2 ∨ c.camState camera = 3) ∧ viewOn v = true ∧
      (c.cam camera).monitorAt < c.frameIndex (viewRate v) ∧ c.cellarUp = true ∧
      c.rangeFrozen (viewBase v + (c.cam camera).frames % max 1 (viewFrames v) * monitorSlotBytes v) (monitorSlotBytes v) = false then
    match c.viewRow0 camera v with
    | some w => nextMach s (s.mach.monitorFrame camera v w)
    | none => .next s
  else .next s

/-! ### The inspection fetch (R110, R114) -/

/-- Crate columns of a page whose physical columns, its column offset added, lie within a camera's field (R22, R130, R251). -/
def Ctl.fieldCrates (c : Ctl) (k width : Nat) (offset : Int) : List Nat :=
  match c.fieldOf k with
  | some (lo, hi) => (List.range width).filter fun j =>
      decide ((256 * j : Int) + offset ≤ hi ∧ (lo : Int) ≤ 256 * j + 255 + offset)
  | none => []

/-- The column offset a page has on a bar. -/
def Ticket.offsetOn (t : Ticket) (b : Nat) : Int := kvGet 0 t.work.offsets b

/-- The quarter-area means of a line pair of a crate (R110). -/
def quarterMeans (top bottom : List Byte) : List Byte :=
  (List.range 128).map fun i =>
    let v (l : List Byte) (j : Nat) : Nat := (l.getD j 0).toNat
    BitVec.ofNat 8 ((v top (2 * i) + v top (2 * i + 1) + v bottom (2 * i) + v bottom (2 * i + 1) + 2) / 4)

/-- Means of line pair `pair` of a crate, unless the crate failed at or before the pair. -/
def Crate.pairMeans (x : Crate) (lines pair : Nat) : Option (List Byte) :=
  let r := 2 * (pair % 128)
  let r1 := if r + 1 < lines then r + 1 else r
  let ok := match x.err with
    | some e => decide (r1 < e.row)
    | none => true
  if ok then some (quarterMeans (x.rows.getD r (zeros 256)) (x.rows.getD r1 (zeros 256))) else none

/-- A line pair read for a camera: means delivered, failures reported once a page. -/
def Mach.inspect (m : Mach) (t : Ticket) (b line k : Nat) : Mach :=
  let pair := line / 2
  let band := line / 256
  let cs := (m.ctl.fieldCrates k t.width (t.offsetOn b)).map fun j => (j, t.map.crate m.cellar band b j)
  let fresh := (failsOf b band false cs).filter fun f => !t.work.bad.any fun w =>
    w.bar == b && w.band == band && w.column == f.column && !w.print
  let rows := cs.filterMap fun x => (x.2.pairMeans (t.map.bandLines band) pair).map fun ms =>
    (⟨t.number, b, pair, x.1, ms⟩ : MeanRow)
  m.onCtl fun c =>
    let c1 := forEach fresh (fun c f => c.crateFailed t.number f) c.useCellar
    let c2 := c1.onTicket t.number fun u =>
      { u with work := { u.work with inspected := (k, b * 65536 + pair) :: u.work.inspected } }
    { c2 with page := { c2.page with means := c2.page.means ++ rows } }

/-- Print position at which a page line is under the camera's exposure: its distance from the datum passed. -/
def Ctl.cameraAt (c : Ctl) (t : Ticket) (line k : Nat) : Nat :=
  let w := t.place + 64 * line
  w + c.ticksOver w (c.nat (Obj.camera_distance k))

/-- Lines of a page that are inspected: all, or those settled of a ticket that ended early (R80). -/
def Ticket.inspectLines (t : Ticket) (b : Nat) : Nat := if t.ended then min t.length (t.settledOn b) else t.length

/-- A line pair of an inspected page is to be read for a camera, and has not been (R22, R110). -/
def Ctl.inspectDue (c : Ctl) (t : Ticket) (b line k : Nat) : Bool :=
  c.on (Obj.inspect t.slot) && t.pos.isSome && bit t.bars b && decide (line < t.inspectLines b ∧ line % 2 = 0) && c.camMeasures k &&
    decide ((c.cam k).streamFrom ≤ c.cameraAt t line k) && !(c.fieldCrates k t.width (t.offsetOn b)).isEmpty &&
    !t.work.inspected.contains (k, b * 65536 + line / 2)

/-- INSPECT_FETCH: due once the pair is under the camera; a FROZEN controller holds it. -/
def execInspectFetch (ticket bar line camera : Nat) (s : State) : Host.Outcome State Fault Refusal :=
  let c := s.mach.ctl
  match c.ticket ticket with
  | none => .next s
  | some t =>
    if camera < 4 ∧ bar < 8 ∧ c.inspectDue t bar line camera = true ∧ c.cameraAt t line camera ≤ c.pp then
      nextMach s (if s.mach.bandStalls t.map bar (line / 256) then s.mach.holdBand .inspectFetch t.map bar (line / 256)
        else s.mach.inspect t bar line camera)
    else .next s

end Sys2Proof.Machine
end

