-- ==== Sys2Proof/Machine/LoopSee.lean ====
section
/-! DEFINITION. What the loop compares (R271 to R276, R281): pages on the web, the expected colour of a pixel, alignment, tiles. -/

namespace Sys2Proof.Machine

/-! ### Pages (R272, R294) -/

/-- A rule of a page's slot by its subindex, numeric and octets. -/
def LoopPage.num (p : LoopPage) (sub : Nat) : Nat := match p.rules.getD (sub - 0x40) (.num 0) with
  | .num n => n.toNat
  | .oct _ => 0
def LoopPage.oct (p : LoopPage) (sub : Nat) : List Byte := match p.rules.getD (sub - 0x40) (.num 0) with
  | .num _ => []
  | .oct b => b

/-- Pages the loop knows: outstanding ones of which a bar has started, and posted ones not yet measured, in ticket order. -/
def Ctl.loopPages (c : Ctl) : List LoopPage :=
  c.loop.past ++ (c.adm.tickets.filter fun t => !t.work.firstCount.isEmpty && t.pos.isSome).map fun t => ⟨t, c.slotRules t.slot⟩

/-- First coordinate and end of a page in ticks. -/
def LoopPage.first (p : LoopPage) : Nat := p.ticket.place
def LoopPage.end_ (p : LoopPage) : Nat := p.ticket.place + 64 * p.ticket.length

/-- The page that holds a coordinate in 1/256 tick. -/
def pageUnder (ps : List LoopPage) (w : Int) : Option LoopPage :=
  ps.find? fun p => decide ((p.first : Int) * 256 ≤ w ∧ w < p.end_ * 256)

/-- The line of a page at a coordinate. -/
def LoopPage.lineAt (p : LoopPage) (w : Int) : Nat := ((w / 256 - p.first) / 64).toNat

/-- Inspection of the page is on, its autonomy. -/
def LoopPage.inspected (p : LoopPage) : Bool := p.num 0x40 != 0
def LoopPage.autonomy (p : LoopPage) : Nat := p.num 0x42

/-! ### Where a pixel lies (R272) -/

/-- Strip pixels per measurement pixel along either axis. -/
def Ctl.pixelSpan (c : Ctl) (k : Nat) : Nat := if (c.cam k).measure = 1 then 2 else 1

/-- The physical column at a place of the strip, c(u). -/
def Ctl.stripColumn (c : Ctl) (k : Nat) (u : Frac) : Frac :=
  (Frac.mk (c.int (Obj.image_origin k)) 256).add (u.mul ⟨c.nat (Obj.image_pitch_x k) * c.nat Obj.column_pitch, 25400000000⟩)

/-- Centre column of measurement pixel `x` under a shift in 1/16 px. -/
def Ctl.pixelColumn (c : Ctl) (k x : Nat) (ax : Int) : Frac :=
  c.stripColumn k ((Frac.mk (16 * x + 8 + ax) 16).mul ⟨c.pixelSpan k, 1⟩)

/-- A row of a band: its coordinate as recorded and under the shift, both in 1/256 tick, the pitch of measurement rows there, its
pixels, and GAP_BEFORE. -/
structure BandRow where
  raw : Int
  at_ : Int
  pitch : Int
  lab : List (Option Lab)
  gap : Bool
  deriving DecidableEq, Repr

/-- A strip row as a row of the band under a shift in 1/16 px. -/
def Ctl.bandRow (c : Ctl) (k : Nat) (ay : Int) (r : StripRow) : BandRow :=
  let p := c.pitch256 k (r.coordinate / 256)
  let w := if c.pixelSpan k = 2 then midCoordinate r.coordinate p else r.coordinate
  let q := p * c.pixelSpan k
  ⟨w, w + openRound ⟨ay * q, 16⟩, q, r.lab, bit r.flags 0⟩

/-- The strip rows of a camera's next band, oldest first, once they are in. -/
def Ctl.nextBand (c : Ctl) (k : Nat) : Option (List StripRow) :=
  let x := c.cam k
  let l := c.loopCam k
  let n := 256 * c.pixelSpan k
  let last := l.from_ + (l.bands + 1) * n
  if c.nat (Obj.align_state k) = 0 ∨ x.rows < last then none
  else some ((((x.strip.drop (x.rows - last)).take n).reverse).filter fun r => !r.lab.isEmpty)

/-! ### The contone under a pixel (R271) -/

/-- A failed region of the print fetch touches a block of two columns and two lines of a page (R113). -/
def blockFailed (t : Ticket) (b col line : Nat) : Bool :=
  t.work.bad.any fun x => x.print && x.bar == b && x.band == line / 256 && x.column == col / 256 && decide (x.row ≤ line % 256 + 1)

/-- The quarter-area mean of a block, none where its crate failed (R110, R114). -/
def Ctl.blockMean (c : Ctl) (t : Ticket) (b bx by_ : Nat) : Option Nat :=
  if blockFailed t b (2 * bx) (2 * by_) then none
  else (c.page.means.find? fun r => r.ticket == t.number && r.bar == b && r.pair == by_ && r.column == bx / 128).map
    fun r => (r.means.getD (bx % 128) 0).toNat

/-- The whole numbers a range touches, from 0 up to a bound. -/
def touched (a b : Frac) (bound : Nat) : List Nat :=
  let lo := (max 0 a.floor).toNat
  let hi := (min (bound : Int) (b.floor + 1)).toNat
  (List.range (hi - lo)).map fun i => lo + i

/-- The contone of a bar summed over the part of a footprint that lies in a page: columns [x0, x1) of the bar, lines by coordinate
[w0, w1) in ticks. None where a block has no value. -/
def Ctl.pageContone (c : Ctl) (p : LoopPage) (b : Nat) (x0 x1 w0 w1 : Frac) : Option Frac :=
  let t := p.ticket
  let off := Frac.ofInt (kvGet 0 t.work.offsets b)
  let line (w : Frac) : Frac := (w.sub (Frac.ofInt p.first)).divNat 64
  let cx0 := (x0.sub off).divNat 2
  let cx1 := (x1.sub off).divNat 2
  let cy0 := (line w0).divNat 2
  let cy1 := (line w1).divNat 2
  if !bit t.bars b then some ⟨0, 1⟩
  else
    let end_ := (Frac.ofInt t.length).divNat 2
    forEach (touched cy0 cy1 ((t.length + 1) / 2)) (fun acc y => forEach (touched cx0 cx1 (128 * t.width)) (fun acc x =>
      match acc, c.blockMean t b x y with
      | some s, some m =>
        let top := Frac.ofInt (y + 1)
        let dy := overlapOf cy0 cy1 (Frac.ofInt y) (if end_.lt top then end_ else top)
        some (Frac.add s ((dy.mul (overlapOf cx0 cx1 (Frac.ofInt x) (Frac.ofInt (x + 1)))).mul ⟨4 * m, 1⟩))
      | _, _ => none) acc) (some ⟨0, 1⟩)

/-- The contone of a bar over a footprint, in 1/16; web outside every page counts 0. -/
def Ctl.contoneAt (c : Ctl) (ps : List LoopPage) (b : Nat) (x0 x1 w0 w1 : Frac) : Option Nat :=
  let sum := ps.foldl (fun (acc : Option Frac) p => match acc, c.pageContone p b x0 x1 w0 w1 with
    | some s, some v => some (s.add v)
    | _, _ => none) (some ⟨0, 1⟩)
  sum.map fun s => (openRound ((s.mul ⟨16 * 64, 1⟩).div ((x1.sub x0).mul (w1.sub w0)))).toNat

/-- The footprint of pixel `x` of a row: columns and coordinates in ticks. -/
def Ctl.footprint (c : Ctl) (k x : Nat) (ax : Int) (r : BandRow) : Frac × Frac × Frac × Frac :=
  let j := c.pixelColumn k x ax
  let half : Frac := ⟨c.pixelSpan k * c.nat (Obj.image_pitch_x k) * c.nat Obj.column_pitch, 2 * 25400000000⟩
  (j.sub half, j.add half, ⟨2 * r.at_ - r.pitch, 512⟩, ⟨2 * r.at_ + r.pitch, 512⟩)

/-- The contone of every bar under a pixel, in 1/16, bars outside the page's mask at 0. -/
def Ctl.tones (c : Ctl) (ps : List LoopPage) (p : LoopPage) (k x : Nat) (ax : Int) (r : BandRow) : Option (List Nat) :=
  let f := c.footprint k x ax r
  (List.range 8).foldl (fun (acc : Option (List Nat)) b =>
    match acc, (if bit p.ticket.bars b then c.contoneAt ps b f.1 f.2.1 f.2.2.1 f.2.2.2 else some 0) with
    | some l, some v => some (l ++ [v])
    | _, _ => none) (some [])

/-! ### The expected colour (R269, R271) -/

/-- Component `i` of an expected colour at tones in 1/16. -/
def expectedPart (table : List Byte) (tones : List Nat) (i : Nat) : Frac :=
  let tone (b : Nat) : Nat := tones.getD b 0
  let places : List Frac := (slice table 4 4).map fun a => if a.toNat < 8 then ⟨tone a.toNat, 256⟩ else ⟨0, 1⟩
  let node (n : List Nat) : Frac :=
    ⟨fld table (64 + 6 * (((n.getD 0 0 * 17 + n.getD 1 0) * 17 + n.getD 2 0) * 17 + n.getD 3 0) + 2 * i) 2, 32768⟩
  let curve (b : Nat) : Frac :=
    let v := tone b
    let e (s : Nat) : Frac := ⟨fld table (501248 + 1536 * b + 6 * (min s 255) + 2 * i) 2, 32768⟩
    ((e (v / 16)).mul ⟨(16 - v % 16 : Nat), 16⟩).add ((e (v / 16 + 1)).mul ⟨(v % 16 : Nat), 16⟩)
  let bars := (barsOf (fld table 3 1)).filter fun b => !(tableAxes table).contains b
  clampFrac ⟨1999, 1000⟩ (bars.foldl (fun (acc : Frac) b => acc.mul (curve b)) (onLattice 16 node places))

/-- The expected value of tones under a page's appearance table. -/
def Ctl.expectedLab (c : Ctl) (p : LoopPage) (tones : List Nat) : Option Lab :=
  let table := c.tableIn (p.num 0x41)
  if table.isEmpty then none else some (labOf 1 ((List.range 3).map (expectedPart table tones)))

/-- A pixel of a band: its column and row in it, centre column and coordinate, measured and expected value, the tones, GAP_BEFORE of its
row, and whether it lies in a failed region of its page (R113, R114). -/
structure Seen where
  x : Nat
  y : Nat
  column : Frac
  at_ : Int
  measured : Option Lab
  expected : Option Lab
  tones : List Nat
  gap : Bool
  failed : Bool
  deriving DecidableEq, Repr

/-- The page whose rules a coordinate is judged under: the page there, else the last one before it (log entry 94). -/
def pageFor (ps : List LoopPage) (w : Int) : Option LoopPage :=
  match pageUnder ps w with
  | some p => some p
  | none => (ps.filter fun p => decide ((p.first : Int) * 256 ≤ w)).getLast?

/-- A pixel as the loop sees it under a shift. -/
def Ctl.seen (c : Ctl) (ps : List LoopPage) (k : Nat) (ax : Int) (r : BandRow) (x y : Nat) : Seen :=
  let j := c.pixelColumn k x ax
  let m := r.lab.getD x none
  match pageFor ps r.at_ with
  | none => ⟨x, y, j, r.at_, m, none, [], r.gap, false⟩
  | some p =>
    let tones := c.tones ps p k x ax r
    ⟨x, y, j, r.at_, m, tones.bind fun t => c.expectedLab p t, tones.getD [], r.gap, tones.isNone⟩

/-- Every pixel of a band under a shift, row by row. -/
def Ctl.seeBand (c : Ctl) (k : Nat) (shift : Int × Int) (strip : List StripRow) : List (List Seen) :=
  let ps := c.loopPages
  (strip.zipIdx.map fun e => (c.bandRow k shift.2 e.1, e.2)).map fun r =>
    (List.range r.1.lab.length).map fun x => c.seen ps k shift.1 r.1 x r.2

/-- A pixel is valid (R275). -/
def Seen.valid (s : Seen) : Bool := s.measured.isSome && s.expected.isSome

/-! ### Alignment (R273) -/

/-- A picture: a value per pixel, none where a pixel has none. -/
abbrev Picture := List (List (Option Int))

/-- A pixel of a picture, none outside it. -/
def Picture.at (p : Picture) (y x : Int) : Option Int :=
  if y < 0 ∨ x < 0 then none else (p.getD y.toNat []).getD x.toNat none

/-- At 1/4 resolution: of each 4 x 4 pixels sixteen times the mean of those with a value (log entry 93). -/
def Picture.quarter (p : Picture) : Picture :=
  let width := maxOf (p.map (·.length))
  (List.range (p.length / 4)).map fun (y : Nat) => (List.range (width / 4)).map fun (x : Nat) =>
    let vs := (List.range 16).filterMap fun (i : Nat) => p.at (4 * y + i / 4 : Nat) (4 * x + i % 4 : Nat)
    if vs.isEmpty then none else some (16 * vs.sum / vs.length)

/-- The normalised cross-correlation of measured pixels with the expected ones a shift away, over the pixels that both have, in 1/2^32;
one below 0, or without contrast, counts 0 (R273; log entry 93). -/
def nccAt (m e : Picture) (s : Int × Int) : Nat :=
  let ps := (m.zipIdx.map fun r => r.1.zipIdx.filterMap fun v => match v.1, e.at (r.2 + s.2) (v.2 + s.1) with
    | some a, some b => some (a, b)
    | _, _ => none).flatten
  let n : Int := ps.length
  let sum (f : Int × Int → Int) : Int := (ps.map f).sum
  let cov := n * sum (fun p => p.1 * p.2) - sum (·.1) * sum (·.2)
  let vm := n * sum (fun p => p.1 * p.1) - sum (·.1) * sum (·.1)
  let ve := n * sum (fun p => p.2 * p.2) - sum (·.2) * sum (·.2)
  if cov ≤ 0 ∨ vm * ve ≤ 0 then 0 else isqrt ((cov * cov).toNat * 2 ^ 64 / (vm * ve).toNat)

/-- The shift of a list with the highest score, the first of several. -/
def bestShift (score : Int × Int → Nat) (l : List (Int × Int)) : Int × Int :=
  (argLeast (fun s => 2 ^ 33 - score s) l).getD (0, 0)

/-- Where a parabola through a peak and its neighbours has its top, in 1/16 from the peak. -/
def parabola (before peak after : Int) : Int :=
  let d := 2 * (2 * peak - before - after)
  if d ≤ 0 then 0 else clampI (-8) 8 (Frac.round ⟨16 * (after - before), d.toNat⟩)

/-- The standard deviation of values in 1/512, in 0.01, rounded down. -/
def deviation (vs : List Int) : Nat :=
  let n : Int := vs.length
  let v := n * (vs.map fun a => a * a).sum - vs.sum * vs.sum
  if vs.isEmpty then 0 else isqrt ((10000 * v).toNat / (vs.length * vs.length * 512 * 512))

/-- A band's correlation: score, contrast, shift in 1/16 px, in the three stages of R273. A shift stays within 64 px, and at its end has
no parabola. -/
def correlate (rows : List (List Seen)) : Nat × Nat × Int × Int :=
  let lights (f : Seen → Option Lab) : Picture := rows.map fun r => r.map fun s => (f s).map fun v => (v.l : Int)
  let m := lights (·.measured)
  let e := lights (·.expected)
  let coarse := bestShift (nccAt m.quarter e.quarter) (shiftsWithin 16)
  let near := (shiftsWithin 4).map fun s => (clampI (-64) 64 (4 * coarse.1 + s.1), clampI (-64) 64 (4 * coarse.2 + s.2))
  let s := bestShift (nccAt m e) near
  let at_ (x y : Int) : Int := nccAt m e (s.1 + x, s.2 + y)
  let fine (c b a : Int) : Int := if c.natAbs = 64 then 16 * c else 16 * c + parabola b (at_ 0 0) a
  (min 65535 (nccAt m e s / 65536), deviation (e.flatten.filterMap id), fine s.1 (at_ (-1) 0) (at_ 1 0), fine s.2 (at_ 0 (-1)) (at_ 0 1))

/-- A band aligned: the shift its tiles are measured under, none for UNALIGNED, with the camera's alignment afterwards. -/
def Ctl.alignBand (c : Ctl) (k : Nat) (rows : List (List Seen)) : Option (Int × Int) × Ctl :=
  let l := c.loopCam k
  let a := correlate rows
  let edge := a.2.2.1.natAbs == 1024 || a.2.2.2.natAbs == 1024
  let was := c.nat (Obj.align_state k)
  let c0 := c.putN (Obj.align_score k) a.1
  let show_ (c : Ctl) (s : Int × Int) : Ctl := (c.putI (Obj.align_dx k) s.1).putI (Obj.align_dy k) s.2
  if c.nat (Obj.align_min_score k) ≤ a.1 ∧ c.nat (Obj.align_min_contrast k) ≤ a.2.1 ∧ edge = false then
    (some a.2.2, ((show_ c0 a.2.2).setLoopCam k { l with shift := some a.2.2, since := 0, failed := 0 }).setAlign k 2)
  else
    let lost := edge || l.failed + 1 == 16
    let l1 := { l with since := l.since + 1, failed := if lost then 0 else l.failed + 1 }
    match (if l.since < 16 then l.shift else none) with
    | some s => (some s, ((show_ c0 s).setLoopCam k l1).setAlign k (if lost then 4 else 3))
    | none =>
      (none, (((c0.setLoopCam k l1).bump (Obj.bands_unaligned k)).setAlign k (if lost then 4 else if was = 4 then 1 else was)))

/-! ### Tiles (R275, R276) -/

/-- A tile of a band: its row and column, its pixels, the coordinate of its first row as recorded and under the shift, the coordinate of
its centre, and where its rows begin and end, in 1/256 tick. -/
structure Tile where
  row : Nat
  col : Nat
  pixels : List Seen
  raw : Int
  first : Int
  centre : Int
  from_ : Int
  to_ : Int
  deriving DecidableEq, Repr

/-- The tiles of a band of up to 256 rows. -/
def tilesOf (rows : List BandRow) (seen : List (List Seen)) : List Tile :=
  let width := maxOf (seen.map (·.length))
  ((List.range ((rows.length + 15) / 16)).map fun i =>
    let mine := (rows.drop (16 * i)).take 16
    let first := mine.headD ⟨0, 0, 0, [], false⟩
    let last := mine.getLast?.getD first
    let mid (n : Nat) : Int := (mine.getD n last).at_
    (List.range ((width + 15) / 16)).map fun j =>
      (⟨i, j, (((seen.drop (16 * i)).take 16).map fun r => (r.drop (16 * j)).take 16).flatten, first.raw, first.at_,
        (mid 7 + mid 8) / 2, first.at_ - first.pitch / 2, last.at_ + last.pitch / 2⟩ : Tile)).flatten

/-- A coordinate range touches line `n` of a page. -/
def LoopPage.touches (p : LoopPage) (n : Nat) (lo hi : Int) : Bool :=
  decide (lo < ((p.first + 64 * (n + 1) : Nat) : Int) * 256 ∧ ((p.first + 64 * n : Nat) : Int) * 256 < hi)

/-- The exclusion of a tile, 0 for none, in the order of R275. -/
def Ctl.exclusion (c : Ctl) (ps : List LoopPage) (aligned : Bool) (t : Tile) : Nat :=
  let near := ps.filter fun p => decide (t.from_ < (p.end_ : Int) * 256 ∧ (p.first : Int) * 256 < t.to_)
  if !aligned then 1
  else if (t.pixels.filter fun s => s.valid && !s.gap).length < 192 then 2
  else if t.pixels.any (·.failed) then 3
  else if c.loop.zones.any (fun z => decide (t.from_ < (z.2 : Int) * 256 ∧ (z.1 : Int) * 256 < t.to_)) then 4
  else if near.any (fun p => p.ticket.work.known.any fun y => bit p.ticket.bars y.1 && p.touches y.2 t.from_ t.to_) then 5
  else 0

/-- The means of a tile over its valid pixels as encoded: measured, then expected. -/
def Tile.means (t : Tile) : List Int :=
  let ps := t.pixels.filter Seen.valid
  let mean (f : Seen → Option Lab) (g : Lab → Int) : Int :=
    openRound ⟨(ps.map fun s => match f s with
      | some v => g v
      | none => 0).sum, max 1 ps.length⟩
  [mean (·.measured) fun v => v.l, mean (·.measured) (·.a), mean (·.measured) (·.b), mean (·.expected) fun v => v.l,
    mean (·.expected) (·.a), mean (·.expected) (·.b)]

/-- The colour difference of a tile under a page's factors, in 0.01. -/
def Tile.difference (t : Tile) (p : LoopPage) : Nat := reportedDe t.means (p.oct 0x46)

/-! ### Absorptance (R281) -/

/-- The inverse of the CIE 1976 function at a fraction. -/
def cieInverse (t : Frac) : Frac :=
  if Frac.lt ⟨6, 29⟩ t then (t.mul t).mul t else (Frac.mk 108 841).mul (t.sub ⟨4, 29⟩)

/-- The absorptance of a value in a density channel: 0 X, 1 Y, 2 Z. -/
def absorptance (channel : Nat) (v : Lab) : Frac :=
  let fy := (Frac.mk (v.l + 16 * 512) (512 * 116))
  let f := if channel = 0 then fy.add ⟨v.a, 256 * 500⟩ else if channel = 1 then fy else fy.sub ⟨v.b, 256 * 200⟩
  (Frac.ofInt 1).sub (cieInverse f)

end Sys2Proof.Machine
end

