-- ==== Sys2Proof/Machine/LoopSum.lean ====
section
/-! DEFINITION. What the loop sums (R277, R281 to R287): statistics of pages, defect records, residuals, fiducials and marks. -/

namespace Sys2Proof.Machine

/-! ### Statistics of a page (R277) -/

/-- The statistics of a page with nothing measured. -/
def PageStats.zero (n : Nat) : PageStats := ⟨n, 0, 0, 0, 0, 0, 0, 0, [], 0, false, false⟩

/-- The statistics of a ticket. -/
def Ctl.stats (c : Ctl) (n : Nat) : PageStats := (c.loop.stats.find? fun x => x.ticket == n).getD (PageStats.zero n)

/-- They are replaced. -/
def Ctl.setStats (c : Ctl) (x : PageStats) : Ctl :=
  c.setLoop { c.loop with stats := c.loop.stats.filter (fun y => y.ticket != x.ticket) ++ [x] }

/-- The body of a DEFECT record (R279): the page line and page column of the tile's first pixel. -/
def Ctl.defectBody (c : Ctl) (k : Nat) (page : Option LoopPage) (ax : Int) (t : Tile) (de : Nat) : List Byte :=
  let m := t.means
  let col := (c.pixelColumn k (16 * t.col) ax).floor - (match page with
    | some p => kvGet 0 p.ticket.work.offsets 0
    | none => c.int (Obj.column_offset 0))
  le 8 (uns 64 t.raw) ++ (match page with
      | some p => le 4 (p.lineAt (max t.first ((p.first : Int) * 256)))
      | none => le 4 0xFFFFFFFF) ++ le 4 (uns 32 col) ++ le 2 de ++
    le 2 (uns 16 (m.getD 0 0)) ++ le 2 (uns 16 (m.getD 1 0)) ++ le 2 (uns 16 (m.getD 2 0)) ++
    le 2 (uns 16 (m.getD 3 0)) ++ le 2 (uns 16 (m.getD 4 0)) ++ le 2 (uns 16 (m.getD 5 0)) ++ zeros 2

/-- A crop of a defect, where the page asks for crops of the camera and has some left (R328). -/
def Ctl.cropDefect (c : Ctl) (k : Nat) (p : LoopPage) (t : Tile) : Ctl :=
  let n := p.ticket.number
  let r := c.recorder
  let w := min (p.num 0x66) (c.stitched k)
  let mid := (16 * t.col + 8) * c.pixelSpan k
  let left := min (mid - w / 2) (c.stitched k - w) / 2 * 2
  if bit (p.num 0x65) k && decide (kvGet 0 r.cropsOf n < p.num 0x68) then
    (c.setRec { r with crops := r.crops ++ [⟨k, n, left, w, t.centre, p.num 0x67⟩], cropsOf := kvAdd r.cropsOf n 1 }).needRide
      rideRecord
  else c

/-- A defect tile: its record as far as the page has records left, and its crop. Web of no page has no bound (log entry 94). -/
def Ctl.defectTile (c : Ctl) (k : Nat) (ax : Int) (rules : LoopPage) (page : Option LoopPage) (t : Tile) (de : Nat) : Ctl :=
  let n := match page with
    | some p => p.ticket.number
    | none => 0
  let s := c.stats n
  if page.isSome ∧ rules.num 0x53 ≤ s.written then c.setStats { s with unwritten := true }
  else
    let c1 := (c.setStats { s with written := s.written + 1 }).loopRecord recDefect 0 0xFF k n 0 (c.defectBody k page ax t de)
    match page with
    | some p => c1.cropDefect k p t
    | none => c1

/-- One tile of a band judged (R275 to R277). -/
def Ctl.judgeTile (c : Ctl) (k : Nat) (ps : List LoopPage) (shift : Option (Int × Int)) (t : Tile) : Ctl :=
  let page := (pageUnder ps t.centre).filter LoopPage.inspected
  let n := match page with
    | some p => p.ticket.number
    | none => 0
  let x := c.exclusion ps shift.isSome t
  let s := c.stats n
  match (pageFor ps t.centre).filter LoopPage.inspected with
  | none => c
  | some rules =>
    if x ≠ 0 then
      (c.setStats { s with excluded := s.excluded + 1, lacking := s.lacking + (if x ≤ 3 then 1 else 0)
                           known := s.known + (if x = 5 then 1 else 0) }).bump (Obj.tiles_excluded k)
    else
      let de := t.difference rules
      let s1 := { s with compared := s.compared + 1, maxDe := max s.maxDe de, sumDe := s.sumDe + de }
      let bad := decide (rules.num 0x43 < de)
      let c1 := (c.setStats (if bad then { s1 with defects := s1.defects + 1 } else s1)).bump (Obj.tiles_compared k)
      if bad then (c1.bump (Obj.defect_tiles k)).defectTile k ((shift.getD (0, 0)).1) rules page t de else c1

/-! ### Solo samples (R281) -/

/-- A sample of a bar: its column as a whole number, the line it lies on, measured and expected absorptance. -/
structure Sample where
  column : Nat
  line : Nat
  at_ : Int
  centre : Frac
  meas : Frac
  exp : Frac
  deriving DecidableEq, Repr

/-- No column within 2 of a column of a bar is uncovered (R130) for a page's line. -/
def Ctl.coveredNear (c : Ctl) (p : LoopPage) (b line j : Nat) : Bool :=
  (around j).all fun i => decide (i < 0 ∨ 65535 < i) || ((c.careAt b (p.first + 64 * line)).firesAt b i.toNat).isSome

/-- The sample a pixel of a page gives for a bar, if it is solo; `code` is the exclusion of its tile. -/
def Ctl.soloSample (c : Ctl) (p : LoopPage) (b code : Nat) (s : Seen) : Option Sample :=
  match s.measured, s.expected with
  | some m, some e =>
    let own := p.num 0x48 / 256
    let others := p.num 0x48 % 256
    let j := s.column.floor
    let ch := fld (p.oct 0x47) b 1
    if (code = 0 ∨ code = 2) ∧ 16 * own ≤ s.tones.getD b 0 ∧ 0 ≤ j ∧ j ≤ 65535 ∧ c.coveredNear p b (p.lineAt s.at_) j.toNat = true ∧
        (barsOf p.ticket.bars).all (fun o => o == b || decide (s.tones.getD o 0 ≤ 16 * others)) = true then
      some ⟨j.toNat, p.lineAt s.at_, s.at_, s.column, absorptance ch m, absorptance ch e⟩
    else none
  | _, _ => none

/-! ### Residuals (R282 to R285) -/

/-- B of R282: columns in a bin. -/
def Ctl.binWidth (c : Ctl) (k : Nat) : Nat := max 1 ((c.nat (Obj.columns_per_pixel k) + 255) / 256)

/-- A stamp or epoch is at or after another (R283). -/
def atOrAfter (a b : Nat) : Bool := decide ((a + 65536 - b % 65536) % 65536 < 32768)

/-- The latest stamp among the columns of a bin. -/
def Ctl.binStamp (c : Ctl) (b first width : Nat) : Nat :=
  (List.range width).foldl (fun s i => let t := c.stampAt b (first + i); if atOrAfter t s then t else s) (c.stampAt b first)

/-- The residual of an accumulation in 0.1 %, rounded towards zero (R285); none without expected absorptance. -/
def Residual.value (r : Residual) : Option Int :=
  if r.exp.num ≤ 0 then none
  else
    let q := ((r.meas.sub r.exp).mul ⟨1000, 1⟩).div r.exp
    some (if q.num < 0 then -((-q.num) / q.den) else q.num / q.den)

/-- A sample of a page joins its bin, or is stale (R284). -/
def Ctl.addSample (c : Ctl) (k : Nat) (p : LoopPage) (b : Nat) (s : Sample) : Ctl :=
  let w := c.binWidth k
  let bin := s.column / w
  let basis := c.binStamp b (bin * w) w
  let mine (r : Residual) : Bool := r.camera == k && r.bar == b && r.bin == bin
  match c.epochAt b (p.first + 64 * s.line) with
  | none => c.bump Obj.samples_stale
  | some e =>
    if !atOrAfter (e % 65536) basis then c.bump Obj.samples_stale
    else
      let old := (c.loop.residuals.find? mine).getD ⟨k, b, bin, ⟨0, 1⟩, ⟨0, 1⟩, 0, basis, false, false⟩
      let r := if old.basis = basis then old else ⟨k, b, bin, ⟨0, 1⟩, ⟨0, 1⟩, 0, basis, false, false⟩
      let r1 := { r with meas := r.meas.add s.meas, exp := r.exp.add s.exp, count := r.count + 1
                         ready := r.ready || decide (p.num 0x49 ≤ r.count + 1) }
      c.setLoop { c.loop with residuals := c.loop.residuals.filter (fun x => !mine x) ++ [r1] }

/-- The residuals of a bar that are ready under the stamps as they stand. -/
def Ctl.readyOf (c : Ctl) (b : Nat) : List Residual :=
  c.loop.residuals.filter fun r => r.bar == b && r.ready && r.value.isSome &&
    r.basis == c.binStamp b (r.bin * c.binWidth r.camera) (c.binWidth r.camera)

/-- 6520+b:01 to 03 afresh. -/
def Ctl.showResiduals (c : Ctl) (b : Nat) : Ctl :=
  let rs := c.readyOf b
  let size (r : Residual) : Nat := (r.value.getD 0).natAbs
  let worst := rs.foldl (fun (w : Option Residual) r => match w with
    | none => some r
    | some x => if size x < size r then some r else some x) none
  let c1 := c.putN (Obj.bins_ready b) rs.length
  match worst with
  | some r => (c1.putI (Obj.worst_residual b) (clampI (-32767) 32767 (r.value.getD 0))).putN (Obj.worst_column b)
      (r.bin * c.binWidth r.camera)
  | none => (c1.putI (Obj.worst_residual b) 0).putN (Obj.worst_column b) 0xFFFFFFFF

/-- 6550 for a column of a bar (R285, R296): that of the lowest camera with data. -/
def Ctl.columnResidual (c : Ctl) (b j : Nat) : Nat :=
  match c.loop.residuals.find? fun r => r.bar == b && r.bin == j / c.binWidth r.camera &&
      r.basis == c.binStamp b (r.bin * c.binWidth r.camera) (c.binWidth r.camera) with
  | some r => match r.value with
    | some v => uns 16 (clampI (-32767) 32767 v) * 65536 + min 65535 r.count
    | none => 0x80000000 + min 65535 r.count
  | none => 0x80000000

/-! ### Marks (R286) -/

/-- A sample joins a sum at a place. -/
def MarkSum.add (m : MarkSum) (meas exp place : Frac) : MarkSum :=
  ⟨m.count + 1, Frac.add m.meas meas, Frac.add m.exp exp, Frac.add m.measAt (meas.mul place), Frac.add m.expAt (exp.mul place)⟩

/-- Measured minus expected centroid, if there is ink in both. -/
def MarkSum.error (m : MarkSum) : Option Frac :=
  if m.meas.num = 0 ∨ m.exp.num = 0 then none else some ((m.measAt.div m.meas).sub (m.expAt.div m.exp))

/-- The group of the row that fires a column of a bar in a page's line. -/
def Ctl.groupFiring (c : Ctl) (p : LoopPage) (b line j : Nat) : Option Nat :=
  ((c.careAt b (p.first + 64 * line)).firesAt b j).map c.groupOfNozzle

/-- A fiducial of a page as camera `k` has it. -/
def Ctl.fidSum (c : Ctl) (n i k : Nat) : FidSum :=
  (c.loop.fids.find? fun f => f.ticket == n && f.index == i && f.camera == k).getD ⟨n, i, k, false, MarkSum.zero, []⟩

/-- A fiducial's sums replaced. -/
def Ctl.setFid (c : Ctl) (f : FidSum) : Ctl :=
  c.setLoop { c.loop with fids := c.loop.fids.filter (fun g => !(g.ticket == f.ticket && g.index == f.index && g.camera == f.camera)) ++ [f] }

/-- A fiducial lies within a camera's field. -/
def Ctl.fidInField (c : Ctl) (k : Nat) (p : LoopPage) (f : List Byte) : Bool :=
  let o := kvGet 0 p.ticket.work.offsets (fld f 0 1)
  match c.fieldOf k with
  | some (lo, hi) => decide ((lo : Int) ≤ fld f 2 2 + o ∧ (fld f 2 2 + fld f 6 2 : Nat) + o ≤ (hi : Int) + 1)
  | none => false

/-- A pixel within a fiducial of a page: a sample of it where it is solo, spoiling it where not. -/
def Ctl.seeFiducial (c : Ctl) (k : Nat) (p : LoopPage) (code : Nat) (s : Seen) (e : List Byte × Nat) : Ctl :=
  let f := e.1
  let b := fld f 0 1
  let n := p.ticket.number
  let col := s.column.floor - kvGet 0 p.ticket.work.offsets b
  let line := p.lineAt s.at_
  let inside := decide ((fld f 2 2 : Int) ≤ col ∧ col < (fld f 2 2 + fld f 6 2 : Nat) ∧ fld f 4 2 ≤ line ∧ line < fld f 4 2 + fld f 8 2)
  if !inside || !c.fidInField k p f then c
  else
    let x := c.fidSum n e.2 k
    match c.soloSample p b code s with
    | none => c.setFid { x with spoiled := true }
    | some v =>
      let along := match c.groupFiring p b v.line v.column with
        | some g => kvSet MarkSum.zero x.along g ((kvGet MarkSum.zero x.along g).add v.meas v.exp ⟨v.at_, 256⟩)
        | none => x.along
      c.setFid { x with cross := x.cross.add v.meas v.exp v.centre, along := along }

/-! ### Calibration marks (R300, R301) -/

/-- The block of pair `s`: first column; its lines are the zone's. -/
def blockFirst (s : Nat) : Nat := 2048 * s + 896

/-- A pixel of a block joins its sums, as one of a fiducial filled all over, by the reference channel Y; one of the web around it, within
the pair's columns and the zone's lines, tells the block's contrast with it (log entry 95). -/
def Ctl.seeMark (c : Ctl) (s : Seen) : Ctl :=
  match c.loop.reg, s.measured with
  | some g, some m =>
    match g.zone with
    | some z =>
      let j := s.column.floor
      let pair := (j / 2048).toNat
      let lo := ((z.place : Int) - 96 * 64) * 256
      let hi := ((z.place + 64 * 64 : Nat) : Int) * 256
      if 0 ≤ j ∧ j ≤ 65535 ∧ g.blocks.contains pair = true ∧ lo ≤ s.at_ ∧ s.at_ < hi + 96 * 64 * 256 then
        let inBlock := decide ((blockFirst pair : Int) ≤ j ∧ j < blockFirst pair + 256 ∧ (z.place : Int) * 256 ≤ s.at_ ∧ s.at_ < hi)
        let a := absorptance 1 m
        let cross := (kvGet MarkSum.zero g.seen (2 * pair)).add a ⟨1, 1⟩ s.column
        let along := (kvGet MarkSum.zero g.seen (2 * pair + 1)).add a ⟨1, 1⟩ ⟨s.at_, 256⟩
        let seen := if inBlock then kvSet MarkSum.zero (kvSet MarkSum.zero g.seen (2 * pair) cross) (2 * pair + 1) along else g.seen
        let lights := kvSet [] g.lights pair (kvGet [] g.lights pair ++ [(m.l : Int)])
        c.setLoop { c.loop with reg := some { g with seen := seen, lights := lights } }
      else c
    | none => c
  | _, _ => c

/-! ### A band (R280) -/

/-- What the pixels of a tile add: samples, fiducials, marks. -/
def Ctl.sumTile (c : Ctl) (k : Nat) (ps : List LoopPage) (aligned : Bool) (t : Tile) : Ctl :=
  let code := c.exclusion ps aligned t
  if !aligned then c
  else
    forEach t.pixels (fun c s =>
      match (pageUnder ps s.at_).filter LoopPage.inspected with
      | none => c.seeMark s
      | some p =>
        let c1 := forEach (barsOf p.ticket.bars) (fun c b => match c.soloSample p b code s with
          | some v => c.addSample k p b v
          | none => c) c
        forEach (fiducialsOf (p.oct 0x52)).zipIdx (fun c e => c.seeFiducial k p code s e) c1) c

/-- Lines of a page that a band's rows cover. -/
def linesCovered (p : LoopPage) (rows : List BandRow) : Nat :=
  ((List.range p.ticket.length).filter fun n => rows.any fun r => p.touches n (r.at_ - r.pitch / 2) (r.at_ + r.pitch / 2)).length

/-- The lines a band measured of each page are counted. -/
def Ctl.countLines (c : Ctl) (k : Nat) (ps : List LoopPage) (rows : List BandRow) : Ctl :=
  forEach ps (fun c p =>
    let n := linesCovered p rows
    let s := c.stats p.ticket.number
    if n = 0 then c else c.setStats { s with lines := kvAdd s.lines k n }) c

end Sys2Proof.Machine
end

