-- ==== Sys2Proof/Machine/Loop.lean ====
section
/-! DEFINITION. The loop's steps (R270, R277, R280, R286, R288 to R293): bands, the end of a page, actions, entries that reach their
owners, appearance tables. -/

namespace Sys2Proof.Machine

/-! ### Registration errors of a page (R286, R287) -/

/-- A page's fiducials of a bar without a spoiled pixel. -/
def Ctl.fidsOf (c : Ctl) (p : LoopPage) (b : Nat) : List FidSum :=
  let fs := fiducialsOf (p.oct 0x52)
  c.loop.fids.filter fun f => f.ticket == p.ticket.number && !f.spoiled && fld (fs.getD f.index []) 0 1 == b

/-- The mean error of sums in 1/256, none below 256 samples. -/
def meanError (ms : List MarkSum) : Option Int :=
  let es := ms.filterMap MarkSum.error
  if (ms.map (·.count)).sum < 256 ∨ es = [] then none
  else some (openRound (((es.foldl Frac.add ⟨0, 1⟩).mul ⟨256, 1⟩).divNat es.length))

/-- The cross-web error of a bar and the along-web error of a pair that a page shows. -/
def Ctl.crossError (c : Ctl) (p : LoopPage) (b : Nat) : Option Int := meanError ((c.fidsOf p b).map (·.cross))
def Ctl.alongError (c : Ctl) (p : LoopPage) (s : Nat) : Option Int :=
  meanError ((c.fidsOf p (s / 4)).map fun f => kvGet MarkSum.zero f.along (s % 4))

/-- The page fired under the present generation of pair or bar `i`. -/
def Ctl.sameGeneration (c : Ctl) (p : LoopPage) (i : Nat) : Bool := kvGet 0 p.ticket.work.gens i == c.generation i

/-- A page's errors shown, or discarded where a later generation has begun. -/
def Ctl.showErrors (c : Ctl) (p : LoopPage) : Ctl :=
  forEach (barsOf p.ticket.bars) (fun c b =>
    let c1 := match c.crossError p b with
      | some e => if c.sameGeneration p (32 + b) then c.putI (Obj.cross_error b) e else c.bump (Obj.registration_discards b)
      | none => c
    forEach (List.range 4) (fun c g =>
      match c.alongError p (4 * b + g) with
      | some e =>
        if c.sameGeneration p (4 * b + g) then
          c.putO (Obj.along_error b) (splice (c.oct (Obj.along_error b)) (4 * g) (le 4 (uns 32 e)))
        else c.bump (Obj.registration_discards b)
      | none => c) c1) c

/-! ### SUMMARY (R277, R279) -/

/-- The verdict: 3 NOT_INSPECTED, 1 FAIL, 2 INCOMPLETE, 0 PASS. -/
def verdict (p : LoopPage) (s : PageStats) : Nat :=
  if !p.inspected || s.compared == 0 then 3
  else if p.num 0x44 < s.defects then 1
  else if p.num 0x45 < s.lacking then 2
  else 0

/-- Cameras that measure and have a column of a page in their field. -/
def Ctl.camerasOn (c : Ctl) (p : LoopPage) : List Nat :=
  (List.range 4).filter fun k => c.nat (Obj.align_state k) != 0 && (barsOf p.ticket.bars).any fun b => !(c.fieldCrates k p.ticket.width (p.ticket.offsetOn b)).isEmpty

/-- The part of the page's columns that a field covers, in 1/65,536. -/
def Ctl.coverage (c : Ctl) (p : LoopPage) : Nat :=
  let n := 256 * p.ticket.width
  let fields := (c.camerasOn p).filterMap c.fieldOf
  let o : Int := kvGet 0 p.ticket.work.offsets 0
  let seen := (List.range n).filter fun (i : Nat) => fields.any fun f => decide ((f.1 : Int) ≤ i + o ∧ (i : Int) + o ≤ f.2)
  min 65535 (seen.length * 65536 / max 1 n)

/-- The SUMMARY record of a page. -/
def Ctl.summary (c : Ctl) (p : LoopPage) : Ctl :=
  let s := c.stats p.ticket.number
  c.loopRecord recSummary (if s.unwritten then 1 else 0) 0xFF 0xFF p.ticket.number 0
    (le 4 s.compared ++ le 4 s.excluded ++ le 4 s.defects ++ le 4 s.known ++ le 2 s.maxDe ++
      le 2 (if s.compared = 0 then 0 else openDiv s.sumDe s.compared) ++ le 2 (c.coverage p) ++ le 1 (verdict p s) ++ [0] ++
      le 4 (maxOf (s.lines.map (·.2))) ++ zeros 16)

/-! ### The nozzle action of a page (R289, R292) -/

/-- A ready residual with what the action asks of it: its value, first column, width, and firing nozzles. -/
structure Ready where
  r : Residual
  value : Int
  first : Nat
  width : Nat
  nozzles : List Nat
  deriving DecidableEq, Repr

/-- The ready residuals of a bar not yet acted on. -/
def Ctl.toAct (c : Ctl) (b : Nat) : List Ready :=
  ((c.readyOf b).filter fun r => !r.acted).map fun r =>
    let w := c.binWidth r.camera
    ⟨r, r.value.getD 0, r.bin * w, w, ((List.range w).filterMap fun i => c.firesAt b (r.bin * w + i)).eraseDups⟩

/-- A list in rising order of a key, equal keys as they stand. -/
def sortKey {α : Type} (key : α → Int) (l : List α) : List α :=
  l.foldl (fun acc x => acc.takeWhile (fun y => decide (key y ≤ key x)) ++ [x] ++ acc.dropWhile (fun y => decide (key y ≤ key x))) []

/-- The change of a nozzle or bin that a residual calls for. -/
def Ctl.changeOf (c : Ctl) (p : LoopPage) (b : Nat) (x : Ready) (kind target : Nat) (old new : Int) : LoopChange :=
  ⟨kind, target, old, new, x.value, x.r.count, x.r.basis, b, x.r.camera, p.ticket.number,
    (c.epochAt b (p.end_ - 64)).getD 0, x.first, x.width⟩

/-- The entry of a nozzle as written. -/
def Ctl.writtenEntry (c : Ctl) (z : Nat) : Nat := kvGet 0 c.care.written z

/-- Setting a nozzle DEAD, with others set DEAD before it, would leave its column in an unhideable gap (R134). -/
def Ctl.deadGap (c : Ctl) (b z : Nat) (dead : List Nat) : Bool :=
  let kill (m : Kv Nat) (y : Nat) : Kv Nat := kvSet 0 m y (kvGet 0 m y % 2 ^ 30 + 2 * 2 ^ 30)
  let c1 : Ctl := { c with care := { c.care with live := forEach (z :: dead) kill c.care.live } }
  let width := c.nat (Obj.bar_columns b)
  let col := (nozColumn (kvGet 0 c.care.live z) : Int) - (c.careBar b).offset
  (badRuns (fun k => (c1.covers b k).isSome) width).any fun r => decide ((r.1 : Int) ≤ col ∧ col < (r.1 + r.2 : Nat))

/-- What an action has gathered: changes to make, changes withheld with their reasons, state changes, nozzles set DEAD. -/
structure Draft where
  make : List LoopChange
  withheld : List (LoopChange × Nat)
  states : Nat
  dead : List Nat
  deriving DecidableEq, Repr

/-- Steps 1 and 2 for one bin of a single column: a state change where it applies. -/
def Ctl.draftState (c : Ctl) (p : LoopPage) (b new : Nat) (d : Draft) (x : Ready) : Draft :=
  match x.nozzles with
  | [] => d
  | z :: _ =>
    let old := nozState (c.writtenEntry z)
    let ch := c.changeOf p b x kindState z old new
    if new ≤ old then d
    else if p.num 0x4F ≤ d.states ∨ 4096 ≤ d.make.length then { d with withheld := d.withheld ++ [(ch, 3)] }
    else if new = 2 ∧ c.deadGap b z d.dead = true then { d with withheld := d.withheld ++ [(ch, 4)] }
    else { d with make := d.make ++ [ch], states := d.states + 1, dead := if new = 2 then z :: d.dead else d.dead }

/-- The correction a residual asks of a nozzle that holds `k` (R289). -/
def stepOf (p : LoopPage) (k rho : Int) : Int × Int :=
  let most : Int := p.num 0x4B
  let limit : Int := p.num 0x4C
  let target := if 0 < 1000 + rho then sdivRound ((1000 + k) * 1000) (1000 + rho).toNat - 1000 else 1000000
  let s := clampI (-most) most (target - k)
  (s, clampI (-limit) limit (k + s))

/-- Step 3 for one bin: every firing nozzle gets the step of the bin, each within its own limit. -/
def Ctl.draftStep (c : Ctl) (p : LoopPage) (b : Nat) (d : Draft) (x : Ready) : Draft :=
  let lead := match x.nozzles with
    | z :: _ => nozCorrection (c.writtenEntry z)
    | [] => 0
  let s := (stepOf p lead x.value).1
  forEach x.nozzles (fun d z =>
    let k := nozCorrection (c.writtenEntry z)
    let new := clampI (-(p.num 0x4C : Int)) (p.num 0x4C) (k + s)
    let ch := c.changeOf p b x kindCorrection z k new
    if s = 0 then d
    else if new = k ∨ 4096 ≤ d.make.length then { d with withheld := d.withheld ++ [(ch, 3)] }
    else { d with make := d.make ++ [ch] }) d

/-- The states that a bin of several columns would ask for are only proposed, at its first column. -/
def Ctl.draftBin (c : Ctl) (p : LoopPage) (b : Nat) (d : Draft) (x : Ready) : Draft :=
  let dead := decide (x.value ≤ -(p.num 0x4E : Int))
  let weak := decide (x.value ≤ -(p.num 0x4D : Int)) &&
    x.nozzles.any fun z => decide ((p.num 0x4C : Int) ≤ nozCorrection (c.writtenEntry z))
  if x.width = 1 ∨ !(dead || weak) then d
  else { d with withheld := d.withheld ++ [(c.changeOf p b x kindState x.first 0 (if dead then 2 else 1), 1)] }

/-- The action of a bar; a bin whose nozzle it sets WEAK or DEAD gets no correction step beside that (log entry 158). -/
def Ctl.draft (c : Ctl) (p : LoopPage) (b : Nat) : Draft :=
  let xs := c.toAct b
  let single := xs.filter fun x => x.width == 1
  let limited (x : Ready) : Bool := x.nozzles.any fun z => decide ((p.num 0x4C : Int) ≤ nozCorrection (c.writtenEntry z))
  let dead := sortKey (·.value) (single.filter fun x => decide (x.value ≤ -(p.num 0x4E : Int)))
  let weak := sortKey (·.value) (single.filter fun x => !dead.contains x && decide (x.value ≤ -(p.num 0x4D : Int)) && limited x)
  let d1 := forEach dead (c.draftState p b 2) ⟨[], [], 0, []⟩
  let d2 := forEach weak (c.draftState p b 1) d1
  let d3 := forEach xs (c.draftBin p b) d2
  let stated (x : Ready) : Bool := d2.make.any fun y => y.camera == x.r.camera && y.first == x.first
  let steps := sortKey (fun x => -(x.value.natAbs : Int)) (xs.filter fun x => !stated x && decide (p.num 0x4A ≤ x.value.natAbs))
  forEach steps (c.draftStep p b) d3

/-- Accumulations that an action reaches are marked as acted on. -/
def Ctl.markActed (c : Ctl) (b : Nat) (xs : List LoopChange) : Ctl :=
  let hit (r : Residual) : Bool := r.bar == b && xs.any fun x => x.camera == r.camera && x.first == r.bin * c.binWidth r.camera
  let rs := c.loop.residuals.map fun r => if hit r then { r with acted := true } else r
  c.setLoop { c.loop with residuals := rs }

/-- A request joins those on their way to their owners (R291). -/
def Ctl.request (c : Ctl) (x : LoopRequest) : Ctl := c.setLoop { c.loop with requests := c.loop.requests ++ [x] }

/-- The nozzle action of a bar at a page's autonomy (R288, R289). -/
def Ctl.nozzleAction (c : Ctl) (p : LoopPage) (b : Nat) : Ctl :=
  let d := c.draft p b
  let c1 := if p.autonomy = 0 then c else forEach d.withheld (fun c x => c.propose x.1 x.2 false) c
  if d.make = [] ∨ p.autonomy = 0 then c1
  else if p.autonomy = 1 then forEach d.make (fun c x => c.propose x 0 true) c1
  else (c1.request (.nozzles b d.make)).markActed b d.make

/-! ### The registration requests of a page (R290) -/

/-- A registration change measured on a page. -/
def Ctl.registerChange (c : Ctl) (p : LoopPage) (b kind target : Nat) (old new evidence : Int) (basis : Nat) : LoopChange :=
  let samples := ((c.fidsOf p b).map fun f => f.cross.count).sum
  ⟨kind, target, old, new, evidence, samples, basis, b, 0xFF, p.ticket.number, (c.epochAt b p.first).getD 0, 0, 0⟩

/-- Taps that an along-web error in 1/256 tick calls for at a speed in um/s: -round(e x tick length / (v x 250 ps)). -/
def tapsFor (e : Int) (lpi : Nat) (v : Int) : Option Int :=
  if v ≤ 0 then none
  else some (-(Frac.round (((tickPm lpi).mul ⟨e, 256⟩).div ⟨v * 250, 1000000⟩)))

/-- Travel of taps at a speed, in nm. -/
def tapsNm (taps v : Int) : Int := Frac.round ⟨taps * v * 250, 1000000000⟩

/-- No registration is asked for from a safe stop until admission reopens. -/
def Ctl.mayRegister (c : Ctl) : Bool :=
  !c.faulted && !(c.nat Obj.admission_state == 0 && c.nat Obj.closed_reason == St.CLOSED_FAULT)

/-- A change made or, at PROPOSE, only proposed. -/
def Ctl.askRegister (c : Ctl) (p : LoopPage) (x : LoopChange) (i : Nat) : Ctl :=
  if p.autonomy = 2 then c.request (.register x (c.generation i) false) else c.propose x 0 true

/-- The column offset of a bar: one column towards the error. -/
def Ctl.offsetRequest (c : Ctl) (p : LoopPage) (b : Nat) : Ctl :=
  match c.crossError p b with
  | none => c
  | some e =>
    let o := c.int (Obj.column_offset b)
    let new := o - dirOf e
    let x := c.registerChange p b kindOffset b o new e (c.generation (32 + b))
    if e.natAbs < 192 ∨ c.sameGeneration p (32 + b) = false then c
    else if new < -1024 ∨ 1024 < new then c.propose x 2 false
    else c.askRegister p x (32 + b)

/-- What a pair's error asks of its trim: the page's error, speed and the whole change in taps. -/
def Ctl.trimNeed (c : Ctl) (p : LoopPage) (s : Nat) : Option (Int × Int × Int) :=
  match c.alongError p s with
  | none => none
  | some e =>
    let v := kvGet 0 p.ticket.work.speeds s
    if e.natAbs < p.num 0x51 ∨ c.sameGeneration p s = false then none
    else (tapsFor e p.ticket.pitch v).map fun d => (e, v, d)

/-- Every pair of the bar with an error shows one sign, and every used group has an error. -/
def Ctl.oneSign (c : Ctl) (p : LoopPage) (b : Nat) : Bool :=
  let es := (c.groupsOfBar b).map fun g => c.alongError p (4 * b + g)
  es.all (fun e => e.isSome) && (es.all (fun e => decide (0 < e.getD 0)) || es.all fun e => decide (e.getD 0 < 0))

/-- The tap trim of a pair: at most trim_step taps; past its range to the nearer end, the rest of the travel proposed as geometry. -/
def Ctl.trimRequest (c : Ctl) (p : LoopPage) (b s : Nat) : Ctl :=
  match c.trimNeed p s with
  | none => c
  | some (e, v, d) =>
    let t := c.int (Obj.tap_trim s)
    let most : Int := p.num 0x50
    let new := clampI 0 1023 (t + clampI (-most) most d)
    let c1 := if new = t then c else c.askRegister p (c.registerChange p b kindTrim s t new e (c.generation s)) s
    if 0 ≤ t + d ∧ t + d ≤ 1023 then c1
    else
      let rest := tapsNm (t + d - clampI 0 1023 (t + d)) v
      let key := if c.oneSign p b then Obj.bar_offset b else Obj.group_distance b (s % 4)
      let kind := if c.oneSign p b then kindBarOffset else kindDistance
      c1.propose (c.registerChange p b kind (if kind = kindBarOffset then b else s) (c.int key) (c.int key + rest) e (c.generation s)) 2
        false

/-- At most one registration change per bar and per pair. -/
def Ctl.registration (c : Ctl) (p : LoopPage) (b : Nat) : Ctl :=
  if p.autonomy = 0 ∨ c.mayRegister = false then c
  else forEach (List.range 4) (fun c g => c.trimRequest p b (4 * b + g)) (c.offsetRequest p b)

/-! ### The end of a page (R277) -/

/-- Every camera whose field covers the page has measured past its last line. -/
def Ctl.pagePassed (c : Ctl) (p : LoopPage) : Bool :=
  (c.camerasOn p).all fun k => decide ((p.end_ : Int) * 256 ≤ (c.loopCam k).upTo)

/-- The page's last line lies upstream of where some camera has measured, or its ticket is posted. -/
def Ctl.pageSeen (c : Ctl) (p : LoopPage) : Bool :=
  (p.ticket.ended || p.ticket.complete) && (List.range 4).any fun k => decide ((p.end_ : Int) * 256 ≤ (c.loopCam k).upTo)

/-- What the loop holds of a page is dropped. -/
def Ctl.forgetPage (c : Ctl) (p : LoopPage) : Ctl :=
  let n := p.ticket.number
  let l := c.loop
  let open_ := (c.ticket n).isSome
  let s := c.stats n
  let c1 := c.setLoop { l with past := l.past.filter (fun q => q.ticket.number != n), fids := l.fids.filter (fun f => f.ticket != n)
                               stats := l.stats.filter (fun x => x.ticket != n) ++ (if open_ then [{ s with done := true }] else []) }
  let r := c1.recorder
  let c2 := c1.setRec { r with cropsOf := kvDrop r.cropsOf n }
  { c2 with page := { c2.page with means := c2.page.means.filter fun x => x.ticket != n } }

/-- A page whose measurement has ended: errors, SUMMARY, actions and requests. -/
def Ctl.endPage (c : Ctl) (p : LoopPage) : Ctl :=
  let c1 := (if p.inspected then c.showErrors p else c).summary p
  let c2 := if p.inspected then forEach (barsOf p.ticket.bars) (fun c b => (c.nozzleAction p b).registration p b) c1 else c1
  c2.forgetPage p

/-- Every page that has passed and has no SUMMARY ends. -/
def Ctl.endPages (c : Ctl) : Ctl :=
  forEach (c.loopPages.filter fun p => c.pageSeen p && c.pagePassed p && !(c.stats p.ticket.number).done) Ctl.endPage c

/-! ### LOOP_BAND_MEASURE (R280) -/

/-- Some inspection read of the lines a band covers is still due (R280). -/
def Ctl.bandReadsDue (c : Ctl) (k : Nat) (rows : List BandRow) : Bool :=
  c.adm.tickets.any fun t =>
    let p : LoopPage := ⟨t, []⟩
    t.pos.isSome && (barsOf t.bars).any fun b => (List.range ((t.length + 1) / 2)).any fun i =>
      c.inspectDue t b (2 * i) k && rows.any fun r => p.touches (2 * i) (r.at_ - r.pitch / 2) (r.at_ + r.pitch / 2)

/-- A band aligned and its tiles measured. -/
def Ctl.measureBand (c : Ctl) (k : Nat) (strip : List StripRow) : Ctl :=
  let a := c.alignBand k (c.seeBand k (0, 0) strip)
  let shift := a.1.getD (0, 0)
  let c1 := a.2
  let ps := c1.loopPages
  let rows := strip.map (c1.bandRow k shift.2)
  let tiles := tilesOf rows (c1.seeBand k shift strip)
  let c2 := forEach tiles (fun c t => c.judgeTile k ps a.1 t) c1
  let c3 := forEach tiles (fun c t => c.sumTile k ps a.1.isSome t) c2
  let c4 := if a.1.isSome then c3.countLines k ps rows else c3
  let c5 := forEach (List.range 8) Ctl.showResiduals c4
  let l := c5.loopCam k
  (c5.setLoopCam k { l with bands := l.bands + 1, upTo := match rows.getLast? with
    | some r => r.at_ + r.pitch / 2
    | none => l.upTo }).endPages

/-- LOOP_BAND_MEASURE: due once a band's rows and the contone under them are in, with the print and camera rides running. -/
def execLoopBandMeasure (camera : Nat) (s : State) : Host.Outcome State Fault Refusal :=
  let c := s.mach.ctl
  if 4 ≤ camera then .next s
  else match c.nextBand camera with
  | none => .next s
  | some strip =>
    if c.bandReadsDue camera (strip.map (c.bandRow camera 0)) then .next s
    else nextMach s (s.mach.onCtl fun c => c.measureBand camera strip).loopFlush

/-! ### LOOP_ACTION_ENTRY (R291, R293) -/

/-- The entry of a nozzle with the loop's change made. -/
def changedEntry (e : Nat) (x : LoopChange) : Nat :=
  if x.kind = kindState then e % 2 ^ 30 + x.new.toNat * 2 ^ 30
  else e / 2 ^ 24 * 2 ^ 24 + uns 8 x.new * 2 ^ 16 + e % 2 ^ 16

/-- A change of a nozzle has lost its basis, or its nozzle is RETIRED (R293); 0 for neither. -/
def Ctl.lostChange (c : Ctl) (x : LoopChange) : Nat :=
  if c.binStamp x.bar x.first x.width ≠ x.basis then 16
  else if nozState (c.writtenEntry x.target) = 3 then 17
  else 0

/-- A nozzle action at the care committer: entries that lost their basis are discarded, the rest is one PAGE commit, or refused. -/
def Ctl.takeNozzles (c : Ctl) (b : Nat) (xs : List LoopChange) : Ctl :=
  let ok := xs.filter fun x => c.lostChange x == 0
  let c1 := forEach (xs.filter fun x => c.lostChange x != 0) (fun d x => d.discarded x (c.lostChange x)) c
  if ok = [] then c1
  else if c1.stageFull b ok.length then forEach ok (fun c x => c.discarded { x with evidence := St.STAGE_FULL } 20) c1
  else c1.commit b (ok.map fun x => (x.target, changedEntry (c1.writtenEntry x.target) x)) true ok

/-- A registration request at its owner: discarded under a later generation, else written, to take effect at the bar's next page. -/
def Ctl.takeRegister (c : Ctl) (x : LoopChange) (generation : Nat) (calibration : Bool) : Ctl :=
  let i := if x.kind = kindOffset then 32 + x.target else x.target
  if c.generation i ≠ generation then c.discarded x 19
  else
    let key := if x.kind = kindOffset then Obj.column_offset x.target else Obj.tap_trim x.target
    let c1 := (c.putI key x.new).newGeneration i
    let c2 := c1.setLoop { c1.loop with taking := c1.loop.taking ++ [(x, calibration)] }
    if x.kind = kindOffset then c2.restartResiduals else c2

/-- LOOP_ACTION_ENTRY: the oldest request reaches its owner. -/
def execLoopActionEntry (s : State) : Host.Outcome State Fault Refusal :=
  match s.mach.ctl.loop.requests with
  | [] => .next s
  | r :: rest =>
    let c := s.mach.ctl.setLoop { s.mach.ctl.loop with requests := rest }
    let c1 := match r with
      | .nozzles b xs => c.takeNozzles b xs
      | .register x g cal => c.takeRegister x g cal
    nextMach s ({ s.mach with ctl := c1 } : Mach).loopFlush

/-! ### Appearance tables (R269, R270) -/

/-- Bytes of a table. -/
abbrev tableBytes : Nat := 513536

/-- The format of R269. -/
def tableFormatOk (t : List Byte) : Bool :=
  let axes := ((slice t 4 4).map (·.toNat))
  let used := axes.filter (· != 0xFF)
  fld t 0 2 == 0x5441 && fld t 2 1 == 1 && (slice t 8 56).all (· == 0) && (slice t 501190 58).all (· == 0) &&
    used.all (fun a => decide (a < 8)) && used.eraseDups.length == used.length

/-- A place given a table, or emptied; what follows for the slots (R63). -/
def Mach.setTable (m : Mach) (p : Nat) (t : List Byte) : Mach :=
  (m.onCtl fun c =>
    let c1 := c.setLoop { c.loop with tables := kvSet [] c.loop.tables p t }
    c1.refreshLibrary).libraryChanged (.place p)

/-- appearance_load. -/
def ownAppearanceLoad (v : List Byte) (n : Nat) (m : Mach) : Nat × Mach :=
  let a := fld v 0 8
  let p := fld v 12 1
  let fail (code : Nat) : Nat × Mach := (St.STARTED, m.onCtl (·.cmdNowFail Obj.appearance_load n code Src.LOOP_CMD_DONE))
  let t := memRead m.cellar a tableBytes
  if !m.ctl.loadOk a tableBytes then fail St.LOAD_ADDRESS
  else if fld (m.ctl.oct Obj.appearance_state) p 1 = 2 then fail St.APPEARANCE_IN_USE
  else if m.ctl.rangeFrozen a tableBytes then (St.CELLAR_FROZEN, m)
  else if crc32c t ≠ fld v 8 4 then fail St.TABLE_CRC
  else if !tableFormatOk t then fail St.TABLE_FORMAT
  else (St.STARTED, (m.onCtl fun c => c.useCellar.cmdNow Obj.appearance_load n Src.LOOP_CMD_DONE).setTable p t)

/-- APPEARANCE_LOAD. -/
def execAppearanceLoad (r : Req) (value : List Byte) (s : State) : Host.Outcome State Fault Refusal :=
  nextMach s (s.mach.writeRow r Obj.appearance_load value (rechecked (ownAppearanceLoad value)))

/-- appearance_clear. -/
def ownAppearanceClear (p n : Nat) (m : Mach) : Nat × Mach :=
  if fld (m.ctl.oct Obj.appearance_state) p 1 = 2 then (St.APPEARANCE_IN_USE, m)
  else (St.STARTED, (m.onCtl fun c => c.cmdNow Obj.appearance_clear n Src.LOOP_CMD_DONE).setTable p [])

/-- APPEARANCE_CLEAR. -/
def execAppearanceClear (r : Req) (arg : Nat) (s : State) : Host.Outcome State Fault Refusal :=
  nextMach s (s.mach.writeRow r Obj.appearance_clear (arg1 arg) (rechecked (ownAppearanceClear arg)))

end Sys2Proof.Machine
end

