-- ==== Sys2Proof/Machine/Calib.lean ====
section
/-! DEFINITION. Calibrations on command (R298 to R303): flat field, fire registration, records. -/

namespace Sys2Proof.Machine

/-! ### Flat field (R299, R265) -/

/-- cal_flat_field: refused CAL_NO_CAMERA unless the camera is IDLE or STREAMING and the named tiles are enabled. -/
def ownCalFlat (v : List Byte) (n : Nat) (c : Ctl) : Nat × Ctl :=
  let k := fld v 0 1
  let mask := fld v 1 1
  if (c.camState k ≠ 2 ∧ c.camState k ≠ 3) ∨ (List.range 4).any (fun t => bit mask t && !(c.tiles k).contains t) = true then
    refuse St.CAL_NO_CAMERA c
  else (St.STARTED, (c.cmdQueue Obj.cal_flat_field n).setLoop { c.loop with flat := some ⟨k, mask, fld v 2 2, c.now, [], []⟩ })

/-- CAL_FLAT_FIELD. -/
def execCalFlatField (r : Req) (value : List Byte) (s : State) : Host.Outcome State Fault Refusal :=
  nextMach s (s.mach.ctlRow r Obj.cal_flat_field value (ownCalFlat value))

/-- Every sensor row of every named tile has its rows. -/
def Ctl.flatFull (c : Ctl) (g : FlatCal) : Bool :=
  ((List.range 4).filter (bit g.mask)).all fun t =>
    (List.range (c.nat (Obj.sensor_rows (4 * g.camera + t)))).all fun r => decide (g.wanted ≤ kvGet 0 g.counts (t * 65536 + r))

/-- The colour channel of a phase: R, G or B; a MONO tile has one (log entry 96). -/
def channelOf (bayer r x : Nat) : Nat := if bayer = 4 then 0 else [0, 1, 1, 2].getD (phaseOf bayer r x) 0

/-- The sum of a tile's collected rows at a sensor row and column. -/
def FlatCal.sum (g : FlatCal) (t r x : Nat) : Nat := (kvGet [] g.sums (t * 65536 + r)).getD x 0

/-- A gain as Q2.14, rounded to nearest. -/
def gainOf (f : Frac) : Nat := (Frac.round (f.mul ⟨16384, 1⟩)).toNat

/-- The gains of a tile: g by column and row parity, then h by row; none where one lies outside 0.25 to 3.99994. -/
def Ctl.flatGains (c : Ctl) (g : FlatCal) (t : Nat) : Option (List Byte) :=
  let tile := 4 * g.camera + t
  let w := c.nat (Obj.tile_width tile)
  let rows := c.nat (Obj.sensor_rows tile)
  let by_ := c.nat (Obj.bayer tile)
  let places := ((List.range rows).map fun r => (List.range w).map fun x => (r, x)).flatten
  let mean (ps : List (Nat × Nat)) : Frac := Frac.norm ⟨(ps.map fun p => g.sum t p.1 p.2).sum, max 1 (ps.length * g.wanted)⟩
  let channels := (List.range 3).map fun ch => mean (places.filter fun p => channelOf by_ p.1 p.2 == ch)
  let gain (x phi : Nat) : Nat :=
    gainOf ((channels.getD (channelOf by_ phi x) ⟨0, 1⟩).div (mean (places.filter fun p => p.2 == x && p.1 % 2 == phi)))
  let gs := (List.range w).map fun x => [gain x 0, gain x 1]
  let after (ps : List (Nat × Nat)) : Frac :=
    Frac.norm ⟨(ps.map fun p => g.sum t p.1 p.2 * (gs.getD p.2 []).getD (p.1 % 2) 0).sum, max 1 (ps.length * g.wanted)⟩
  let whole := after places
  let hs := (List.range rows).map fun r => gainOf (whole.div (after (places.filter fun p => p.1 == r)))
  let ok := (gs.flatten ++ hs).all fun v => decide (4096 ≤ v ∧ v ≤ 65535)
  let cols := padUnity 8192 ((gs.map fun p => le 2 (p.getD 0 0) ++ le 2 (p.getD 1 0)).flatten) 4
  if ok then some (cols ++ padUnity 256 ((hs.map (le 2)).flatten) 2) else none
where
  /-- A table filled up to `n` entries of `size` bytes with gains of 1. -/
  padUnity (n : Nat) (b : List Byte) (size : Nat) : List Byte :=
    b ++ ((List.range ((n * size - b.length) / 2)).map fun _ => le 2 0x4000).flatten

/-- CAL_FLAT_DONE: once the rows are collected, the gains fill the idle banks, or the command fails FLAT_RANGE. -/
def execCalFlatDone (s : State) : Host.Outcome State Fault Refusal :=
  let c := s.mach.ctl
  match c.loop.flat with
  | none => .next s
  | some g =>
    if !c.flatFull g then .next s
    else
      let c1 := c.setLoop { c.loop with flat := none }
      let tiles := (List.range 4).filter (bit g.mask)
      if tiles.any fun t => (c.flatGains g t).isNone then
        nextCtl s (c1.cmdFail Obj.cal_flat_field St.FLAT_RANGE Src.CAL_CMD_DONE)
      else
        let c2 := forEach tiles (fun d t => d.giveFlat (4 * g.camera + t) ((c.flatGains g t).getD []) 0) c1
        nextCtl s (c2.cmdDone Obj.cal_flat_field Src.CAL_CMD_DONE)

/-! ### Fire registration (R300, R301) -/

/-- Some measuring camera's field holds a column of pair `s`'s block. -/
def Ctl.blockCamera (c : Ctl) (s : Nat) : Option Nat :=
  (List.range 4).find? fun k => c.camMeasures k && match c.fieldOf k with
    | some (lo, hi) => decide (lo < blockFirst s + 256 ∧ blockFirst s ≤ hi)
    | none => false

/-- Some measuring camera's field holds a page column of a bar (R298). -/
def Ctl.barSeen (c : Ctl) (b : Nat) : Bool :=
  (List.range 4).any fun k => c.camMeasures k && match c.fieldOf k with
    | some (lo, hi) =>
      let o := (c.careBar b).offset
      decide ((lo : Int) < o + c.nat (Obj.bar_columns b) ∧ o ≤ hi)
    | none => false

/-- cal_registration: refused CAL_NO_CAMERA where no measuring camera covers a named bar. -/
def ownCalRegistration (v : List Byte) (n : Nat) (c : Ctl) : Nat × Ctl :=
  let bars := fld v 0 1
  if !(barsOf bars).any c.barSeen then refuse St.CAL_NO_CAMERA c
  else
    let g : RegCal := ⟨bars, fld v 1 1, fld v 2 1, fld v 3 1 == 1, c.now, none, 0, [], [], [], [], []⟩
    (St.STARTED, ((c.cmdQueue Obj.cal_registration n).setLoop { c.loop with reg := some g }).needRide ridePrint)

/-- CAL_REGISTRATION. -/
def execCalRegistration (r : Req) (value : List Byte) (s : State) : Host.Outcome State Fault Refusal :=
  nextMach s (s.mach.ctlRow r Obj.cal_registration value (ownCalRegistration value))

/-- The registration calibration replaced. -/
def Ctl.setReg (c : Ctl) (g : Option RegCal) : Ctl := c.setLoop { c.loop with reg := g }

/-- The first gap that qualifies: the ticket before it. -/
def Ctl.markGap (c : Ctl) : List Ticket → Option Ticket
  | t :: u :: r =>
    let e := t.place + 64 * t.length
    if t.pos.isSome ∧ u.pos.isSome ∧ e + 384 * 64 ≤ u.place ∧ c.pp + 16384 ≤ e then some t else c.markGap (u :: r)
  | _ => none

/-- The zone's lines 96 to 159 as a page after a ticket. -/
def markTicket (bars : Nat) (t : Ticket) : Ticket :=
  { t with number := markNumber, bars := bars, length := 64, pos := some (t.place + 64 * t.length + 4096 + 96 * 64), ended := false,
           fired := [], settled := [], screened := [], firstEpoch := [], lastEpoch := [], cap := 2 ^ 32
           work := ⟨[], [], [], [], [], [], false, 0, 0, [], [], [], [], []⟩ }

/-- First coordinate and end of the zone's 256 lines. -/
def zoneOf (z : Ticket) : Nat × Nat := (z.place - 96 * 64, z.place + 160 * 64)

/-- A gap is chosen: the calibration runs. -/
def Ctl.chooseGap (c : Ctl) (g : RegCal) : Ctl :=
  match c.markGap c.live with
  | none => c
  | some t =>
    let z := markTicket g.bars t
    let c1 := c.setLoop { c.loop with reg := some { g with zone := some z, after := t.number }, zones := zoneOf z :: c.loop.zones.take 63 }
    c1.cmdRun Obj.cal_registration (c1.cmdStarter Obj.cal_registration)

/-- A page has come to lie on the zone. -/
def Ctl.zoneTaken (c : Ctl) (z : Ticket) : Bool :=
  c.live.any fun t => t.pos.isSome && decide (t.place < (zoneOf z).2 ∧ (zoneOf z).1 < t.place + 64 * t.length)

/-- The bar has screened everything before the zone, and its marks are within 48 lines of its offset. -/
def Ctl.marksDue (c : Ctl) (g : RegCal) (z : Ticket) (b : Nat) : Bool :=
  !g.placed.contains b && decide (c.barAt z.place b ≤ c.pp + 48 * 64) &&
    c.live.all fun t => decide (z.place ≤ t.place) || !bit t.bars b || decide (t.length ≤ kvGet 0 t.screened b)

/-- The marks of every bar are placed and fired, and every camera that sees them has measured past the zone. -/
def Ctl.marksOver (c : Ctl) (g : RegCal) (z : Ticket) : Bool :=
  (barsOf g.bars).all (fun b => g.placed.contains b && (c.groupsOfBar b).all fun x => decide (c.groupAt (z.place + 64 * 64) b x < c.pp)) &&
    c.care.shelf.all (fun x => x.ticket != markNumber) &&
    (List.range 4).all fun k => c.nat (Obj.align_state k) == 0 || decide (((zoneOf z).2 : Int) * 256 ≤ (c.loopCam k).upTo)

/-- A block is found: seen with enough contrast by a camera that covers it. -/
def Ctl.blockFound (c : Ctl) (g : RegCal) (s : Nat) : Bool :=
  g.blocks.contains s && match c.blockCamera s with
    | some k =>
      decide (c.nat (Obj.align_min_contrast k) ≤ deviation (kvGet [] g.lights s)) && ((kvGet MarkSum.zero g.seen (2 * s)).error).isSome
    | none => false

/-- The mean of fractions. -/
def meanOf (fs : List Frac) : Option Frac := if fs = [] then none else some ((fs.foldl Frac.add ⟨0, 1⟩).divNat fs.length)

/-- The blocks found of a bar. -/
def Ctl.foundOn (c : Ctl) (g : RegCal) (b : Nat) : List Nat := ((List.range 4).map (4 * b + ·)).filter (c.blockFound g)

/-- The cross error of a bar's blocks before the reference is taken off, and the along error of a pair. -/
def Ctl.rawCross (c : Ctl) (g : RegCal) (b : Nat) : Option Frac :=
  meanOf ((c.foundOn g b).filterMap fun s => (kvGet MarkSum.zero g.seen (2 * s)).error)
def RegCal.rawAlong (g : RegCal) (s : Nat) : Option Frac := (kvGet MarkSum.zero g.seen (2 * s + 1)).error

/-- In 1/256, relative to a reference; none where either is missing. -/
def relative (x ref : Option Frac) : Option Int := match x, ref with
  | some a, some r => some (openRound ((a.sub r).mul ⟨256, 1⟩))
  | _, _ => none

/-- The errors of a bar and of a pair relative to the reference bar's mean (R301). -/
def Ctl.markCross (c : Ctl) (g : RegCal) (b : Nat) : Option Int :=
  if bit g.bars b then relative (c.rawCross g b) (c.rawCross g g.reference) else none
def Ctl.markAlong (c : Ctl) (g : RegCal) (s : Nat) : Option Int :=
  if bit g.bars (s / 4) && c.blockFound g s then
    relative (g.rawAlong s) (meanOf ((c.foundOn g g.reference).filterMap g.rawAlong))
  else none

/-- The change of a pair's trim in taps, and the speed it was computed at. -/
def Ctl.markTaps (c : Ctl) (g : RegCal) (z : Ticket) (s : Nat) : Option (Int × Int) :=
  let v := kvGet 0 g.speeds s
  match c.markAlong g s with
  | some e => (tapsFor e z.pitch v).map fun d => (d, v)
  | none => none

/-- What the trim of a pair cannot reach, in nm to add to its group distance. -/
def Ctl.distanceAdjust (c : Ctl) (g : RegCal) (z : Ticket) (s : Nat) : Int :=
  match c.markTaps g z s with
  | some (d, v) =>
    let t := c.int (Obj.tap_trim s) + d
    tapsNm (t - clampI 0 1023 t) v
  | none => 0

/-- An error as its 4 bytes, 0x8000_0000 for none. -/
def errorBytes (e : Option Int) : List Byte := match e with
  | some v => le 4 (uns 32 v)
  | none => le 4 0x80000000

/-- A block of a named bar that applies was not found, or its error has no reference. -/
def Ctl.marksMissing (c : Ctl) (g : RegCal) : Bool := g.blocks.any fun s => (c.markAlong g s).isNone || (c.markCross g (s / 4)).isNone

/-- 6530:04 (R301). -/
def Ctl.registrationBytes (c : Ctl) (g : RegCal) (z : Ticket) : List Byte :=
  let missing := c.marksMissing g
  timeBytes c.localNs ++ le 1 g.reference ++ le 1 ((if g.apply && !missing then 1 else 0) + (if missing then 2 else 0)) ++ zeros 4 ++
    ((List.range 8).map fun b => errorBytes (c.markCross g b)).flatten ++
    ((List.range 32).map fun s => errorBytes (c.markAlong g s)).flatten ++
    ((List.range 32).map fun s => le 4 (uns 32 (c.distanceAdjust g z s))).flatten

/-- A calibration's change. -/
def markChange (kind target bar : Nat) (old new evidence : Int) (basis : Nat) : LoopChange :=
  ⟨kind, target, old, new, evidence, 0, basis, bar, 0xFF, 0, 0, 0, 0⟩

/-- The corrections requested in full (R301). -/
def Ctl.applyMarks (c : Ctl) (g : RegCal) (z : Ticket) : Ctl :=
  let c1 := forEach (barsOf g.bars) (fun (d : Ctl) b => match c.markCross g b with
    | some e =>
      let o := c.int (Obj.column_offset b)
      let new := clampI (-1024) 1024 (o - Frac.round ⟨e, 256⟩)
      if new = o then d
      else d.request (.register (markChange kindOffset b b o new e (c.generation (32 + b))) (c.generation (32 + b)) true)
    | none => d) c
  forEach (List.range 32) (fun (d : Ctl) s => match c.markTaps g z s with
    | some (n, _) =>
      let t := c.int (Obj.tap_trim s)
      let new := clampI 0 1023 (t + n)
      if new = t then d
      else d.request (.register (markChange kindTrim s (s / 4) t new ((c.markAlong g s).getD 0) (c.generation s)) (c.generation s) true)
    | none => d) c1

/-- The result stored; corrections, record and DONE, or MARKS_NOT_FOUND. -/
def Ctl.finishMarks (c : Ctl) (g : RegCal) (z : Ticket) : Ctl :=
  let b := c.registrationBytes g z
  let c1 := ((c.putO Obj.registration_result b).setReg none).usedRide ridePrint
  if c.marksMissing g then c1.cmdFail Obj.cal_registration St.MARKS_NOT_FOUND Src.CAL_CMD_DONE
  else
    let c2 := if g.apply then c1.applyMarks g z else c1
    let c3 := if c2.atticReady then c2.atticWrite (.record regionCalibration kindRegistration 0 b 0) else c2
    c3.cmdDone Obj.cal_registration Src.CAL_CMD_DONE

/-- CAL_MARK_ZONE: the next thing due of a registration calibration: a gap chosen, the marks of bars placed, or the marks measured. -/
def execCalMarkZone (s : State) : Host.Outcome State Fault Refusal :=
  let c := s.mach.ctl
  match c.loop.reg with
  | none => .next s
  | some g =>
    match g.zone with
    | none => if c.rideRuns ridePrint then nextCtl s (c.chooseGap g) else .next s
    | some z =>
      if g.placed = [] ∧ c.zoneTaken z = true then
        nextCtl s ((c.setReg (some { g with zone := none })).cmdQueue Obj.cal_registration (c.cmdStarter Obj.cal_registration))
      else if (barsOf g.bars).any (c.marksDue g z) then
        nextCtl s (forEach ((barsOf g.bars).filter (c.marksDue g z)) (fun d b => match d.loop.reg with
          | some h => d.placeMarks h (h.zone.getD z) b
          | none => d) c)
      else if c.marksOver g z then nextCtl s (c.finishMarks g z)
      else .next s

/-! ### Waits and records (R298, R303) -/

/-- A calibration that has waited longer than 6530:03 ends CAL_NO_GAP. -/
def Ctl.expireCal (c : Ctl) (key since : Nat) (f : Loop → Loop) : Ctl :=
  if c.cmdBusy key && decide (since + c.nat Obj.cal_wait_limit * ms ≤ c.now) then
    (((c.setLoop (f c.loop)).dropMarks).usedRide ridePrint).cmdFail key St.CAL_NO_GAP Src.CAL_CMD_DONE
  else c

/-- CAL_WAIT_EXPIRY. -/
def execCalWaitExpiry (s : State) : Host.Outcome State Fault Refusal :=
  let c := s.mach.ctl
  let c1 := match c.loop.flat with
    | some g => c.expireCal Obj.cal_flat_field g.since fun l => { l with flat := none }
    | none => c
  let c2 := match c1.loop.reg with
    | some g => c1.expireCal Obj.cal_registration g.since fun l => { l with reg := none }
    | none => c1
  nextCtl s c2

/-- clear_cal_records: refused while the attic is not READY. -/
def ownClearCal (n : Nat) (c : Ctl) : Nat × Ctl :=
  if !c.atticReady then refuse St.ATTIC_NOT_READY c
  else (St.STARTED, (c.cmdRun Obj.clear_cal_records n).atticWrite (.void regionCalibration Obj.clear_cal_records))

/-- CLEAR_CAL_RECORDS. -/
def execClearCalRecords (r : Req) (arg : Nat) (s : State) : Host.Outcome State Fault Refusal :=
  nextMach s (s.mach.ctlRow r Obj.clear_cal_records (arg1 arg) ownClearCal)

end Sys2Proof.Machine
end

