-- ==== Sys2Proof/Machine/Clocks.lean ====
section
/-! DEFINITION. The clocks (chapter 15): judging clocks stable, the reference inputs, the booth's oscillators. -/

namespace Sys2Proof.Machine

/-! ### Selecting and coasting (R394 to R397) -/

/-- input_state of a reference: 0 ABSENT, 1 STARTING, 2 VALID, 3 WARNING, 4 OUT, 5 LOST (R392). -/
def Ctl.refState (c : Ctl) (i : Nat) : Nat := c.nat (Obj.input_state i)

/-- VALID or WARNING. -/
def Ctl.refGood (c : Ctl) (i : Nat) : Bool := c.refState i == 2 || c.refState i == 3

/-- VALID, WARNING or OUT. -/
def Ctl.refRuns (c : Ctl) (i : Nat) : Bool := c.refGood i || c.refState i == 4

/-- The selection moves from one input to the other, hitlessly (R395). -/
def Ctl.switchRef (c : Ctl) (i : Nat) : Ctl :=
  if c.nat Obj.ref_selected = i then c
  else ((c.putN Obj.ref_selected i).bump Obj.ref_switches).ring Src.REF_SWITCH i Obj.ref_selected

/-- The quads of ALREF input `i`, 2 or 3 (R183). -/
def quadsOf (i : Nat) : List Nat := (List.range 4).map fun n => 4 * (i - 2) + n

/-- The reference input of a clock: none while no REF25 is selected. -/
def Ctl.refOf (c : Ctl) (clock : Nat) : Option Nat :=
  if clock < 12 then (if c.nat Obj.ref_selected < 2 then some (c.nat Obj.ref_selected) else none)
  else if c.refRuns (2 + (clock - 12) / 4) then some (2 + (clock - 12) / 4) else none

/-- The ride a clock serves, if it serves one. -/
def rideOfClock (clock : Nat) : Option Nat := (List.range 15).find? fun j => clockOfRide j == clock

/-- The object of a PLL. -/
def clockKey (clock : Nat) : Nat := if clock < 12 then Obj.pll_state (clock - 4) else Obj.quad_state (clock - 12)

/-- The unit a PLL's event names: the PLL p, or the quad. -/
def clockUnit (clock : Nat) : Nat := if clock < 12 then clock - 4 else clock - 12

/-- A locked PLL without a reference coasts, and its ride with it (R397). -/
def Ctl.coast (c : Ctl) (clock : Nat) : Ctl :=
  if c.nat (clockKey clock) = 2 then
    let c1 := (c.putN (clockKey clock) 3).ring Src.PLL_COAST (clockUnit clock) (clockKey clock)
    match rideOfClock clock with
    | some j => if c1.nat (Obj.ride_state j) = 2 then c1.setRide j 4 else c1
    | none => c1
  else c

/-- A coasting PLL has locked again: its ride is RUNNING. -/
def Ctl.relocked (c : Ctl) (clock : Nat) : Ctl :=
  let c1 := c.putN (clockKey clock) 2
  match rideOfClock clock with
  | some j => if c1.nat (Obj.ride_state j) = 4 then c1.setRide j 2 else c1
  | none => c1

/-- An input's supervision replaced. -/
def Ctl.setPwr (c : Ctl) (p : Power) : Ctl := { c with pwr := p }

/-- The input enters LOST; nothing it showed holds any more (R392, R394). -/
def Ctl.refLose (c : Ctl) (i : Nat) : Ctl :=
  let c1 := (((c.putN (Obj.input_state i) 5).putN (Obj.held_time i) 0).putN (Obj.windows_out i) 0).bump (Obj.losses i)
  let c2 := c1.setPwr { c1.pwr with wasLost := kvSet false c1.pwr.wasLost i true, runs := kvSet 0 c1.pwr.runs i 0 }
  c2.ring Src.REF_LOST i (Obj.input_state i)

/-- What follows a loss: the selected REF25 is replaced, or every core PLL coasts and REF_BOTH_LOST is raised; an ALREF's quads
coast. -/
def Ctl.afterLoss (c : Ctl) (i : Nat) : Ctl :=
  if 2 ≤ i then forEach (quadsOf i) (fun c q => c.coast (12 + q)) c
  else if c.nat Obj.ref_selected ≠ i then c
  else if c.refRuns (1 - i) then c.switchRef (1 - i)
  else (forEach (List.range 8) (fun c p => c.coast (4 + p)) (c.putN Obj.ref_selected 2)).raiseFault faultRefBothLost

/-- REF_LOST: no edge for 200 ns on an input that had edges (R394). -/
def execRefLost (input : Nat) (s : State) : Host.Outcome State Fault Refusal :=
  let c := s.mach.ctl
  if input < 4 ∧ 0 < c.pwr.rails ∧ 1 ≤ c.refState input ∧ c.refState input ≤ 4 then nextCtl s ((c.refLose input).afterLoss input) else .next s

/-! ### Windows (R391) -/

/-- The run of good windows of a clock. -/
def Ctl.goodRun (c : Ctl) (x : Nat) : Nat := kvGet 0 c.pwr.runs x

/-- The run of a clock given. -/
def Ctl.setRun (c : Ctl) (x n : Nat) : Ctl := c.setPwr { c.pwr with runs := kvSet 0 c.pwr.runs x n }

/-- An input judged stable: VALID, its deviation not measured yet; a lost one is back; an ALREF's coasting quads relock. -/
def Ctl.refStable (c : Ctl) (i : Nat) : Ctl :=
  let back := kvGet false c.pwr.wasLost i
  let c1 := (c.putN (Obj.input_state i) 2).putI (Obj.deviation i) 0
  let c2 := c1.setPwr { c1.pwr with wasLost := kvSet false c1.pwr.wasLost i false, validAt := kvSet 0 c1.pwr.validAt i c1.now }
  let c3 := if back then c2.ring Src.REF_RESTORED i (Obj.input_state i) else c2
  if 2 ≤ i then forEach (quadsOf i) (fun c q => if c.nat (Obj.quad_state q) = 3 then c.clockStarts (12 + q) else c) c3 else c3

/-- A window of 1,024 RC cycles of an input: within 1%, eight in a row judge it stable; an input judged stable that fails one is
LOST (R391, R392, R394). -/
def Ctl.refWindow (c : Ctl) (i : Nat) (good : Bool) : Ctl :=
  let st := c.refState i
  if good then
    if st = 2 ∨ st = 3 ∨ st = 4 then c
    else
      let fresh := if st = 1 then c else (c.putN (Obj.input_state i) 1).clockStarts i
      let c1 := fresh.setRun i (fresh.goodRun i + 1)
      if 8 ≤ c1.goodRun i then c1.refStable i else c1
  else if st = 0 ∨ st = 5 then c
  else if st = 1 ∧ kvGet false c.pwr.wasLost i = false then
    let c1 := c.setRun i 0
    if kvGet 0 c.pwr.startAt i + 204800 ≤ c.now then c1.putN (Obj.input_state i) 0 else c1
  else (c.refLose i).afterLoss i

/-- A core PLL that fails its start or its lock raises PLL_LOCK; a quad's lanes fall with LOL (R391). -/
def Ctl.pllFails (c : Ctl) (clock : Nat) : Ctl :=
  if clock < 12 then c.raiseFault (faultPllLock (clock - 4))
  else forEach (lanesOfQuad (clock - 12)) (fun c l => c.laneFalls l 2) c

/-- A window of a PLL that is LOCKING or relocks after coasting. -/
def Ctl.lockWindow (c : Ctl) (clock : Nat) (good : Bool) : Ctl :=
  let c1 := c.setRun clock (if good then c.goodRun clock + 1 else 0)
  if 16 ≤ c1.goodRun clock then
    if c1.nat (clockKey clock) = 3 then c1.relocked clock
    else if clock < 12 then c1.putN (clockKey clock) 2 else c1
  else if clock < 12 ∧ kvGet 0 c.pwr.startAt clock + 300000 ≤ c.now then c1.pllFails clock
  else c1

/-- A window of a LOCKED PLL: the second bad one in a row is a loss of lock. -/
def Ctl.lockedWindow (c : Ctl) (clock : Nat) (good : Bool) : Ctl :=
  let n := if good then 0 else kvGet 0 c.pwr.misses clock + 1
  let c1 := c.setPwr { c.pwr with misses := kvSet 0 c.pwr.misses clock n }
  if n < 2 then c1 else ((c1.putN (clockKey clock) 1).clockStarts clock).pllFails clock

/-- CLOCK_WINDOW: the deviation of a window in 0.001 ppm; clocks 0 to 3 are the inputs, 4 to 11 the PLLs of 2120, 12 to 19 the
quad PLLs. Only a running clock with a reference has windows. -/
def execClockWindow (clock : Nat) (deviation : Int) (s : State) : Host.Outcome State Fault Refusal :=
  let c := s.mach.ctl
  if c.pwr.rails = 0 then .next s
  else if clock < 4 then nextCtl s (c.refWindow clock (decide (deviation.natAbs ≤ 10000000)))
  else if clock < 20 ∧ (c.refOf clock).isSome = true then
    let good := decide (deviation.natAbs ≤ 500000)
    let st := c.nat (clockKey clock)
    if st = 1 ∨ st = 3 then nextCtl s (c.lockWindow clock good)
    else if st = 2 then nextCtl s (c.lockedWindow clock good)
    else .next s
  else .next s

/-- REF_RESTORED: with no REF25 selected, an input VALID for 1 s is selected and the coasting PLLs relock to it (R397). -/
def execRefRestored (input : Nat) (s : State) : Host.Outcome State Fault Refusal :=
  let c := s.mach.ctl
  if input < 2 ∧ c.nat Obj.ref_selected = 2 ∧ c.refState input = 2 ∧ kvGet 0 c.pwr.validAt input + 1000 * ms ≤ c.now then
    nextCtl s (forEach (List.range 8) (fun c p => if c.nat (Obj.pll_state p) = 3 then c.clockStarts (4 + p) else c)
      (c.putN Obj.ref_selected input))
  else .next s

/-! ### Deviation (R392, R393, R395, R396) -/

/-- The state that a deviation puts an input in. -/
def Ctl.refStateFor (c : Ctl) (dev : Int) : Nat :=
  if 2 * dev.natAbs ≤ c.nat Obj.ref_tolerance then 2 else if dev.natAbs ≤ c.nat Obj.ref_tolerance then 3 else 4

/-- The end of an input's 1 s window. -/
def Ctl.judgeRef (c : Ctl) (i : Nat) (dev : Int) : Ctl :=
  if !c.refRuns i then c
  else
    let st := c.refStateFor dev
    let held := if st ≤ 3 && c.refGood i then c.nat (Obj.held_time i) + 1 else 0
    let c1 := (c.putI (Obj.deviation i) dev).putN (Obj.held_time i) held
    let c2 := if st = 4 then c1.bump (Obj.windows_out i) else c1.putN (Obj.windows_out i) 0
    if st = c.refState i then c2
    else
      let c3 := c2.putN (Obj.input_state i) st
      if st = 2 then c3.setPwr { c3.pwr with validAt := kvSet 0 c3.pwr.validAt i c3.now }
      else c3.ring (if st = 3 then Src.REF_WARN else Src.REF_OUT) i (Obj.input_state i)

/-- The judging standard of a window (R393): 0 NETWORK, 1 ALREF, 2 OTHER. -/
def Ctl.standard (c : Ctl) (a0 a1 : Int) : Nat :=
  let tol := c.nat Obj.ref_tolerance
  if c.nat Obj.clock_status = 3 then 0
  else if c.refRuns 2 && c.refRuns 3 && decide (a0.natAbs ≤ tol ∧ a1.natAbs ≤ tol ∧ (a0 - a1).natAbs ≤ tol) then 1
  else 2

/-- A deviation `d` of a clock against the selected REF25, both in 0.001 ppm, as one against the mean of the ALREF inputs, whose
deviations against it add up to `a` (log entry 97). -/
def againstMean (d a : Int) : Int := (((Frac.ofInt (2 * (10 ^ 9 + d) * 10 ^ 9)).div (Frac.ofInt (2 * 10 ^ 9 + a))).sub (Frac.ofInt (10 ^ 9))).round

/-- Deviations of the selected REF25, none where it keeps its state, and of the other one. -/
def Ctl.refDeviations (c : Ctl) (std : Nat) (other a0 a1 : Int) : Option Int × Int :=
  if std = 0 then (some (-c.int Obj.frequency_adjust), other)
  else if std = 1 then (some (againstMean 0 (a0 + a1)), againstMean other (a0 + a1))
  else (none, other)

/-- After a window: the eighth OUT window deselects an input for a good one; of two that are OUT the nearer is selected; beyond
300 ppm the selected one raises REF_DRIFT. -/
def Ctl.afterWindow (c : Ctl) : Ctl :=
  let i := c.nat Obj.ref_selected
  let o := 1 - i
  let size (n : Nat) : Nat := (c.int (Obj.deviation n)).natAbs
  let c1 :=
    if 2 ≤ i then c
    else if 8 ≤ c.nat (Obj.windows_out i) ∧ c.refGood o = true then c.switchRef o
    else if c.refState i = 4 ∧ c.refState o = 4 ∧ size o < size i then c.switchRef o
    else c
  let j := c1.nat Obj.ref_selected
  if j < 2 ∧ 300000 < (c1.int (Obj.deviation j)).natAbs then c1.raiseFault faultRefDrift else c1

/-- REF_DEVIATION_WINDOW: measured in the window, in 0.001 ppm: the REF25 that is not selected against the selected one; ALREF0
and ALREF1 against the network while it is the standard, else against the selected REF25. -/
def execRefDeviationWindow (other alref0 alref1 : Int) (s : State) : Host.Outcome State Fault Refusal :=
  let c := s.mach.ctl
  let i := c.nat Obj.ref_selected
  if i < 2 then
    let std := c.standard alref0 alref1
    let d := c.refDeviations std other alref0 alref1
    let c1 := c.putN Obj.judging_standard std
    let c2 := match d.1 with
      | some v => c1.judgeRef i v
      | none => c1
    nextCtl s (((c2.judgeRef (1 - i) d.2).judgeRef 2 alref0).judgeRef 3 alref1).afterWindow
  else .next s

/-- REF_REVERT: a preferred REF25 held for 60 s is selected again (R395). -/
def execRefRevert (s : State) : Host.Outcome State Fault Refusal :=
  let c := s.mach.ctl
  let p := c.nat Obj.ref_preferred
  if c.on Obj.ref_revertive ∧ c.nat Obj.ref_selected < 2 ∧ c.nat Obj.ref_selected ≠ p ∧ c.refGood p = true ∧
      60 ≤ c.nat (Obj.held_time p) then nextCtl s (c.switchRef p)
  else .next s

/-- select_reference (R395). -/
def ownSelectReference (i n : Nat) (c : Ctl) : Nat × Ctl :=
  if c.refGood i && decide (60 ≤ c.nat (Obj.held_time i)) then
    (St.STARTED, ((c.cmdRun Obj.select_reference n).switchRef i).cmdDone Obj.select_reference Src.POWER_CMD_DONE)
  else refuse St.REF_NOT_VALID c

/-- SELECT_REFERENCE. -/
def execSelectReference (r : Req) (arg : Nat) (s : State) : Host.Outcome State Fault Refusal :=
  nextMach s (s.mach.ctlRow r Obj.select_reference (le 1 arg) (ownSelectReference arg))

/-! ### The booth's oscillators (R399, R400) -/

/-- The trim code after a window: whole steps of 50 ppm against the RC's deviation. -/
def Ctl.trimRc (c : Ctl) (rc : Int) : Ctl :=
  let steps : Int := Int.tdiv rc 50000
  let v := (c.nat Obj.rc_trim : Int) + (if Config.rcTrimUp % 2 = 1 then -steps else steps)
  c.putN Obj.rc_trim (clampI 0 1023 v).toNat

/-- The crystal's deviation: the mean of its last 64 windows. -/
def Ctl.crystalWindow (c : Ctl) (xtal : Int) : Ctl :=
  let xs := (xtal :: c.pwr.xtal).take 64
  (c.setPwr { c.pwr with xtal := xs }).putI Obj.xtal_deviation (openRound ⟨xs.sum, xs.length⟩)

/-- BOOTH_CALIBRATE: the RC's and the crystal's measured deviations in 0.001 ppm, in STANDBY and above, against the network while
LOCKED, else the selected REF25. -/
def execBoothCalibrate (rc xtal : Int) (s : State) : Host.Outcome State Fault Refusal :=
  let c := s.mach.ctl
  if c.awake = true ∧ (c.nat Obj.clock_status = 3 ∨ c.nat Obj.ref_selected < 2) then
    let c1 := (c.putI Obj.rc_deviation rc).trimRc rc
    nextCtl s (if c1.nat Obj.booth_clock = 0 then c1.crystalWindow xtal else c1)
  else .next s

/-- RC cycles of a window of 32 crystal cycles lie within 2% of 39,062.5 (R391). -/
def xtalAgrees (rcCycles : Nat) : Bool := decide (39062500 * 98 ≤ rcCycles * 100000 ∧ rcCycles * 100000 ≤ 39062500 * 102)

/-- The booth runs on the RC until its power cycle; XTAL_FAIL rings once the control clock runs. -/
def Ctl.xtalFails (c : Ctl) : Ctl :=
  let c1 := c.putN Obj.booth_clock 1
  if c.awake then c1.ring Src.XTAL_FAIL 0xFFFF Obj.booth_clock else c1.setPwr { c1.pwr with xtalOwed := true }

/-- XTAL_JUDGEMENT: a window of 32 crystal cycles took so many RC cycles. Eight good ones in a row within 2 s of power-up judge the two to
agree; without that, or in a later window that does not agree, the crystal has failed (R391, R399). -/
def execXtalJudgement (rcCycles : Nat) (s : State) : Host.Outcome State Fault Refusal :=
  let c := s.mach.ctl
  let good := xtalAgrees rcCycles
  if c.nat Obj.booth_clock = 1 then .next s
  else if c.pwr.xtalGood then if good then .next s else nextCtl s c.xtalFails
  else
    let c1 := c.setRun 20 (if good then c.goodRun 20 + 1 else 0)
    nextCtl s (if 8 ≤ c1.goodRun 20 then c1.setPwr { c1.pwr with xtalGood := true }
      else if c.pwr.poweredAt + 2000 * ms ≤ c.now then c1.xtalFails else c1)

end Sys2Proof.Machine
end

