-- ==== Sys2Proof/Machine/EndPost.lean ====
section
/-! DEFINITION. The ENDED entry of a ticket (R22, R61, R68, R80, R177, R404, R474). -/

namespace Sys2Proof.Machine

/-- A pair of lines of the page is still to be read for some camera (R22). -/
def Ctl.readsDue (c : Ctl) (t : Ticket) : Bool :=
  (List.range 4).any fun k => (barsOf t.bars).any fun b =>
    (List.range ((t.inspectLines b + 1) / 2)).any fun i => c.inspectDue t b (2 * i) k

/-- Every RUNNING head that received a fired line of the ticket has shown it as fired (R177, log entry 90). -/
def Ctl.confirmed (c : Ctl) (t : Ticket) : Bool :=
  c.care.store.all fun e => e.ticket != t.number || !e.struck || c.headState e.head != 2 || c.shownFired e.head e.group e.count

/-- Address of the next completion entry (R64). -/
def Ctl.completionAt (c : Ctl) : Nat := c.nat Obj.completion_ring_base + c.nat Obj.completion_head % 4096 * 128

/-- The first outstanding ticket's ENDED entry may be posted (R68). -/
def Ctl.endDue (c : Ctl) (t : Ticket) : Bool :=
  (t.ended || t.complete) && !c.readsDue t && c.confirmed t && !c.rangeFrozen c.completionAt 128

/-- A posted ticket counted by slot and outcome (R474). -/
def Ctl.countPage (c : Ctl) (t : Ticket) : Ctl :=
  let u := c.use.counts
  c.setCounts (if t.reason = 0 then { u with delivered := kvAdd u.delivered t.slot 1 }
    else { u with notDelivered := kvAdd u.notDelivered t.slot 1 })

/-- What the recorder keeps of a posted ticket: its place on the web, and that its fire record ended early (R305, R327). -/
def Ctl.recordPosted (c : Ctl) (t : Ticket) : Ctl :=
  let r := c.recorder
  let page : List PastPage := match t.pos with
    | some p => [⟨t.number, t.slot, p, t.length⟩]
    | none => []
  let past := r.past ++ page
  let c1 := c.setRec { r with past := past.drop (past.length - 4096) }
  c1.onFireRec t.number fun f => { f with early := t.ended && !t.complete }

/-- The loop keeps a posted page until its measurement has ended, if a bar of it has started (R277). -/
def Ctl.loopKeeps (c : Ctl) (t : Ticket) : Ctl :=
  let l := c.loop
  if t.work.firstCount.isEmpty then c
  else if l.stats.any fun x => x.ticket == t.number && x.done then
    c.setLoop { l with stats := l.stats.filter fun x => x.ticket != t.number }
  else c.setLoop { l with past := l.past ++ [⟨t, c.slotRules t.slot⟩] }

/-- The lines of a posted ticket that were not screened are dropped, and what the loop keeps is handed to it. -/
def Ctl.dropPage (c : Ctl) (t : Ticket) : Ctl :=
  let c1 := c.loopKeeps t
  { c1 with page := { c1.page with lines := c1.page.lines.filter fun x => x.ticket != t.number } }

/-- The slot records fire data or crops (R401). -/
def Ctl.slotRecords (c : Ctl) (n : Nat) : Bool := c.nat (Obj.fire_pages n) != 0 || c.nat (Obj.crop_cameras n) != 0

/-- A ticket leaves the outstanding ones: counts, slot, power state, the rides it used (R61, R401, R404). -/
def Ctl.retire (c : Ctl) (t : Ticket) : Ctl :=
  let c1 := ((c.setTickets (c.adm.tickets.drop 1)).putN (Obj.tickets_outstanding t.slot)
    (c.nat (Obj.tickets_outstanding t.slot) - 1)).putN Obj.all_tickets_outstanding (c.nat Obj.all_tickets_outstanding - 1)
  let c2 := (c1.dropPage t).resealed t.slot
  let c3 := if c2.nat (Obj.slot_state t.slot) != 2 && c2.slotRecords t.slot then c2.usedRide rideRecord else c2
  if c3.adm.tickets.isEmpty then
    let c4 := c3.usedRide ridePrint
    if c4.nat Obj.power_state = 3 then c4.setPower 2 else c4
  else c3

/-- The entry posted, DELIVERED without a reason and NOT_DELIVERED with the primary one. -/
def Mach.postEnded (m : Mach) (t : Ticket) : Mach :=
  let entry := m.ctl.ticketEntry t 4 (if t.reason = 0 then 0 else 1) t.reason
  let m1 := (m.onCtl fun c => { c with free := c.free + 16 }).postEntry entry
  m1.onCtl fun c => ((((c.countPage t).recordPosted t).retire t).tidyPlaces).receiling

/-- TICKET_END_POST: the first outstanding ticket, once its lines are settled or it has ended, its reads are over and its last line
is confirmed; a FROZEN controller holds the entry. -/
def execTicketEndPost (s : State) : Host.Outcome State Fault Refusal :=
  match s.mach.ctl.adm.tickets with
  | [] => .next s
  | t :: _ => if s.mach.ctl.endDue t then nextMach s (s.mach.withCellar fun m => m.postEnded t) else .next s

end Sys2Proof.Machine
end

