-- ==== Sys2Proof/Machine/EncOps.lean ====
section
/-! DEFINITION. The encoder's and decoder's shared operations (R307 to R320): levels, commitments, rings, rate control, the web tag,
and the NAL layer of a replay. -/

namespace Sys2Proof.Machine

/-! ### Streams -/

/-- A stream. -/
def Ctl.stream (c : Ctl) (i : Nat) : Stream := kvGet Stream.reset c.recorder.streams i

/-- A stream replaced. -/
def Ctl.setStream (c : Ctl) (i : Nat) (x : Stream) : Ctl :=
  c.setRec { c.recorder with streams := kvSet Stream.reset c.recorder.streams i x }

/-- Enabled. -/
def Ctl.streamOn (c : Ctl) (i : Nat) : Bool := c.on (Obj.stream_enable i)

/-- Cameras whose enabled record view names a stream. -/
def Ctl.viewsOf (c : Ctl) (i : Nat) : List Nat :=
  (List.range 4).filter fun k => viewOn (c.oct (Obj.record_view k)) && viewStream (c.oct (Obj.record_view k)) == i

/-- The view of a stream, if exactly one names it. -/
def Ctl.streamView (c : Ctl) (i : Nat) : Option (List Byte) :=
  match c.viewsOf i with
  | [k] => some (c.oct (Obj.record_view k))
  | _ => none

/-- The profile a record format needs (R307). -/
def profileOf (format : Nat) : Nat := if format = 2 then 1 else if format = 3 then 2 else 4

/-- Levels of H.265 Annex A, Main tier (log entry 77): general_level_idc, luma samples of a picture, luma samples a second, kbit/s. -/
def hevcLevels : List (Nat × Nat × Nat × Nat) :=
  [(30, 36864, 552960, 128), (60, 122880, 3686400, 1500), (63, 245760, 7372800, 3000), (90, 552960, 16588800, 6000),
    (93, 983040, 33177600, 10000), (120, 2228224, 66846720, 12000), (123, 2228224, 133693440, 20000),
    (150, 8912896, 267386880, 25000), (153, 8912896, 534773760, 40000), (156, 8912896, 1069547520, 60000),
    (180, 35651584, 1069547520, 60000), (183, 35651584, 2139095040, 120000), (186, 35651584, 4278190080, 240000)]

/-- The lowest level that admits a coded size, rate, profile and cap (R307). -/
def levelFor (w h rate profile cap : Nat) : Option Nat :=
  let w8 := roundUp w 8
  let h8 := roundUp h 8
  (hevcLevels.find? fun l =>
    let kbit := if profile = 4 then l.2.2.2 * 1667 / 1000 else l.2.2.2
    decide (w8 * h8 ≤ l.2.1 ∧ w8 * w8 ≤ 8 * l.2.1 ∧ h8 * h8 ≤ 8 * l.2.1 ∧ w8 * h8 * rate ≤ l.2.2.1 ∧ cap ≤ kbit)).map (·.1)

/-- Pool bytes of a stream of a view (R313). -/
def poolBytes (v : List Byte) : Nat := 16 * roundUp (viewBytes v) 4096

/-- ISO commitment of a stream in MB/s (R309). -/
def streamCommit (v : List Byte) (refs : Nat) : Nat := mbUp ⟨viewBytes v * viewRate v * (2000 + 1625 * refs), 1000⟩

/-- Luma samples a second of a view. -/
def viewLuma (v : List Byte) : Nat := viewWidth v * viewHeight v * viewRate v

/-- The first failed check of R308, 0 for none. -/
def Ctl.streamCode (c : Ctl) (i : Nat) : Nat :=
  match c.streamView i with
  | none => St.REC_NO_VIEW
  | some v =>
    let others := (List.range 4).filter fun j => j != i && c.streamOn j
    let total (f : List Byte → Nat) : Nat := ((others.filterMap c.streamView).map f).sum
    if c.nat (Obj.profile i) ≠ profileOf (viewFormat v) then St.REC_FORMAT
    else if 2123366400 < viewLuma v + total viewLuma then St.REC_THROUGHPUT
    else if (levelFor (viewWidth v) (viewHeight v) (viewRate v) (c.nat (Obj.profile i)) (c.nat (Obj.cap i))).isNone then St.REC_LEVEL
    else if c.nat Obj.pool_area_bytes < poolBytes v + total poolBytes then St.REC_POOL
    else if c.nat Obj.iso_limit < c.isoOthers 4 + streamCommit v (c.nat (Obj.refs i)) then St.ISO_BUDGET
    else 0

/-- A commitment of a stream (0 to 3) or the decoder (4) set. -/
def Ctl.setIso (c : Ctl) (i v : Nat) : Ctl :=
  ({ c with units := { c.units with iso := kvSet 0 c.units.iso i v } }).showIso

/-! ### Rings of a stream (R316) -/

/-- Bytes of the output ring not freed. -/
def Stream.used (x : Stream) : Nat := x.pics.sum

/-- Free bytes of a stream's output ring. -/
def Ctl.ringFree (c : Ctl) (i : Nat) : Nat := c.nat (Obj.out_ring_bytes i) - (c.stream i).used

/-- Entries of a ring of `n` between tail and head, counted modulo 2n. -/
def ringCount (n head tail : Nat) : Nat := (head + 2 * n - tail) % (2 * n)

/-- The index ring is full. -/
def Ctl.indexFull (c : Ctl) (i : Nat) : Bool :=
  let n := c.nat (Obj.index_entries i)
  decide (n ≤ ringCount n (c.nat (Obj.index_head i)) (c.nat (Obj.index_tail i)))

/-- Bytes written into a ring from an offset, wrapping at its end. -/
def ringWrite (m : Kv Byte) (base size place : Nat) (b : List Byte) : Kv Byte :=
  memWrite (memWrite m (base + place) (b.take (size - place))) base (b.drop (size - place))

/-! ### Tickets and QP (R305) -/

/-- The ticket and slot whose page holds a web coordinate in 1/256 tick. -/
def Ctl.pageOver (c : Ctl) (w : Int) : Option (Nat × Nat) :=
  let holds (place length : Nat) : Bool := decide ((256 * place : Int) ≤ w ∧ w < 256 * (place + 64 * length : Nat))
  match c.adm.tickets.find? fun t => t.pos.isSome && holds t.place t.length with
  | some t => some (t.number, t.slot)
  | none => (c.recorder.past.find? fun p => holds p.place p.length).map fun p => (p.ticket, p.slot)

/-! ### The web tag (R312) -/

/-- YORDACIA-WEB-TAG. -/
def webTagUuid : List Byte :=
  [0x59, 0x4F, 0x52, 0x44, 0x41, 0x43, 0x49, 0x41, 0x2D, 0x57, 0x45, 0x42, 0x2D, 0x54, 0x41, 0x47]

/-- The 28 bytes of the tag. -/
def webTag (f : RecFrame) (ticket : Nat) (capped : Bool) : List Byte :=
  le 8 (uns 64 f.row0) ++ le 4 f.displacement ++ le 4 ticket ++ timeBytes f.ns ++ le 1 f.camera ++
    le 1 ((if f.follows then 1 else 0) + if capped then 2 else 0)

/-- Emulation prevention of a NAL unit's payload: 03 after two zero bytes before a byte up to 3. -/
def emulated : Nat → List Byte → List Byte
  | _, [] => []
  | z, b :: r =>
    if 2 ≤ z ∧ b.toNat ≤ 3 then 3 :: b :: emulated (if b = 0 then 1 else 0) r
    else b :: emulated (if b = 0 then z + 1 else 0) r

/-- The prefix SEI unit of a tag: user data unregistered, 44 bytes. -/
def seiUnit (tag : List Byte) : List Byte := [0, 0, 0, 1, 0x4E, 0x01] ++ emulated 0 ([5, 44] ++ webTagUuid ++ tag ++ [0x80])

/-! ### The NAL layer of a replay (R318, R319) -/

/-- Offset of the next start code 00 00 01 at or after the head, and the bytes after it. -/
def nextStart : List Byte → Nat → Option (Nat × List Byte)
  | [], _ => none
  | b :: r, n => if b = 0 ∧ r.take 2 = [0, 1] then some (n, r.drop 2) else nextStart r (n + 1)

/-- Bytes without emulation prevention. -/
def unemulated : Nat → List Byte → List Byte
  | _, [] => []
  | z, b :: r => if 2 ≤ z ∧ b = 3 then unemulated 0 r else b :: unemulated (if b = 0 then z + 1 else 0) r

/-- Bits most significant first. -/
def msbBits (b : List Byte) : List Bool := (b.map fun x => (List.range 8).map fun i => bit x.toNat (7 - i)).flatten

/-- `n` bits as a number, and the rest. -/
def takeBits : Nat → List Bool → Nat → Option (Nat × List Bool)
  | 0, bs, v => some (v, bs)
  | _ + 1, [], _ => none
  | n + 1, b :: r, v => takeBits n r (2 * v + if b then 1 else 0)

/-- An exponential Golomb number after `z` zeros. -/
def takeUe : Nat → Nat → List Bool → Option (Nat × List Bool)
  | 0, _, _ => none
  | _ + 1, _, [] => none
  | f + 1, z, b :: r => if b then (takeBits z r 0).map fun x => (2 ^ z - 1 + x.1, x.2) else takeUe f (z + 1) r

/-- An unsigned exponential Golomb number. -/
def ue (bs : List Bool) : Option (Nat × List Bool) := takeUe 33 0 bs

/-- The levels of sub-layers skipped. -/
def skipSubLayers (n : Nat) (bs : List Bool) : Option (List Bool) :=
  if n = 0 then some bs
  else do
    let flags ← takeBits 16 bs 0
    let each := (List.range n).map fun i => (if bit flags.1 (15 - 2 * i) then 88 else 0) + if bit flags.1 (14 - 2 * i) then 8 else 0
    if each.sum ≤ flags.2.length then some (flags.2.drop each.sum) else none

/-- The four conformance window offsets, in chroma units. -/
def cropWindow (bs : List Bool) : Option ((Nat × Nat × Nat × Nat) × List Bool) := do
  let f ← takeBits 1 bs 0
  if f.1 = 0 then some ((0, 0, 0, 0), f.2)
  else
    let l ← ue f.2
    let r ← ue l.2
    let t ← ue r.2
    let b ← ue t.2
    some ((l.1, r.1, t.1, b.1), b.2)

/-- Bytes of a decoded frame: 4:2:0, one byte a sample at 8 bits, two at 10 (R320). -/
def decodedBytes (w h depth : Nat) : Nat := (w * h + 2 * ((w / 2) * (h / 2))) * (if depth = 8 then 1 else 2)

end Sys2Proof.Machine
end

