-- ==== Sys2Proof/Machine/DecOps.lean ====
section
/-! DEFINITION. What the decoder reads of a byte stream beyond its coded samples (R318 to R320): parameter sets, slice headers, the
references a picture names and the order in which pictures are put out. The syntax and the order are those of ITU-T H.265 (log entry
160). -/

namespace Sys2Proof.Machine

/-! ### Fields of a header -/

/-- Fields in turn: of `n` bits each, an exponential Golomb number where `n` is 0. -/
def readFields : List Nat → List Bool → Option (List Nat × List Bool)
  | [], bs => some ([], bs)
  | n :: r, bs => do
    let x ← if n = 0 then ue bs else takeBits n bs 0
    let y ← readFields r x.2
    some (x.1 :: y.1, y.2)

/-- One field. -/
def readField (n : Nat) (bs : List Bool) : Option (Nat × List Bool) := if n = 0 then ue bs else takeBits n bs 0

/-- The same reader `n` times. -/
def readMany {α : Type} (f : List Bool → Option (α × List Bool)) : Nat → List Bool → Option (List α × List Bool)
  | 0, bs => some ([], bs)
  | n + 1, bs => do
    let x ← f bs
    let y ← readMany f n x.2
    some (x.1 :: y.1, y.2)

/-- A reader used where a flag is set. -/
def readIf {α : Type} (flag : Bool) (none_ : α) (f : List Bool → Option (α × List Bool)) (bs : List Bool) : Option (α × List Bool) :=
  if flag then f bs else some (none_, bs)

/-- Bits that number `n` things. -/
def bitsFor (n : Nat) : Nat := if n ≤ 1 then 0 else Nat.log2 (n - 1) + 1

/-- A number of bits that may be none. -/
def readBits (n : Nat) (bs : List Bool) : Option (Nat × List Bool) := if n = 0 then some (0, bs) else takeBits n bs 0

/-! ### Reference picture sets -/

/-- Differences counted on from one to the next, in one direction. -/
def ShortSet.side (sign : Int) : Int → List (List Nat) → List (Int × Bool)
  | _, [] => []
  | at_, x :: r =>
    let d := at_ + sign * ((x.headD 0 : Nat) + 1)
    (d, x.getD 1 0 == 1) :: ShortSet.side sign d r

/-- A set written out. -/
def ShortSet.explicit (bs : List Bool) : Option (ShortSet × List Bool) := do
  let n ← readFields [0, 0] bs
  let below := n.1.getD 0 0
  let above := n.1.getD 1 0
  if 16 < below + above then none
  else
    let x ← readMany (readFields [0, 1]) below n.2
    let y ← readMany (readFields [0, 1]) above x.2
    some (⟨ShortSet.side (-1) 0 x.1, ShortSet.side 1 0 y.1⟩, y.2)

/-- Of one picture of the set it is predicted from: used by this picture, and kept at all. -/
def readKept (bs : List Bool) : Option ((Bool × Bool) × List Bool) := do
  let u ← takeBits 1 bs 0
  if u.1 = 1 then some ((true, true), u.2)
  else
    let k ← takeBits 1 u.2 0
    some ((false, k.1 == 1), k.2)

/-- A set predicted from another, all its pictures moved by `d`. -/
def ShortSet.moved (x : ShortSet) (d : Int) (kept : List (Bool × Bool)) : ShortSet :=
  let all : List Int := (x.below ++ x.above).map (·.1)
  let moved : List (Int × (Bool × Bool)) := ((all ++ [(0 : Int)]).zip kept).map fun e => (e.1 + d, e.2)
  let b := moved.take x.below.length
  let a := (moved.drop x.below.length).take x.above.length
  let own := moved.drop all.length
  let pick (p : Int → Bool) (l : List (Int × (Bool × Bool))) : List (Int × Bool) :=
    (l.filter fun e => p e.1 && e.2.2).map fun e => (e.1, e.2.1)
  ⟨pick (fun v => decide (v < 0)) (a.reverse ++ own ++ b), pick (fun v => decide (0 < v)) (b.reverse ++ own ++ a)⟩

/-- Set number `i` after those read so far; a slice's own one has the number of all of them. -/
def readShortSet (sets : List ShortSet) (slice : Bool) (bs : List Bool) : Option (ShortSet × List Bool) := do
  let i := sets.length
  let inter ← readIf (i != 0) 0 (takeBits 1 · 0) bs
  if inter.1 = 0 then ShortSet.explicit inter.2
  else
    let back ← readIf slice 0 ue inter.2
    let sign ← takeBits 1 back.2 0
    let step ← ue sign.2
    if i < back.1 + 1 then none
    else
      let base := sets.getD (i - (back.1 + 1)) ⟨[], []⟩
      let kept ← readMany readKept (base.below.length + base.above.length + 1) step.2
      some (base.moved ((if sign.1 = 1 then -1 else 1) * ((step.1 : Int) + 1)) kept.1, kept.2)

/-- The sets of a sequence parameter set. -/
def readShortSets : Nat → List ShortSet → List Bool → Option (List ShortSet × List Bool)
  | 0, sets, bs => some (sets, bs)
  | n + 1, sets, bs => do
    let x ← readShortSet sets false bs
    readShortSets n (sets ++ [x.1]) x.2

/-! ### Parameter sets -/

/-- One scaling list passed over. -/
def skipList (size : Nat) (bs : List Bool) : Option (Unit × List Bool) := do
  let mode ← takeBits 1 bs 0
  let n := if mode.1 = 0 then 1 else min 64 (2 ^ (4 + 2 * size)) + if 1 < size then 1 else 0
  let x ← readFields (List.replicate n 0) mode.2
  some ((), x.2)

/-- Scaling lists passed over. -/
def skipLists (bs : List Bool) : Option (Unit × List Bool) := do
  let a ← readMany (skipList 0) 6 bs
  let b ← readMany (skipList 1) 6 a.2
  let c ← readMany (skipList 2) 6 b.2
  let d ← readMany (skipList 3) 2 c.2
  some ((), d.2)

/-- Scaling lists of a set, if it carries any, passed over. -/
def skipScaling (bs : List Bool) : Option (Unit × List Bool) := do
  let on ← takeBits 1 bs 0
  let data ← readIf (on.1 == 1) 0 (takeBits 1 · 0) on.2
  readIf (data.1 == 1) () skipLists data.2

/-- Long-term pictures a set names: low bits of their order count, and use. -/
def readLongs (pocBits : Nat) (bs : List Bool) : Option (List (Nat × Bool) × List Bool) := do
  let n ← ue bs
  if 32 < n.1 then none
  else
    let x ← readMany (readFields [pocBits, 1]) n.1 n.2
    some (x.1.map fun e => (e.headD 0, e.getD 1 0 == 1), x.2)

/-- A sequence parameter set and its number; none where it is out of range. -/
def readSps (b : List Byte) : Option (Nat × Sps) := do
  let head ← readFields [4, 3, 1, 3, 5] (msbBits (unemulated 0 b))
  let sub := head.1.getD 1 0
  let flags ← takeBits 80 head.2 0
  let level ← takeBits 8 flags.2 0
  let rest ← skipSubLayers sub level.2
  let id ← readFields [0, 0] rest
  let chroma := id.1.getD 1 0
  let size ← readFields [0, 0] (if chroma = 3 then id.2.drop 1 else id.2)
  let win ← cropWindow size.2
  let depths ← readFields [0, 0, 0, 1] win.2
  let pocBits := depths.1.getD 2 0 + 4
  let order ← readMany (readFields [0, 0, 0]) (if depths.1.getD 3 0 = 1 then sub + 1 else 1) depths.2
  let last := order.1.getLast?.getD []
  let tree ← readFields [0, 0, 0, 0, 0, 0] order.2
  let lists ← skipScaling tree.2
  let tools ← readFields [1, 1, 1] lists.2
  let pcm ← readIf (tools.1.getD 2 0 == 1) [] (readFields [4, 4, 0, 0, 1]) tools.2
  let n ← ue pcm.2
  if 64 < n.1 ∨ 16 < pocBits ∨ 15 < id.1.headD 0 ∨ 3 < chroma ∨ 8 < depths.1.getD 0 0 ∨ 8 < depths.1.getD 1 0 then none
  else
    let sets ← readShortSets n.1 [] n.2
    let any ← takeBits 1 sets.2 0
    let longs ← readIf (any.1 == 1) [] (readLongs pocBits) any.2
    let sx := if chroma = 1 ∨ chroma = 2 then 2 else 1
    let sy := if chroma = 1 then 2 else 1
    let w := size.1.getD 0 0 - sx * (win.1.1 + win.1.2.1)
    let h := size.1.getD 1 0 - sy * (win.1.2.2.1 + win.1.2.2.2)
    if w = 0 ∨ h = 0 then none
    else
      some (id.1.headD 0, ⟨head.1.getD 4 0, level.1, chroma, w, h, depths.1.getD 0 0 + 8, depths.1.getD 1 0 + 8,
        2 ^ (min 6 (tree.1.getD 0 0 + 3 + tree.1.getD 1 0)), pocBits, last.getD 1 0, last.getD 2 0, last.getD 0 0 + 1, sets.1,
        if any.1 = 1 then some longs.1 else none⟩)

/-- The decoder supports a set: Main or Main 10, 4:2:0, up to level 5.1. -/
def Sps.supported (x : Sps) : Bool :=
  decide ((x.profile = 1 ∨ x.profile = 2) ∧ x.chroma = 1 ∧ x.level ≤ 153 ∧ (x.depth = 8 ∨ x.depth = 10) ∧ x.depthC = x.depth)

/-- A picture parameter set and its number; none where it is out of range. -/
def readPps (b : List Byte) : Option (Nat × Pps) := do
  let x ← readFields [0, 0, 1, 1, 3] (msbBits (unemulated 0 b))
  if 63 < x.1.getD 0 0 ∨ 15 < x.1.getD 1 0 then none
  else some (x.1.getD 0 0, ⟨x.1.getD 1 0, x.1.getD 3 0 == 1, x.1.getD 4 0⟩)

/-- A video parameter set is in range: its reserved bits read as they must. -/
def vpsOk (b : List Byte) : Bool :=
  match readFields [4, 2, 6, 3, 1, 16] (msbBits (unemulated 0 b)) with
  | some x => x.1.getD 1 0 == 3 && x.1.getD 5 0 == 0xFFFF
  | none => false

/-! ### Slice headers -/

/-- What a slice header says: its picture parameter set, whether the picture is shown, whether its slice predicts, its order count, the
order counts of its references with whether it uses them itself; low bits alone name some. -/
structure Slice where
  discard : Bool
  shown : Bool
  predicts : Bool
  poc : Int
  full : List (Int × Bool)
  low : List (Nat × Bool)
  deriving DecidableEq, Repr

/-- The order count of a picture from its low bits and the count before. -/
def pocOf (bits : Nat) (prev : Int) (low : Nat) : Int :=
  let m : Int := 2 ^ bits
  let p := prev % m
  let high := prev - p
  if (low : Int) < p ∧ m ≤ 2 * (p - low) then high + m + low
  else if p < low ∧ m < 2 * ((low : Int) - p) then high - m + low
  else high + low

/-- A long-term picture of a slice header: low bits, use, and its cycle where it is named by its whole count. -/
def readLong (x : Sps) (named : Bool) (bs : List Bool) : Option ((Nat × Bool × Option Nat) × List Bool) := do
  let list := x.longs.getD []
  let a ← if named then (readBits (bitsFor list.length) bs).map fun i => ([(list.getD i.1 (0, false)).1, if (list.getD i.1 (0, false)).2 then 1 else 0], i.2)
    else readFields [x.pocBits, 1] bs
  let msb ← takeBits 1 a.2 0
  let cycle ← readIf (msb.1 == 1) 0 ue msb.2
  some ((a.1.getD 0 0, a.1.getD 1 0 == 1, if msb.1 = 1 then some cycle.1 else none), cycle.2)

/-- Cycles counted on from one long-term picture to the next; those of a slice's own start afresh. -/
def addCycles (named : Nat) : Nat → Nat → List (Nat × Bool × Option Nat) → List (Nat × Bool × Option Nat)
  | _, _, [] => []
  | i, sum, e :: r =>
    let s := (if i = 0 ∨ i = named then 0 else sum) + e.2.2.getD 0
    (e.1, e.2.1, e.2.2.map fun _ => s) :: addCycles named (i + 1) s r

/-- The long-term pictures of a slice header. -/
def readSliceLongs (x : Sps) (bs : List Bool) : Option (List (Nat × Bool × Option Nat) × List Bool) := do
  let list := x.longs.getD []
  let named ← readIf (!list.isEmpty) 0 ue bs
  let own ← ue named.2
  if 33 < named.1 + own.1 then none
  else
    let a ← readMany (readLong x true) named.1 own.2
    let b ← readMany (readLong x false) own.1 a.2
    some (addCycles named.1 0 0 (a.1 ++ b.1), b.2)

/-- The header of a picture's first slice after its PPS number. -/
def readSlice (x : Sps) (p : Pps) (type : Nat) (prev : Int) (discard : Bool) (bs : List Bool) : Option Slice := do
  let extra ← readBits p.extra bs
  let kind ← ue extra.2
  let out ← readIf p.outputFlag 1 (takeBits 1 · 0) kind.2
  if 2 < kind.1 then none
  else if type = 19 ∨ type = 20 then some ⟨discard, out.1 == 1, false, 0, [], []⟩
  else
    let low ← takeBits x.pocBits out.2 0
    let poc := pocOf x.pocBits (if 16 ≤ type then 0 else prev) low.1
    let named ← takeBits 1 low.2 0
    let set ← if named.1 = 1 then (readBits (bitsFor x.shorts.length) named.2).map fun i => (x.shorts.getD i.1 ⟨[], []⟩, i.2)
      else readShortSet x.shorts true named.2
    let longs ← readIf x.longs.isSome [] (readSliceLongs x) set.2
    let base := poc - poc % (2 ^ x.pocBits : Int)
    some ⟨discard, out.1 == 1, kind.1 != 2, poc,
      (set.1.below ++ set.1.above).map (fun e => (poc + e.1, e.2)) ++
        longs.1.filterMap (fun e => e.2.2.map fun s => (base - (s : Int) * 2 ^ x.pocBits + (e.1 : Int), e.2.1)),
      longs.1.filterMap fun e => if e.2.2.isSome then none else some (e.1, e.2.1)⟩

/-! ### References and output -/

/-- The pictures a slice header keeps as references. -/
def Slice.keeps (x : Slice) (bits : Nat) (d : DecPic) : Bool :=
  d.ref && (x.full.any (fun e => e.1 == d.poc) || x.low.any fun e => (e.1 : Int) == d.poc % (2 ^ bits : Int))

/-- A picture that the slice header uses is not held. -/
def Slice.lacks (x : Slice) (bits : Nat) (pics : List DecPic) : Bool :=
  x.full.any (fun e => e.2 && !pics.any fun d => d.ref && d.poc == e.1) ||
    x.low.any fun e => e.2 && !pics.any fun d => d.ref && d.poc % (2 ^ bits : Int) == (e.1 : Int)

/-- A picture that the slice header uses is concealed or DERIVED. -/
def Slice.inherits (x : Slice) (bits : Nat) (pics : List DecPic) : Bool :=
  x.predicts && pics.any fun d => d.ref && (d.derived || d.concealed != 0) &&
    (x.full.any (fun e => e.2 && e.1 == d.poc) || x.low.any fun e => e.2 && (e.1 : Int) == d.poc % (2 ^ bits : Int))

/-- Pictures that still serve. -/
def livePics (pics : List DecPic) : List DecPic := pics.filter fun d => d.waits || d.ref

/-- Pictures once a slice header has come: an IRAP picture that starts afresh frees every reference, and lets what waits go out first
or, where it says so, not at all; any other keeps the references it names. -/
def Slice.marks (x : Slice) (bits : Nat) (afresh : Bool) (pics : List DecPic) : List DecPic :=
  livePics (pics.map fun d =>
    if afresh then { d with ref := false, due := d.waits && !x.discard, waits := d.waits && !x.discard }
    else { d with ref := x.keeps bits d })

/-- Pictures that wait for their output. -/
def waitingPics (pics : List DecPic) : List DecPic := pics.filter (·.waits)

/-- A picture must go out: one is due, too many wait, or one has waited too long. -/
def mustOutput (x : Sps) (pics : List DecPic) : Bool :=
  pics.any (·.due) || decide (x.reorder < (waitingPics pics).length) ||
    (x.latency != 0 && (waitingPics pics).any fun d => decide (x.reorder + x.latency - 1 ≤ d.later))

/-- The picture that goes out next: a due one before others, then the lowest order count. -/
def nextOutput (pics : List DecPic) : Option DecPic :=
  let w := waitingPics pics
  let w1 := if w.any (·.due) then w.filter (·.due) else w
  w1.foldl (fun b d => match b with
    | none => some d
    | some e => if d.poc < e.poc then some d else b) none

/-- Pictures with one more: those shown after it have waited for one picture longer. -/
def addPicture (pics : List DecPic) (d : DecPic) : List DecPic :=
  (pics.map fun e => if e.waits && d.waits && decide (d.poc < e.poc) then { e with later := e.later + 1 } else e) ++ [d]

/-! ### Samples of an output picture (R319, R320) -/

/-- CTBs of a picture. -/
def ctbsOf (w h ctb : Nat) : Nat := ((w + ctb - 1) / ctb) * ((h + ctb - 1) / ctb)

/-- The CTB of a sample of a frame: luma, then chroma in pairs. -/
def ctbOfSample (w h ctb s : Nat) : Nat :=
  let across := (w + ctb - 1) / ctb
  if s < w * h then s / w / ctb * across + s % w / ctb
  else
    let t := s - w * h
    let pairs := max 1 (w / 2)
    t / (2 * pairs) * 2 / ctb * across + t % (2 * pairs) / 2 * 2 / ctb

/-- A grey sample's byte: 128 or 512. -/
def greyByte (depth i : Nat) : Byte := if depth = 8 then 128 else (le 2 512).getD (i % 2) 0

/-- The bytes of an output picture: its last CTBs as concealed ones, from the picture put out before or grey; the others free. -/
def DecPic.frame (d : DecPic) (before : Option (List Byte)) : List Byte :=
  let size := decodedBytes d.width d.height d.depth
  let first := ctbsOf d.width d.height d.ctb - d.concealed
  (List.range size).map fun i =>
    if first ≤ ctbOfSample d.width d.height d.ctb (if d.depth = 8 then i else i / 2) then
      match before with
      | some b => b.getD i 0
      | none => greyByte d.depth i
    else BitVec.ofNat 8 (Config.freeNat (d.seed + i))

end Sys2Proof.Machine
end

