-- ==== Sys2Proof/Machine/Hevc.lean ====
section
/-! DEFINITION. What of a picture's coding the rules settle: its parameter sets (R311, R307), the motion search (R314) and the QP of its
CTB rows (R315). The syntax of the sets and the interpolation are those of ITU-T H.265 (log entry 160). -/

namespace Sys2Proof.Machine

/-! ### Bits of a parameter set -/

/-- `n` bits of a number, the most significant first. -/
def uBits (n v : Nat) : List Bool := (List.range n).map fun i => bit v (n - 1 - i)

/-- An unsigned exponential Golomb number. -/
def ueBits (v : Nat) : List Bool := List.replicate (Nat.log2 (v + 1)) false ++ uBits (Nat.log2 (v + 1) + 1) (v + 1)

/-- A value of a header that the rules leave open: at most `top`, by its place (log entry 160). -/
def openField (place top : Nat) : Nat := Config.headerChoice place % (top + 1)

/-- A NAL unit of a type: start code, header, and its bits closed by the trailing ones. -/
def nalUnit (type : Nat) (bits : List Bool) : List Byte :=
  let closed := bits ++ [true]
  let byte (i : Nat) : Byte := BitVec.ofNat 8 (((List.range 8).map fun j => if closed.getD (8 * i + j) false then 2 ^ (7 - j) else 0).sum)
  [0, 0, 0, 1] ++ le 1 (2 * type) ++ [1] ++ emulated 0 ((List.range ((closed.length + 7) / 8)).map byte)

/-! ### VPS, SPS and PPS (R311) -/

/-- What the sets of a stream are built from: profile, level, format of the view, width, height, rate, references. -/
structure SetInfo where
  profile : Nat
  level : Nat
  format : Nat
  width : Nat
  height : Nat
  rate : Nat
  refs : Nat
  deriving DecidableEq, Repr

/-- Profile, tier and level: Main tier; Main is compatible with Main 10; Main 4:2:2 10 names its limits. -/
def SetInfo.tierLevel (x : SetInfo) : List Bool :=
  let fits (i : Nat) : Bool := i == x.profile || (x.profile == 1 && i == 2)
  let limits := if x.profile = 4 then uBits 9 0b110100001 else uBits 9 0
  uBits 3 0 ++ uBits 5 x.profile ++ (List.range 32).map fits ++ uBits 4 (8 + openField 0 1) ++ limits ++ uBits 35 0 ++ uBits 8 x.level

/-- Pictures a decoder holds, none reordered. -/
def SetInfo.buffers (x : SetInfo) : List Bool := [true] ++ ueBits (min 15 (x.refs + 8)) ++ ueBits 0 ++ ueBits 0

/-- The video parameter set. -/
def SetInfo.vps (x : SetInfo) : List Byte :=
  nalUnit 32 (uBits 4 0 ++ [true, true] ++ uBits 6 0 ++ uBits 3 0 ++ [true] ++ uBits 16 0xFFFF ++ x.tierLevel ++ x.buffers ++ uBits 6 0 ++
    ueBits 0 ++ [false, false])

/-- Colours of BT.709 in limited range, and timing; no HRD parameters. -/
def SetInfo.vui (x : SetInfo) : List Bool :=
  [false, false, true] ++ uBits 3 (openField 1 5) ++ [false, true] ++ uBits 8 1 ++ uBits 8 1 ++ uBits 8 1 ++
    [false, false, false, false, false, true] ++ uBits 32 1000 ++ uBits 32 (1000 * x.rate) ++ [false, false, false]

/-- The sequence parameter set: sizes rounded up to 8 with the conformance window, depth and chroma format, 16 bits of picture order
count, the coding tree and tools of R307. -/
def SetInfo.sps (x : SetInfo) : List Byte :=
  let chroma := if x.format = 1 ∨ x.format = 4 then 2 else 1
  let depth := if x.format = 3 ∨ x.format = 4 then 10 else 8
  let w8 := roundUp x.width 8
  let h8 := roundUp x.height 8
  let window := if w8 = x.width ∧ h8 = x.height then [false] else
    [true] ++ ueBits 0 ++ ueBits ((w8 - x.width) / 2) ++ ueBits 0 ++ ueBits ((h8 - x.height) / (if chroma = 1 then 2 else 1))
  nalUnit 33 (uBits 4 0 ++ uBits 3 0 ++ [true] ++ x.tierLevel ++ ueBits 0 ++ ueBits chroma ++ ueBits w8 ++ ueBits h8 ++ window ++
    ueBits (depth - 8) ++ ueBits (depth - 8) ++ ueBits 12 ++ x.buffers ++ ueBits 0 ++ ueBits 3 ++ ueBits 0 ++ ueBits 3 ++
    ueBits (openField 2 4) ++ ueBits (openField 3 4) ++ [false, false, true, false] ++ ueBits 0 ++ [true] ++ ueBits 0 ++
    [true, openField 4 1 == 1, true] ++ x.vui ++ [false])

/-- The picture parameter set: QP by CTB row, no transform skip, no tiles, no wavefront, no dependent slices. -/
def SetInfo.pps (x : SetInfo) : List Byte :=
  nalUnit 34 (ueBits 0 ++ ueBits 0 ++ [false, false] ++ uBits 3 0 ++ [openField 5 1 == 1, openField 6 1 == 1] ++ ueBits (x.refs - 1) ++
    ueBits 0 ++ ueBits 0 ++ [false, false, true] ++ ueBits 0 ++ ueBits 0 ++ ueBits 0 ++
    [false, false, false, false, false, false, openField 7 1 == 1, false, false, openField 8 1 == 1] ++ ueBits (openField 9 4) ++
    [false, false])

/-- The sets before an IDR picture. -/
def SetInfo.bytes (x : SetInfo) : List Byte := x.vps ++ x.sps ++ x.pps

/-! ### Luma of a reference (R314) -/

/-- A picture of `w` x `h` luma samples by their place; beyond its edges the nearest sample stands. -/
structure Luma where
  w : Nat
  h : Nat
  depth : Nat
  sample : Nat → Nat

/-- The sample at a place. -/
def Luma.at (p : Luma) (x y : Int) : Int :=
  let cx := (clampI 0 ((p.w : Int) - 1) x).toNat
  let cy := (clampI 0 ((p.h : Int) - 1) y).toNat
  p.sample (cy * p.w + cx)

/-- The taps of a fractional place in quarters. -/
def lumaTaps : Nat → List Int
  | 1 => [-1, 4, -10, 58, 17, -5, 1, 0]
  | 2 => [-1, 4, -11, 40, 40, -11, 4, -1]
  | 3 => [0, 1, -5, 17, 58, -10, 4, -1]
  | _ => [0, 0, 0, 64, 0, 0, 0, 0]

/-- Eight values filtered. -/
def lumaSum (f : Nat) (v : Int → Int) : Int := ((lumaTaps f).zipIdx.map fun t => t.1 * v ((t.2 : Int) - 3)).sum

/-- The sample at a place in quarters. -/
def Luma.quarter (p : Luma) (x y : Int) : Int :=
  let fx := (x % 4).toNat
  let fy := (y % 4).toNat
  let up : Int := 2 ^ (14 - p.depth)
  let row (dy : Int) : Int :=
    if fx = 0 then p.at (x / 4) (y / 4 + dy) * up else lumaSum fx (fun dx => p.at (x / 4 + dx) (y / 4 + dy)) / 2 ^ (p.depth - 8)
  let v := if fy = 0 then row 0
    else if fx = 0 then lumaSum fy (fun dy => p.at (x / 4) (y / 4 + dy)) / 2 ^ (p.depth - 8)
    else lumaSum fy row / 64
  clampI 0 (2 ^ p.depth - 1) ((v + up / 2) / up)

/-! ### Units (R307) -/

/-- A rectangle of luma samples. -/
structure PuRect where
  x : Nat
  y : Nat
  w : Nat
  h : Nat
  deriving DecidableEq, Repr

/-- The prediction units of a coding unit by its shape: 2N x 2N, 2N x N, N x 2N, or none in an intra unit. -/
def unitsOf (x y s shape : Nat) : List PuRect :=
  match shape with
  | 0 => [⟨x, y, s, s⟩]
  | 1 => [⟨x, y, s, s / 2⟩, ⟨x, y + s / 2, s, s / 2⟩]
  | 2 => [⟨x, y, s / 2, s⟩, ⟨x + s / 2, y, s / 2, s⟩]
  | _ => []

/-- The prediction units of a coding tree: how it is split and shaped is the mode decision's choice, which is open (log entry 78). -/
def treeUnits (seed w h : Nat) : Nat → Nat → Nat → Nat → List PuRect
  | 0, x, y, s => if w ≤ x ∨ h ≤ y then [] else unitsOf x y s (Config.modeChoice seed x y s / 2 % 4)
  | d + 1, x, y, s =>
    if w ≤ x ∨ h ≤ y then []
    else if w < x + s ∨ h < y + s ∨ Config.modeChoice seed x y s % 2 = 1 then
      let n := s / 2
      treeUnits seed w h d x y n ++ treeUnits seed w h d (x + n) y n ++ treeUnits seed w h d x (y + n) n ++
        treeUnits seed w h d (x + n) (y + n) n
    else unitsOf x y s (Config.modeChoice seed x y s / 2 % 4)

/-- The prediction units of a picture, CTB by CTB. -/
def pictureUnits (seed w h : Nat) : List PuRect :=
  ((List.range ((h + 63) / 64)).map fun j => ((List.range ((w + 63) / 64)).map fun i => treeUnits seed w h 3 (64 * i) (64 * j) 64).flatten).flatten

/-! ### The search (R314) -/

/-- A vector within the range of one. -/
def clampVector (v : Int × Int) : Int × Int := (clampI (-32767) 32767 v.1, clampI (-32767) 32767 v.2)

/-- The vector of the unit that holds a place. -/
def vectorAt (ms : List Motion) (x y : Int) : Option (Int × Int) :=
  (ms.find? fun m => decide ((m.x : Int) ≤ x ∧ x < m.x + m.w ∧ (m.y : Int) ≤ y ∧ y < m.y + m.h)).map (·.mv)

/-- The candidates of a unit: the web-travel vector of a travel in quarter rows, dropped from the picture's height on; the left, above
and above-right neighbours' vectors; the co-located one of the nearest reference; zero. -/
def candidates (u : PuRect) (travel height : Nat) (done near : List Motion) : List (Int × Int) :=
  let x : Int := u.x
  let y : Int := u.y
  (if travel < 4 * height then [(0, (travel : Int))] else []) ++
    ([vectorAt done (x - 1) (y + u.h - 1), vectorAt done (x + u.w - 1) (y - 1), vectorAt done (x + u.w) (y - 1),
      vectorAt near (x + u.w / 2) (y + u.h / 2)].filterMap id) ++ [(0, 0)]

/-- The sum of absolute differences of a unit of the current picture and the place a vector points to. -/
def sadAt (cur ref : Luma) (u : PuRect) (v : Int × Int) : Nat :=
  ((List.range u.h).map fun j => ((List.range u.w).map fun i =>
    (cur.at (u.x + i : Nat) (u.y + j : Nat) - ref.quarter (4 * (u.x + i : Nat) + v.1) (4 * (u.y + j : Nat) + v.2)).natAbs).sum).sum

/-- Vectors around one, `n` steps of `q` quarters to each side in both axes, clamped. -/
def around2 (n q : Nat) (v : Int × Int) : List (Int × Int) :=
  v :: (shiftsWithin n).map fun d => clampVector (v.1 + q * d.1, v.2 + q * d.2)

/-- The vector of a unit for a reference: the best candidate, the search of 16 integer samples around it, then half and quarter samples. -/
def searchVector (cost : Int × Int → Nat) (cs : List (Int × Int)) : Int × Int :=
  let cheapest (l : List (Int × Int)) : Int × Int := (argLeast cost l).getD (0, 0)
  cheapest (around2 1 1 (cheapest (around2 1 2 (cheapest (around2 16 4 (cheapest (cs.map clampVector)))))))

/-- The picture a reference holds: its samples are what coding made of them, which is open (log entry 78). -/
def RefPic.luma (r : RefPic) (w h depth : Nat) : Luma := ⟨w, h, depth, fun i => Config.rebuilt r.seed i % 2 ^ depth⟩

/-- A unit searched in every active reference: the motion with the lowest cost. What a vector's bits cost at a QP is open. -/
def unitMotion (cur : Luma) (travel qp : Nat) (refs : List RefPic) (done : List Motion) (u : PuRect) : List Motion :=
  let near := ((argLeast (fun r => 2 ^ 32 - r.count) refs).map (·.motion)).getD []
  let found := refs.map fun r =>
    let cost (v : Int × Int) : Nat := sadAt cur (r.luma cur.w cur.h cur.depth) u v + Config.vectorCost qp v.1 v.2
    let v := searchVector cost (candidates u (travel - r.travel) cur.h done near)
    (r.count, v, cost v)
  (argLeast (·.2.2) found).toList.map fun x => ⟨u.x, u.y, u.w, u.h, x.1, x.2.1⟩

/-- The motion of a P picture. -/
def pictureMotion (cur : Luma) (seed travel qp : Nat) (refs : List RefPic) : List Motion :=
  (pictureUnits seed (roundUp cur.w 8) (roundUp cur.h 8)).foldl (fun done u => done ++ unitMotion cur travel qp refs done u) []

/-! ### Rate control (R315) -/

/-- The CTB rows of a picture: the bits they take and the QP at the end. What a row takes, up to a bound, and what the rest is estimated
at are open (log entry 78). -/
def codeRows (free budget qpMax most : Nat) : Nat → Nat → Nat → Nat × Nat
  | 0, bits, qp => (bits, qp)
  | n + 1, bits, qp =>
    let rest := Config.freeNat (free + 2 * n)
    let q := if budget < bits + rest ∧ qp < qpMax then qp + 1 else qp
    codeRows free budget qpMax most n (bits + Config.freeNat (free + 2 * n + 1) % (most + 1)) q

end Sys2Proof.Machine
end

