-- ==== Sys2Proof/Machine/Record.lean ====
section
/-! DEFINITION. The encoder and decoder commands (R305 to R320) and the record output (R258). -/

namespace Sys2Proof.Machine

/-! ### stream_enable (R308, R309, R313, R317) -/

/-- A stream enabled: its level, pool and commitment, the record ride needed. -/
def Ctl.startStream (c : Ctl) (i : Nat) (v : List Byte) : Ctl :=
  let lvl := (levelFor (viewWidth v) (viewHeight v) (viewRate v) (c.nat (Obj.profile i)) (c.nat (Obj.cap i))).getD 0
  let commit := streamCommit v (c.nat (Obj.refs i))
  let c1 := (((c.setStream i { Stream.reset with pics := (c.stream i).pics, place := (c.stream i).place }).putN (Obj.stream_enable i) 1).putN (Obj.level i) lvl).putN (Obj.pool_bytes i) (poolBytes v)
  ((c1.putN (Obj.iso_commit i) commit).setIso i commit).needRide rideRecord

/-- A stream disabled: the pool freed, the commitment withdrawn. -/
def Ctl.endStream (c : Ctl) (i : Nat) : Ctl :=
  let c1 := (((c.setStream i { Stream.reset with pics := (c.stream i).pics, place := (c.stream i).place }).putN (Obj.stream_enable i)
    0).putN (Obj.level i) 0).putN (Obj.pool_bytes i) 0
  ((c1.putN (Obj.iso_commit i) 0).setIso i 0).usedRide rideRecord

/-- A write of stream_enable. -/
def ownStreamEnable (i v _n : Nat) (c : Ctl) : Nat × Ctl :=
  if v = 0 then (St.OK, if c.streamOn i then c.endStream i else c)
  else if c.streamOn i then (St.OK, c)
  else
    match c.streamView i with
    | none => refuse St.REC_NO_VIEW c
    | some view => if c.streamCode i = 0 then (St.OK, c.startStream i view) else refuse (c.streamCode i) c

/-- STREAM_ENABLE. -/
def execStreamEnable (r : Req) (stream arg : Nat) (s : State) : Host.Outcome State Fault Refusal :=
  if stream < 4 then nextMach s (s.mach.ctlRow r (Obj.stream_enable stream) (le 1 arg) (ownStreamEnable stream arg)) else .next s

/-! ### The record output (R258, R317) -/

/-- The displacement between two row 0 coordinates, in quarter rows (R258). -/
def Ctl.displacement (c : Ctl) (k : Nat) (v : List Byte) (old new : Int) : Nat :=
  let p := c.pitch256 k (new / 256)
  (((Frac.ofInt (4 * (new - old))).mul (viewScale v)).div (Frac.ofInt p)).round.toNat

/-- A record frame reaches its stream: into a SOURCE buffer, or skipped where both are marked. -/
def Ctl.frameToStream (c : Ctl) (i k : Nat) (row0 : Int) (disp ns : Nat) (samples : List Nat) : Ctl :=
  let x := c.stream i
  if 2 ≤ x.waiting.length then
    ((c.setStream i { x with skipped := x.skipped + disp, follows := true }).bump (Obj.pictures_skipped i)).ring Src.REC_SKIP i
      (Obj.pictures_skipped i)
  else
    let f : RecFrame := ⟨c.recorder.arrivals, k, row0, disp + x.skipped, ns, x.follows, samples⟩
    let c1 := c.setStream i { x with waiting := x.waiting ++ [f], skipped := 0, follows := false }
    c1.setRec { c1.recorder with arrivals := c1.recorder.arrivals + 1 }

/-- RECORD_FRAME: due at each whole multiple of 1 / rate while the camera is IDLE or STREAMING and, since it was LOST, has exposed
(R262). -/
def execRecordFrame (camera : Nat) (s : State) : Host.Outcome State Fault Refusal :=
  let c := s.mach.ctl
  let x := c.cam camera
  let v := x.record
  if camera < 4 ∧ x.outOn = true ∧ (c.camState camera = 2 ∨ c.camState camera = 3) ∧ viewOn v = true ∧ x.recordAt < c.frameIndex (viewRate v) then
    match c.viewRow0 camera v with
    | none => .next s
    | some w =>
      let i := c.frameIndex (viewRate v)
      let disp := match x.recordRow with
        | some o => c.displacement camera v o w
        | none => 0
      let c1 := c.setCam camera { x with recordAt := i, recordRow := some w }
      nextCtl s (if c1.streamOn (viewStream v) then
        c1.frameToStream (viewStream v) camera w disp (i * 10 ^ 9 / max 1 (viewRate v))
          (recordSamples v (c.viewSourceRows camera v (·.record))) else c1)
  else .next s

/-! ### ENCODE_PICTURE (R305, R311 to R316) -/

/-- The web coordinate of the middle row of a record frame. -/
def Ctl.middleOf (c : Ctl) (v : List Byte) (f : RecFrame) : Int :=
  f.row0 + ((Frac.ofInt ((viewHeight v / 2 : Nat) * c.pitch256 f.camera (f.row0 / 256))).div (viewScale v)).round

/-- Bits of the pictures of a history within the second before an instant. -/
def bitsWithin (ns : Nat) (h : List (Nat × Nat)) : Nat := ((h.filter fun e => decide (ns < e.1 + 10 ^ 9)).map (·.2)).sum

/-- What a coded picture is: bytes, last QP, whether it is an IDR, and itself as a reference. -/
structure Coded where
  bytes : List Byte
  qp : Nat
  idr : Bool
  pic : RefPic
  deriving DecidableEq, Repr

/-- What the sets of a stream are built from (R311). -/
def Ctl.setInfo (c : Ctl) (i : Nat) (v : List Byte) : SetInfo :=
  let p := c.nat (Obj.profile i)
  ⟨p, c.nat (Obj.level i), viewFormat v, viewWidth v, viewHeight v, viewRate v, c.nat (Obj.refs i)⟩

/-- A coded picture of a frame of stream `i`: parameter sets before an IDR, the web tag, the slice, with the motion the search finds in the
SHORT and LONG references. The slice's bytes are free, as many as its CTB rows take (log entry 78); it fits into the ring's free bytes. -/
def Ctl.codePicture (c : Ctl) (i : Nat) (v : List Byte) (f : RecFrame) (ticket qp0 qpMax budget : Nat) (idr : Bool) : Coded × Ctl :=
  let x := c.stream i
  let head := (if idr then (c.setInfo i v).bytes else []) ++ seiUnit (webTag f ticket x.capped) ++
    [0, 0, 0, 1, if idr then 0x26 else 0x02, 0x01]
  let rows := (viewHeight v + 63) / 64
  let most := 8 * (c.ringFree i - head.length - 8) / max 1 rows
  let r := codeRows c.free budget qpMax most rows (8 * head.length) qp0
  let slice := 1 + (r.1 - 8 * head.length) / 8
  let seed := c.free + 2 * rows
  let cur : Luma := ⟨viewWidth v, viewHeight v, if viewFormat v = 2 then 8 else 10, fun n => f.samples.getD n 0⟩
  let travel := x.travel + f.displacement
  let motion := if idr then [] else pictureMotion cur seed travel r.2 (x.shorts ++ x.longs.map (·.2))
  (⟨head ++ freeBytes seed slice, r.2, idr, ⟨x.count + 1, travel, seed, motion⟩⟩, { c with free := seed + slice })

/-- The index entry of a picture (R316). -/
def indexEntry (offset bytes count : Nat) (f : RecFrame) (p : Coded) (capped marked : Bool) : List Byte :=
  le 8 offset ++ le 4 bytes ++ le 4 count ++ le 8 (uns 64 f.row0) ++ le 4 f.displacement ++ le 1 (if p.idr then 0 else 1) ++
    le 1 p.qp ++ le 1 ((if capped then 1 else 0) + (if f.follows then 2 else 0) + if marked then 4 else 0) ++ [0]

/-- The stream after a picture: marks, references, rate control (R313, R315). -/
def Stream.after (x : Stream) (f : RecFrame) (p : Coded) (refs target qpMax cap1000 : Nat) (capped : Bool) (size : Nat) : Stream :=
  let bits := 8 * p.bytes.length
  let history := (f.ns, bits) :: x.history.filter fun e => decide (f.ns < e.1 + 10 ^ 9)
  let base := max target (min qpMax p.qp)
  let calm := decide (10 * bitsWithin f.ns history < 8 * cap1000)
  let shorts := if p.idr then [] else x.shorts
  let longs := if p.idr then [] else x.longs
  { x with waiting := x.waiting.drop 1, idrNext := false, since := if p.idr then 1 else x.since + 1, count := x.count + 1,
           shorts := if x.mark.isSome then shorts else (p.pic :: shorts).take refs, travel := p.pic.travel
           longs := longs ++ (x.mark.toList.map fun place => (place, p.pic)), mark := none, base := some (if calm then max target (base - 1) else base),
           capped := capped, history := history, pics := x.pics ++ [p.bytes.length],
           place := (x.place + p.bytes.length) % max 1 size }

/-- The oldest waiting frame of all streams is this stream's. -/
def Ctl.streamTurn (c : Ctl) (i : Nat) (f : RecFrame) : Bool :=
  (List.range 4).all fun j => j == i || !c.streamOn j || (c.stream j).waiting.all fun g => decide (f.arrived < g.arrived)

/-- A frame of stream `i` of view `v` coded, written and indexed. -/
def Mach.encode (m : Mach) (i : Nat) (v : List Byte) (f : RecFrame) : Mach :=
  let c := m.ctl
  let x := c.stream i
  let page := c.pageOver (c.middleOf v f)
  let target := match page with
    | some p => c.nat (Obj.qp_target p.2)
    | none => c.nat (Obj.idle_qp i)
  let qpMax := match page with
    | some p => c.nat (Obj.qp_max p.2)
    | none => 51
  let idr := x.count == 0 || x.idrNext || decide (c.nat (Obj.idr_period i) ≤ x.since)
  let cap := c.nat (Obj.cap i) * 1000
  let before := bitsWithin f.ns x.history
  let a := c.codePicture i v f ((page.map (·.1)).getD 0) (x.base.getD target) qpMax (cap - before) idr
  let p := a.1
  let bits := 8 * p.bytes.length
  let excess := bits + before - cap
  let size := c.nat (Obj.out_ring_bytes i)
  let y := x.after f p (c.nat (Obj.refs i)) target qpMax cap (excess != 0) size
  let n := c.nat (Obj.index_entries i)
  let head := c.nat (Obj.index_head i)
  let e := indexEntry x.place p.bytes.length (x.count + 1) f p (excess != 0) x.mark.isSome
  let c1 := (((a.2.useCellar.setStream i y).bump (Obj.pictures i)).putN (Obj.index_head i) ((head + 1) % (2 * n))).ring (Src.REC_INDEX i) i
    (Obj.index_head i)
  let c2 := if excess = 0 then c1 else (c1.bumpBy (Obj.cap_excess_bits i) excess).ring Src.REC_CAP_EXCEEDED i (Obj.cap_excess_bits i)
  let mem := ringWrite m.cellar (c.nat (Obj.out_ring_base i)) size x.place p.bytes
  ⟨c2, memWrite mem (c.nat (Obj.index_ring_base i) + head % n * 32) e⟩

/-- ENCODE_PICTURE: held while the ring has less than 64 KiB free, the index ring is full or the cellar does not serve. -/
def execEncodePicture (stream : Nat) (s : State) : Host.Outcome State Fault Refusal :=
  let c := s.mach.ctl
  if stream < 4 ∧ c.streamOn stream = true ∧ 65536 ≤ c.ringFree stream ∧ c.indexFull stream = false ∧ c.rideRuns rideRecord = true ∧
      c.cellarUp = true ∧ c.frozen 0 = false ∧ c.frozen 1 = false then
    match (c.stream stream).waiting, c.streamView stream with
    | f :: _, some v => if c.streamTurn stream f then nextMach s (s.mach.encode stream v f) else .next s
    | _, _ => .next s
  else .next s

/-! ### Long-term references and IDR (R311, R313) -/

/-- mark_long_term. -/
def ownMarkLong (i place n : Nat) (c : Ctl) : Nat × Ctl :=
  let x := c.stream i
  (St.STARTED,
    if x.longs.any (·.1 == place) then c.cmdNowFail (Obj.mark_long_term i) n St.LT_FULL Src.REC_CMD_DONE i
    else (c.setStream i { x with mark := some place }).cmdNow (Obj.mark_long_term i) n Src.REC_CMD_DONE i)

/-- MARK_LONG_TERM. -/
def execMarkLongTerm (r : Req) (stream arg : Nat) (s : State) : Host.Outcome State Fault Refusal :=
  if stream < 4 then nextMach s (s.mach.ctlRow r (Obj.mark_long_term stream) (le 1 arg) (ownMarkLong stream arg)) else .next s

/-- release_long_term. -/
def ownReleaseLong (i place n : Nat) (c : Ctl) : Nat × Ctl :=
  let x := c.stream i
  (St.STARTED, (c.setStream i { x with longs := x.longs.filter (·.1 != place) }).cmdNow (Obj.release_long_term i) n Src.REC_CMD_DONE i)

/-- RELEASE_LONG_TERM. -/
def execReleaseLongTerm (r : Req) (stream arg : Nat) (s : State) : Host.Outcome State Fault Refusal :=
  if stream < 4 then nextMach s (s.mach.ctlRow r (Obj.release_long_term stream) (le 1 arg) (ownReleaseLong stream arg)) else .next s

/-- force_idr. -/
def ownForceIdr (i n : Nat) (c : Ctl) : Nat × Ctl :=
  (St.STARTED, (c.setStream i { c.stream i with idrNext := true }).cmdNow (Obj.force_idr i) n Src.REC_CMD_DONE i)

/-- FORCE_IDR. -/
def execForceIdr (r : Req) (stream arg : Nat) (s : State) : Host.Outcome State Fault Refusal :=
  if stream < 4 then nextMach s (s.mach.ctlRow r (Obj.force_idr stream) (le 1 arg) (ownForceIdr stream)) else .next s

/-! ### The decoder (R318 to R320) -/

/-- A replay's state replaced. -/
def Ctl.setReplay (c : Ctl) (r : Option Replay) : Ctl := c.setRec { c.recorder with replay := r }

/-- A replay over: its commitment withdrawn, the command ended. -/
def Ctl.replayOver (c : Ctl) (code : Nat) : Ctl :=
  let c1 := (((c.setReplay none).putN Obj.decoder_state 0).setIso 4 0).usedRide rideRecord
  if code = 0 then c1.cmdDone Obj.decode Src.REC_CMD_DONE else c1.cmdFail Obj.decode code Src.REC_CMD_DONE

/-- The slot bytes of a replay's output ring. -/
def replaySlot (w h depth : Nat) : Nat := roundUp (64 + decodedBytes w h depth) 4096

/-- The output ring of a decode lies in the general area, off the crate region and every area (R353). -/
def Ctl.replayRingOk (c : Ctl) (base size : Nat) : Bool :=
  decide (base + size ≤ c.generalEnd) && !overlaps (base, size) (c.nat Obj.crate_base, c.nat Obj.crate_bytes) &&
    areaKeys.all fun k => (c.areaOf k).1 == 0 || !overlaps (base, size) (c.areaOf k)

/-- decode. -/
def ownDecode (v : List Byte) (n : Nat) (c : Ctl) : Nat × Ctl :=
  let w := fld v 12 2
  let h := fld v 14 2
  let r : Replay := ⟨fld v 0 8, fld v 8 4, w, h, fld v 16 8, fld v 24 1, fld v 25 1, 0, [], [], none, false, false,
    false, true, 0, [], [], 0, 0, 0, none⟩
  let commit := mbUp ⟨w * h * r.rate * 9, 1⟩
  if !c.inCrates r.address r.length || !c.replayRingOk r.base (r.frames * replaySlot w h 10) then refuse St.OUT_OF_RANGE c
  else if c.rangeFrozen r.address r.length || c.rangeFrozen r.base (r.frames * replaySlot w h 10) then refuse St.CELLAR_FROZEN c
  else (St.STARTED,
    if c.nat Obj.iso_limit < c.isoOthers 4 + commit then c.cmdNowFail Obj.decode n St.ISO_BUDGET Src.REC_CMD_DONE
    else (((((c.cmdRun Obj.decode n).setReplay (some r)).putN Obj.decoder_state 1).setIso 4 commit).needRide rideRecord))

/-- DECODE. -/
def execDecode (r : Req) (value : List Byte) (s : State) : Host.Outcome State Fault Refusal :=
  nextMach s (s.mach.ctlRow r Obj.decode value (ownDecode value))

/-- decode_stop: a running decode ends. -/
def ownDecodeStop (n : Nat) (c : Ctl) : Nat × Ctl :=
  let c1 := if c.recorder.replay.isSome && c.cmdBusy Obj.decode then c.replayOver 0 else c
  (St.STARTED, c1.cmdNow Obj.decode_stop n Src.REC_CMD_DONE)

/-- DECODE_STOP. -/
def execDecodeStop (r : Req) (arg : Nat) (s : State) : Host.Outcome State Fault Refusal :=
  nextMach s (s.mach.ctlRow r Obj.decode_stop (le 1 arg) ownDecodeStop)

/-- An error of the byte stream (R319). -/
def Ctl.decodeError (c : Ctl) : Ctl := (c.bump Obj.decode_errors).ring Src.DEC_ERROR 0xFFFF Obj.decode_errors

/-- The header of an output slot (R320). -/
def decodedHeader (count w h depth flags concealed : Nat) (tag : List Byte) : List Byte :=
  le 4 count ++ le 2 w ++ le 2 h ++ le 1 depth ++ le 1 flags ++ le 4 concealed ++ padTo 28 tag ++ zeros 22

/-- What the next picture of the output ring is written over and from: the bytes of the picture put out before, if it had this size;
without one of this size its samples are free (log entry 79). -/
def Mach.beforeOut (m : Mach) (r : Replay) (d : DecPic) : Option (List Byte) :=
  r.prev.map fun p =>
    let size := decodedBytes d.width d.height d.depth
    if p.2 = (d.width, d.height, d.depth) then memRead m.cellar (p.1 + 64) size else freeBytes d.seed size

/-- The next waiting picture written to the next slot of the ring. -/
def Mach.putOut (m : Mach) (r : Replay) : Mach :=
  match nextOutput r.pictures with
  | none => m.onCtl fun c => c.setReplay (some r)
  | some d =>
    let c := m.ctl
    let a := r.base + r.slot * replaySlot d.width d.height d.depth
    let flags := (if d.concealed = 0 then 0 else 1) + if d.derived then 2 else 0
    let r1 := { r with slot := (r.slot + 1) % max 1 r.frames, count := r.count + 1, lastAt := c.now
                       prev := some (a, d.width, d.height, d.depth)
                       pictures := livePics (r.pictures.map fun e => if e = d then { e with waits := false, due := false } else e) }
    let c1 := (((c.useCellar.setReplay (some r1)).putN Obj.dec_head ((c.nat Obj.dec_head + 1) % 32)).putN Obj.decoder_state 1).ring
      Src.DEC_FRAME 0xFFFF Obj.dec_head
    ⟨c1, memWrite m.cellar a (decodedHeader (r.count + 1) d.width d.height d.depth flags d.concealed d.tag ++ d.frame (m.beforeOut r d))⟩

/-- A picture decoded: kept, and put out if the order asks for it. A concealed one is an error (R319). -/
def Mach.addDecoded (m : Mach) (x : Sps) (r : Replay) (d : DecPic) : Mach :=
  let size := decodedBytes d.width d.height d.depth
  let c0 := if d.concealed = 0 then m.ctl else m.ctl.decodeError.bumpBy Obj.ctbs_concealed d.concealed
  let c1 := { c0.bump Obj.pictures_decoded with free := c0.free + size }
  let r1 := { r with pictures := addPicture r.pictures d, tag := [], needIdr := false }
  if mustOutput x r1.pictures then Mach.putOut ⟨c1, m.cellar⟩ r1 else ⟨c1.setReplay (some r1), m.cellar⟩

/-- A picture of a size that conceals `n` CTBs. -/
def Ctl.decodedOf (c : Ctl) (x : Sps) (r : Replay) (poc : Int) (n : Nat) (shown derived : Bool) : DecPic :=
  ⟨poc, shown, false, 0, true, x.width, x.height, x.depth, x.ctb, min n (ctbsOf x.width x.height x.ctb), derived, r.tag, c.free⟩

/-- A picture whose slice header cannot be read or names a set that is not held: concealed whole, shown after those before it. -/
def Mach.concealWhole (m : Mach) (x : Sps) (r : Replay) : Mach :=
  let poc := (r.pictures.map (·.poc)).foldl max r.poc + 1
  m.addDecoded x r (m.ctl.decodedOf x r poc (ctbsOf x.width x.height x.ctb) true false)

/-- The order count that the next picture's is counted from: that of a picture of the lowest sub-layer that others may refer to. -/
def nextPoc (type layer : Nat) (prev poc : Int) : Int :=
  if layer = 1 ∧ ¬(6 ≤ type ∧ type ≤ 9) ∧ ¬(type < 16 ∧ type % 2 = 0) then poc else prev

/-- A picture of which `n` CTBs cannot be decoded, after its slice header: pictures that must go out first go out, and it stays to be
read; else it is decoded, whole where a reference is missing. `r` has read up to it, `r1` past it. -/
def Mach.takePicture (m : Mach) (x : Sps) (n type layer : Nat) (r r1 : Replay) (h : Slice) : Mach :=
  let irap := decide (16 ≤ type)
  let afresh := irap && (decide (type ≤ 20) || r.fresh)
  let pics := h.marks x.pocBits afresh r.pictures
  if pics.any (·.due) || (!afresh && decide (x.buffers ≤ pics.length) && pics.any (·.waits)) then
    m.putOut { r with pictures := pics }
  else
    let n1 := if h.lacks x.pocBits pics then ctbsOf x.width x.height x.ctb else n
    let r2 := { r1 with pictures := pics, active := some x, fresh := false, skipRasl := if irap then afresh else r.skipRasl
                        poc := nextPoc type layer r.poc h.poc }
    m.addDecoded x r2 (m.ctl.decodedOf x r1 h.poc n1 h.shown (h.inherits x.pocBits pics))

/-- The picture parameter set a slice names, with the sequence parameter set it names, where both are held. -/
def Replay.setsOf (r : Replay) (id : Nat) : Option (Sps × Pps) := do
  let p ← (r.ppss.find? fun e => e.1 == id).map (·.2)
  let x ← (r.spss.find? fun e => e.1 == p.sps).map (·.2)
  some (x, p)

/-- The first slice of a picture. -/
def Mach.firstSlice (m : Mach) (n type layer : Nat) (r r1 : Replay) (bs : List Bool) : Mach :=
  let flag := if 16 ≤ type then 1 else 0
  let whole := match r.active with
    | some x => if r.needIdr then m.onCtl (·.setReplay (some r1)) else m.concealWhole x r1
    | none => m.onCtl fun c => (if r.needIdr then c else c.decodeError).setReplay (some r1)
  match (readBits flag bs).bind fun d => (ue d.2).map fun i => (d.1 == 1, i) with
  | none => whole
  | some (discard, id) =>
    match r.setsOf id.1 with
    | none => whole
    | some (x, p) =>
      match readSlice x p type r.poc (discard || type == 21) id.2 with
      | none => m.concealWhole x r1
      | some h => m.takePicture x n type layer r r1 h

/-- A parameter set of a number held, in place of one of the same number. -/
def holdSet {α : Type} (l : List (Nat × α)) (e : Nat × α) : List (Nat × α) := e :: l.filter fun x => x.1 != e.1

/-- The byte stream worked off up to and including the next picture; `concealed` CTBs of it could not be decoded. At its end what waits
goes out, a picture at a time. -/
def Mach.readOn (m : Mach) (concealed : Nat) : Nat → Replay → Mach
  | 0, r => m.onCtl fun c => c.setReplay (some r)
  | fuel + 1, r =>
    let rest := memRead m.cellar (r.address + r.done) (r.length - r.done)
    match nextStart rest 0 with
    | none =>
      if r.pictures.any (·.waits) then m.putOut { r with pictures := r.pictures.map fun d => { d with due := d.waits } }
      else m.onCtl fun c => c.replayOver 0
    | some (o, after) =>
      let n := match nextStart after 0 with
        | some (k, _) => k
        | none => after.length
      let nal := after.take n
      let r1 := { r with done := r.done + o + 3 + n }
      let type := (nal.headD 0).toNat / 2 % 64
      let layer := (nal.getD 1 0).toNat % 8
      let failed := m.onCtl fun c => c.decodeError
      let badSet := Mach.readOn failed concealed fuel { r1 with needIdr := true, started := r.started || type == 33 }
      if nal.length < 2 ∨ bit (nal.headD 0).toNat 7 = true ∨ layer = 0 then Mach.readOn failed concealed fuel r1
      else if type = 32 then if vpsOk (nal.drop 2) then Mach.readOn m concealed fuel r1 else badSet
      else if type = 33 then
        match readSps (nal.drop 2) with
        | none => badSet
        | some x =>
          if (!r.started && !x.2.supported) || decide (r.maxWidth < x.2.width ∨ r.maxHeight < x.2.height) then
            m.onCtl fun c => c.replayOver St.DEC_UNSUPPORTED
          else if !x.2.supported then badSet
          else Mach.readOn m concealed fuel { r1 with spss := holdSet r.spss x, started := true }
      else if type = 34 then
        match readPps (nal.drop 2) with
        | none => badSet
        | some p => Mach.readOn m concealed fuel { r1 with ppss := holdSet r.ppss p }
      else if type = 36 then Mach.readOn m concealed fuel { r1 with fresh := true }
      else if type = 39 then
        let p := unemulated 0 (nal.drop 2)
        Mach.readOn m concealed fuel (if p.take 18 = [5, 44] ++ webTagUuid then { r1 with tag := slice p 18 28 } else r1)
      else if (type ≤ 9 ∨ 16 ≤ type ∧ type ≤ 21) ∧ bit (nal.getD 2 0).toNat 7 = true then
        if (r.skipRasl && (type == 8 || type == 9)) || (r.needIdr && !(type == 19 || type == 20)) then Mach.readOn m concealed fuel r1
        else m.firstSlice concealed type layer r r1 ((msbBits (unemulated 0 (nal.drop 2))).drop 1)
      else Mach.readOn m concealed fuel r1

/-- A replay goes on: a picture that must go out does; else the next one is decoded. -/
def Mach.replay (m : Mach) (concealed : Nat) (r : Replay) : Mach :=
  match r.active with
  | some x => if mustOutput x r.pictures then m.putOut r else m.readOn concealed (r.length + 1) r
  | none => m.readOn concealed (r.length + 1) r

/-- DECODE_PICTURE: due while the ring has room, the rate allows and the cellar serves. A full ring makes the decoder WAIT. -/
def execDecodePicture (concealed : Nat) (s : State) : Host.Outcome State Fault Refusal :=
  let c := s.mach.ctl
  match c.recorder.replay with
  | none => .next s
  | some r =>
    if r.frames ≤ (c.nat Obj.dec_head + 32 - c.nat Obj.dec_tail) % 32 then nextCtl s (c.putN Obj.decoder_state 2)
    else if (r.count = 0 ∨ r.lastAt + 10 ^ 9 / max 1 r.rate ≤ c.now) ∧ c.rideRuns rideRecord = true ∧ c.cellarUp = true ∧
        c.frozen 0 = false ∧ c.frozen 1 = false then
      nextMach s (s.mach.replay concealed r)
    else .next s

end Sys2Proof.Machine
end

