-- ==== Sys2Proof/Machine/Reset.lean ====
section
/-! DEFINITION. What a reset, a power-down and SLEEP leave (R405, R416, R421): the stores that are kept, everything else as at
reset; and the power-down of R408. -/

namespace Sys2Proof.Machine

/-! ### What is kept -/

/-- Objects the booth holds (R398, R414, R420, R432, R38; 1810 and 1811 of the hard-latched sources). -/
def boothHolds (key : Nat) : Bool :=
  [Obj.resets, Obj.wake_cause, Obj.power_fail_record, Obj.rc_trim, Obj.xtal_deviation, Obj.booth_clock, Obj.clock_status,
    Obj.service_failures].contains key ||
    ((key / 256 == 0x1810 || key / 256 == 0x1811) && hardLatched (key % 256 - 1))

/-- Configuration objects that SLEEP loses with their partitions (R405). -/
def tableLost (key : Nat) : Bool :=
  let i := key / 256
  let s := key % 256
  decide (i = 0x4002 ∨ (0x6420 ≤ i ∧ i ≤ 0x642F ∧ 0x0A ≤ s ∧ s ≤ 0x0D) ∨ (0x6430 ≤ i ∧ i ≤ 0x6433))

/-- Writable objects that belong to a session, a ring or a run, and are no configuration (log entry 99). -/
def transient (key : Nat) : Bool :=
  let i := key / 256
  let s := key % 256
  decide (0x1101 ≤ i ∧ i ≤ 0x1108) ||
    [Obj.power_state_request, Obj.bell_window, Obj.nozzle_window, Obj.submit_tail, Obj.completion_tail, Obj.loop_tail,
      Obj.residual_window, Obj.item_tail, Obj.dec_tail, Obj.record_window].contains key ||
    decide (i = 0x1800 ∧ 7 ≤ s ∧ s ≤ 0x10) || decide (0x6610 ≤ i ∧ i ≤ 0x6613 ∧ s = 0x0B) ||
    decide (0x6A00 ≤ i ∧ i ≤ 0x6A07 ∧ (s = 1 ∨ s = 4)) || i == 0x6C11 || i == 0x6C12

/-- A configuration object. -/
def isConfig (key : Nat) : Bool :=
  match objOf key with
  | some r => (r.acc == .rw || r.acc == .rwStop || r.acc == .rwSeal) && !transient key
  | none => false

/-- Objects SLEEP keeps: the booth's, the usage counters', and every configuration object of the miscellaneous partition. -/
def sleepKeeps (key : Nat) : Bool :=
  boothHolds key || key == Obj.sleeps || key == Obj.time_stepped ||
    (key / 256 == 0x6C00 && (match objOf key with
      | some r => r.acc != .cmd
      | none => false)) ||
    (isConfig key && !tableLost key)

/-- Everything at reset, but for the fuses, the attic, the booth and the objects that `keep` names. -/
def Ctl.rebuilt (c0 : Ctl) (phase : Phase) (keep : Nat → Bool) : Ctl :=
  let c := c0.rebaseClock
  let z := Ctl.reset
  { z with
    now := c.now
    free := c.free
    out := c.out
    dict := c.dict.filter fun e => keep e.1
    ydp := { z.ydp with lockoutEnd := c.ydp.lockoutEnd }
    flt := { z.flt with rails := c.flt.rails }
    axs := c.axs.restart
    clock := ⟨c.clock.sub, c.clock.at_, Ptp.reset, []⟩
    phase := phase
    keys := ⟨[], if c.keys.fused then c.keys.staged else [], c.keys.fused⟩
    attic := { c.attic with jobs := [] }
    life := c.life
    pwr := { z.pwr with rails := c.pwr.rails, railAt := c.pwr.railAt, powered := c.pwr.powered, poweredAt := c.pwr.poweredAt,
                        xtal := c.pwr.xtal, xtalOwed := c.pwr.xtalOwed, xtalGood := c.pwr.xtalGood } }

/-! ### Pins -/

/-- Pins driven, in order. -/
def Ctl.drive (c : Ctl) (ps : List (String × Bool)) : Ctl := forEach ps (fun c p => c.emit (.pin p.1 p.2)) c

/-- The FIRE pairs' balls, and those that rest inactive (R417). -/
def Ctl.quietPins (c : Ctl) : Ctl :=
  let pulses := ["PULSE0", "PULSE1", "PULSE2", "PULSE3"].zipIdx.map fun x => (x.1, c.nat (Obj.pulse_polarity x.2) == 1)
  c.drive ([("FIRE", false), ("CAROUSEL", false), ("INT0_N", true), ("INT1_N", true), ("DDR0_RESET_N", false),
    ("DDR1_RESET_N", false)] ++ pulses)

/-- Enables of the rails in the order of R408. -/
def railNames : List String := ["EN_AUX", "EN_CORE", "EN_SRAM", "EN_PHY", "EN_PHYH", "EN_DRAM1", "EN_DRAM2", "EN_DRAMQ"]

/-- The enables raised fall in reverse order (R408). -/
def Ctl.railsDown (c : Ctl) : Ctl :=
  let c1 := c.drive ((railNames.take c.pwr.rails).reverse.map fun n => (n, false))
  { c1 with pwr := { c1.pwr with rails := 0 } }

/-! ### Reset (R416, R417, R421) -/

/-- A reset of everything outside the booth with a cause; start-up has still to run. -/
def Ctl.resetTo (c : Ctl) (cause : Nat) : Ctl :=
  let c1 := c.quietPins.rebuilt .held boothHolds
  { c1 with life := { c1.life with cause := cause, startedAt := c1.now } }

/-- The same for the machine: the cellar's contents are lost. -/
def Mach.resetTo (m : Mach) (cause : Nat) : Mach := { m with ctl := m.ctl.resetTo cause, cellar := [] }

/-! ### SLEEP (R405, R408, R409) -/

/-- Usage records that wait for the attic stay with the counters. -/
def keptJobs (js : List AtticJob) : List AtticJob :=
  js.filter fun j => match j with
    | .usage _ => true
    | _ => false

/-- PERIODIC runs, which resume after SLEEP (R367, log entry 103). -/
def Ctl.keptPulses (c : Ctl) : Kv Pulse :=
  (c.clock.pulses.filter fun e => e.2.mode == 2).map fun e => (e.1, { e.2 with endAt := none })

/-- The controller in SLEEP. -/
def Ctl.asleepFrom (c : Ctl) : Ctl :=
  let s := c.rebuilt .asleep sleepKeeps
  let net := c.ydp.net
  let c1 : Ctl := { s with use := c.use, clock := { s.clock with pulses := c.keptPulses },
                           ydp := { s.ydp with net := ⟨net.mac, net.ip, net.mask, net.udp, [], [], (0, 0), []⟩ }, bell := { s.bell with config := c.bell.config }, attic := { c.attic with jobs := keptJobs c.attic.jobs },
                           flt := Ctl.reset.flt }
  (c1.putN Obj.power_state 0).bump Obj.sleeps

/-- Every transmitter that runs goes to sleep first (R200, R405). -/
def Ctl.lanesSleep (c : Ctl) : Ctl :=
  forEach (List.range 32) (fun c l => if c.tx l = 2 then c.sendNow l (.sets [.sleep] 16) else c) c

/-- SLEEP entered: sessions closed, the bell cleared, rides stopped, the rails down, everything but the kept stores lost. -/
def Mach.enterSleep (m : Mach) : Mach := { m with ctl := m.ctl.lanesSleep.quietPins.railsDown.asleepFrom, cellar := [] }

/-- power_fail_record (R413). -/
def Ctl.failRecord (c : Ctl) (step cause : Nat) : List Byte := le 1 step ++ le 1 cause ++ [0, 0] ++ le 8 c.powered ++ zeros 4

/-- The power-down of a failed rail (R409): PG_LOST is raised while the core still has power, tickets are void, SLEEP follows. -/
def Mach.railFails (m : Mach) (step cause : Nat) : Mach :=
  let m1 := if cause = 2 && m.ctl.awake then m.onCtl (·.raiseFault faultPgLost) else m
  (m1.onCtl fun c => c.putO Obj.power_fail_record (c.failRecord step cause)).enterSleep

end Sys2Proof.Machine
end

