-- ==== Sys2Proof/Machine/Power.lean ====
section
/-! DEFINITION. Rides, power states, the power sequencer and PMBus (chapter 15). -/

namespace Sys2Proof.Machine

/-! ### Rides starting (R401, R402, R412) -/

/-- A reading of VDD_CORE: shown, and a ride that waits for it starts its PLL once the voltage is right (R412). -/
def Ctl.coreReading (c : Ctl) (mv : Nat) : Ctl :=
  forEach (List.range 6) (fun c j => if c.nat (Obj.ride_state j) = 1 ∧ c.coreReady j = true then c.pllStarts j else c)
    (c.putN Obj.vcore_now mv)

/-- What a print ride that runs releases: READY, and admission (R402, R404). -/
def Ctl.printRuns (c : Ctl) : Ctl :=
  let c1 := if c.nat Obj.power_state = 1 then c.setPower 2 else c
  c1.finishOpening

/-- Chains whose discovery waits for a link ride (R163). -/
def Ctl.linkRuns (c : Ctl) (j : Nat) : Ctl :=
  forEach (List.range 16) (fun c ch =>
    if (c.mgr ch).stage = 1 ∧ (c.chainRides ch).contains j = true ∧ (c.chainRides ch).all c.rideRuns = true then c.startDiscovery ch
    else c) c

/-- A ride runs, and requests held for it go on. -/
def Ctl.rideUp (c : Ctl) (j : Nat) : Ctl :=
  let c1 := c.setRide j 2
  if j = ridePrint then c1.printRuns else if 7 ≤ j then c1.linkRuns j else c1

/-- RIDE_STARTED: READ_VOUT of regulator 0 answers `voutWord` where the ride needs VDD_CORE. -/
def execRideStarted (ride voutWord : Nat) (s : State) : Host.Outcome State Fault Refusal :=
  let c := s.mach.ctl
  if ride < 15 ∧ c.nat (Obj.ride_state ride) = 1 then
    let c1 := if needsCore ride then c.coreReading (c.voutOf 0 voutWord) else c
    nextCtl s (if c1.coreReady ride && c1.nat (pllKey ride) == 2 then c1.rideUp ride else c1)
  else .next s

/-! ### Rides stopping (R401, R412) -/

/-- A ticket is outstanding: without a posted ENDED entry. -/
def Ctl.ticketed (c : Ctl) : Bool := !c.adm.tickets.isEmpty

/-- A sealed slot records fire data or crops. -/
def Ctl.slotsRecord (c : Ctl) : Bool :=
  (List.range 256).any fun n => c.nat (Obj.slot_state n) == 2 && c.slotRecords n

/-- Something needs the ride now. -/
def Ctl.rideNeeded (c : Ctl) (j : Nat) : Bool :=
  if j = ridePrint then
    c.nat Obj.admission_state == 1 || c.ticketed || c.nat Obj.power_state_request == 2 || c.cmdBusy Obj.cal_registration ||
      c.cmdBusy Obj.open_admission
  else if j ≤ 4 then c.camOn (j - 1)
  else if j = rideRecord then
    let r := c.units.record
    (List.range 4).any c.streamOn || r.replay.isSome || !r.jobs.isEmpty || !r.held.isEmpty || !r.crops.isEmpty ||
      r.capture.isSome || !r.fires.isEmpty || c.slotsRecord
  else if j = rideCellar then
    !((List.range 2).all fun m => c.nat (Obj.mc_state m) == 3) || c.ticketed || (List.range 4).any c.camWrites ||
      (List.range 4).any c.streamOn || c.units.record.replay.isSome || !c.units.record.jobs.isEmpty
  else
    (lanesOfQuad (j - 7)).any (fun l => c.laneWanted l || (c.lane l).cal.isSome || c.spareBusy l) ||
      (List.range 16).any fun ch => c.cmdBusy (Obj.discover_chain ch) && (c.chainRides ch).contains j

/-- How long a ride runs on after its last use, in ns. -/
def Ctl.rideRest (c : Ctl) (j : Nat) : Nat :=
  if j = ridePrint then c.nat Obj.print_idle_stop * ms
  else if j = rideRecord then c.nat Obj.record_idle_stop * ms
  else if j = rideCellar then c.nat Obj.cellar_stop_time * ms
  else 0

/-- When the last use of a ride ended; the cellar's in self-refresh (R351). -/
def Ctl.rideUsedAt (c : Ctl) (j : Nat) : Nat := kvGet 0 c.pwr.usedAt j

/-- The lanes of a quad whose PLL stops are off. -/
def Ctl.quadOff (c : Ctl) (q : Nat) : Ctl :=
  forEach (lanesOfQuad q) (fun c l => (c.setRx l 0).putN (Obj.tx_state l) 0) c

/-- VDD_CORE falls once no ride needs vcore_run (R412). -/
def Ctl.restCore (c : Ctl) (j : Nat) : Ctl :=
  if needsCore j && (List.range 6).all fun i => c.nat (Obj.ride_state i) == 0 then
    c.emit (.bus "VOUT_COMMAND" (c.voutWord 0 (c.nat Obj.vcore_standby))) else c

/-- A ride stops with its PLL. -/
def Ctl.rideDown (c : Ctl) (j : Nat) : Ctl :=
  let c1 := (c.setRide j 0).putN (pllKey j) 0
  let c2 := if j = ridePrint then (if c1.nat Obj.power_state = 2 then c1.setPower 1 else c1)
    else if 7 ≤ j then c1.quadOff (j - 7) else c1
  c2.restCore j

/-- RIDE_IDLE_STOP. -/
def execRideIdleStop (ride : Nat) (s : State) : Host.Outcome State Fault Refusal :=
  let c := s.mach.ctl
  if ride < 15 ∧ c.nat (Obj.ride_state ride) ≠ 0 ∧ c.rideNeeded ride = false ∧ c.rideUsedAt ride + c.rideRest ride ≤ c.now then
    nextCtl s (c.rideDown ride)
  else .next s

/-! ### VDD_CORE (R412) -/

/-- Rides that wait for VDD_CORE. -/
def Ctl.coreWaits (c : Ctl) : List Nat := (List.range 6).filter fun j => c.nat (Obj.ride_state j) == 1 && !c.coreReady j

/-- The raise has failed: VCORE_SCALE, and the rides stay stopped. -/
def Ctl.coreFails (c : Ctl) : Ctl :=
  let c1 := forEach c.coreWaits (fun c j => (c.setRide j 0).putN (pllKey j) 0) c
  (c1.setFlt { c1.flt with present := kvSet false c1.flt.present faultVcoreScale true }).raiseFault faultVcoreScale

/-- VCORE_SCALE_TIMEOUT: a raise that is not confirmed within 500 us. -/
def execVcoreScaleTimeout (s : State) : Host.Outcome State Fault Refusal :=
  let c := s.mach.ctl
  if c.coreWaits.any fun j => decide (kvGet 0 c.pwr.rideAt j + 500000 ≤ c.now) then nextCtl s c.coreFails else .next s

/-! ### PMBus (R410, R411) -/

/-- The voltage VDD_CORE should have. -/
def Ctl.coreTarget (c : Ctl) : Nat :=
  if (List.range 6).any fun j => c.nat (Obj.ride_state j) != 0 then c.nat Obj.vcore_run else c.nat Obj.vcore_standby

/-- A regulator's readings shown; regulator 0 is VDD_CORE's. -/
def Ctl.showRegulator (c : Ctl) (x : PmbusReading) : Ctl :=
  let mv := c.voutOf x.regulator x.vout
  let c1 := (((c.putN (Obj.vout x.regulator) mv).putN (Obj.iout x.regulator) (linear11 1000 x.iout).toNat).putI
    (Obj.reg_temperature x.regulator) (linear11 10 x.temperature)).putN (Obj.status_word x.regulator) x.status
  if x.regulator = 0 then
    let c2 := c1.coreReading mv
    if c2.coreNear c2.coreTarget then c2.setFlt { c2.flt with present := kvSet false c2.flt.present faultVcoreScale false } else c2
  else c1

/-- A regulator that answered, and what its readings ring. -/
def Ctl.regulatorAnswers (c : Ctl) (x : PmbusReading) : Ctl :=
  let c1 := c.showRegulator x
  let c2 := if x.status ≠ 0 then
      (c1.ring Src.PMBUS_STATUS x.regulator (Obj.status_word x.regulator)).emit (.bus "CLEAR_FAULTS" x.regulator) else c1
  if x.regulator = 0 ∧ c2.nat Obj.iout_warn < c2.nat (Obj.iout 0) then c2.ring Src.PMBUS_STATUS 0 (Obj.iout 0) else c2

/-- A transaction that failed after its retries; during a raise it is VCORE_SCALE's cause. -/
def Ctl.regulatorFails (c : Ctl) (r : Nat) : Ctl :=
  let c1 := (c.bump Obj.pmbus_errors).ring Src.PMBUS_ERROR r Obj.pmbus_errors
  if r = 0 ∧ !c1.coreWaits.isEmpty then c1.coreFails else c1

/-- A transaction is tried once and then up to 3 times more. -/
def pmbusOk (x : PmbusReading) : Bool := decide (x.failures ≤ 3)

/-- PMBUS_TELEMETRY: the readings of the configured regulators. -/
def execPmbusTelemetry (readings : List PmbusReading) (s : State) : Host.Outcome State Fault Refusal :=
  let c := s.mach.ctl
  if c.awake then
    nextCtl s (forEach (readings.filter fun x => decide (x.regulator < 8) && c.nat (Obj.pmbus_address x.regulator) != 0)
      (fun c x => if pmbusOk x then c.regulatorAnswers x else c.regulatorFails x.regulator) c)
  else .next s

/-! ### Power states (R404, R405) -/

/-- A wake source of R406 is enabled; ALARM counts only while it lies ahead. -/
def Ctl.canWake (c : Ctl) : Bool :=
  let w := c.nat Obj.wake_enable
  w % 16 != 0 || (bit w 4 && decide (c.localNs < c.nat Obj.wake_alarm))

/-- Why SLEEP is refused, 0 for nothing. -/
def Ctl.sleepCode (c : Ctl) : Nat :=
  if c.ticketed ∨ c.nat Obj.admission_state = 1 then St.POWER_TICKETS
  else if !((List.range 8).all c.standing) then St.POWER_AXES
  else if !c.canWake then St.NO_WAKE_SOURCE
  else St.OK

/-- A write of power_state_request. -/
def ownPowerRequest (v _n : Nat) (c : Ctl) : Nat × Ctl :=
  if v = 0 then
    if c.sleepCode = St.OK then (St.OK, c.putN Obj.power_state_request 0) else refuse c.sleepCode c
  else
    let c1 := c.putN Obj.power_state_request v
    (St.OK, if v = 2 then c1.needRide ridePrint else if c.nat Obj.power_state_request = 2 then c1.usedRide ridePrint else c1)

/-- A SLEEP request just accepted begins SLEEP, once its response has left. -/
def Mach.sleepIfAsked (m : Mach) : Mach :=
  if m.ctl.awake && m.ctl.nat Obj.power_state_request == 0 then m.enterSleep else m

/-- POWER_STATE_REQUEST (R404, R405). -/
def execPowerStateRequest (r : Req) (arg : Nat) (s : State) : Host.Outcome State Fault Refusal :=
  nextMach s (s.mach.ctlRow r Obj.power_state_request (le 1 arg) (ownPowerRequest arg)).sleepIfAsked

/-- WAKE: a source that is enabled detects its event (R406). -/
def execWake (event : WakeEvent) (s : State) : Host.Outcome State Fault Refusal :=
  let c := s.mach.ctl
  if c.phase = .asleep ∧ c.wakes (wakeSource event) = true ∧ c.wakeSeen event = true then nextCtl s (c.wakeBy (wakeSource event)) else .next s

/-! ### The power sequencer (R408, R409, R500) -/

/-- RAIL_ENABLE: the next enable rises 100 us after the last power good, which rose `rose` ns after its own enable, within 3 ms. -/
def execRailEnable (rose : Nat) (s : State) : Host.Outcome State Fault Refusal :=
  let c := s.mach.ctl
  if c.phase = .held ∧ c.pwr.rails < 8 ∧ (c.pwr.rails = 0 ∨ rose ≤ 3 * ms ∧ c.pwr.railAt + rose + 100000 ≤ c.now) then
    let c1 := c.drive [(railNames.getD c.pwr.rails "", true)]
    nextCtl s (c1.setPwr { c1.pwr with rails := c.pwr.rails + 1, railAt := c.now })
  else .next s

/-- PG_FAIL: a power good that is lost, or the last one enabled that does not rise within 3 ms. -/
def execPgFail (step : Nat) (s : State) : Host.Outcome State Fault Refusal :=
  let c := s.mach.ctl
  if 1 ≤ step ∧ step ≤ 8 ∧ step < c.pwr.rails then nextMach s (s.mach.railFails step 2)
  else if 1 ≤ step ∧ step ≤ 8 ∧ step = c.pwr.rails ∧ c.pwr.railAt + 3 * ms ≤ c.now then nextMach s (s.mach.railFails step 1)
  else .next s

/-- VDD_BOOTHIO_SAG: the ordered power-down with cause PG_LOST, as for a failed rail; no step of R408 names the rail. -/
def execVddBoothioSag (s : State) : Host.Outcome State Fault Refusal :=
  if s.mach.ctl.phase = .asleep then .next s else nextMach s (s.mach.railFails 0 2)

/-- POWER_ON: the booth starts from zero and everything with it; only fuses and attic are kept (R398, R416, R500). -/
def Ctl.poweredOn (c : Ctl) : Ctl :=
  let z := c.rebuilt .held (fun _ => false)
  { z with clock := ⟨0, c.now, Ptp.reset, []⟩, flt := Ctl.reset.flt, ydp := Ctl.reset.ydp, life := { c.life with cause := 1, startedAt := c.now, tap := .idcode },
           pwr := { Ctl.reset.pwr with rails := 0, poweredAt := c.now, xtalGood := false } }

/-- POWER_ON. -/
def execPowerOn (s : State) : Host.Outcome State Fault Refusal :=
  nextMach s { ctl := s.mach.ctl.poweredOn, cellar := [] }

end Sys2Proof.Machine
end

