-- ==== Sys2Proof/Machine/Usage.lean ====
section
/-! DEFINITION. Usage and key commands (chapter 19): billing periods, collection, and the keys. -/

namespace Sys2Proof.Machine

/-! ### Billing periods (R476 to R478) -/

/-- DECOMMISSIONED: no period closes (R479). -/
def Ctl.retired (c : Ctl) : Bool := c.nat Obj.lifecycle_state == 4

/-- PERIOD_CLOSE: due at the first powered second at which the period has run its length; a full store leaves it open. A close
whose challenges have ended meanwhile writes its records. -/
def execPeriodClose (s : State) : Host.Outcome State Fault Refusal :=
  let c := s.mach.ctl
  if c.retired = true ∨ c.awake = false then .next s
  else if c.use.closing.isSome then nextCtl s c.closeRecords
  else if c.powered < c.nat Obj.period_start + c.use.length then .next s
  else if c.storeFull then nextCtl s (c.setUse { c.use with overdue := true })
  else nextCtl s c.closePeriod

/-- close_period (R487); a close in course serves it too. -/
def ownClosePeriod (n : Nat) (c : Ctl) : Nat × Ctl :=
  (St.STARTED,
    if c.storeFull then c.cmdNowFail Obj.close_period n St.USAGE_STORE_FULL Src.USAGE_CMD_DONE
    else
      let c1 := c.cmdRun Obj.close_period n
      if c1.use.closing.isSome then c1 else c1.closePeriod)

/-- CLOSE_PERIOD. -/
def execClosePeriod (r : Req) (arg : Nat) (s : State) : Host.Outcome State Fault Refusal :=
  nextMach s (s.mach.ctlRow r Obj.close_period (le 1 arg) ownClosePeriod)

/-! ### Collection (R481, R482) -/

/-- A sector of the usage region whose records have all been collected: its slots lie outside [tail, head) and are not the
ones of the sector usage_head stands in. -/
def Ctl.sectorCollected (c : Ctl) (sector : Nat) : Bool :=
  let head := c.nat Obj.usage_head
  let tail := c.nat Obj.usage_tail
  (List.range 4).all fun i =>
    let b := c.slotBytes (0x400000 + (4 * sector + i) * 1024)
    b.isEmpty && !(decide (head % 4096 / 4 = sector) && decide (head % 4 ≤ i)) ||
      (!b.isEmpty && decide (usageSeq b < tail ∧ usageSeq b < head))

/-- A sector erased. -/
def Ctl.eraseSector (c : Ctl) (sector : Nat) : Ctl :=
  let left := c.attic.slots.filter fun e =>
    decide (e.1 < 0x400000 + sector * 4096 ∨ 0x400000 + (sector + 1) * 4096 ≤ e.1)
  { c with attic := { c.attic with slots := left } }

/-- Every sector whose records are all collected erased. -/
def Ctl.eraseCollected (c : Ctl) : Ctl :=
  let d := forEach (List.range 1024) (fun d k => if c.sectorCollected k then d.eraseSector k else d) c
  d.showRegion regionUsage

/-- A write of usage_tail (R482). -/
def ownUsageTail (v _n : Nat) (c : Ctl) : Nat × Ctl :=
  if v < c.nat Obj.usage_tail ∨ c.nat Obj.usage_head < v then refuse St.OUT_OF_RANGE c
  else (St.OK, (c.putN Obj.usage_tail v).eraseCollected.showStore)

/-- USAGE_TAIL_WRITE. -/
def execUsageTailWrite (r : Req) (arg : Nat) (s : State) : Host.Outcome State Fault Refusal :=
  nextMach s (s.mach.ctlRow r Obj.usage_tail (le 4 arg) (ownUsageTail arg))

/-! ### Keys (R484 to R486) -/

/-- A key's check value. -/
def keyCheck (k : List Byte) : Nat := fld (sha256 k) 0 4

/-- A key wrapped, or unwrapped, for a field of a KEYS record (R485). -/
def wrapKey (offset seq : Nat) (k : List Byte) : List Byte :=
  let text : List Byte := [0x4B, 0x45, 0x59, 0x57, 0x52, 0x41, 0x50]
  List.zipWith (fun a b => a ^^^ b) k (hmac deviceKeyBytes (text ++ le 1 offset ++ le 4 seq))

/-- The keys after a change. -/
def Keys.change (k : Keys) : KeyChange → Keys
  | .stage key => { k with staged := key }
  | .fused => k
  | .setFamily j _ key => { k with family := kvSet [] k.family j key }
  | .clearFamily j => { k with family := kvSet [] k.family j [] }

/-- A place of the KEYS record. -/
def Ctl.keyPlace (c : Ctl) (seq j : Nat) : List Byte :=
  let k := kvGet [] c.keys.family j
  if k.isEmpty then [0xFF, 0xFF] ++ zeros 38
  else le 2 (c.nat (Obj.key_family j)) ++ [1, 0] ++ wrapKey (44 + 40 * j) seq k ++ le 4 (keyCheck k)

/-- The data of a KEYS record of a sequence (R485). -/
def Ctl.keysData (c : Ctl) (seq : Nat) : List Byte :=
  let staged := c.nat Obj.service_key_state == 1
  (if staged then [1, 0, 0, 0] ++ wrapKey 4 seq c.keys.staged ++ le 4 (keyCheck c.keys.staged) else zeros 40) ++
    ((List.range 4).map (c.keyPlace seq)).flatten

/-- The objects that show the keys. -/
def Ctl.showKeys (c : Ctl) (k : KeyChange) : Ctl :=
  match k with
  | .stage key => (c.putN Obj.service_key_state 1).putN Obj.service_key_check (keyCheck key)
  | .fused => c
  | .setFamily j f key => (c.putN (Obj.key_family j) f).putN (Obj.family_key_check j) (keyCheck key)
  | .clearFamily j => (c.putN (Obj.key_family j) 0xFFFF).putN (Obj.family_key_check j) 0

/-- A KEYS record committed with its change, which holds from then on (R486); KEY_CHANGE rings. -/
def Ctl.commitKeys (c : Ctl) (k : KeyChange) : Ctl :=
  let c1 := ({ c with keys := c.keys.change k }).showKeys k
  let c2 := c1.commitRecord regionKeys 0 0 (c1.keysData (c1.nextSeq regionKeys 0 0))
  c2.ring Src.KEY_CHANGE 0xFFFF 0

/-- The change a key command asks for goes to the attic, or why it fails. -/
def Ctl.keyCommand (c : Ctl) (cmd n code : Nat) (k : KeyChange) : Nat × Ctl :=
  if !c.atticReady then refuse St.ATTIC_NOT_READY c
  else (St.STARTED,
    if code ≠ 0 then c.cmdNowFail cmd n code Src.USAGE_CMD_DONE else (c.cmdRun cmd n).atticWrite (.keys k cmd))

/-- stage_service_key: key 32 bytes, check U32. -/
def ownStageKey (v : List Byte) (n : Nat) (c : Ctl) : Nat × Ctl :=
  let key := slice v 0 32
  let code := if c.nat Obj.service_key_state = 2 then St.KEY_STATE else if keyCheck key ≠ fld v 32 4 then St.KEY_CHECK else 0
  c.keyCommand Obj.stage_service_key n code (.stage key)

/-- STAGE_SERVICE_KEY. -/
def execStageServiceKey (r : Req) (value : List Byte) (s : State) : Host.Outcome State Fault Refusal :=
  nextMach s (s.mach.ctlRow r Obj.stage_service_key value (ownStageKey value))

/-- set_family_key: place U8, 0, family U16, key 32 bytes, check U32. -/
def ownSetFamily (v : List Byte) (n : Nat) (c : Ctl) : Nat × Ctl :=
  let j := fld v 0 1
  let f := fld v 2 2
  let key := slice v 4 32
  let held := (List.range 4).any fun i => i != j && !(kvGet [] c.keys.family i).isEmpty && c.nat (Obj.key_family i) == f
  let code := if f = 0xFFFF ∨ held = true then St.KEY_FAMILY else if keyCheck key ≠ fld v 36 4 then St.KEY_CHECK else 0
  c.keyCommand Obj.set_family_key n code (.setFamily j f key)

/-- SET_FAMILY_KEY. -/
def execSetFamilyKey (r : Req) (value : List Byte) (s : State) : Host.Outcome State Fault Refusal :=
  nextMach s (s.mach.ctlRow r Obj.set_family_key value (ownSetFamily value))

/-- clear_family_key. -/
def ownClearFamily (j n : Nat) (c : Ctl) : Nat × Ctl := c.keyCommand Obj.clear_family_key n 0 (.clearFamily j)

/-- CLEAR_FAMILY_KEY. -/
def execClearFamilyKey (r : Req) (arg : Nat) (s : State) : Host.Outcome State Fault Refusal :=
  nextMach s (s.mach.ctlRow r Obj.clear_family_key (le 1 arg) (ownClearFamily arg))

/-- The keys a valid KEYS record holds: staged service key, and (place, family, key). -/
def recordKeys (b : List Byte) : List Byte × List (Nat × Nat × List Byte) :=
  let d := recordData b
  let seq := recordSeq b
  (if fld d 0 1 = 1 then wrapKey 4 seq (slice d 4 32) else [],
    ((List.range 4).filter fun j => fld d (42 + 40 * j) 1 == 1).map fun j =>
      (j, fld d (40 + 40 * j) 2, wrapKey (44 + 40 * j) seq (slice d (44 + 40 * j) 32)))

/-- The keys read at start-up (R485, R426): family places, and the staged service key unless one is fused. -/
def Ctl.loadKeys (c : Ctl) : Ctl :=
  let found := match c.validRecord regionKeys 0 0 with
    | some b => recordKeys b
    | none => ([], [])
  let c1 := forEach found.2 (fun c e =>
    ({ c with keys := { c.keys with family := kvSet [] c.keys.family e.1 e.2.2 } }).showKeys (.setFamily e.1 e.2.1 e.2.2))
    { c with keys := { c.keys with family := [] } }
  if c.life.burntP ∨ c.life.burntF ∨ c.life.burntD then
    let c2 := (c1.putN Obj.service_key_state 2).putN Obj.service_key_check (if c.keys.fused then keyCheck c.keys.staged else
      keyCheck ((List.range 32).map fun i => BitVec.ofNat 8 (Config.fusedServiceKey i)))
    if found.1.isEmpty then c2 else c2.atticWrite (.keys .fused 0)
  else if found.1.isEmpty then { c1 with keys := { c1.keys with staged := [] } }
  else ({ c1 with keys := { c1.keys with staged := found.1 } }).showKeys (.stage found.1)

end Sys2Proof.Machine
end

