-- ==== Sys2Proof/Machine/Restore.lean ====
section
/-! DEFINITION. What a start-up reads from the attic (R302, R142, R426 to R428, R479) and the life cycle's records and fuses. -/

namespace Sys2Proof.Machine

/-! ### Life-cycle records and fuses (R424, R428, R430, R431) -/

/-- The data of a LIFECYCLE record: state, status, the state left, transitions, powered_seconds. -/
def Ctl.lifeData (c : Ctl) (target from_ : Nat) (done : Bool) : List Byte :=
  le 1 target ++ le 1 (if done then 0 else 1) ++ le 1 from_ ++ [0] ++ le 4 c.life.transitions ++ le 8 c.powered

/-- The data of the valid latest LIFECYCLE record. -/
def Ctl.lifeRecord (c : Ctl) : Option (List Byte) := (c.validRecord regionLifecycle 0 0).map recordData

/-- The life cycle's own state replaced. -/
def Ctl.setLife (c : Ctl) (x : Life) : Ctl := { c with life := x }

/-- The transition from a state to another burns a fuse bit. -/
def burns (from_ target : Nat) : Bool := target == 1 || target == 4 || (from_ == 1 && target == 2)

/-- The bit a target's transition burns is burnt. -/
def Life.burnt (x : Life) (target : Nat) : Bool :=
  if target = 1 then x.burntP else if target = 4 then x.burntD else x.burntF

/-- The regions a transition wipes (R430). -/
def wiped (from_ target : Nat) : List Nat :=
  if target = 1 then [regionPersistent, regionCare, regionCalibration, regionUsage]
  else if from_ = 1 ∧ target = 2 then [regionUsage]
  else if target = 4 then [regionPersistent, regionCare, regionCalibration, regionKeys]
  else []

/-- The fuse bit of a transition burnt, and with P the staged service key. -/
def Ctl.burn (c : Ctl) (from_ target : Nat) : Ctl :=
  if !burns from_ target then c
  else if target = 1 then
    { c with life := { c.life with burntP := true }, keys := { c.keys with fused := true } }
  else if target = 4 then c.setLife { c.life with burntD := true }
  else c.setLife { c.life with burntF := true }

/-- lifecycle_state from the fuses and the latest record (R428). -/
def Ctl.lifeState (c : Ctl) : Nat :=
  if c.life.burntD then 4
  else if c.life.burntF then
    (match c.lifeRecord with
      | some d => if fld d 0 1 = 3 ∧ fld d 1 1 = 0 then 3 else 2
      | none => 2)
  else if c.life.burntP then 1 else 0

/-! ### The attic as found (R422, R426, R427) -/

/-- Every slot of the store as another attic holds it. -/
def Ctl.swapAttic (c : Ctl) (m : Kv (List Byte)) : Ctl :=
  { c with attic := { c.attic with slots := forEach m (fun t e => kvSet [] t e.1 e.2) [], seqs := [] } }

/-- A DIRECTORY record that would be this attic's but for its device_id. -/
def foreignDirectory (b : List Byte) : Bool :=
  slotMagic b == 0x5241 && fld b 2 1 == 1 && fld b 3 1 == 1 && fld b 16 8 != Config.deviceId % 2 ^ 64 &&
    decide (fld b 12 4 ≤ 0x1000) && fld b (40 + fld b 12 4) 4 == crc32c (b.take (40 + fld b 12 4))

/-- attic_state of an attic as found: 0 ABSENT, 1 FORMATTING, 2 READY, 3 FOREIGN, 4 FAULTY. -/
def Ctl.atticFound (c : Ctl) (a : AtticFound) : Nat :=
  if !a.answers || decide (a.capacity < 32) then 0
  else if (c.slotBytes 0).isEmpty ∧ (c.slotBytes 0x1000).isEmpty then 1
  else
    match c.onFlash regionDirectory 0 0 with
    | .valid _ => 2
    | _ =>
      match c.latestSlot regionDirectory 0 0 with
      | some s => if foreignDirectory (c.slotBytes (slotPlace regionDirectory 0 0 s).1) then 3 else 4
      | none => 4

/-- The attic probed: capacity, identity, read rate, state. -/
def Ctl.probeAttic (c : Ctl) (a : AtticFound) : Ctl :=
  let c1 := match a.contents with
    | some m => c.swapAttic m
    | none => c
  let shown := if a.answers then
      ((c1.putN Obj.attic_capacity (min 4096 a.capacity)).putO Obj.attic_id (padTo 3 a.id)).putN Obj.attic_read_rate
        (if a.dtr then 100 else 50)
    else c1
  (shown.setAttic (c1.atticFound a)).showRegions

/-- Each bad record counts and rings. -/
def Ctl.countBad (c : Ctl) : Ctl :=
  forEach ([1, 2, 3, 4, 5, 6].map fun r => (targetsOf r).map fun t => (r, t.1, t.2)).flatten (fun c t =>
    if c.held t.1 t.2.1 t.2.2 = .bad then
      let c1 := c.badRecord
      if t.1 = regionCalibration then (c1.bump Obj.cal_records_bad).ring Src.CAL_RECORD_BAD 0xFFFF Obj.cal_records_bad else c1
    else c) c

/-- A transition found PENDING is finished: wiped and burnt where its bit is not burnt yet, and recorded DONE (R431). -/
def Ctl.resumeLife (c : Ctl) : Ctl :=
  match c.lifeRecord with
  | none => c
  | some d =>
    if fld d 1 1 ≠ 1 then c
    else
      let target := fld d 0 1
      let from_ := fld d 2 1
      let c1 := if burns from_ target && !c.life.burnt target then
          let staged := ((c.validRecord regionKeys 0 0).map fun b => (recordKeys b).1).getD []
          let k := if target = 1 then { c with keys := { c.keys with staged := staged } } else c
          (k.eraseRegions (wiped from_ target)).burn from_ target
        else c
      let c2 := c1.commitRecord regionLifecycle 0 0 (c1.lifeData target from_ true)
      c2.ring Src.LIFECYCLE_RESUMED 0xFFFF Obj.lifecycle_state

/-! ### Calibration records (R302, R303) -/

/-- Bits of the targets of a kind that hold a valid record. -/
def Ctl.calBits (c : Ctl) (kind n : Nat) : Nat :=
  ((List.range n).map fun i => match c.held regionCalibration kind i with
    | .valid _ => 2 ^ i
    | _ => 0).sum

/-- 6530:05 to 07. -/
def Ctl.showCals (c : Ctl) : Ctl :=
  ((c.putN Obj.slicer_records (c.calBits kindSlicer 32)).putN Obj.flat_records (c.calBits kindFlat 16)).putN
    Obj.registration_record (c.calBits kindRegistration 1)

/-- The records applied: a flat table where the tile's width is unchanged, the last registration's result. -/
def Ctl.restoreCals (c : Ctl) : Ctl :=
  let c1 := forEach (List.range 16) (fun c t => match c.validRecord regionCalibration kindFlat t with
    | some b =>
      let d := recordData b
      if fld d 33280 2 = c.nat (Obj.tile_width t) then c.putO (Obj.flat_field t) (d.take 33280) else c
    | none => c) c
  let c2 := match c1.validRecord regionCalibration kindRegistration 0 with
    | some b => c1.putO Obj.registration_result (recordData b)
    | none => c1
  c2.showCals

/-! ### The care record (R142, R127) -/

/-- Numbers of 4 bytes each. -/
def words4 : List Byte → List Nat
  | a :: b :: c :: d :: r => leVal [a, b, c, d] :: words4 r
  | _ => []

/-- The nozzle table's bytes, in nozzle order. -/
def careTable (t : Kv Nat) : List Byte := ((List.range 524288).map fun z => le 4 (kvGet 0 t z)).flatten

/-- Both tables of nozzle entries replaced. -/
def Ctl.setTables (c : Ctl) (t : Kv Nat) : Ctl := { c with care := { c.care with live := t, written := t } }

/-- An entry's role made UNUSED. -/
def unusedEntry (e : Nat) : Nat := e - nozRole e * 2 ^ 28

/-- The care table restored: entries that break a rule are UNUSED, and CARE_RESTORED names how many. -/
def Ctl.restoreCare (c : Ctl) : Ctl :=
  match c.validRecord regionCare 0 0 with
  | none => c
  | some b =>
    let t : Kv Nat := (words4 (recordData b)).zipIdx.filterMap fun e => if e.1 = 0 then none else some (e.2, e.1)
    let bad := t.filter fun e => !nozRangeOk e.2 || c.orderFault t e.1 != 0
    let kept := forEach bad (fun t e => kvSet 0 t e.1 (if nozRangeOk e.2 then unusedEntry e.2 else 0)) t
    let c1 := ((c.setTables kept).putN Obj.care_saved_time (recordNs b)).putB Obj.care_restored true
    c1.ring Src.CARE_RESTORED (min 0xFFFE bad.length) Obj.care_restored

/-! ### What the restored configuration sets going -/

/-- After reset the ringmaster that 6100:11 names is ACTIVE and the other RECOVERING (R226, R235). -/
def Ctl.preferRings (c : Ctl) : Ctl :=
  let p := c.nat Obj.preferred_ringmaster
  ((c.putN Obj.active_ringmaster p).putN (rmState p) 0).putN (rmState (1 - p)) 2

/-- Values in force from the configuration: care of each bar, net rates of the quads, the ringmasters. -/
def Ctl.putInForce (c : Ctl) : Ctl :=
  let c1 := forEach (List.range 8) (fun c b => c.setCareBar b { c.careBar b with
    weights := c.nat (Obj.neighbour_weights b), weakLimit := c.nat (Obj.weak_drop_limit b), origin := c.nat (Obj.screen_origin b),
    offset := c.int (Obj.column_offset b) }) c
  let c2 := forEach (List.range 8) (fun c q => c.putN (Obj.lane_net_rate q) (c.nat (Obj.quad_rate q) * 160)) c1
  c2.preferRings.allCounts.refreshGeometry

/-- An enabled camera or stream starts where the configuration lets it, else it is disabled (log entry 101). -/
def Ctl.startCam (c : Ctl) (k : Nat) : Ctl :=
  if c.camOn k then
    let c1 := c.putN (Obj.camera_enable k) 0
    if c1.camCode k (c1.nat (Obj.measurement k)) (c1.oct (Obj.crop_ring k)) (c1.oct (Obj.record_view k)) (c1.oct (Obj.monitor_view k)) = 0
    then c1.enableCam k else c1
  else c

/-- The same for a stream. -/
def Ctl.startEnabledStream (c : Ctl) (i : Nat) : Ctl :=
  if c.streamOn i then
    let c1 := c.putN (Obj.stream_enable i) 0
    match c1.streamView i with
    | some v => if c1.streamCode i = 0 then c1.startStream i v else c1
    | none => c1
  else c

/-- Chains assigned to a bar start their lanes' rides (R401), then cameras and streams that the configuration enables. -/
def Ctl.bringUp (c : Ctl) : Ctl :=
  let c1 := forEach ((List.range 16).filter fun ch => (c.chainBar ch).isSome) (fun c ch => forEach (c.lanesOf ch) Ctl.wantLane c) c
  forEach (List.range 4) Ctl.startEnabledStream (forEach (List.range 4) Ctl.startCam c1)

/-! ### Usage at start-up (R479, R482) -/

/-- Powered seconds after a power cycle: 1 more than the latest end or LIFECYCLE record, 0 where neither is valid. -/
def Ctl.restorePowered (c : Ctl) : Ctl :=
  let v := match c.lastUsageEnd, c.lifeRecord with
    | some a, some d => max a (fld d 8 8) + 1
    | some a, none => a + 1
    | none, some d => fld d 8 8 + 1
    | none, none => 0
  c.setPwr { c.pwr with powered := v, poweredAt := c.now }

/-- A period whose close fell in SLEEP closes late (R478). -/
def Ctl.lateBySleep (c : Ctl) : Ctl :=
  if c.nat Obj.period_start + c.use.length ≤ c.powered then c.setUse { c.use with overdue := true } else c

/-- The usage ring found, and the period that a start-up other than WAKE cut short closed; DECOMMISSIONED counts no more. -/
def Ctl.restoreUsage (c : Ctl) (waking : Bool) : Ctl :=
  let c1 := c.findUsage.showStore
  if waking then c1.lateBySleep else if c1.retired = true then c1 else c1.closeBroken

end Sys2Proof.Machine
end

