-- ==== Sys2Proof/Machine/Timekeep.lean ====
section
/-! DEFINITION. The local clock's steps, pulse outputs and the ordinary clock as state and operations (R361 to R367). -/

namespace Sys2Proof.Machine

/-- The clock replaced. -/
def Ctl.setClock (c : Ctl) (k : Clock) : Ctl := { c with clock := k }

/-- The ordinary clock's state replaced. -/
def Ctl.setPtp (c : Ctl) (p : Ptp) : Ctl := c.setClock { c.clock with ptp := p }

/-- clock_status given a value; a change rings PTP_STATE. -/
def Ctl.putStatus (c : Ctl) (s : Nat) : Ctl :=
  if c.nat Obj.clock_status = s then c else (c.putN Obj.clock_status s).ring Src.PTP_STATE 0xFFFF Obj.clock_status

/-- A status that an UNSET clock does not take. -/
def Ctl.putRunStatus (c : Ctl) (s : Nat) : Ctl := if c.nat Obj.clock_status = 0 then c else c.putStatus s

/-- ptp_port_state given a value; a change rings PTP_STATE. -/
def Ctl.putPortState (c : Ctl) (s : Nat) : Ctl :=
  if c.nat Obj.ptp_port_state = s then c else (c.putN Obj.ptp_port_state s).ring Src.PTP_STATE 0xFFFF Obj.ptp_port_state

/-! ### Pulse outputs (R367) -/

/-- An output. -/
def Ctl.pulse (c : Ctl) (q : Nat) : Pulse := kvGet Pulse.reset c.clock.pulses q

/-- An output replaced. -/
def Ctl.setPulse (c : Ctl) (q : Nat) (p : Pulse) : Ctl :=
  c.setClock { c.clock with pulses := kvSet Pulse.reset c.clock.pulses q p }

/-- Name of an output's ball. -/
def pulsePin (q : Nat) : String := ["PULSE0", "PULSE1", "PULSE2", "PULSE3"].getD q ""

/-- An output driven active or inactive at a polarity. -/
def Ctl.drivePulse (c : Ctl) (q : Nat) (low active : Bool) : Ctl := c.emit (.pin (pulsePin q) (active != low))

/-- The first instant of a run after local time `t`. -/
def Pulse.after (p : Pulse) (t : Nat) : Nat :=
  if t < p.start then p.start else p.start + ((t - p.start) / p.period + 1) * p.period

/-- A pulse starts at the instant it was due, and its end and the next start follow. -/
def Ctl.pulseStarts (c : Ctl) (q from_ state : Nat) : Ctl :=
  let p := c.pulse q
  let c1 := (c.setPulse q { p with endAt := some (from_ + p.width), next := p.next + p.period }).drivePulse q p.low true
  (c1.bump (Obj.pulses_emitted q)).putN (Obj.pulse_state q) state

/-- A pulse in progress ends: a ONE_SHOT is DONE, or stays LATE; it and the first pulse of a run ring PULSE_DONE. -/
def Ctl.pulseEnds (c : Ctl) (q : Nat) : Ctl :=
  let p := c.pulse q
  let c1 := c.drivePulse q p.low false
  if p.mode = 2 then
    let c2 := c1.setPulse q { p with endAt := none, begun := true }
    if p.begun then c2 else c2.ring (Src.PULSE_DONE q) q (Obj.pulse_state q)
  else
    let c2 := c1.setPulse q Pulse.reset
    (if c.nat (Obj.pulse_state q) = 4 then c2 else c2.putN (Obj.pulse_state q) 3).ring (Src.PULSE_DONE q) q (Obj.pulse_state q)

/-- A step's effect on an output: the clock already stands at its new value. -/
def Ctl.pulseStepped (c : Ctl) (offset : Int) (q : Nat) : Ctl :=
  let p := c.pulse q
  let t := c.localNs
  if p.mode = 2 then
    let c1 := if p.endAt.isSome then c.pulseEnds q else c
    c1.setPulse q { c1.pulse q with next := p.after t }
  else if p.mode = 1 then
    match p.endAt with
    | some e => c.setPulse q { p with endAt := some (((e : Nat) : Int) + offset).toNat }
    | none => if p.next ≤ t then c.pulseStarts q t 4 else c
  else c

/-- An output disarmed at once (R367). -/
def Ctl.disarm (c : Ctl) (q : Nat) : Ctl :=
  let p := c.pulse q
  ((if p.endAt.isSome then c.drivePulse q p.low false else c).setPulse q Pulse.reset).putN (Obj.pulse_state q) 0

/-- PERIODIC runs resume after SLEEP. -/
def Ctl.pulsesResume (c : Ctl) : Ctl :=
  forEach (List.range 4) (fun c q =>
    let p := c.pulse q
    if p.mode = 2 then (c.setPulse q { p with next := p.after c.localNs }).putN (Obj.pulse_state q) (if p.begun then 2 else 1)
    else c) c

/-! ### What follows the local clock (R53, R258, R363) -/

/-- The next whole multiple of a period in ms after the present. -/
def Ctl.nextSample (c : Ctl) (period : Nat) : Nat := (c.localNs / (period * ms) + 1) * (period * ms)

/-- Publish sets and frames of cameras resume at the next multiple of their period. -/
def Ctl.retime (c : Ctl) : Ctl :=
  let c1 := forEach (List.range 8) (fun c i =>
    let s := c.sess (i + 1)
    c.setSess (i + 1) { s with sets := s.sets.map fun e => (e.1, e.2.map fun x => { x with next := c.nextSample x.period }) }) c
  let index (v : List Byte) : Nat := c.localNs * viewRate v / 10 ^ 9
  forEach (List.range 4) (fun c k =>
    let x := c.cam k
    c.setCam k { x with monitorAt := index x.monitor, recordAt := index x.record }) c1

/-! ### Steps (R363) -/

/-- Values the clock holds: 48-bit seconds, in 2^-32 ns. -/
def clockSpan : Nat := 2 ^ 48 * 10 ^ 9 * 2 ^ 32

/-- The clock moved by `offset` ns; a value outside its 48-bit seconds is free (log entry 102). -/
def Ctl.movedClock (c : Ctl) (offset : Int) : Ctl :=
  let v : Int := (c.localSub : Int) + offset * 2 ^ 32
  if 0 ≤ v ∧ v < clockSpan then c.setClock { c.clock with sub := v.toNat, at_ := c.now }
  else (c.setClock { c.clock with sub := c.fresh clockSpan, at_ := c.now }).took

/-- An applied step: source 0 HOST, 1 PTP, 2 FIRST. -/
def Ctl.stepClock (c : Ctl) (offset : Int) (source : Nat) (forced : Bool) : Ctl :=
  let c1 := c.movedClock offset
  let c2 := if forced then (c1.bump Obj.steps_forced).putB Obj.time_stepped true else c1
  let c3 := c2.putO Obj.last_step
    (le 8 (uns 64 offset) ++ timeBytes c2.localNs ++ le 1 source ++ le 1 (if forced then 1 else 0) ++ zeros 4)
  let c4 := (forEach (List.range 4) (fun c q => c.pulseStepped offset q) c3.retime).ring Src.TIME_STEPPED 0xFFFF Obj.last_step
  if c4.nat Obj.clock_status = 0 then c4.putStatus (if c4.nat Obj.ptp_port_state = 9 then 2 else 1) else c4

/-- A refused step counts and rings. -/
def Ctl.refuseStep (c : Ctl) : Ctl := (c.bump Obj.steps_refused).ring Src.TIME_STEP_REFUSED 0xFFFF Obj.steps_refused

/-- A step of the host, judged: applied, or `none`. -/
def Ctl.hostStep (c : Ctl) (offset : Int) (force : Bool) : Option Ctl :=
  if c.nat Obj.clock_status = 0 then some (c.stepClock offset 2 true)
  else if offset.natAbs ≤ c.nat Obj.step_limit then some (c.stepClock offset 0 false)
  else if force then some (c.stepClock offset 0 true)
  else none

/-- A time command: done, or refused TIME_STEP_REFUSED. -/
def Ctl.timeCommand (c : Ctl) (key n : Nat) (offset : Int) (force : Bool) : Nat × Ctl :=
  match c.hostStep offset force with
  | some d => (St.STARTED, d.cmdNow key n Src.TIME_CMD_DONE)
  | none => refuse St.TIME_STEP_REFUSED c.refuseStep

/-- set_time: the clock's new value, whose fraction of a nanosecond is 0. -/
def ownSetTime (v : List Byte) (n : Nat) (c : Ctl) : Nat × Ctl :=
  let t : Nat := fld v 4 6 * 10 ^ 9 + fld v 0 4 % 2 ^ 30
  let whole := c.setClock { c.clock with sub := c.localSub / 2 ^ 32 * 2 ^ 32, at_ := c.now }
  let a := whole.timeCommand Obj.set_time n ((t : Int) - c.localNs) (fld v 10 1 == 1)
  if a.1 = St.STARTED then a else refuse a.1 c.refuseStep

/-- SET_TIME (R363). -/
def execSetTime (r : Req) (value : List Byte) (s : State) : Host.Outcome State Fault Refusal :=
  nextMach s (s.mach.ctlRow r Obj.set_time value (ownSetTime value))

/-- step_time. -/
def ownStepTime (v : List Byte) (n : Nat) (c : Ctl) : Nat × Ctl :=
  c.timeCommand Obj.step_time n (sfld v 0 8) (fld v 8 1 == 1)

/-- STEP_TIME (R363). -/
def execStepTime (r : Req) (value : List Byte) (s : State) : Host.Outcome State Fault Refusal :=
  nextMach s (s.mach.ctlRow r Obj.step_time value (ownStepTime value))

/-- accept_step: the servo's next step is forced; without a refused step it fails. -/
def ownAcceptStep (n : Nat) (c : Ctl) : Nat × Ctl :=
  if c.nat Obj.clock_status = 5 then
    (St.STARTED, (c.setPtp { c.clock.ptp with accept := true }).cmdNow Obj.accept_step n Src.TIME_CMD_DONE)
  else (St.STARTED, c.cmdNowFail Obj.accept_step n St.PTP_NO_STEP Src.TIME_CMD_DONE)

/-- ACCEPT_STEP (R363). -/
def execAcceptStep (r : Req) (arg : Nat) (s : State) : Host.Outcome State Fault Refusal :=
  nextMach s (s.mach.ctlRow r Obj.accept_step (le 1 arg) ownAcceptStep)

/-! ### Arming and edges (R367) -/

/-- Why arming is refused, OK for nothing. -/
def Ctl.armCode (c : Ctl) (q : Nat) : Nat :=
  if c.nat (Obj.pulse_period q) ≤ c.nat (Obj.pulse_width q) then St.PULSE_SETTINGS
  else if c.nat (Obj.pulse_mode q) = 1 ∧ c.nat (Obj.pulse_start q) ≤ c.localNs then St.PULSE_PAST
  else St.OK

/-- An output armed with the settings in force; with mode OFF nothing is armed (log entry 103). -/
def Ctl.arm (c : Ctl) (q : Nat) : Ctl :=
  let c1 := c.disarm q
  let mode := c.nat (Obj.pulse_mode q)
  let low := c.nat (Obj.pulse_polarity q) == 1
  if mode = 0 then c1
  else
    let p : Pulse := ⟨mode, c.nat (Obj.pulse_start q), c.nat (Obj.pulse_period q), c.nat (Obj.pulse_width q), low, 0, none, false⟩
    let c2 := c1.drivePulse q low false
    (c2.setPulse q { p with next := if mode = 1 then p.start else p.after c.localNs }).putN (Obj.pulse_state q) 1

/-- pulse_arm. -/
def ownPulseArm (q n : Nat) (c : Ctl) : Nat × Ctl :=
  if c.armCode q = St.OK then (St.STARTED, (c.arm q).cmdNow (Obj.pulse_arm q) n Src.TIME_CMD_DONE q)
  else refuse (c.armCode q) c

/-- PULSE_ARM (R367). -/
def execPulseArm (r : Req) (output arg : Nat) (s : State) : Host.Outcome State Fault Refusal :=
  if output < 4 then nextMach s (s.mach.ctlRow r (Obj.pulse_arm output) (le 1 arg) (ownPulseArm output)) else .next s

/-- PULSE_EDGE: due once the local clock has reached the end or the next start of an armed output. -/
def execPulseEdge (output : Nat) (s : State) : Host.Outcome State Fault Refusal :=
  let c := s.mach.ctl
  let p := c.pulse output
  if output < 4 ∧ c.awake = true ∧ p.mode ≠ 0 then
    match p.endAt with
    | some e => if e ≤ c.localNs then nextCtl s (c.pulseEnds output) else .next s
    | none => if p.next ≤ c.localNs then nextCtl s (c.pulseStarts output p.next 2) else .next s
  else .next s

/-! ### IEEE 1588 (R364 to R366) -/

/-- A data set is better than another under the default algorithm of IEEE 1588 (log entry 105). -/
def betterMaster (a b : Announce) : Bool :=
  let worth (x : Announce) : List Nat := [x.priority1, x.clockClass, x.accuracy, x.variance, x.priority2, x.grandmaster]
  let way (x : Announce) : List Nat := [x.steps, x.sender, x.senderPort, x.port]
  if a.grandmaster = b.grandmaster then decide (way a < way b) else decide (worth a < worth b)

/-- The ordinary clock's own data. -/
def Ctl.ownData (c : Ctl) : Announce :=
  ⟨0xFF, c.nat Obj.priority1, if c.on Obj.slave_only then 255 else 248, Config.ptpOwn 0 % 256, Config.ptpOwn 1 % 65536,
    c.nat Obj.priority2, Config.ptpOwn 2 % 2 ^ 64, 0, Config.ptpOwn 2 % 2 ^ 64, 1, 0⟩

/-- The port listens for a master, or is disabled. -/
def Ctl.ptpListen (c : Ctl) : Ctl :=
  (((c.setPtp { Ptp.reset with heardAt := c.now, seqs := c.clock.ptp.seqs }).putN Obj.ptp_parent_port 0xFF).putPortState
    (if c.on Obj.ptp_enable then 4 else 3))

/-- ptp_enable or slave_only written: without PTP, or with no master, the status is FREE. -/
def Ctl.ptpSet (c : Ctl) (key : Nat) : Ctl :=
  if key = Obj.ptp_enable then c.ptpListen.putRunStatus 1
  else if key = Obj.slave_only ∧ c.on Obj.slave_only = true ∧ c.nat Obj.ptp_port_state = 6 then c.ptpListen.putRunStatus 1
  else c

/-- At STANDBY: PTP listens where it is enabled, and PERIODIC runs resume. -/
def Ctl.timeUp (c : Ctl) : Ctl := (if c.on Obj.ptp_enable then c.ptpListen else c).pulsesResume

/-- The ordinary clock becomes MASTER. -/
def Ctl.becomeMaster (c : Ctl) : Ctl :=
  ((c.putN Obj.ptp_parent_port 0xFF).putO Obj.grandmaster_identity (be 8 (Config.ptpOwn 2))).putPortState 6

/-- The ordinary clock follows a master. -/
def Ctl.follow (c : Ctl) (a : Announce) : Ctl :=
  let same := c.nat Obj.ptp_port_state == 9 && c.nat Obj.ptp_parent_port == a.port &&
    c.oct Obj.grandmaster_identity == be 8 a.grandmaster
  let c1 := ((c.putN Obj.ptp_parent_port a.port).putO Obj.grandmaster_identity (be 8 a.grandmaster)).putI Obj.utc_offset a.utcOffset
  if same then c1 else ((c1.setPtp { c1.clock.ptp with good := 0 }).putPortState 9).putRunStatus 2

/-- An Announce in the best master clock algorithm. -/
def Ctl.announced (c : Ctl) (a : Announce) : Ctl :=
  let p := c.clock.ptp
  let takes := match p.best with
    | none => true
    | some b => (a.sender == b.sender && a.senderPort == b.senderPort && a.port == b.port) || betterMaster a b
  if a.sender = c.ownData.sender ∨ takes = false then c
  else
    let c1 := c.setPtp { p with best := some a, heardAt := c.now }
    if c.on Obj.slave_only = false ∧ betterMaster c.ownData a = true then (c1.becomeMaster).putRunStatus 1 else c1.follow a

/-- PTP_ANNOUNCE (R364): an Announce of the domain on a field port whose link is up. -/
def execPtpAnnounce (a : Announce) (s : State) : Host.Outcome State Fault Refusal :=
  let c := s.mach.ctl
  if c.awake = true ∧ c.on Obj.ptp_enable = true ∧ a.port < 2 then nextCtl s (c.announced a) else .next s

/-- 2^l seconds in ns, for l of -9 or more. -/
def logInterval (l : Int) : Nat := 10 ^ 9 * 2 ^ (l + 9).toNat / 512

/-- ANNOUNCE_TIMEOUT (R366): due once announce_timeout intervals have passed. -/
def execAnnounceTimeout (s : State) : Host.Outcome State Fault Refusal :=
  let c := s.mach.ctl
  let p := c.clock.ptp
  let state := c.nat Obj.ptp_port_state
  if c.awake = true ∧ (state = 4 ∨ state = 9) ∧
      p.heardAt + c.nat Obj.announce_timeout * logInterval (c.int Obj.log_announce_interval) ≤ c.now then
    let c1 := (c.setPtp { p with best := none, heardAt := c.now, good := 0 }).putN Obj.ptp_parent_port 0xFF
    let c2 := if c.on Obj.slave_only then c1.putPortState 4 else c1.becomeMaster
    nextCtl s (if state = 9 then c2.putRunStatus 4 else c2)
  else .next s

/-- The addend as the servo adjusts it: within 500 ppm, by how much is open (log entry 104). -/
def Ctl.slew (c : Ctl) : Ctl :=
  let c1 := c.setClock { c.clock with sub := c.localSub, at_ := c.now }
  (c1.putI Obj.frequency_adjust ((c.fresh 1000001 : Nat) - 500000)).took

/-- The servo follows an offset within the slew window. -/
def Ctl.servoSlews (c : Ctl) (offset : Int) : Ctl :=
  let good := if offset.natAbs < c.nat Obj.locked_threshold then min 16 (c.clock.ptp.good + 1) else 0
  (c.setPtp { c.clock.ptp with good := good }).slew.putRunStatus (if good = 16 then 3 else 2)

/-- The servo steps by -offset, judged under R363. -/
def Ctl.servoSteps (c : Ctl) (offset : Int) : Ctl :=
  let p := c.clock.ptp
  let c1 := c.setPtp { p with good := 0, accept := false }
  if c.nat Obj.clock_status = 0 then (c1.stepClock (-offset) 2 true).slew
  else if p.accept then (c1.stepClock (-offset) 1 true).slew.putRunStatus 2
  else if offset.natAbs ≤ c.nat Obj.step_limit then (c1.stepClock (-offset) 1 false).slew.putRunStatus 2
  else (c1.putRunStatus 5).refuseStep

/-- A Sync's offset and mean path delay in SLAVE state. -/
def Ctl.synced (c : Ctl) (offset delay : Int) : Ctl :=
  let c1 := (c.putI Obj.offset_from_master offset).putI Obj.mean_path_delay delay
  if offset.natAbs ≤ c.nat Obj.slew_window ∧ offset.natAbs ≤ c.nat Obj.step_limit then c1.servoSlews offset else c1.servoSteps offset

/-- PTP_SYNC (R366). -/
def execPtpSync (offset delay : Int) (s : State) : Host.Outcome State Fault Refusal :=
  let c := s.mach.ctl
  if c.awake = true ∧ c.nat Obj.ptp_port_state = 9 then nextCtl s (c.synced offset delay) else .next s

/-- A PTP message of `len` bytes sent on both field ports whose links are up. -/
def Ctl.sendPtp (c : Ctl) (message : String) (len seq : Nat) (fields : List Int) : Ctl :=
  let wire := max 64 (len + if c.nat Obj.ptp_transport = 0 then 46 else 18)
  forEach (List.range 2) (fun c p => if c.portUp p then c.sendOut p wire (.ptp p message seq fields) else c) c

/-- The next sequence of a message type. -/
def Ctl.ptpSeq (c : Ctl) (type : Nat) : Nat := kvGet 0 c.clock.ptp.seqs type

/-- PTP_DELAY_REQ (R364): due at the delay request interval in SLAVE state. -/
def execPtpDelayReq (s : State) : Host.Outcome State Fault Refusal :=
  let c := s.mach.ctl
  let p := c.clock.ptp
  if c.awake = true ∧ c.nat Obj.ptp_port_state = 9 ∧ p.delayAt + logInterval (c.int Obj.log_delay_req_interval) ≤ c.now then
    nextCtl s ((c.setPtp { p with delayAt := c.now, seqs := kvSet 0 p.seqs 1 ((c.ptpSeq 1 + 1) % 65536) }).sendPtp "DELAY_REQ" 44 (c.ptpSeq 1) [])
  else .next s

/-- Sync and the Follow_Up that gives its time: the instant of leaving is open within 13 us (log entry 105). -/
def Ctl.masterSync (c : Ctl) : Ctl :=
  let p := c.clock.ptp
  let at_ : Int := (c.localNs + c.fresh 13005 : Nat)
  let c1 := c.took.setPtp { p with syncAt := c.now, seqs := kvSet 0 p.seqs 0 ((c.ptpSeq 0 + 1) % 65536) }
  (c1.sendPtp "SYNC" 44 (c.ptpSeq 0) []).sendPtp "FOLLOW_UP" 44 (c.ptpSeq 0) [at_]

/-- PTP_MASTER_SYNC (R364): due at the Sync interval in MASTER state. -/
def execPtpMasterSync (s : State) : Host.Outcome State Fault Refusal :=
  let c := s.mach.ctl
  if c.awake = true ∧ c.nat Obj.ptp_port_state = 6 ∧ c.clock.ptp.syncAt + logInterval (c.int Obj.log_sync_interval) ≤ c.now then
    nextCtl s c.masterSync
  else .next s

/-- What the ordinary clock announces. -/
def announceFields (a : Announce) : List Int :=
  [a.priority1, a.clockClass, a.accuracy, a.variance, a.priority2, a.grandmaster, a.steps, a.utcOffset]

/-- PTP_MASTER_ANNOUNCE (R364): due at the Announce interval in MASTER state. -/
def execPtpMasterAnnounce (s : State) : Host.Outcome State Fault Refusal :=
  let c := s.mach.ctl
  let p := c.clock.ptp
  if c.awake = true ∧ c.nat Obj.ptp_port_state = 6 ∧ p.announceAt + logInterval (c.int Obj.log_announce_interval) ≤ c.now then
    nextCtl s ((c.setPtp { p with announceAt := c.now, seqs := kvSet 0 p.seqs 11 ((c.ptpSeq 11 + 1) % 65536) }).sendPtp "ANNOUNCE" 64
      (c.ptpSeq 11) (announceFields c.ownData))
  else .next s

end Sys2Proof.Machine
end

