-- ==== Sys2Proof/Machine/Lifecycle.lean ====
section
/-! DEFINITION. Resets, start-up, the life cycle and the attic's commands and writes (chapter 16, R55, R56, R142). -/

namespace Sys2Proof.Machine

/-! ### Resets (R416, R417, R432) -/

/-- The place of the slot a record is programmed into. -/
def Ctl.writePlace (c : Ctl) (region kind target : Nat) : Nat :=
  (slotPlace region kind target (1 - (c.latestSlot region kind target).getD 1)).1

/-- A record whose programming is cut short leaves its slot without a header (R425). -/
def Ctl.cutWrite (c : Ctl) : Ctl :=
  let part (region kind target : Nat) (data : List Byte) : Ctl :=
    c.setSlot (c.writePlace region kind target) (List.replicate 40 0xFF ++ data)
  match c.attic.jobs with
  | .record region kind target data _ :: _ => part region kind target data
  | .keys _ _ :: _ => part regionKeys 0 0 (c.keysData (c.nextSeq regionKeys 0 0))
  | .life done :: _ =>
    match c.life.moving with
    | some (from_, target) => part regionLifecycle 0 0 (c.lifeData target from_ done)
    | none => c
  | _ => c

/-- RESET_N: a level low for 100 ns is a reset in whatever the controller does, SLEEP included. -/
def execResetN (s : State) : Host.Outcome State Fault Refusal := nextMach s ((s.mach.onCtl Ctl.cutWrite).resetTo 2)

/-- reset_controller: refused with tickets unless forced. -/
def ownResetController (arg n : Nat) (c : Ctl) : Nat × Ctl :=
  if arg = 0 ∧ c.ticketed = true then refuse St.RESET_TICKETS c else (St.STARTED, c.cmdRun Obj.reset_controller n)

/-- An accepted reset_controller resets 1 ms after its response. -/
def Mach.resetIfAsked (m : Mach) : Mach :=
  if m.ctl.awake && m.ctl.cmdBusy Obj.reset_controller then
    ((m.onCtl fun c => { c with now := c.now + ms }).onCtl Ctl.cutWrite).resetTo 3
  else m

/-- RESET_CONTROLLER. -/
def execResetController (r : Req) (arg : Nat) (s : State) : Host.Outcome State Fault Refusal :=
  nextMach s (s.mach.ctlRow r Obj.reset_controller (le 1 arg) (ownResetController arg)).resetIfAsked

/-! ### Start-up (R418 to R421) -/

/-- A failed booth check: every value of the booth starts from zero (R420). -/
def Ctl.boothZero (c : Ctl) : Ctl :=
  let keep (k : Nat) : Bool := !(boothHolds k)
  { c with dict := c.dict.filter fun e => keep e.1, clock := ⟨0, c.now, c.clock.ptp, c.clock.pulses⟩, ydp := { c.ydp with lockoutEnd := none },
           pwr := { c.pwr with powered := 0, poweredAt := c.now, xtal := [], xtalOwed := false, xtalGood := false } }

/-- The hard-latched sources the booth holds, with their causes. -/
def Ctl.heldSources (c : Ctl) : List (Nat × Nat) :=
  ((List.range 192).filter fun f => hardLatched f && c.isLatched f).map fun f => (f, c.nat (Obj.source_cause f))

/-- Step 1: the hard-latched set is raised again, then a failed booth or fuse check. -/
def Ctl.raiseHeld (c : Ctl) (fusesOk boothOk : Bool) : Ctl :=
  let hs := c.heldSources
  let c1 := forEach hs (fun c x => c.putN (Obj.source_cause x.1) 0) c
  let c2 := c1.latchSources hs
  let c3 := if boothOk then c2 else c2.raiseFault faultBoothIntegrity
  if fusesOk then c3
  else ((c3.putB Obj.fuse_integrity false).putN Obj.device_key_state 1).raiseFault faultFuseIntegrity

/-- Step 3: a REF25 input that runs is selected and the control PLL is locked to it; the collector samples (R467). -/
def Ctl.startClocks (c : Ctl) : Ctl :=
  let i := if c.refRuns 0 then 0 else 1
  let c1 := (c.putN Obj.ref_selected i).putN (Obj.pll_state 0) 2
  c1.latchSources c1.railsPersist

/-- Step 4b: the attic read, the powered seconds of a new booth, a transition resumed, the life cycle derived, the persistent record applied; without the device key no mac can be judged. -/
def Ctl.readAttic (c : Ctl) (a : AtticFound) (fusesOk : Bool) (cause : Nat) : Ctl :=
  let c0 := (c.probeAttic a).countBad
  let c1 := if cause = 1 then c0.restorePowered else c0
  let c2 := c1.setLife { c1.life with transitions := (c1.lifeRecord.map fun d => fld d 4 4).getD c1.life.transitions, moving := none }
  let c3 := if fusesOk then c2.resumeLife else c2
  let c4 := if fusesOk then (c3.putN Obj.lifecycle_state c3.lifeState).loadKeys else c3.putN Obj.lifecycle_state 2
  (if cause = 5 then c4.applySaved tableLost else c4.applySaved fun _ => true).showSaved

/-- Slots that SLEEP kept are OPEN again: no ticket can be outstanding (R61, R405). -/
def Ctl.openSlots (c : Ctl) : Ctl :=
  forEach (List.range 256) (fun c n =>
    if c.dict.any fun e => e.1 / 256 == 0x5000 + n && isConfig e.1 then c.putN (Obj.slot_state n) 1 else c) c

/-- The field ports' addresses and the UDP port of YDP in force from this start-up on (R360, R41). -/
def Ctl.netInForce (c : Ctl) : Ctl :=
  c.setNet { Net.reset with mac := some (c.oct Obj.mac_address), ip := some (c.oct Obj.ipv4_address),
                             mask := some (c.oct Obj.ipv4_netmask), udp := c.nat Obj.ydp_udp_port }

/-- What takes effect of the host port's settings at a reset (R370, 2600:04 to 06). -/
def Ctl.hostInForce (c : Ctl) : Ctl :=
  { c with host := { c.host with bar2 := c.nat Obj.bar2_size, subVendor := c.nat Obj.subsystem_vendor, subId := c.nat Obj.subsystem_id } }

/-- Step 5b and what the configuration puts in force. -/
def Ctl.restoreRest (c : Ctl) (cause : Nat) : Ctl :=
  let c1 := ((c.restoreCare.restoreCals).putInForce.netInForce).hostInForce
  let c2 := if cause = 5 then c1.openSlots else c1
  c2.restoreUsage (cause == 5)

/-- Start-up but for the cellar's training and wipe. -/
def Ctl.startUp (c : Ctl) (a : AtticFound) (fusesOk boothOk : Bool) : Ctl :=
  let cause := c.life.cause
  let kept := if boothOk then c else c.boothZero
  let c1 := (kept.putN Obj.reset_cause cause)
  let c2 := if cause = 5 then c1 else c1.bump Obj.resets
  let c3 := ((c2.raiseHeld fusesOk boothOk).startClocks.readAttic a fusesOk cause).restoreRest cause
  let c4 := { c3 with phase := .released, pwr := { c3.pwr with rails := 9 } }
  ((c4.putN (Obj.mc_state 0) 1).putN (Obj.mc_state 1) 1).needRide rideCellar

/-- The exponents of READ_VOUT from the VOUT_MODE of each configured regulator, read once at start-up (R410). -/
def Ctl.voutModes (c : Ctl) (modes : List Nat) : Ctl :=
  { c with pwr := { c.pwr with voutExp := (modes.zipIdx.filter fun e => c.nat (Obj.pmbus_address e.2) != 0).foldl
                                 (fun m e => kvSet (-12) m e.2 (twos 5 e.1)) [] } }

/-- STARTUP: rails up, a REF25 input VALID; the cellar's training and wipe remain until STANDBY (R418, R407). -/
def execStartup (attic : AtticFound) (fusesOk boothOk : Bool) (voutModes : List Nat) (s : State) : Host.Outcome State Fault Refusal :=
  let c := s.mach.ctl
  if (c.phase = .held ∨ c.phase = .fresh) ∧ 8 ≤ c.pwr.rails ∧ (c.refRuns 0 || c.refRuns 1) = true then
    nextMach s { ctl := (c.startUp attic fusesOk boothOk).voutModes voutModes, cellar := [] }
  else .next s

/-- Step 6: STANDBY; STARTUP rings, after SLEEP WAKE too; a blank attic is formatted now (R418, R407, R427, R399). -/
def Ctl.standby (c : Ctl) : Ctl :=
  let c1 := ({ c with phase := .up }.putN Obj.startup_time ((c.now - c.life.startedAt) / 1000)).setPower 1
  let c2 := c1.ring Src.STARTUP 0xFFFF Obj.reset_cause
  let c3 := if c.life.cause = 5 then c2.ring Src.WAKE 0xFFFF Obj.wake_cause else c2
  let c4 := if c3.pwr.xtalOwed then
      (c3.setPwr { c3.pwr with xtalOwed := false }).ring Src.XTAL_FAIL 0xFFFF Obj.booth_clock else c3
  let c5 := if c4.nat Obj.attic_state = 1 then c4.atticWrite (.format 0) else c4
  (forEach (List.range 16) Ctl.sampleLim c5).bringUp.timeUp

/-! ### Commands of the attic (R55, R56, R142, R427) -/

/-- An attic command: refused while the attic is not READY, else its write is queued. -/
def Ctl.atticCommand (c : Ctl) (cmd n : Nat) (j : AtticJob) : Nat × Ctl :=
  if !c.atticReady then refuse St.ATTIC_NOT_READY c else (St.STARTED, (c.cmdRun cmd n).atticWrite j)

/-- save_persistent: the values of the cycle of acceptance. -/
def ownSavePersistent (n : Nat) (c : Ctl) : Nat × Ctl :=
  c.atticCommand Obj.save_persistent n (.record regionPersistent 0 0 c.persistData Obj.save_persistent)

/-- SAVE_PERSISTENT. -/
def execSavePersistent (r : Req) (arg : Nat) (s : State) : Host.Outcome State Fault Refusal :=
  nextMach s (s.mach.ctlRow r Obj.save_persistent (le 1 arg) ownSavePersistent)

/-- RESTORE_DEFAULTS. -/
def execRestoreDefaults (r : Req) (arg : Nat) (s : State) : Host.Outcome State Fault Refusal :=
  nextMach s (s.mach.ctlRow r Obj.restore_defaults (le 1 arg) fun n c =>
    c.atticCommand Obj.restore_defaults n (.void regionPersistent Obj.restore_defaults))

/-- SAVE_CARE: every entry as 3500 shows it in the cycle of acceptance. -/
def execSaveCare (r : Req) (arg : Nat) (s : State) : Host.Outcome State Fault Refusal :=
  nextMach s (s.mach.ctlRow r Obj.save_care (le 1 arg) fun n c =>
    c.atticCommand Obj.save_care n (.record regionCare 0 0 (careTable c.care.written) Obj.save_care))

/-- format_attic: refused while READY. -/
def ownFormatAttic (n : Nat) (c : Ctl) : Nat × Ctl :=
  if c.atticReady then refuse St.ATTIC_READY c
  else (St.STARTED, ((c.cmdRun Obj.format_attic n).setAttic 1).atticWrite (.format Obj.format_attic))

/-- FORMAT_ATTIC. -/
def execFormatAttic (r : Req) (arg : Nat) (s : State) : Host.Outcome State Fault Refusal :=
  nextMach s (s.mach.ctlRow r Obj.format_attic (le 1 arg) ownFormatAttic)

/-! ### Life-cycle transitions (R430, R431) -/

/-- The pair of states is in R430. -/
def lifeStep (from_ target : Nat) : Bool :=
  (from_ == 0 && target == 1) || (from_ == 1 && target == 2) || (from_ == 2 && target == 3) || (from_ == 3 && target == 2) ||
    (from_ != 4 && target == 4)

/-- Something is under way that a transition must not meet. -/
def Ctl.lifeActive (c : Ctl) : Bool :=
  c.ticketed || c.nat Obj.admission_state == 1 || c.cmdBusy Obj.cal_flat_field || c.cmdBusy Obj.cal_registration ||
    (List.range 32).any (fun l => c.cmdBusy (Obj.calibrate_slicer l)) || !((List.range 8).all c.standing)

/-- The checks of R431, in order. -/
def Ctl.lifeCode (c : Ctl) (v : List Byte) : Nat :=
  let from_ := c.nat Obj.lifecycle_state
  let target := fld v 0 1
  if lifeStep from_ target = false ∨ fld v 1 3 ≠ 0 then St.LIFECYCLE_STEP
  else if fld v 4 4 ≠ Config.deviceId % 2 ^ 32 then St.LIFECYCLE_CONFIRM
  else if c.lifeActive then St.LIFECYCLE_ACTIVE
  else if !c.atticReady then St.ATTIC_NOT_READY
  else if target = 1 ∧ c.nat Obj.service_key_state ≠ 1 then St.NO_SERVICE_KEY
  else if (wiped from_ target).contains regionUsage ∧ c.nat Obj.usage_tail < c.nat Obj.usage_head then St.USAGE_UNCOLLECTED
  else St.OK

/-- The open period of a transition that keeps the usage region is closed first, as close_period does (R479). -/
def Ctl.closeForMove (c : Ctl) (from_ target : Nat) : Ctl :=
  if (wiped from_ target).contains regionUsage || c.storeFull || c.use.closing.isSome then c else c.closePeriod

/-- lifecycle_transition: then the PENDING record, the wipe and fuse, the DONE record wait for the attic. -/
def ownLifecycle (v : List Byte) (n : Nat) (c : Ctl) : Nat × Ctl :=
  if c.lifeCode v ≠ St.OK then refuse (c.lifeCode v) c
  else
    let target := fld v 0 1
    let c1 := (c.cmdRun Obj.lifecycle_transition n).putN Obj.lifecycle_pending target
    let c2 := c1.setLife { c1.life with moving := some (c.nat Obj.lifecycle_state, target), transitions := c1.life.transitions + 1 }
    (St.STARTED, (c2.closeForMove (c.nat Obj.lifecycle_state) target).startMove)

/-- Sessions close once an accepted transition's response has left (R42). -/
def Mach.closeIfMoving (m : Mach) : Mach := if m.ctl.life.moving.isSome then m.onCtl Ctl.shutAll else m

/-- LIFECYCLE_TRANSITION. -/
def execLifecycleTransition (r : Req) (value : List Byte) (s : State) : Host.Outcome State Fault Refusal :=
  nextMach s (s.mach.ctlRow r Obj.lifecycle_transition value (ownLifecycle value)).closeIfMoving

/-! ### Attic writes ending (R425, R427) -/

/-- What follows a record committed in a region. -/
def Ctl.regionWritten (c : Ctl) (region : Nat) : Ctl :=
  if region = regionPersistent then c.showSaved
  else if region = regionCalibration then c.showCals
  else if region = regionCare then
    (match c.validRecord regionCare 0 0 with
      | some b => c.putN Obj.care_saved_time (recordNs b)
      | none => c)
  else c

/-- The data of a DIRECTORY record. -/
def directoryData : List Byte := [1, 0, 0, 0] ++ zeros 12

/-- An attic formatted: every slot erased, a DIRECTORY record, READY; its usage ring is empty. -/
def Ctl.formatted (c : Ctl) : Ctl :=
  let c1 := ({ c with attic := { c.attic with slots := [], seqs := [] } }.commitRecord regionDirectory 0 0 directoryData).setAttic 2
  let c2 := (c1.putN Obj.usage_head 1).putN Obj.usage_tail 1
  ((c2.showRegions.showSaved).showCals).showStore

/-- A transition that cannot go on: its command fails, its other writes are dropped. -/
def Ctl.moveFails (c : Ctl) : Ctl :=
  let js := c.attic.jobs.filter fun j => match j with
    | .life _ => false
    | .wipe => false
    | _ => true
  let c1 := ((c.setJobs js).atticFails).putN Obj.lifecycle_pending 0xFF
  let n := c1.cmdStarter Obj.lifecycle_transition
  (c1.setLife { c1.life with moving := none }).putN Obj.lifecycle_transition (cmdWord 3 n St.ATTIC_WRITE)

/-- A write ends; `true` where the controller resets with it. -/
def Ctl.jobDone (c : Ctl) (j : AtticJob) (rest : List AtticJob) (ok : Bool) : Ctl × Bool :=
  let d := c.setJobs rest
  match j with
  | .record region kind target data cmd =>
    if ok then (((d.commitRecord region kind target data).regionWritten region).atticEnds cmd true, false)
    else (d.atticFails.atticEnds cmd false, false)
  | .void region cmd =>
    if ok then
      let v := forEach (targetsOf region) (fun c t => c.voidLatest region t.1 t.2) d
      (((v.showRegion region).regionWritten region).atticEnds cmd true, false)
    else (d.atticFails.atticEnds cmd false, false)
  | .format cmd => if ok then (d.formatted.atticEnds cmd true, false) else ((d.atticFails.setAttic 4).atticEnds cmd false, false)
  | .keys change cmd => if ok then ((d.commitKeys change).atticEnds cmd true, false) else (d.atticFails.atticEnds cmd false, false)
  | .usage content => (c.usageWritten content rest ok, false)
  | .life done =>
    match c.life.moving with
    | some (from_, target) =>
      if ok then (d.commitRecord regionLifecycle 0 0 (d.lifeData target from_ done), done) else (c.moveFails, false)
    | none => (d, false)
  | .wipe =>
    match c.life.moving with
    | some (from_, target) => if ok then ((d.eraseRegions (wiped from_ target)).burn from_ target, false) else (c.moveFails, false)
    | none => (d, false)

/-- ATTIC_WRITE_DONE: the write in service ends. -/
def execAtticWriteDone (ok : Bool) (s : State) : Host.Outcome State Fault Refusal :=
  let c := s.mach.ctl
  match c.attic.jobs with
  | j :: rest =>
    let a := c.jobDone j rest ok
    let m : Mach := { s.mach with ctl := a.1 }
    nextMach s (if a.2 then m.resetTo 4 else m)
  | [] => .next s

/-- A slot of regions 1 to 6 that holds bytes but no committed record. -/
def strayAt (e : Nat × List Byte) : Bool :=
  decide (e.1 < 0x400000 ∨ 0x800000 ≤ e.1) && slotMagic e.2 != 0x5241 && e.2.any fun b => b != 0xFF

/-- The sequence of a VOID record stays known when its slot is erased (R424). -/
def Ctl.noteSeq (c : Ctl) (region kind target : Nat) : Ctl :=
  match c.latestSlot region kind target with
  | some s =>
    let q := recordSeq (c.slotBytes (slotPlace region kind target s).1)
    { c with attic := { c.attic with seqs := kvSet 0 c.attic.seqs (seqKey region kind target) q } }
  | none => c

/-- ATTIC_BACKGROUND_ERASE: after STANDBY; a slot being written is not stray. -/
def execAtticBackgroundErase (s : State) : Host.Outcome State Fault Refusal :=
  let c := s.mach.ctl
  if c.phase = .up ∧ c.atticReady = true then
    let c1 := forEach ([1, 2, 3, 4, 5, 6].map fun r => (targetsOf r).map fun t => (r, t.1, t.2)).flatten
      (fun c t => c.noteSeq t.1 t.2.1 t.2.2) c
    let c2 := { c1 with attic := { c1.attic with slots := c1.attic.slots.filter fun e => !strayAt e } }
    nextCtl s c2.showRegions
  else .next s

end Sys2Proof.Machine
end

