-- ==== Sys2Proof/Machine/Pack.lean ====
section
/-! DEFINITION. The packer's commands (R321 to R329): the store, items, checks of crates, crops, captures, the fire record. -/

namespace Sys2Proof.Machine

/-! ### The store (R321) -/

/-- The free span of the store in which the next item starts: the one after the last item if `need` fits, else the one at the start
of the store, else the larger. -/
def Ctl.storeSpan (c : Ctl) (need : Nat) : Nat × Nat :=
  let size := c.nat Obj.store_bytes
  let r := c.recorder
  match r.store with
  | [] => if need ≤ size - r.next then (r.next, size - r.next) else (0, size)
  | (f, _) :: _ =>
    if r.next ≤ f then (r.next, f - r.next)
    else if need ≤ size - r.next ∨ f ≤ size - r.next ∧ f < need then (r.next, size - r.next)
    else (0, f)

/-- Bytes of items the store holds. -/
def Ctl.storeUsed (c : Ctl) : Nat := (c.recorder.store.map (·.2)).sum

/-- store_free shown. -/
def Ctl.showFree (c : Ctl) : Ctl := c.putN Obj.pack_store_free (c.nat Obj.store_bytes - c.storeUsed)

/-- The packer writes: the store and the item ring have bases. -/
def Ctl.packerOn (c : Ctl) : Bool := c.nat Obj.store_base != 0 && c.nat Obj.item_ring_base != 0

/-- The item ring has room. -/
def Ctl.itemRoom (c : Ctl) : Bool :=
  let n := c.nat Obj.item_entries
  decide (ringCount n (c.nat Obj.item_head) (c.nat Obj.item_tail) < n)

/-- The cellar takes the packer's writes. -/
def Ctl.packerMay (c : Ctl) : Bool := !c.packerOn || (c.itemRoom && c.cellarUp && !c.frozen 0 && !c.frozen 1)

/-! ### Items (R321, R322) -/

/-- What an item is made of: kind, flags so far, ticket, bar or camera of its ring entry; bands, crate columns, lines per band, mask or
camera, lines and columns of its table; crates by entry, how many entries; then what follows the entries: the first part (line map
or row headers), the group maps and how many, the unfired entries. -/
structure ItemPlan where
  kind : Nat
  flags : Nat
  ticket : Nat
  unit : Nat
  bands : Nat
  columns : Nat
  bandLines : Nat
  mask : Nat
  lines : Nat
  width : Nat
  entries : Nat
  crates : Kv (List Byte)
  aux : List Byte
  maps : List Byte
  mapCount : Nat
  unfired : List Byte
  deriving DecidableEq, Repr

/-- Offset of the part after the entries. -/
def ItemPlan.auxOffset (p : ItemPlan) : Nat := 64 + 8 * p.entries

/-- Offset of the group maps. -/
def ItemPlan.mapsOffset (p : ItemPlan) : Nat := p.auxOffset + p.aux.length

/-- Offset of the first crate. -/
def ItemPlan.cratesOffset (p : ItemPlan) : Nat := roundUp (p.mapsOffset + p.maps.length + p.unfired.length) 64

/-- Crates placed one after another at multiples of 64 as far as they fit: (entry, offset, bytes) each, and the end. -/
def placeCrates (room : Nat) : List (Nat × List Byte) → Nat → List (Nat × Nat × List Byte) × Nat
  | [], o => ([], o)
  | (e, b) :: r, o =>
    if room < roundUp (o + b.length) 64 then ([], o)
    else
      let t := placeCrates room r (roundUp (o + b.length) 64)
      ((e, o, b) :: t.1, t.2)

/-- The packer table (R322). -/
def ItemPlan.table (p : ItemPlan) : List Byte :=
  let fire := p.kind == 1
  [0x50, 0x54, 1] ++ le 1 p.kind ++ le 2 p.bands ++ le 2 p.columns ++ le 2 p.bandLines ++ le 1 p.mask ++ [0] ++ le 4 p.lines ++
    le 4 p.width ++ le 4 p.auxOffset ++ le 4 (if fire then p.mapsOffset else 0) ++ le 2 p.mapCount ++
    le 2 (p.unfired.length / 12) ++ le 4 p.ticket ++ zeros 28

/-- An entry in the form of R101: bytes and address of a crate. -/
def crateEntry (bytes address : Nat) : Nat := bytes * 2 ^ 32 + address / 64

/-- The bytes of an item that starts at an address, with the crates that were placed. -/
def ItemPlan.bytes (p : ItemPlan) (address : Nat) (placed : List (Nat × Nat × List Byte)) (size : Nat) : List Byte :=
  let entry (i : Nat) : Nat := match placed.find? fun x => x.1 == i with
    | some x => crateEntry x.2.2.length (address + x.2.1)
    | none => 0
  let head := p.table ++ ((List.range p.entries).map fun i => le 8 (entry i)).flatten ++ p.aux ++ p.maps ++ p.unfired
  placed.foldl (fun b x => splice b x.2.1 x.2.2) (padTo size head)

/-- An entry of the item ring (R321). -/
def ItemPlan.ringEntry (p : ItemPlan) (flags address size ns : Nat) : List Byte :=
  le 1 p.kind ++ le 1 flags ++ [0, 0] ++ le 4 p.ticket ++ le 8 address ++ le 4 size ++ le 1 p.unit ++ [0, 0, 0] ++ timeBytes ns ++
    zeros 30

/-- Page lines of a recorded band that were not written (R327). -/
def ItemPlan.linesLost (p : ItemPlan) (placed : List (Nat × Nat × List Byte)) : Nat :=
  if p.kind ≠ 1 then 0
  else
    let per := max 1 (p.entries / max 1 p.bands)
    (((List.range p.bands).filter fun k =>
      p.crates.any fun e => e.1 / per == k && !placed.any fun x => x.1 == e.1).map fun k => min 8 (p.lines - 8 * k)).sum

/-- An item completed: written to the store as far as it has space, entered in the ring, PACK_ITEM rung. -/
def Mach.postItem (m : Mach) (p : ItemPlan) : Mach :=
  let c := m.ctl
  let dropped (m : Mach) : Mach := m.onCtl fun c => c.bump Obj.items_dropped
  if !c.packerOn then dropped m
  else
    let full := (placeCrates (2 ^ 60) p.crates p.cratesOffset).2
    let span := c.storeSpan full
    if span.2 < p.cratesOffset then dropped (m.onCtl fun c => c.ring Src.PACK_STORE_FULL 0xFFFF Obj.pack_store_free)
    else
      let a := placeCrates span.2 p.crates p.cratesOffset
      let short := a.1.length < p.crates.length
      let flags := p.flags ||| (if short then 5 else 0)
      let address := c.nat Obj.store_base + span.1
      let r := c.recorder
      let n := c.nat Obj.item_entries
      let head := c.nat Obj.item_head
      let c1 := c.useCellar.setRec { r with store := r.store ++ [(span.1, a.2)], next := span.1 + a.2 }
      let c2 := (c1.showFree.putN Obj.item_head ((head + 1) % (2 * n))).bumpBy Obj.fire_lines_lost (p.linesLost a.1)
      let c3 := if short then c2.ring Src.PACK_STORE_FULL 0xFFFF Obj.pack_store_free else c2
      let mem := memWrite m.cellar address (p.bytes address a.1 a.2)
      ⟨c3.ring Src.PACK_ITEM 0xFFFF Obj.item_head,
        memWrite mem (c.nat Obj.item_ring_base + head % n * 64) (p.ringEntry flags address a.2 c.localNs)⟩

/-- Items freed from the store when item_tail passes their entries. -/
def Ctl.freeItems (c : Ctl) (k : Nat) : Ctl :=
  let r := c.recorder
  (c.setRec { r with store := r.store.drop k }).showFree

/-! ### Jobs: crops and captures (R328, R329) -/

/-- The plan of a job's item. -/
def PackJob.plan (j : PackJob) : ItemPlan :=
  ⟨j.kind, if j.rowsLost then 1 else 0, j.ticket, j.camera, (j.rows + 255) / 256, (j.rowBytes + 255) / 256, 256, j.camera, j.rows,
    j.rowBytes, j.entries, j.crates, j.headers, [], 0, []⟩

/-- A job has no crate held. -/
def Recorder.jobDone (r : Recorder) (n : Nat) : Bool := !r.held.any fun h => !h.fire && h.owner == n

/-- A job whose crates are all settled is posted; a capture is DONE. -/
def Mach.finishJob (m : Mach) (n : Nat) : Mach :=
  let r := m.ctl.recorder
  match r.jobs.find? fun j => j.number == n with
  | none => m
  | some j =>
    if !r.jobDone n then m
    else
      let m1 := (m.onCtl fun c => c.setRec { r with jobs := r.jobs.filter fun x => x.number != n }).postItem j.plan
      if j.kind = 3 ∧ m1.ctl.cmdBusy Obj.capture = true then m1.onCtl fun c => c.cmdDone Obj.capture Src.REC_CMD_DONE else m1

/-- A crate of a job: written STORED at once, or held. -/
def Recorder.packCrate (r : Recorder) (job entry band : Nat) (rows : List (List Byte)) : Recorder :=
  let payload := packedPayload rows
  if storedAtOnce rows payload then
    { r with jobs := r.jobs.map fun j =>
        if j.number = job then { j with crates := kvSet [] j.crates entry (storedCrate rows) } else j }
  else { r with held := r.held ++ [⟨false, job, entry, band, rows, payload⟩] }

/-- Rows of a crate cut from an image of rows of bytes. -/
def crateCut (image : List (List Byte)) (k j : Nat) : List (List Byte) :=
  (List.range 256).map fun i => padTo 256 (((image.getD (256 * k + i) []).drop (256 * j)).take 256)

/-- An image packed as a job. -/
def Mach.packImage (m : Mach) (kind camera ticket : Nat) (lost : Bool) (image : List (List Byte)) (headers : List Byte)
    (rowBytes : Nat) : Mach :=
  let r := m.ctl.recorder
  let bands := (image.length + 255) / 256
  let cols := (rowBytes + 255) / 256
  let n := r.jobNumber
  let r1 := { r with jobNumber := n + 1, jobs := r.jobs ++
    [⟨n, kind, camera, ticket, lost, image.length, rowBytes, headers, bands * cols, []⟩] }
  let r2 := forEach (List.range (bands * cols)) (fun r e => r.packCrate n e (e / max 1 cols) (crateCut image (e / max 1 cols) (e % max 1 cols)))
    r1
  (m.onCtl fun c => c.setRec r2).finishJob n

/-! ### Checks (R323) -/

/-- A held crate settled with the bytes written for it. -/
def Mach.settleCrate (m : Mach) (h : HeldCrate) (bytes : List Byte) : Mach :=
  let m1 := m.onCtl fun c => c.setRec { c.recorder with held := c.recorder.held.filter fun x => x != h }
  if h.fire then m1.onCtl fun c => c.onFireRec h.owner fun f => { f with crates := kvSet [] f.crates h.entry bytes }
  else
    (m1.onCtl fun c => c.setRec { c.recorder with jobs := c.recorder.jobs.map fun j =>
      if j.number = h.owner then { j with crates := kvSet [] j.crates h.entry bytes } else j }).finishJob h.owner

/-- The cellar takes a held crate's check and writes: those of crops and captures are BULK (R324). -/
def Ctl.crateMay (c : Ctl) (h : HeldCrate) : Bool := c.packerMay && (h.fire || c.bulkMay)

/-- PACK_CRATE_CHECK: the oldest held crate decoded and compared; on a mismatch it is written again STORED. -/
def execPackCrateCheck (s : State) : Host.Outcome State Fault Refusal :=
  let c := s.mach.ctl
  match c.recorder.held with
  | [] => .next s
  | h :: _ =>
    if !c.crateMay h then .next s
    else if h.checks then nextMach s (s.mach.settleCrate h (crateOf 1 h.rows.length h.payload))
    else
      nextMach s ((s.mach.onCtl fun c => (c.bump Obj.crates_mismatched).ring Src.PACK_MISMATCH 0xFFFF Obj.crates_mismatched).settleCrate h
        (storedCrate h.rows))

/-- A held crate of two bands ago. -/
def Recorder.overdue (r : Recorder) (h : HeldCrate) : Bool :=
  r.held.any fun x => x.fire == h.fire && x.owner == h.owner && decide (h.band + 2 ≤ x.band)

/-- CRATE_UNCHECKED: a crate that has waited for two bands without a check is written STORED. -/
def execCrateUnchecked (s : State) : Host.Outcome State Fault Refusal :=
  let c := s.mach.ctl
  match c.recorder.held.find? c.recorder.overdue with
  | some h =>
    if c.crateMay h then nextMach s ((s.mach.onCtl fun c => c.bump Obj.crates_unchecked).settleCrate h (storedCrate h.rows)) else .next s
  | none => .next s

/-! ### Rows of a crop ring -/

/-- The number of rows a camera's crop ring holds. -/
def Ctl.ringRows (c : Ctl) (k : Nat) : Nat := c.nat (Obj.crop_ring_rows k)

/-- A strip row is still in the ring. -/
def Ctl.inRing (c : Ctl) (k : Nat) (r : StripRow) : Bool :=
  match r.ring with
  | some n => decide (c.nat (Obj.crop_rows_written k) ≤ n + c.ringRows k)
  | none => false

/-- Bytes of a row's pixels before column `x`, in a format. -/
def pixelOffset (format x : Nat) : Nat :=
  if format = 0 then x else if format = 1 then x / 2 * 3 else if format = 2 then 2 * x else x / 2 * 3

/-- Header and pixel bytes of columns [x, x + w) of a ring row. -/
def Mach.ringRow (m : Mach) (k n x w : Nat) : List Byte × List Byte :=
  let c := m.ctl
  let r := (c.cam k).crop
  let slot := cropSlotBytes (ringFormat r) (c.stitched k)
  let a := ringBase r + n % max 1 (c.ringRows k) * slot
  (memRead m.cellar a 16,
    memRead m.cellar (a + 16 + pixelOffset (ringFormat r) x) (pixelOffset (ringFormat r) (x + w) - pixelOffset (ringFormat r) x))

/-- Ring rows of strip rows, each once, in order. -/
def ringNumbers (rows : List StripRow) : List Nat := (rows.filterMap (·.ring)).eraseDups

/-- Rows of columns [x, x + w) packed as an item of a kind. -/
def Mach.packRows (m : Mach) (kind k ticket x w : Nat) (rows : List StripRow) : Mach :=
  let c := m.ctl
  let live := rows.filter (c.inRing k)
  let got := (ringNumbers live).map fun n => m.ringRow k n x w
  let fmt := ringFormat (c.cam k).crop
  m.packImage kind k ticket (decide (live.length < rows.length)) (got.map (·.2)) (got.map (·.1)).flatten
    (pixelOffset fmt (x + w) - pixelOffset fmt x)

/-! ### Crops (R328) -/

/-- The strip rows of a crop, first row first, once its last one is in. -/
def Ctl.cropRows (c : Ctl) (w : CropWait) : Option (List StripRow) :=
  let strip := (c.cam w.camera).strip
  let newer := (strip.takeWhile fun r => decide (w.middle ≤ r.coordinate)).length
  if newer < w.rows - w.rows / 2 then none
  else some ((strip.drop (newer - (w.rows - w.rows / 2))).take w.rows).reverse

/-- CROP_CUT: the first crop whose last row is in is cut into crates; one that lost every row is dropped. -/
def execCropCut (s : State) : Host.Outcome State Fault Refusal :=
  let c := s.mach.ctl
  match c.recorder.crops.find? fun w => (c.cropRows w).isSome with
  | none => .next s
  | some w =>
    if !c.packerMay || !c.bulkMay then .next s
    else
      let rows := (c.cropRows w).getD []
      let m1 := s.mach.onCtl fun c => c.setRec { c.recorder with crops := c.recorder.crops.filter fun x => x != w }
      if (rows.filter (c.inRing w.camera)).isEmpty then nextMach s (m1.onCtl fun c => c.bump Obj.items_dropped)
      else nextMach s (m1.packRows 2 w.camera w.ticket w.column w.columns rows)

/-! ### Captures (R329) -/

/-- A capture of a camera needs a FROZEN controller, for its rows or for the store. -/
def Ctl.captureFrozen (c : Ctl) (k : Nat) : Bool :=
  let r := c.oct (Obj.crop_ring k)
  c.rangeFrozen (ringBase r) (ringBytes r) || c.rangeFrozen (c.nat Obj.store_base) (c.nat Obj.store_bytes)

/-- capture: camera, first coordinate, rows, first column, columns. -/
def ownCapture (v : List Byte) (n : Nat) (c : Ctl) : Nat × Ctl :=
  if c.captureFrozen (fld v 0 1) then refuse St.CELLAR_FROZEN c else
  let w : CaptureWait := ⟨fld v 0 1, fld v 4 8, fld v 12 4, fld v 16 4, fld v 20 4, c.now⟩
  let c1 := (c.cmdQueue Obj.capture n).setRec { c.recorder with capture := some w }
  (St.STARTED, c1.needRide rideRecord)

/-- CAPTURE. -/
def execCapture (r : Req) (value : List Byte) (s : State) : Host.Outcome State Fault Refusal :=
  nextMach s (s.mach.ctlRow r Obj.capture value (ownCapture value))

/-- The strip rows of a capture once its last one is in: from the first row at or past its coordinate. -/
def Ctl.captureRows (c : Ctl) (w : CaptureWait) : Option (List StripRow) :=
  let rows := ((c.cam w.camera).strip.takeWhile fun r => decide ((w.first : Int) ≤ r.coordinate)).reverse
  if rows.length < w.rows then none else some (rows.take w.rows)

/-- A capture over without an item. -/
def Ctl.captureGone (c : Ctl) : Ctl :=
  (c.setRec { c.recorder with capture := none }).cmdFail Obj.capture St.CAPTURE_GONE Src.REC_CMD_DONE

/-- A capture that a freeze holds ends; what it had packed is dropped (R341). -/
def Ctl.captureStops (c : Ctl) : Ctl :=
  let r := c.recorder
  let gone := (r.jobs.filter fun j => j.kind == 3).map (·.number)
  (c.setRec { r with capture := none, jobs := r.jobs.filter (fun j => j.kind != 3)
                     held := r.held.filter fun h => h.fire || !gone.contains h.owner }).cmdFail Obj.capture St.CELLAR_FROZEN Src.REC_CMD_DONE

/-- CAPTURE_PACK: with its last row in the ring a queued capture is packed; it is GONE if its first row has left. -/
def execCapturePack (s : State) : Host.Outcome State Fault Refusal :=
  let c := s.mach.ctl
  match c.recorder.capture with
  | none => .next s
  | some w =>
    match c.captureRows w with
    | none => .next s
    | some rows =>
      if !c.packerMay || !c.bulkMay then .next s
      else if !(rows.head?.map (c.inRing w.camera)).getD false then nextCtl s c.captureGone
      else
        let m1 := s.mach.onCtl fun c =>
          (c.setRec { c.recorder with capture := none }).cmdRun Obj.capture (c.cmdStarter Obj.capture)
        nextMach s (m1.packRows 3 w.camera 0 w.column w.columns rows)

/-- CAPTURE_TIMEOUT: rows that do not arrive within 10 s. -/
def execCaptureTimeout (s : State) : Host.Outcome State Fault Refusal :=
  let c := s.mach.ctl
  match c.recorder.capture with
  | some w => if w.since + 10000 * ms ≤ c.now then nextCtl s c.captureGone else .next s
  | none => .next s

/-! ### The fire record (R325 to R327) -/

/-- The line map: a byte per recorded bar and page line. -/
def FireRec.lineMap (f : FireRec) : List Byte :=
  (f.barList.map fun b => (List.range f.length).map fun n =>
    BitVec.ofNat 8 (((List.range 4).map fun g => kvGet 3 f.outcomes (outcomeKey b n g) * 4 ^ g).sum)).flatten

/-- The group maps, bar by bar. -/
def FireRec.mapList (f : FireRec) : List RecMap := (f.barList.map fun b => f.maps.filter fun m => m.bar == b).flatten

/-- Bytes of a group map. -/
def RecMap.bytes (m : RecMap) : List Byte := le 4 m.line ++ le 4 m.epoch ++ (m.words.map (le 2)).flatten

/-- Runs of consecutive numbers in a rising list as (first, last). -/
def runsOf : List Nat → List (Nat × Nat)
  | [] => []
  | n :: r =>
    match runsOf r with
    | (a, b) :: t => if a = n + 1 then (n, b) :: t else if a = n then (a, b) :: t else (n, n) :: (a, b) :: t
    | [] => [(n, n)]

/-- Page lines a head's unfired counts of a group stand for. -/
def Ctl.unfiredLines (c : Ctl) (f : FireRec) (h g : Nat) : List Nat :=
  sortUp ((f.unfired.filter fun u => u.1 == h && u.2.1 == g).filterMap fun u =>
    (f.lines.find? fun l => l.count == u.2.2 && c.chainBar (chainOf h) == some l.bar).map (·.line))

/-- The unfired-head entries (R326). -/
def Ctl.unfiredBytes (c : Ctl) (f : FireRec) : List Byte :=
  (((f.unfired.map fun u => (u.1, u.2.1)).eraseDups.map fun x =>
    ((runsOf (c.unfiredLines f x.1 x.2)).map fun r => le 1 x.1 ++ le 1 x.2 ++ [0, 0] ++ le 4 r.1 ++ le 4 r.2).flatten)).flatten

/-- The plan of a fire record's item. -/
def Ctl.firePlan (c : Ctl) (f : FireRec) (early : Bool) : ItemPlan :=
  ⟨1, (if early then 2 else 0) + (if f.short then 1 else 0), f.ticket, (f.barList.head?).getD 0, f.bands, f.columns, 8, f.bars, f.length, f.width * 256,
    f.bands * f.barList.length * f.columns, f.crates, f.lineMap, (f.mapList.map RecMap.bytes).flatten, f.mapList.length,
    c.unfiredBytes f⟩

/-- Every recorded line has its outcome: the ticket is gone, ended or complete; and whether it ended early. -/
def Ctl.fireOver (c : Ctl) (f : FireRec) : Option Bool :=
  match c.ticket f.ticket with
  | none => some f.early
  | some t => if t.complete then some false else if t.ended then some true else none

/-- Bands with a screened line that are not packed: those an early end left open. -/
def FireRec.openBands (f : FireRec) : List (Nat × Nat) :=
  ((f.lines.map fun l => (l.bar, l.line / 8)).eraseDups).filter fun x => !f.packed.contains x

/-- FIRE_RECORD_COMPLETE: the first fire record whose lines all have their outcome. Bands that an early end left open are packed first;
with no crate held the item is complete and posted. -/
def execFireRecordComplete (s : State) : Host.Outcome State Fault Refusal :=
  let c := s.mach.ctl
  match c.recorder.fires.find? fun f => (c.fireOver f).isSome with
  | none => .next s
  | some f =>
    if f.openBands ≠ [] then nextCtl s (forEach f.openBands (fun c x => c.packBand f.ticket x.1 x.2) c)
    else if c.recorder.held.any (fun h => h.fire && h.owner == f.ticket) || !c.packerMay then .next s
    else
      let m1 := s.mach.onCtl fun c => c.setRec { c.recorder with fires := c.recorder.fires.filter fun x => x.ticket != f.ticket }
      nextMach s (m1.postItem (c.firePlan f ((c.fireOver f).getD false)))

end Sys2Proof.Machine
end

