-- ==== Sys2Proof/Machine/Cellar.lean ====
section
/-! DEFINITION. The cellar's commands and events (chapter 12). -/

namespace Sys2Proof.Machine

/-- The memory controllers' state replaced. -/
def Ctl.setMem (c : Ctl) (x : CellarCtl) : Ctl := { c with mem := x }

/-! ### Rates (R14, R348) -/

/-- The data rate given, and what scales by it: 6000:16 and 6400:02. -/
def Ctl.setRate (c : Ctl) (rate : Nat) : Ctl :=
  ((c.putN Obj.data_rate rate).putN Obj.fetch_budget (40000 * rate / 9600)).putN Obj.iso_limit (16000 * rate / 9600)

/-- The trained rate that a value of rate_select chooses. -/
def Ctl.rateFor (c : Ctl) (v : Nat) : Nat := if v = 0 then c.mem.rateA else c.mem.rateB

/-! ### Training and the wipe (R333 to R335, R354) -/

/-- Capacity of what was found, in GiB: 8 channels x ranks x density. -/
def foundCapacity (x : CellarFound) : Nat := x.ranks * x.density

/-- The devices are supported and are the ones expected (R333, R334). -/
def Ctl.devicesOk (c : Ctl) (x : CellarFound) : Bool :=
  x.alike && [8, 12, 16, 24, 32].contains x.density && decide (1 ≤ x.ranks ∧ x.ranks ≤ 2) &&
    (c.nat Obj.capacity_expected == 0 || c.nat Obj.capacity_expected == (foundCapacity x))

/-- The training fault of a controller. -/
def Ctl.trainFault (c : Ctl) (x : CellarFound) (m : Nat) : Nat :=
  if !c.devicesOk x then 1 else if m = 0 then x.fault0 else x.fault1

/-- A controller's training ends READY or FAILED with its fault raised. -/
def Ctl.trainEnds (c : Ctl) (x : CellarFound) (m : Nat) : Ctl :=
  let f := c.trainFault x m
  let c1 := c.putN (Obj.training_fault m) f
  if f = 0 then c1.putN (Obj.mc_state m) 2 else (c1.putN (Obj.mc_state m) 5).raiseFault (faultCellarTraining m)

/-- Both controllers trained. -/
def Ctl.trainedAs (c : Ctl) (x : CellarFound) : Ctl :=
  let c1 := (c.setMem { c.mem with ranks := x.ranks, density := x.density, rateA := c.nat Obj.rate_a, rateB := c.nat Obj.rate_b,
                                   badBlock := [], held := [], scrubAt := 0, scrubFrom := c.now, oscAt := c.now, usedAt := c.now, switchAt := none, wiping := true })
  let c2 := c1.setRate (c1.rateFor (c1.nat Obj.rate_select))
  c2.putN Obj.usable_bytes ((foundCapacity x) * 2 ^ 30 / 32 * 31)

/-- What waits for the cellar goes on: STANDBY, and a retrain's command. -/
def Ctl.cellarOver (c : Ctl) (ok : Bool) : Ctl :=
  let c1 := if c.phase = .released then c.standby else c
  if !c1.cmdBusy Obj.cellar_retrain then c1
  else if ok then c1.cmdDone Obj.cellar_retrain Src.CELLAR_CMD_DONE
  else c1.cmdFail Obj.cellar_retrain St.CELLAR_NOT_READY Src.CELLAR_CMD_DONE

/-- A controller has not been trained since reset, or trains again. -/
def Ctl.untrained (c : Ctl) (m : Nat) : Bool := c.nat (Obj.mc_state m) == 0 || c.nat (Obj.mc_state m) == 1

/-- CELLAR_TRAIN: the ride's first start after a reset, or a retrain. -/
def execCellarTrain (found : CellarFound) (s : State) : Host.Outcome State Fault Refusal :=
  let c := s.mach.ctl
  if c.untrained 0 ∧ c.untrained 1 ∧ c.nat (Obj.ride_state 6) ≠ 0 then
    let shown := c.putN Obj.capacity (foundCapacity found)
    let c1 := (shown.trainEnds found 0).trainEnds found 1
    nextCtl s (if c.trainFault found 0 = 0 ∧ c.trainFault found 1 = 0 then c1.trainedAs found else c1.cellarOver false)
  else .next s

/-- The library is empty: its arrays lie in the cellar (R354). -/
def Ctl.emptyLibrary (c : Ctl) : Ctl := forEach (List.range 64) (fun c k => c.putN (Obj.array_state k) 0) c

/-- CELLAR_WIPE: every group zero, every area empty. -/
def execCellarWipe (s : State) : Host.Outcome State Fault Refusal :=
  let c := s.mach.ctl
  if c.mem.wiping then
    nextMach s (({ ctl := ((c.setMem { c.mem with wiping := false }).emptyLibrary).cellarOver true, cellar := [] } : Mach).newCycle.libraryChanged
      .arrays).recheck
  else .next s

/-- Something uses the cellar (R335). -/
def Ctl.cellarInUse (c : Ctl) : Bool :=
  c.ticketed || (List.range 4).any c.camOn || (List.range 4).any c.streamOn || c.units.record.replay.isSome ||
    c.nat Obj.store_base != 0

/-- cellar_retrain: the whole sequence, the wipe included. -/
def ownCellarRetrain (n : Nat) (c : Ctl) : Nat × Ctl :=
  if c.cellarInUse then refuse St.CELLAR_IN_USE c
  else
    let c1 := ((c.cmdRun Obj.cellar_retrain n).putN (Obj.mc_state 0) 1).putN (Obj.mc_state 1) 1
    (St.STARTED, (c1.putN Obj.usable_bytes 0).needRide rideCellar)

/-- CELLAR_RETRAIN. -/
def execCellarRetrain (r : Req) (arg : Nat) (s : State) : Host.Outcome State Fault Refusal :=
  nextMach s (s.mach.ctlRow r Obj.cellar_retrain (le 1 arg) ownCellarRetrain)

/-- DQS_OSCILLATOR_READ: every 2800:0B ms while a controller is READY; a correction of the write timing shows nowhere (R336). -/
def execDqsOscillatorRead (s : State) : Host.Outcome State Fault Refusal :=
  let c := s.mach.ctl
  if (c.nat (Obj.mc_state 0) = 2 ∨ c.nat (Obj.mc_state 1) = 2) ∧ c.mem.oscAt + c.nat Obj.oscillator_period * ms ≤ c.now then
    nextCtl s (c.setMem { c.mem with oscAt := c.now })
  else .next s

/-! ### Errors (R338, R339) -/

/-- A corrected error in the block at an address: counted, its address kept, CELLAR_CE at most once per ms. -/
def Ctl.corrected (c : Ctl) (a : Nat) : Ctl :=
  let m := controllerOf a
  let c1 := (c.bump (Obj.corrected_errors m)).putN (Obj.last_ce_address m) (a / 64 * 64)
  let due := match c.mem.ceAt with
    | some t => decide (t + ms ≤ c.now)
    | none => true
  if due then (c1.setMem { c1.mem with ceAt := some c1.now }).ring Src.CELLAR_CE m (Obj.last_ce_address m) else c1

/-- ECC groups of the usable cellar. -/
def Ctl.groups (c : Ctl) : Nat := c.usable / 1984

/-- 2800:0C in ns. -/
def Ctl.scrubPeriod (c : Ctl) : Nat := c.nat Obj.scrub_period * 3600000 * ms

/-- The next group is due: a pass reads its groups evenly over 2800:0C hours. -/
def Ctl.scrubDue (c : Ctl) : Bool := decide (c.mem.scrubFrom + c.mem.scrubAt * c.scrubPeriod / max 1 c.groups ≤ c.now)

/-- A group scrubbed; the last one ends a pass. -/
def Ctl.scrubbed (c : Ctl) (block : Option Nat) : Ctl :=
  let g := c.mem.scrubAt
  let c1 := match block with
    | some i => if i < 31 then c.corrected (g * 1984 + i * 64) else c
    | none => c
  if c.groups ≤ g + 1 then
    (((c1.setMem { c1.mem with scrubAt := 0, scrubFrom := max c.now (c.mem.scrubFrom + c.scrubPeriod) }).bump (Obj.scrub_passes 0)).bump (Obj.scrub_passes 1))
  else c1.setMem { c1.mem with scrubAt := g + 1 }

/-- PATROL_SCRUB: the next group, once due, is read; `block` is its data block in which an error was corrected. A group of a FROZEN controller
holds the scrub. -/
def execPatrolScrub (block : Option Nat) (s : State) : Host.Outcome State Fault Refusal :=
  let c := s.mach.ctl
  if !c.scrubDue then .next s
  else if 0 < c.groups ∧ c.frozen (c.mem.scrubAt % 8 / 4) = true then nextCtl s (c.holdFrozen .scrub (c.mem.scrubAt * 1984) 1984)
  else if 0 < c.groups ∧ c.serves (c.mem.scrubAt % 8 / 4) = true ∧ c.bulkMay = true then nextCtl s (c.scrubbed block)
  else .next s

/-! ### The freeze (R340 to R343) -/

/-- freeze_record. -/
def Ctl.freezeRecord (c : Ctl) (e : FreezeEvent) : List Byte :=
  let tail (cmd cls address : Nat) : List Byte := le 1 cmd ++ le 1 cls ++ [0, 0] ++ le 8 address ++ timeBytes c.localNs ++ zeros 6
  match e with
  | .ue src a syn cmd =>
    let row := rowOf a
    le 1 (if src = .scrub then 2 else 1) ++ le 1 (groupOfAddress a % 4) ++ le 1 (row / c.rowsPerRank) ++ le 1 (bankOf a) ++ le 4 (row % c.rowsPerRank) ++
      le 2 (a % 1984 / 64) ++ le 2 syn ++ tail cmd (classOf src) (a / 64 * 64)
  | .parity ch rank bank row cmd src =>
    [3] ++ le 1 ch ++ le 1 rank ++ le 1 bank ++ le 4 row ++ [0xFF, 0xFF, 0, 0] ++ tail cmd (classOf src) (2 ^ 64 - 1)

/-- The block to zero when the freeze ends. -/
def freezeBlock : FreezeEvent → Option Nat
  | .ue _ a _ _ => some (a / 64 * 64)
  | .parity .. => none

/-- The fault of a freeze. -/
def freezeFault (e : FreezeEvent) (m : Nat) : Nat := if (freezeBlock e).isSome then faultCellarUe m else faultCellarParity m

/-- Commands with requests that the freeze holds end FAILED. -/
def Ctl.holdCommands (c : Ctl) : Ctl :=
  let c1 := match c.recorder.replay with
    | some r =>
      if c.rangeFrozen r.address r.length || c.rangeFrozen r.base (r.frames * replaySlot r.maxWidth r.maxHeight 10) then
        c.replayOver St.CELLAR_FROZEN else c
    | none => c
  match c1.recorder.capture with
  | some w => if c1.captureFrozen w.camera then c1.captureStops else c1
  | none => if c1.recorder.jobs.any (fun j => j.kind == 3) && c1.cmdBusy Obj.capture then c1.captureStops else c1

/-- A controller freezes. -/
def Ctl.freezeCellar (c : Ctl) (m : Nat) (e : FreezeEvent) : Ctl :=
  let c1 := ((c.putO (Obj.freeze_record m) (c.freezeRecord e)).putN (Obj.mc_state m) 4).bump (Obj.freezes m)
  let c2 := c1.setMem { c1.mem with badBlock := kvSet none c1.mem.badBlock m (freezeBlock e) }
  ((c2.ring Src.CELLAR_FREEZE m (Obj.freezes m)).raiseFault (freezeFault e m)).holdCommands

/-- The event belongs to the controller. -/
def freezeOn (e : FreezeEvent) (m : Nat) : Bool :=
  match e with
  | .ue _ a _ _ => controllerOf a == m
  | .parity .. => true

/-- CELLAR_FREEZE. -/
def execCellarFreeze (controller : Nat) (e : FreezeEvent) (s : State) : Host.Outcome State Fault Refusal :=
  let c := s.mach.ctl
  if controller < 2 ∧ c.serves controller = true ∧ freezeOn e controller = true then nextCtl s (c.freezeCellar controller e) else .next s

/-- The failing block written as zeros and counted (R343). -/
def Mach.repair (m : Mach) (k : Nat) : Mach :=
  match kvGet none m.ctl.mem.badBlock k with
  | some a => { ctl := (m.ctl.setMem { m.ctl.mem with badBlock := kvSet none m.ctl.mem.badBlock k none }).bump (Obj.blocks_zeroed k),
                cellar := memWipe m.cellar a 64 }
  | none => m

/-- cellar_resume: what the controller held is served. -/
def ownCellarResume (k n : Nat) (m : Mach) : Nat × Mach :=
  if !m.ctl.frozen k then (St.CELLAR_NOT_FROZEN, m)
  else
    let m1 := (m.repair k).onCtl fun c => (c.putN (Obj.mc_state k) 2).cmdNow (Obj.cellar_resume k) n Src.CELLAR_CMD_DONE k
    (St.STARTED, m1.serveHeld k)

/-- CELLAR_RESUME. -/
def execCellarResume (r : Req) (controller arg : Nat) (s : State) : Host.Outcome State Fault Refusal :=
  if controller < 2 then
    nextMach s (s.mach.writeRow r (Obj.cellar_resume controller) (le 1 arg) (ownCellarResume controller))
  else .next s

/-! ### wipe_range (R354) -/

/-- A controller is FAILED or TRAINING (R357). -/
def Ctl.cellarUnready (c : Ctl) : Bool := [0, 1].any fun m => c.nat (Obj.mc_state m) == 1 || c.nat (Obj.mc_state m) == 5

/-- wipe_range: address and bytes. -/
def ownWipeRange (v : List Byte) (n : Nat) (m : Mach) : Nat × Mach :=
  let a := fld v 0 8
  let k := fld v 8 8
  let c := m.ctl
  if a % 64 ≠ 0 ∨ k % 64 ≠ 0 ∨ k < 64 ∨ c.generalEnd < a + k then (St.OUT_OF_RANGE, m)
  else if c.cellarUnready then (St.CELLAR_NOT_READY, m)
  else if c.rangeFrozen a k then (St.CELLAR_FROZEN, m)
  else (St.STARTED, { ctl := c.useCellar.cmdNow Obj.wipe_range n Src.CELLAR_CMD_DONE, cellar := memWipe m.cellar a k })

/-- WIPE_RANGE. -/
def execWipeRange (r : Req) (value : List Byte) (s : State) : Host.Outcome State Fault Refusal :=
  nextMach s (s.mach.writeRow r Obj.wipe_range value (ownWipeRange value))

/-! ### Rate switches (R348 to R350) -/

/-- A write of rate_select. -/
def ownRateSelect (v _n : Nat) (c : Ctl) : Nat × Ctl :=
  let old := c.nat Obj.data_rate
  let new := c.rateFor v
  if old = 0 ∨ v = c.nat Obj.rate_select then (St.OK, c.putN Obj.rate_select v)
  else if c.frozen 0 || c.frozen 1 then refuse St.CELLAR_FROZEN c
  else if new < old ∧ (c.ticketed = true ∨ 16000 * new / 9600 < c.nat Obj.iso_committed) then refuse St.CELLAR_IN_USE c
  else
    let c1 := c.putN Obj.rate_select v
    (St.OK, c1.setMem { c1.mem with switchAt := some c1.now })

/-- RATE_SELECT. -/
def execRateSelect (r : Req) (arg : Nat) (s : State) : Host.Outcome State Fault Refusal :=
  nextMach s (s.mach.ctlRow r Obj.rate_select (le 1 arg) (ownRateSelect arg))

/-- RATE_SWITCH: with the panic level 0, both controllers go through self-refresh to the other timing set. -/
def execRateSwitch (s : State) : Host.Outcome State Fault Refusal :=
  let c := s.mach.ctl
  if c.mem.switchAt.isSome ∧ c.panicLevel = 0 ∧ c.serves 0 = true ∧ c.serves 1 = true then
    let c1 := (c.setRate (c.rateFor (c.nat Obj.rate_select))).setMem { c.mem with switchAt := none, usedAt := c.now }
    let c2 := (c1.putN (Obj.mc_state 0) 2).putN (Obj.mc_state 1) 2
    nextCtl s (c2.ring Src.CELLAR_RATE 0xFFFF Obj.data_rate)
  else .next s

/-! ### Self-refresh (R351) -/

/-- Something active keeps the channels out of self-refresh. -/
def Ctl.cellarActive (c : Ctl) : Bool :=
  let r := c.units.record
  c.ticketed || (List.range 4).any c.camWrites || (List.range 4).any c.streamOn || r.replay.isSome || !r.jobs.isEmpty ||
    !r.held.isEmpty || !r.crops.isEmpty || r.capture.isSome

/-- SELF_REFRESH_ENTRY: 2800:0D us without a request. -/
def execSelfRefreshEntry (s : State) : Host.Outcome State Fault Refusal :=
  let c := s.mach.ctl
  if c.nat (Obj.mc_state 0) = 2 ∧ c.nat (Obj.mc_state 1) = 2 ∧ c.cellarActive = false ∧
      c.mem.usedAt + c.nat Obj.cellar_idle_time * 1000 ≤ c.now then
    nextCtl s (((c.putN (Obj.mc_state 0) 3).putN (Obj.mc_state 1) 3).usedRide rideCellar)
  else .next s

/-! ### BAR2 (R355, R341, R369) -/

/-- A byte at an address can be written: in the general area, on a controller that is not FROZEN. -/
def Ctl.bar2Takes (c : Ctl) (a : Nat) : Bool := decide (a < c.generalEnd) && !c.frozen (controllerOf a)

/-- A read: all ones until the cellar is there and past its end; Completer Abort on a FROZEN controller; held at panic level 3 (R346). -/
def Mach.bar2Read (m : Mach) (a n : Nat) (fixed : Option Nat) : Mach :=
  let c := m.ctl
  if c.usable ≤ a then m.onCtl (·.emit (.hostRead a (256 ^ n - 1)))
  else
    let k := min n (c.usable - a)
    if c.rangeFrozen a k then m.onCtl (·.emit (.bus "COMPLETER_ABORT" a))
    else if !c.bulkMay then m.onCtl fun c => forEach (controllersOf a k) (fun c i => c.hold1 .bar2 a n i) c
    else
      (m.answerRead a n).onCtl fun c => match fixed with
        | some x => if a / 64 * 64 ≤ x / 64 * 64 ∧ x < a + k then c.corrected x else c
        | none => c

/-- A write: bytes that no rule discards are written; one with a discarded byte counts once. -/
def Mach.bar2Write (m : Mach) (a : Nat) (b : List Byte) : Mach :=
  let c := m.ctl
  let es := b.zipIdx.map fun x => (a + x.2, x.1)
  let lost := es.any fun e => !c.bar2Takes e.1
  let denied := es.any fun e => decide (c.generalEnd ≤ e.1 ∧ e.1 < c.usable)
  let c1 := if es.any fun e => c.bar2Takes e.1 then c.useCellar else c
  let c2 := if lost then c1.bump Obj.bar2_discarded else c1
  { ctl := if denied then c2.ring Src.CELLAR_BAR2_DENIED 0xFFFF Obj.bar2_discarded else c2,
    cellar := memWrite m.cellar a
      (List.zipWith (fun e old => if c.bar2Takes e.1 then e.2 else old) es (memRead m.cellar a b.length)) }

/-- Offset of an access in BAR2. -/
def bar2Address : Bar2 → Nat
  | .read a _ _ => a
  | .write a _ => a

/-- BAR2_ACCESS: one past BAR2's size never reaches the controller (R370); at panic level 3 posted writes get no credit. -/
def execBar2Access (access : Bar2) (s : State) : Host.Outcome State Fault Refusal :=
  if s.mach.ctl.phase = .asleep ∨ s.mach.ctl.host.bar2 * 2 ^ 30 ≤ bar2Address access then .next s
  else match access with
    | .read a n fixed => nextMach s (s.mach.serveAll.bar2Read a n fixed)
    | .write a b => if s.mach.ctl.panicLevel = 3 then .next s else nextMach s (s.mach.serveAll.bar2Write a b)

end Sys2Proof.Machine
end

