-- ==== Sys2Proof/WellFormed.lean ====
section
/-! DEFINITION. Which commands are well-formed: every operand names a unit the block has, or fits its field. -/

namespace Sys2Proof

/-- A frame's header fields fit their places (R43). -/
def Frame.wellFormed (f : Frame) : Bool :=
  decide (f.path ≤ 2 ∧ f.peer.length = (if f.path = 2 then 0 else 12) ∧ f.magic < 65536 ∧ f.version < 256 ∧
    f.session < 256 ∧ f.flags < 256 ∧ f.seq < 65536 ∧ f.tag < 2 ^ 32 ∧ f.length < 65536 ∧ f.status < 65536)

/-- A request's session, sequence and tag fit their fields, and it comes by one of the three paths (R43). -/
def Req.wellFormed (r : Req) : Bool :=
  decide (r.session < 256 ∧ r.seq < 65536 ∧ r.tag < 2 ^ 32 ∧ r.path ≤ 2 ∧ r.peer.length = (if r.path = 2 then 0 else 12))

/-- A tail value is 32 bits (R66). -/
def TailWrite.wellFormed : TailWrite → Bool
  | .reg v => decide (v < 2 ^ 32)
  | .obj r v => r.wellFormed && decide (v < 2 ^ 32)

/-- A claimer is BAR0 or a session. -/
def Accessor.wellFormed : Accessor → Bool
  | .bar0 => true
  | .dict r => r.wellFormed

/-- There are 192 fault sources a sample can name (R458). -/
def RailSample.wellFormed (x : RailSample) : Bool := decide (x.source < 192)

/-- The upstream frame types of R152 and of R239. -/
def headTypes : List Nat := [0x81, 0x82, 0x83, 0x84, 0x85, 0x86]
def camTypes : List Nat := [0xC1, 0xC2, 0xC3]

/-- A frame from a lane, no longer than R150 allows. -/
def HeadFrame.wellFormed (m : HeadFrame) : Bool := decide (m.lane < 32 ∧ m.bytes.length ≤ 1036)

/-- The command of a type carries a frame of that type, or of no upstream type: a frame of another one is another command. -/
def HeadFrame.fits (m : HeadFrame) (type : Nat) : Bool :=
  match m.bytes.head? with
  | some b => b.toNat == type || !headTypes.contains b.toNat
  | none => true

/-- A camera's frame on 1 to 4 lanes. -/
def CamFrame.wellFormed (f : CamFrame) : Bool :=
  decide (f.camera < 4 ∧ 1 ≤ f.parts.length ∧ f.parts.length ≤ 4 ∧ f.skews.length = f.parts.length) &&
    f.parts.all fun p => decide (p.length ≤ 1036)

/-- As for the frames of heads; the first word lies on the lane of its index. -/
def CamFrame.fits (f : CamFrame) (type : Nat) : Bool :=
  match (f.parts.getD (f.first % f.parts.length) []).head? with
  | some b => b.toNat == type || !camTypes.contains b.toNat
  | none => true

/-- Numbers of a training fit their objects (R333). -/
def CellarFound.wellFormed (x : CellarFound) : Bool := decide (x.ranks < 256 ∧ x.density < 256 ∧ x.fault0 ≤ 6 ∧ x.fault1 ≤ 6)

/-- A freeze's fields fit its record (R342). -/
def FreezeEvent.wellFormed : FreezeEvent → Bool
  | .ue _ address syndrome command => decide (address < 2 ^ 64 ∧ 1 ≤ syndrome ∧ syndrome < 65536 ∧ 1 ≤ command ∧ command ≤ 7)
  | .parity channel rank bank row command _ =>
    decide (channel < 4 ∧ rank < 2 ∧ bank < 16 ∧ row < 2 ^ 32 ∧ 1 ≤ command ∧ command ≤ 7)

/-- A BAR2 access lies in 64 bits of address and at most one page (R368). -/
def Bar2.wellFormed : Bar2 → Bool
  | .read address bytes _ => decide (address < 2 ^ 64 ∧ 1 ≤ bytes ∧ bytes ≤ 4096)
  | .write address data => decide (address < 2 ^ 64 ∧ 1 ≤ data.length ∧ data.length ≤ 4096)

/-- An Announce comes in on a field port and its numbers fit their fields (R364). -/
def Announce.wellFormed (a : Announce) : Bool :=
  decide (a.port < 2 ∧ a.priority1 < 256 ∧ a.clockClass < 256 ∧ a.accuracy < 256 ∧ a.variance < 65536 ∧ a.priority2 < 256 ∧
    a.grandmaster < 2 ^ 64 ∧ a.steps < 65536 ∧ a.sender < 2 ^ 64 ∧ a.senderPort < 65536)

/-- There are eight regulators, and their words have 16 bits (R410). -/
def PmbusReading.wellFormed (x : PmbusReading) : Bool :=
  decide (x.regulator < 8 ∧ x.vout < 65536 ∧ x.iout < 65536 ∧ x.temperature < 65536 ∧ x.status < 65536)

/-- Received PAM4 symbols. -/
def symbolsOk (l : List Nat) : Bool := l.all fun x => decide (x < 4)

/-- A histogram over the 256 steps of a sampler's sweep (R204). -/
def histogramOk (l : List Nat) : Bool := l.length == 256

/-- The operands of a command name something its sender can send (log entry 5). -/
def Instr.wellFormed : Instr → Bool
  | .discover f => f.wellFormed
  | .openSession f => f.wellFormed
  | .close f => f.wellFormed
  | .keepalive f => f.wellFormed
  | .challenge f => f.wellFormed
  | .prove f => f.wellFormed
  | .read f => f.wellFormed
  | .write f => f.wellFormed
  | .describe f => f.wellFormed
  | .segWrite f => f.wellFormed
  | .segRead f => f.wellFormed
  | .subscribe f => f.wellFormed
  | .eventAck f => f.wellFormed
  | .publish session set => decide (1 ≤ session ∧ session ≤ 8) && decide (set ≤ 3)
  | .event session => decide (1 ≤ session ∧ session ≤ 8)
  | .eventResend session => decide (1 ≤ session ∧ session ≤ 8)
  | .sessionSilent session => decide (1 ≤ session ∧ session ≤ 8)
  | .segmentAbandon => true
  | .nonceExpire session => decide (1 ≤ session ∧ session ≤ 8)
  | .serviceLockoutEnd => true
  | .post _ => true
  | .mbxEvtTailWrite value => decide (value ≤ 4294967295)
  | .takeControl r arg => r.wellFormed && decide (arg ≤ 4294967295)
  | .releaseControl r arg => r.wellFormed && decide (arg ≤ 4294967295)
  | .handOver r arg => r.wellFormed && decide (arg ≤ 4294967295)
  | .closeSession r arg => r.wellFormed && decide (arg ≤ 4294967295)
  | .savePersistent r arg => r.wellFormed && decide (arg ≤ 4294967295)
  | .restoreDefaults r arg => r.wellFormed && decide (arg ≤ 4294967295)
  | .atticWriteDone _ => true
  | .formatAttic r arg => r.wellFormed && decide (arg ≤ 4294967295)
  | .sealSlot r slot arg => r.wellFormed && decide (slot ≤ 255) && decide (arg ≤ 4294967295)
  | .unsealSlot r slot arg => r.wellFormed && decide (slot ≤ 255) && decide (arg ≤ 4294967295)
  | .clearSlot r slot arg => r.wellFormed && decide (slot ≤ 255) && decide (arg ≤ 4294967295)
  | .openAdmission r arg => r.wellFormed && decide (arg ≤ 4294967295)
  | .closeAdmission r arg => r.wellFormed && decide (arg ≤ 4294967295)
  | .withdrawFrom r arg => r.wellFormed && decide (arg ≤ 4294967295)
  | .pageDoorbell w => w.wellFormed
  | .consumerTailWrite ring w => decide (ring ≤ 7) && w.wellFormed
  | .admitDescriptor => true
  | .admissionWaitEnd => true
  | .arrayPlaceLoad => true
  | .ceilingRecompute => true
  | .cueEdge input _ _ => decide (input ≤ 1)
  | .cueMarkQualified input => decide (input ≤ 1)
  | .cueWindowClose ticket => decide (1 ≤ ticket ∧ ticket ≤ 4294967295)
  | .ticketEndPost => true
  | .printFetchBand ticket bar band => decide (1 ≤ ticket ∧ ticket ≤ 4294967295) && decide (bar ≤ 7) && decide (band ≤ 65535)
  | .fetchDeadlineMiss ticket bar line => decide (1 ≤ ticket ∧ ticket ≤ 4294967295) && decide (bar ≤ 7) && decide (line ≤ 4294967295)
  | .inspectFetch ticket bar line camera => decide (1 ≤ ticket ∧ ticket ≤ 4294967295) && decide (bar ≤ 7) && decide (line ≤ 4294967295) && decide (camera ≤ 3)
  | .screenLine bar => decide (bar ≤ 7)
  | .nozzleEntryWrite r _ => r.wellFormed
  | .toneCurveWrite r curve _ => r.wellFormed && decide (curve ≤ 127)
  | .arrayLoad r _ => r.wellFormed
  | .arrayClear r arg => r.wellFormed && decide (arg ≤ 4294967295)
  | .curveClear r arg => r.wellFormed && decide (arg ≤ 4294967295)
  | .loadTable r _ => r.wellFormed
  | .exportTable r _ => r.wellFormed
  | .saveCare r arg => r.wellFormed && decide (arg ≤ 4294967295)
  | .discoverChain r chain arg => r.wellFormed && decide (chain ≤ 15) && decide (arg ≤ 4294967295)
  | .headsIn r chain arg => r.wellFormed && decide (chain ≤ 15) && decide (arg ≤ 4294967295)
  | .headIn r head arg => r.wellFormed && decide (head ≤ 255) && decide (arg ≤ 4294967295)
  | .headOut r head arg => r.wellFormed && decide (head ≤ 255) && decide (arg ≤ 4294967295)
  | .headOutComplete head => decide (head ≤ 255)
  | .challengeUsage r head arg => r.wellFormed && decide (head ≤ 255) && decide (arg ≤ 4294967295)
  | .dispatchLine chain line group => decide (chain ≤ 15) && decide (line ≤ 4294967295) && decide (group ≤ 3)
  | .status m => m.wellFormed && m.fits 0x81
  | .lineReport m => m.wellFormed && m.fits 0x86
  | .discoverReply m => m.wellFormed && m.fits 0x83
  | .capability m => m.wellFormed && m.fits 0x82
  | .configAck m => m.wellFormed && m.fits 0x85
  | .usageRecord m => m.wellFormed && m.fits 0x84
  | .headReplyTimeout head => decide (head ≤ 255)
  | .headTimeout head => decide (head ≤ 255)
  | .tick chain => decide (chain ≤ 15)
  | .chainHeal chain => decide (chain ≤ 15)
  | .hotDiscovery chain => decide (chain ≤ 15)
  | .quadPllLocked quad => decide (quad ≤ 7)
  | .rxAligned lane symbols => decide (lane ≤ 31) && symbolsOk symbols
  | .alignLoss lane symbols => decide (lane ≤ 31) && symbolsOk symbols
  | .trainReq lane target request => decide (lane ≤ 31) && decide (target ≤ 255) && decide (request ≤ 255)
  | .trainRsp lane echo statusValue => decide (lane ≤ 31) && decide (echo ≤ 255) && decide (statusValue ≤ 3)
  | .trainTimeout lane => decide (lane ≤ 31)
  | .laneLoss lane _ => decide (lane ≤ 31)
  | .laneRecover lane symbols => decide (lane ≤ 31) && symbolsOk symbols
  | .skipSend lane => decide (lane ≤ 31)
  | .skipReceived lane held => decide (lane ≤ 31) && decide (held ≤ 64)
  | .sleepReceived lane => decide (lane ≤ 31)
  | .laneWake lane symbols => decide (lane ≤ 31) && symbolsOk symbols
  | .wakeAlignTimeout lane => decide (lane ≤ 31)
  | .txSleepWrite r lane arg => r.wellFormed && decide (lane ≤ 31) && decide (arg ≤ 4294967295)
  | .laneRoleWrite r lane arg => r.wellFormed && decide (lane ≤ 31) && decide (arg ≤ 4294967295)
  | .quadRateWrite r quad arg => r.wellFormed && decide (quad ≤ 7) && decide (arg ≤ 4294967295)
  | .retrain r lane arg => r.wellFormed && decide (lane ≤ 31) && decide (arg ≤ 4294967295)
  | .calibrateSlicer r lane arg => r.wellFormed && decide (lane ≤ 31) && decide (arg ≤ 4294967295)
  | .calSwitchToSpare lane => decide (lane ≤ 31)
  | .calHistogramsDone lane levels pairs => decide (lane ≤ 31) && levels.length == 4 && levels.all histogramOk && pairs.length == 4 && pairs.all fun p => histogramOk p.1 && histogramOk p.2
  | .calSwitchBack lane => decide (lane ≤ 31)
  | .calDivergeTimeout lane => decide (lane ≤ 31)
  | .calSpareLost lane lost => decide (lane ≤ 31) && decide (lost ≤ 4294967295)
  | .clearCounters r lane arg => r.wellFormed && decide (lane ≤ 31) && decide (arg ≤ 4294967295)
  | .encoderCount _ _ => true
  | .enc1Count _ => true
  | .indexPulse _ => true
  | .validatePosition r arg => r.wellFormed && decide (arg ≤ 4294967295)
  | .observerUpdate => true
  | .strobeArm pair => decide (pair ≤ 31)
  | .strobeFire pair => decide (pair ≤ 31)
  | .overspeedEpisodeEnd => true
  | .overspeedHold => true
  | .holdEnd => true
  | .rmSelfCheck a b => decide (a ≤ 255) && decide (b ≤ 255)
  | .rmSyncStart rm => decide (rm ≤ 1)
  | .rmSyncDone rm => decide (rm ≤ 1)
  | .rmRetake => true
  | .retakeWaitExpiry => true
  | .requestSwitch r arg => r.wellFormed && decide (arg ≤ 4294967295)
  | .ssiRead input _ _ => decide (input ≤ 3)
  | .cameraEnable r camera arg => r.wellFormed && decide (camera ≤ 3) && decide (arg ≤ 4294967295)
  | .outputViewWrite r camera sub _ => r.wellFormed && decide (camera ≤ 3) && decide (1 ≤ sub ∧ sub ≤ 4)
  | .flatFieldWrite r tile _ => r.wellFormed && decide (tile ≤ 15)
  | .exposureTrigger camera => decide (camera ≤ 3)
  | .exposureTag camera exposure => decide (camera ≤ 3) && decide (exposure ≤ 4294967295)
  | .csi f => f.wellFormed && f.fits 0xC1
  | .frameTimeout camera sensor => decide (camera ≤ 3) && decide (sensor ≤ 3)
  | .bridgeStatus f => f.wellFormed && f.fits 0xC3
  | .bridgeStatusTimeout camera => decide (camera ≤ 3)
  | .cameraLostClear camera => decide (camera ≤ 3)
  | .cciTransfer r camera _ => r.wellFormed && decide (camera ≤ 3)
  | .cciReply f => f.wellFormed && f.fits 0xC2
  | .cciTimeout camera => decide (camera ≤ 3)
  | .cameraIdleSleep camera => decide (camera ≤ 3)
  | .monitorFrame camera => decide (camera ≤ 3)
  | .recordFrame camera => decide (camera ≤ 3)
  | .loopBandMeasure camera => decide (camera ≤ 3)
  | .loopActionEntry => true
  | .appearanceLoad r _ => r.wellFormed
  | .appearanceClear r arg => r.wellFormed && decide (arg ≤ 4294967295)
  | .calFlatField r _ => r.wellFormed
  | .calFlatDone => true
  | .calRegistration r _ => r.wellFormed
  | .calMarkZone => true
  | .calWaitExpiry => true
  | .clearCalRecords r arg => r.wellFormed && decide (arg ≤ 4294967295)
  | .streamEnable r stream arg => r.wellFormed && decide (stream ≤ 3) && decide (arg ≤ 4294967295)
  | .encodePicture stream => decide (stream ≤ 3)
  | .markLongTerm r stream arg => r.wellFormed && decide (stream ≤ 3) && decide (arg ≤ 4294967295)
  | .releaseLongTerm r stream arg => r.wellFormed && decide (stream ≤ 3) && decide (arg ≤ 4294967295)
  | .forceIdr r stream arg => r.wellFormed && decide (stream ≤ 3) && decide (arg ≤ 4294967295)
  | .decode r _ => r.wellFormed
  | .decodePicture concealed => decide (concealed ≤ 65535)
  | .decodeStop r arg => r.wellFormed && decide (arg ≤ 4294967295)
  | .capture r _ => r.wellFormed
  | .capturePack => true
  | .captureTimeout => true
  | .cropCut => true
  | .packCrateCheck => true
  | .crateUnchecked => true
  | .fireRecordComplete => true
  | .cellarTrain found => found.wellFormed
  | .cellarWipe => true
  | .cellarRetrain r arg => r.wellFormed && decide (arg ≤ 4294967295)
  | .dqsOscillatorRead => true
  | .patrolScrub _ => true
  | .cellarFreeze controller e => decide (controller ≤ 1) && e.wellFormed
  | .cellarResume r controller arg => r.wellFormed && decide (controller ≤ 1) && decide (arg ≤ 4294967295)
  | .wipeRange r _ => r.wellFormed
  | .rateSelect r arg => r.wellFormed && decide (arg ≤ 4294967295)
  | .rateSwitch => true
  | .selfRefreshEntry => true
  | .bar2Access access => access.wellFormed
  | .ethernetFrame port _ => decide (port ≤ 1)
  | .fpLinkChange port _ reason => decide (port ≤ 1) && decide (reason ≤ 5)
  | .ptpSync _ _ => true
  | .ptpAnnounce a => a.wellFormed
  | .ptpDelayReq => true
  | .announceTimeout => true
  | .setTime r _ => r.wellFormed
  | .stepTime r _ => r.wellFormed
  | .acceptStep r arg => r.wellFormed && decide (arg ≤ 4294967295)
  | .pulseArm r output arg => r.wellFormed && decide (output ≤ 3) && decide (arg ≤ 4294967295)
  | .pulseEdge output => decide (output ≤ 3)
  | .hostPortReset kind _ _ => decide (kind ≤ 3)
  | .timeNsRead _ => true
  | .msixSend vector _ => decide (vector ≤ 15)
  | .bellRing value => decide (value ≤ 4294967295)
  | .ringSoftware r arg => r.wellFormed && decide (arg ≤ 4294967295)
  | .claim by_ target => by_.wellFormed && decide (target ≤ 2)
  | .complete by_ target source => by_.wellFormed && decide (target ≤ 2) && decide (source ≤ 1023)
  | .resetTarget r target arg => r.wellFormed && decide (target ≤ 2) && decide (arg ≤ 4294967295)
  | .clearPending r arg => r.wellFormed && decide (arg ≤ 4294967295)
  | .pendingW1c word value => decide (word ≤ 31) && decide (value ≤ 4294967295)
  | .sourceConfigWrite r x value => r.wellFormed && decide (x ≤ 1023) && decide (value ≤ 4294967295)
  | .clockWindow clock _ => decide (clock ≤ 19)
  | .refDeviationWindow _ _ _ => true
  | .refLost input => decide (input ≤ 3)
  | .refRestored input => decide (input ≤ 1)
  | .refRevert => true
  | .selectReference r arg => r.wellFormed && decide (arg ≤ 4294967295)
  | .boothCalibrate _ _ => true
  | .xtalJudgement _ => true
  | .rideStarted ride _ => decide (ride ≤ 14)
  | .rideIdleStop ride => decide (ride ≤ 14)
  | .powerStateRequest r arg => r.wellFormed && decide (arg ≤ 4294967295)
  | .wake _ => true
  | .railEnable _ => true
  | .pgFail step => decide (1 ≤ step ∧ step ≤ 8)
  | .pmbusTelemetry readings => readings.all PmbusReading.wellFormed
  | .vcoreScaleTimeout => true
  | .powerOn => true
  | .resetN => true
  | .startup _ _ _ _ => true
  | .atticBackgroundErase => true
  | .resetController r arg => r.wellFormed && decide (arg ≤ 4294967295)
  | .lifecycleTransition r _ => r.wellFormed
  | .axisBusCycle => true
  | .axisReply axis reply => decide (axis ≤ 7) && decide (reply ≤ 18446744073709551615)
  | .stageTimeout axis => decide (axis ≤ 7)
  | .axisEnable r axis arg => r.wellFormed && decide (axis ≤ 7) && decide (arg ≤ 4294967295)
  | .axisTarget r axis _ => r.wellFormed && decide (axis ≤ 7)
  | .stop r axis arg => r.wellFormed && decide (axis ≤ 7) && decide (arg ≤ 4294967295)
  | .home r axis arg => r.wellFormed && decide (axis ≤ 7) && decide (arg ≤ 4294967295)
  | .clearError r axis arg => r.wellFormed && decide (axis ≤ 7) && decide (arg ≤ 4294967295)
  | .standstillDelay axis => decide (axis ≤ 7)
  | .limitSwitchInput input _ => decide (input ≤ 15)
  | .limFilterExpiry input => decide (input ≤ 15)
  | .limReleaseExpiry input => decide (input ≤ 15)
  | .faultLatch samples => samples.all RailSample.wellFormed
  | .clearFaults r arg => r.wellFormed && decide (arg ≤ 4294967295)
  | .forceWrite r word value => r.wellFormed && decide (word ≤ 2) && decide (value ≤ 18446744073709551615)
  | .heartbeatLoss => true
  | .carouselToggle => true
  | .dieTempRead _ _ => true
  | .periodClose => true
  | .closePeriod r arg => r.wellFormed && decide (arg ≤ 4294967295)
  | .usageTailWrite r arg => r.wellFormed && decide (arg ≤ 4294967295)
  | .stageServiceKey r _ => r.wellFormed
  | .setFamilyKey r _ => r.wellFormed
  | .clearFamilyKey r arg => r.wellFormed && decide (arg ≤ 4294967295)
  | .vddBoothioSag => true
  | .ptpMasterSync => true
  | .ptpMasterAnnounce => true
  | .clockRecoveryLock lane => decide (lane ≤ 31)

end Sys2Proof
end

