-- ==== Sys2Proof/Machine/Faults.lean ====
section
/-! DEFINITION. The fault commands and events (chapter 18): rails, clearing, forcing, the carousel, die temperatures. -/

namespace Sys2Proof.Machine

/-! ### Rails (R458, R459) -/

/-- What two rails show (R458): 0 healthy, 1 fault reported, 2 mismatch. -/
def railCode (t c : Bool) : Nat := if t == c then 2 else if t then 1 else 0

/-- The cause two samples raise: a fault reported in either, or a mismatch that lasts two samples, `seen` being the one before. -/
def railCause (seen : Nat) (x : RailSample) : Option Nat :=
  let a := railCode x.t0 x.c0
  let b := railCode x.t1 x.c1
  if a = 1 ∨ b = 1 then some 1
  else if a = 2 ∧ (seen = 2 ∨ b = 2) then some 2
  else none

/-- Sources that report healthy as soon as they have reported their event (R460). -/
def oneShot (f : Nat) : Bool := f == 5 || f == 6 || f == 10 || f == 13

/-- What the rails of a source were last seen to show. -/
def Ctl.railsOf (c : Ctl) (f : Nat) : Nat := kvGet 0 c.flt.rails f

/-- What the later sample shows of the cause; the rails of a forced source show the force (R468). -/
def Ctl.railsSeen (c : Ctl) (x : RailSample) : Ctl :=
  let b := railCode x.t1 x.c1
  let v := if c.forced x.source || (b == 1 && oneShot x.source) then 0 else b
  let agreed := if x.source = faultPositionCompare then
      (if v = 0 ∧ (c.railsOf x.source ≠ 0 ∨ railCode x.t0 x.c0 ≠ 0) then some c.now else if v = 0 then c.flt.agreedAt else none)
    else c.flt.agreedAt
  c.setFlt { c.flt with rails := kvSet 0 c.flt.rails x.source v, agreedAt := agreed }

/-- The causes of a list of samples; a forced source latches as FORCED. -/
def Ctl.sampleCauses (c : Ctl) (xs : List RailSample) : List (Nat × Nat) :=
  xs.filterMap fun x => (railCause (c.railsOf x.source) x).map fun k => (x.source, if c.forced x.source then 3 else k)

/-- The collector runs on the control clock: not while the core is held in reset, nor in SLEEP (R467, R471). -/
def Ctl.collects (c : Ctl) : Bool := c.phase != .held && c.phase != .asleep

/-- FAULT_LATCH (R459). -/
def execFaultLatch (samples : List RailSample) (s : State) : Host.Outcome State Fault Refusal :=
  let c := s.mach.ctl
  let xs := samples.filter RailSample.wellFormed
  if c.collects then nextCtl s ((forEach xs Ctl.railsSeen c).latchSources (c.sampleCauses xs)) else .next s

/-! ### Clearing (R465) -/

/-- Sources a clear_faults names. -/
def clearNamed (arg : Nat) : List Nat := if arg = 0xFFFF then List.range 192 else [arg]

/-- A named source is cleared if it may be and its cause is gone. -/
def Ctl.clearOne (c : Ctl) (f : Nat) : Ctl :=
  if c.isLatched f && !hardLatched f && !c.causePresent f then
    (c.putN (Obj.source_cause f) 0).putN Obj.faults_latched (c.nat Obj.faults_latched - 1)
  else c

/-- The safe stop ends with the last latched source. -/
def Ctl.endSafeStop (c : Ctl) : Ctl :=
  (c.setFlt { c.flt with pairsLow := false }).ring Src.SAFE_STOP_END 0xFFFF Obj.faults_latched

/-- clear_faults (R465). -/
def ownClearFaults (arg n : Nat) (c : Ctl) : Nat × Ctl :=
  let c0 := c.cmdRun Obj.clear_faults n
  let c1 := forEach (clearNamed arg) Ctl.clearOne c0
  let c2 := if c.faulted && !c1.faulted then c1.endSafeStop else c1
  let left := (clearNamed arg).filter c2.isLatched
  (St.STARTED,
    if left.isEmpty then c2.cmdDone Obj.clear_faults Src.FAULT_CMD_DONE
    else if left.all hardLatched then c2.cmdFail Obj.clear_faults St.FAULT_HARD_LATCHED Src.FAULT_CMD_DONE
    else c2.cmdFail Obj.clear_faults St.FAULT_PRESENT Src.FAULT_CMD_DONE)

/-- CLEAR_FAULTS (R465). -/
def execClearFaults (r : Req) (arg : Nat) (s : State) : Host.Outcome State Fault Refusal :=
  nextMach s (s.mach.ctlRow r Obj.clear_faults (le 2 arg) (ownClearFaults arg))

/-! ### Forcing (R468) -/

/-- A write of a word of force bits: bits newly set latch their sources with cause FORCED. -/
def ownForce (word value : Nat) (_n : Nat) (c : Ctl) : Nat × Ctl :=
  let before := c.nat (Obj.force word)
  let new := (List.range 64).filter fun i => bit value i && !bit before i
  let c1 := c.putN (Obj.force word) value
  let c2 := if before = value then c1 else c1.ring Src.FORCE_CHANGE 0xFFFF (Obj.force word)
  (St.OK, c2.latchSources (new.map fun i => (64 * word + i, 3)))

/-- FORCE_WRITE (R468). -/
def execForceWrite (r : Req) (word value : Nat) (s : State) : Host.Outcome State Fault Refusal :=
  if word < 3 then nextMach s (s.mach.ctlRow r (Obj.force word) (le 8 value) (ownForce word value)) else .next s

/-! ### The carousel (R469) -/

/-- HEARTBEAT_LOSS: the booth has missed the collector's heartbeat for 100 us (log entry 21). -/
def execHeartbeatLoss (s : State) : Host.Outcome State Fault Refusal :=
  let c := s.mach.ctl
  nextCtl s (c.stopCarousel.setFlt { c.stopCarousel.flt with beatLost := some c.now })

/-- Every condition of R469 holds: STANDBY or above, no source latched, the heartbeat received. -/
def Ctl.carouselHealthy (c : Ctl) : Bool :=
  c.awake && decide (1 ≤ c.nat Obj.power_state) && !c.faulted && c.flt.beatLost == none

/-- The ball changes level; the first edge shows RUNNING. -/
def Ctl.toggleCarousel (c : Ctl) : Ctl :=
  let level := !c.flt.carousel
  let c1 := (c.setFlt { c.flt with carousel := level, toggledAt := c.now }).emit (.pin "CAROUSEL" level)
  if c1.nat Obj.carousel_state = 1 then c1
  else (c1.putN Obj.carousel_state 1).ring Src.CAROUSEL_STATE 0xFFFF Obj.carousel_state

/-- CAROUSEL_TOGGLE: 20,000 cycles of the RC are 490 us at the least before trimming. -/
def execCarouselToggle (s : State) : Host.Outcome State Fault Refusal :=
  let c := s.mach.ctl
  if c.carouselHealthy ∧ (c.nat Obj.carousel_state = 0 ∨ c.flt.toggledAt + 490000 ≤ c.now) then nextCtl s c.toggleCarousel
  else .next s

/-! ### Die temperature (R461) -/

/-- TEMP_WARNING rings when a sensor rises above 1800:21. -/
def Ctl.warnTemp (c : Ctl) (a b : Int) : Ctl :=
  let w : Int := 10 * (c.nat Obj.temp_warning : Int)
  if (w < a ∧ c.int Obj.die_temp_a ≤ w) ∨ (w < b ∧ c.int Obj.die_temp_b ≤ w) then
    c.ring Src.TEMP_WARNING 0xFFFF Obj.die_temp_a else c

/-- The sensors differ by more than 8 degrees: since when. -/
def Ctl.apartSince (c : Ctl) (a b : Int) : Option Nat :=
  if 80 < (a - b).natAbs then some (c.flt.sensorsApart.getD c.now) else none

/-- DIE_TEMP_READ (R461, R460 sources 11 and 12). -/
def execDieTempRead (a b : Int) (s : State) : Host.Outcome State Fault Refusal :=
  let c := s.mach.ctl
  let apart := c.apartSince a b
  let c1 := (((c.warnTemp a b).putI Obj.die_temp_a a).putI Obj.die_temp_b b)
  let c2 := c1.setFlt { c1.flt with sensorsApart := apart }
  let hot : Int := 10 * (c.nat Obj.temp_limit : Int)
  let far := match apart with
    | some t => decide (t + ms ≤ c.now)
    | none => false
  if c.collects then
    nextCtl s (c2.latchSources ((if hot < a ∨ hot < b then [(faultJunctionTemp, 1)] else []) ++
      (if far then [(faultTempSensor, 1)] else [])))
  else .next s

end Sys2Proof.Machine
end

