-- ==== Sys2Proof/Machine/Fire.lean ====
section
/-! DEFINITION. The ringmasters' commands and events (chapter 08): arming, firing, overspeed, self-checks, change-overs. -/

namespace Sys2Proof.Machine

/-! ### Strobe lines (R219, R222 to R224) -/

/-- A line armed ahead in an edge mode has no edge yet to be too close (R222). -/
def Ctl.armOutcome (c : Ctl) (s : Nat) (t : Ticket) (n placed : Nat) (edge : Bool) : Nat :=
  if edge then (if t.work.late.contains (pairBar s, n) then 2 else if c.nat Obj.overspeed_state = 2 then 3 else 0)
  else c.frozenOutcome s t n placed

/-- A strobe line frozen, or armed ahead; a line that will fire has its arm word sent (R157, R219). -/
def Ctl.freeze (c : Ctl) (s : Nat) (t : Ticket) (n placed target : Nat) (edge : Bool) : Ctl :=
  let tag := t.countOf (pairBar s) n % 65536
  let o := c.armOutcome s t n placed edge
  let c1 := c.setPair s { c.pair s with armed := some ⟨t.number, n, tag, placed, o, target, !edge⟩ }
  if o = 0 then c1.emit (.armWord s (armBits tag)) else c1

/-- 20 ns after the previous fire pulse ends, 120 ns after its edge (R157, R222). -/
def Ctl.pulseOver (c : Ctl) (s : Nat) : Bool :=
  match (c.pair s).lastEdge with
  | some e => decide (e + 480 ≤ c.now250)
  | none => true

/-- STROBE_ARM: in PREDICT mode 64 ns before the predicted crossing, in the edge modes as soon as the pair is free. -/
def execStrobeArm (pair : Nat) (s : State) : Host.Outcome State Fault Refusal :=
  let c := s.mach.ctl
  if !decide (pair < 32) || (c.pair pair).armed.isSome || !c.mayFire then .next s
  else match c.nextStrobe pair with
    | none => .next s
    | some (t, n) =>
      let target := c.strobeTarget t n pair
      if c.nat Obj.fire_mode = 0 then
        match c.crossing target (c.now250 + windowBefore) with
        | none => .next s
        | some tp => nextCtl s (c.freeze pair t n (tp + kvGet 0 t.work.trims pair) target false)
      else if c.pulseOver pair then nextCtl s (c.freeze pair t n 0 (64 * ((target + 32) / 64)) true)
      else .next s

/-- STROBE_FIRE: at the placed time of an omitted line, and 40 ns after the edge of a fired one, when its outcome is known (log entry 38). A line whose ticket has ended is dropped. -/
def execStrobeFire (pair : Nat) (s : State) : Host.Outcome State Fault Refusal :=
  let c := s.mach.ctl
  match (c.pair pair).armed with
  | none => .next s
  | some x =>
    match c.strobePage x.ticket with
    | none => nextCtl s (c.setPair pair { c.pair pair with armed := none })
    | some t =>
      if t.ended || c.flt.pairsLow || !c.on Obj.position_valid then
        nextCtl s (c.setPair pair { c.pair pair with armed := none })
      else if pair < 32 ∧ x.due = true ∧ x.placed + (if x.outcome = 0 then windowAfter else 0) ≤ c.now250 then
        nextCtl s (c.strobeOutcome pair t x.line x.outcome x.placed)
      else .next s

/-! ### Overspeed (R225) -/

/-- OVERSPEED_EPISODE_END: 64 lines of travel without an omission. -/
def execOverspeedEpisodeEnd (s : State) : Host.Outcome State Fault Refusal :=
  let c := s.mach.ctl
  if c.nat Obj.overspeed_state = 1 ∧ c.fire.lastOmitAt + 64 * 64 ≤ c.pp then nextCtl s (c.putN Obj.overspeed_state 0) else .next s

/-- Armed lines whose edge has not left are given an outcome by a change of HOLD (R225). -/
def Ctl.rearm (c : Ctl) (f : Armed → Nat) : Ctl :=
  forEach (List.range 32) (fun c s =>
    match (c.pair s).armed with
    | some x =>
      let o := f x
      let c1 := c.setPair s { c.pair s with armed := some { x with outcome := o } }
      if x.outcome = 3 ∧ o = 0 then c1.emit (.armWord s (armBits x.tag)) else c1
    | none => c) c

/-- HOLD begins: its distance is the longest outstanding ticket, at least 1 line; a line whose edge has not left is omitted. -/
def Ctl.beginHold (c0 : Ctl) : Ctl :=
  let full := max 1 (maxOf (c0.live.map (·.length)))
  let c := c0.rearm fun x => if x.outcome = 0 ∧ (x.due = false ∨ c0.now250 < x.placed) then 3 else x.outcome
  (((c.setFire { c.fire with holdFull := full, holdTick := c.pp }).putN Obj.overspeed_state 2).putN Obj.hold_remaining full).ring
    Src.OVERSPEED_HOLD 0xFFFF Obj.hold_remaining

/-- OVERSPEED_HOLD: an episode longer than 6100:0F lines of travel. -/
def execOverspeedHold (s : State) : Host.Outcome State Fault Refusal :=
  let c := s.mach.ctl
  if c.nat Obj.overspeed_state = 1 ∧ c.fire.episodeFrom + 64 * c.nat Obj.overspeed_limit < c.pp then nextCtl s c.beginHold
  else .next s

/-- HOLD_END: the hold distance has run out; a line armed ahead in an edge mode fires again. -/
def execHoldEnd (s : State) : Host.Outcome State Fault Refusal :=
  let c := s.mach.ctl
  if c.nat Obj.overspeed_state = 2 ∧ c.nat Obj.hold_remaining = 0 then
    nextCtl s ((c.putN Obj.overspeed_state 0).rearm fun x => if x.outcome = 3 ∧ x.due = false then 0 else x.outcome)
  else .next s

/-! ### The ringmasters (R226 to R233) -/

/-- A state given to a ringmaster, RM_STATE ringing (log entry 42). -/
def Ctl.setRm (c : Ctl) (r st : Nat) : Ctl := (c.putN (rmState r) st).ring Src.RM_STATE 0xFFFF (rmState r)

/-- The check that counts for a ringmaster: COMMIT only in STANDBY, READBACK only in ACTIVE (R227). -/
def Ctl.rmFails (c : Ctl) (r code : Nat) : Bool :=
  decide (1 ≤ code ∧ code ≤ 5) && (code != 4 || c.nat (rmState r) == 1) && (code != 5 || c.nat (rmState r) == 0)

/-- A failed self-check: RECOVERING with the clean count at 0, the code recorded (R227). -/
def Ctl.rmFailed (c : Ctl) (r code : Nat) : Ctl :=
  let c1 := (c.putN (rmClean r) 0).putN (rmCause r) code
  if c1.nat (rmState r) = 2 then c1 else c1.setRm r 2

/-- A clean interval of a RECOVERING ringmaster is counted. -/
def Ctl.rmPassed (c : Ctl) (r : Nat) : Ctl :=
  if c.nat (rmState r) = 2 then c.putN (rmClean r) (min 1024 (c.nat (rmClean r) + 1)) else c

/-- A request_switch loses its STANDBY. -/
def Ctl.dropRequest (c : Ctl) : Ctl :=
  if c.cmdBusy Obj.request_switch then c.cmdFail Obj.request_switch St.NO_STANDBY Src.FIRE_CMD_DONE else c

/-- The active ringmaster failed (R230), or failed while the other was not STANDBY (R232). -/
def Ctl.activeFailed (c : Ctl) (r code : Nat) (otherOk : Bool) : Ctl :=
  if otherOk then c.switchOver (1 - r) code Src.RM_SWITCH
  else ((c.putN Obj.active_ringmaster 2).dropRequest).raiseFault faultRingmasterBoth

/-- RM_SELF_CHECK: the end of a 1.024 us interval, with the failing check of A and of B, 0 for none (R227, R230 to R232). -/
def execRmSelfCheck (a b : Nat) (s : State) : Host.Outcome State Fault Refusal :=
  let c := s.mach.ctl
  if c.now < c.fire.checkAt + 1024 then .next s
  else
    let fa := c.rmFails 0 a
    let fb := c.rmFails 1 b
    let act := c.nat Obj.active_ringmaster
    let c0 := c.setFire { c.fire with checkAt := c.now, syncAt := if (fa && c.nat (rmState 0) == 3) || (fb && c.nat (rmState 1) == 3) then none else c.fire.syncAt }
    let c1 := if fa then c0.rmFailed 0 a else c0.rmPassed 0
    let c2 := if fb then c1.rmFailed 1 b else c1.rmPassed 1
    nextCtl s (
      if act = 0 ∧ fa then c2.activeFailed 0 a (c.nat (rmState 1) == 1 && !fb)
      else if act = 1 ∧ fb then c2.activeFailed 1 b (c.nat (rmState 0) == 1 && !fa)
      else if (act = 0 ∧ fb) ∨ (act = 1 ∧ fa) then c2.dropRequest
      else c2)

/-- RM_SYNC_START: a RECOVERING ringmaster with 1,024 clean checks, while the other is ACTIVE (R229). -/
def execRmSyncStart (rm : Nat) (s : State) : Host.Outcome State Fault Refusal :=
  let c := s.mach.ctl
  if rm < 2 ∧ c.nat (rmState rm) = 2 ∧ c.nat (rmClean rm) = 1024 ∧ c.nat Obj.active_ringmaster = 1 - rm then
    nextCtl s ((c.setFire { c.fire with syncAt := some c.now }).setRm rm 3)
  else .next s

/-- A change of ringmasters is wanted: a retake, or a request (R233). -/
def Ctl.retakeDue (c : Ctl) : Bool :=
  let p := c.nat Obj.preferred_ringmaster
  c.on Obj.auto_retake && c.nat Obj.active_ringmaster == 1 - p && c.nat (rmState p) == 1

/-- The wait for a quiet interval begins. -/
def Ctl.armRetake (c : Ctl) : Ctl :=
  if c.retakeDue && c.fire.retakeAt.isNone then c.setFire { c.fire with retakeAt := some c.now } else c

/-- RM_SYNC_DONE: the copy of the line state has ended, within 20 us (R229). -/
def execRmSyncDone (rm : Nat) (s : State) : Host.Outcome State Fault Refusal :=
  let c := s.mach.ctl
  if rm < 2 ∧ c.nat (rmState rm) = 3 then
    nextCtl s (((c.setFire { c.fire with syncAt := none }).setRm rm 1).armRetake)
  else .next s

/-- The change-over a retake or a request asks for; the ringmaster that drove becomes STANDBY. -/
def Ctl.changeOver (c : Ctl) : Ctl :=
  let act := c.nat Obj.active_ringmaster
  let src := if c.retakeDue then Src.RM_RETAKE else Src.RM_SWITCH
  ((c.switchOver (1 - act) 0 src).setRm act 1).armRetake

/-- A change-over is wanted and the other ringmaster is STANDBY. -/
def Ctl.changeWanted (c : Ctl) : Bool :=
  let act := c.nat Obj.active_ringmaster
  decide (act < 2) && c.nat (rmState (1 - act)) == 1 && (c.retakeDue || c.cmdBusy Obj.request_switch)

/-- RM_RETAKE: the first quiet interval of 64 ns (R233). -/
def execRmRetake (s : State) : Host.Outcome State Fault Refusal :=
  let c := s.mach.ctl
  if c.changeWanted && c.quiet then nextCtl s c.changeOver else .next s

/-- RETAKE_WAIT_EXPIRY: no quiet interval within 6100:12 ms; the gap rule of R230 applies. -/
def execRetakeWaitExpiry (s : State) : Host.Outcome State Fault Refusal :=
  let c := s.mach.ctl
  match c.fire.retakeAt with
  | some t =>
    if c.changeWanted && decide (t + c.nat Obj.retake_wait * ms ≤ c.now) then nextCtl s c.changeOver else .next s
  | none => .next s

/-- request_switch (R233). -/
def ownRequestSwitch (n : Nat) (c : Ctl) : Nat × Ctl :=
  let act := c.nat Obj.active_ringmaster
  if 2 ≤ act ∨ c.nat (rmState (1 - act)) ≠ 1 then
    (St.STARTED, c.cmdNowFail Obj.request_switch n St.NO_STANDBY Src.FIRE_CMD_DONE)
  else
    let c1 := c.cmdRun Obj.request_switch n
    (St.STARTED, if c1.quiet then c1.changeOver else c1.setFire { c1.fire with retakeAt := some (c1.fire.retakeAt.getD c1.now) })

/-- REQUEST_SWITCH (R233). -/
def execRequestSwitch (r : Req) (arg : Nat) (s : State) : Host.Outcome State Fault Refusal :=
  nextMach s (s.mach.ctlRow r Obj.request_switch (le 1 arg) ownRequestSwitch)

end Sys2Proof.Machine
end

