-- ==== Sys2Proof/Machine/HostMap.lean ====
section
/-! DEFINITION. What the host reads of BAR0 and of configuration space, and writes of the port's configuration (R368, R370, R371, R373,
R387, R51). Places in configuration space are those of the PCI Express base specification (log entry 163). -/

namespace Sys2Proof.Machine

/-! ### Registers (R371) -/

/-- HP_STATUS. -/
def Ctl.hpStatus (c : Ctl) : Nat :=
  (if c.awake then 1 else 0) + (if c.nat Obj.usable_bytes = 0 then 0 else 2) + (if c.nat Obj.admission_state = 1 then 4 else 0) +
    (if c.faultSummary = 0 then 0 else 8) + if c.nat Obj.power_state = 3 then 16 else 0

/-- A head; all ones while its owner's ride is stopped. -/
def Ctl.headRegister (c : Ctl) (key : Nat) : Nat :=
  match c.rideOfObject key with
  | some j => if c.rideStopped j then 2 ^ 32 - 1 else c.nat key
  | none => c.nat key

/-- A host-port register. -/
def Ctl.portRegister (c : Ctl) (o : Nat) : Nat :=
  let tails := [Obj.submit_tail, Obj.completion_tail, Obj.loop_tail, Obj.item_tail] ++ (List.range 4).map Obj.index_tail ++ [Obj.dec_tail]
  let heads := [Obj.submit_head, Obj.completion_head, Obj.loop_head, Obj.item_head] ++ (List.range 4).map Obj.index_head ++ [Obj.dec_head]
  if o = 0 then 0x945000B1
  else if o = 4 then c.hpStatus
  else if 0x10 ≤ o ∧ o ≤ 0x30 then (tails[(o - 0x10) / 4]?.map c.nat).getD 0
  else if 0x40 ≤ o ∧ o ≤ 0x60 then (heads[(o - 0x40) / 4]?.map c.headRegister).getD 0
  else if o = 0x80 then c.compact
  else if o = 0x84 then c.localNs % 10 ^ 9
  else if o = 0x88 then c.host.secLatch % 2 ^ 32
  else if o = 0x8C then c.host.secLatch / 2 ^ 32 % 2 ^ 16
  else 0

/-! ### The bell's registers (R387) -/

/-- 32 sources as bits, from source 32w on. -/
def sourceWord (p : Nat → Bool) (w : Nat) : Nat := ((List.range 32).map fun i => if p (32 * w + i) then 2 ^ i else 0).sum

/-- A register of the bell, from 0x0001_0000 on. -/
def Ctl.bellRegister (c : Ctl) (o : Nat) : Nat :=
  let t := (o - 0x2000) / 0x100
  if o < 0x1000 then c.bellWord (o / 4)
  else if 0x2000 ≤ o ∧ o < 0x2300 then
    if o % 0x100 = 8 then (c.stack t).length else if o % 0x100 = 12 then c.topWord t else 0
  else if 0x3000 ≤ o ∧ o < 0x3080 then sourceWord c.isPending ((o - 0x3000) / 4)
  else if 0x3080 ≤ o ∧ o < 0x3100 then sourceWord c.isActive ((o - 0x3080) / 4)
  else 0

/-! ### MSI-X and the mailbox (R373, R51) -/

/-- A dword of the MSI-X table. -/
def Ctl.msixDword (c : Ctl) (o : Nat) : Nat :=
  let e := kvGet MsixEntry.reset c.host.table (o / 16)
  [e.address % 2 ^ 32, e.address / 2 ^ 32, e.data, if e.masked then 1 else 0].getD (o % 16 / 4) 0

/-- The pending bit array. -/
def Ctl.msixPending (c : Ctl) : Nat := ((List.range 16).map fun v => if kvGet false c.host.waiting v then 2 ^ v else 0).sum

/-- A byte of the mailbox: request buffer, response buffer, event ring. -/
def Ctl.mailboxByte (c : Ctl) (o : Nat) : Byte :=
  let y := c.ydp
  if o < 0x800 then y.mbxRequest.getD o 0
  else if o < 0x1000 then y.mbxResponse.getD (o - 0x800) 0
  else if 0x2000 ≤ o ∧ o < 0x6000 then (kvGet [] y.evtRing ((o - 0x2000) / 0x800)).getD (o % 0x800) 0
  else 0

/-- A dword of the mailbox. -/
def Ctl.mailboxDword (c : Ctl) (o : Nat) : Nat :=
  let y := c.ydp
  if o = 0x1004 then (if y.mbxBusy then 1 else 0) + (if y.mbxReady then 2 else 0) + if c.mailboxOpen then 4 else 0
  else if o = 0x1008 then y.evtHead
  else if o = 0x100C then y.evtTail
  else leVal ((List.range 4).map fun i => c.mailboxByte (o + i))

/-! ### Dwords of BAR0 (R370) -/

/-- What a dword of BAR0 holds; other places read 0. -/
def Ctl.hostDword (c : Ctl) (o : Nat) : Nat :=
  if o < 0x1000 then c.portRegister o
  else if 0x10000 ≤ o ∧ o < 0x20000 then c.bellRegister (o - 0x10000)
  else if 0xE0000 ≤ o ∧ o < 0xE0100 then c.msixDword (o - 0xE0000)
  else if o = 0xE1000 then c.msixPending
  else if 0xF0000 ≤ o ∧ o < 0xF6000 then c.mailboxDword (o - 0xF0000)
  else 0

/-- A dword read, with what reading it does: CLAIM[t] claims, TIME_NS latches the seconds of the same instant. -/
def Ctl.readDword (c : Ctl) (o : Nat) : Nat × Ctl :=
  if o = 0x12000 ∨ o = 0x12100 ∨ o = 0x12200 then c.claimTarget ((o - 0x12000) / 0x100)
  else if o = 0x84 then (c.hostDword o, { c with host := { c.host with secLatch := c.localNs / 10 ^ 9 } })
  else (c.hostDword o, c)

/-- The enabled bytes of a dword. -/
def enabledBytes (v enables : Nat) : Nat := ((List.range 4).map fun i => if bit enables i then v / 256 ^ i % 256 * 256 ^ i else 0).sum

/-- A read from an offset on, dword by dword in ascending order; one without an enabled byte is not read. -/
def Ctl.readBar0 (c : Ctl) : Nat → List Nat → Ctl
  | _, [] => c
  | o, e :: r =>
    if e % 16 = 0 then c.readBar0 (o + 4) r
    else
      let a := c.readDword (o / 4 * 4)
      (a.2.emit (.hostRead (o / 4 * 4) (enabledBytes a.1 e))).readBar0 (o + 4) r

/-! ### Configuration space (R368) -/

/-- Bytes of a BAR: 1 MiB of BAR0/1, the size of BAR2/3 in force. -/
def Ctl.barSize (c : Ctl) (dword : Nat) : Nat := if dword < 2 then 2 ^ 20 else c.host.bar2 * 2 ^ 30

/-- A BAR dword: 64-bit, BAR2/3 prefetchable. -/
def Ctl.barDword (c : Ctl) (dword : Nat) : Nat :=
  kvGet 0 c.host.bars dword + if dword = 0 then 4 else if dword = 2 then 12 else 0

/-- A BAR dword written: the address bits above its size. -/
def Ctl.barWritten (c : Ctl) (dword value : Nat) : Ctl :=
  let size := c.barSize dword
  let unit := if dword % 2 = 0 then min size (2 ^ 32) else max 1 (size / 2 ^ 32)
  if dword < 4 then { c with host := { c.host with bars := kvSet 0 c.host.bars dword (value % 2 ^ 32 / unit * unit) } } else c

/-- A dword of the Type 0 header; none where its place is not the header's. -/
def Ctl.configDword (c : Ctl) (o : Nat) : Option Nat :=
  if o = 0x00 then some 0x94501F3C
  else if o = 0x04 then some (0x00100000 + (if c.host.memory then 2 else 0) + if c.host.busMaster then 4 else 0)
  else if o = 0x08 then some 0x118000B1
  else if 0x10 ≤ o ∧ o < 0x20 then some (c.barDword ((o - 0x10) / 4))
  else if o = 0x2C then some (c.host.subId * 65536 + c.host.subVendor)
  else if o = 0x34 ∨ 0x40 ≤ o then none
  else some 0

/-- A read of the host port; places of capabilities are open (log entry 163). -/
def Ctl.hostRead (c : Ctl) : HostRead → Ctl
  | .bar0 o es => c.readBar0 o es
  | .config o =>
    match c.configDword (o / 4 * 4) with
    | some v => c.emit (.hostRead (o / 4 * 4) v)
    | none => c.took.emit (.hostRead (o / 4 * 4) (c.fresh (2 ^ 32)))

/-! ### Writes of the configuration (R368, R373) -/

/-- A dword of the MSI-X table written. -/
def MsixEntry.written (e : MsixEntry) (field v : Nat) : MsixEntry :=
  if field = 0 then { e with address := e.address / 2 ^ 32 * 2 ^ 32 + v / 4 * 4 }
  else if field = 1 then { e with address := e.address % 2 ^ 32 + v * 2 ^ 32 }
  else if field = 2 then { e with data := v }
  else { e with masked := v % 2 == 1 }

/-- The function in D0 or D3hot, with PME_En: PCIE_WAKE_N is released on the return to D0. -/
def Ctl.hostPower (c : Ctl) (value : Nat) : Ctl :=
  let d3 := value % 4 == 3
  let c1 := { c with host := { c.host with d3hot := d3, pmeEnable := bit value 8 } }
  if d3 then c1.pmeAsserts
  else if c.host.wakeLow then ({ c1 with host := { c1.host with wakeLow := false } }).emit (.pin "PCIE_WAKE_N" true) else c1

/-- A write of the host. -/
def Ctl.hostWrite (c : Ctl) : HostWrite → Ctl
  | .nothing => c
  | .command v => { c with host := { c.host with memory := bit v 1, busMaster := bit v 2 } }
  | .msixControl v =>
    ({ c with host := { c.host with enable := bit v 15, functionMask := bit v 14 } }).putB Obj.msix_enabled (bit v 15)
  | .power v => c.hostPower v
  | .payload v => if v ≤ 2 then c.putN Obj.max_payload (128 * 2 ^ v) else c
  | .bar d v => c.barWritten d v
  | .table o v =>
    if o < 256 ∧ o % 4 = 0 then
      { c with host := { c.host with table := kvSet MsixEntry.reset c.host.table (o / 16)
                                                     ((kvGet MsixEntry.reset c.host.table (o / 16)).written (o % 16 / 4) (v % 2 ^ 32)) } }
    else c

end Sys2Proof.Machine
end

