-- ==== Sys2Proof/Machine/Host.lean ====
section
/-! DEFINITION. The host port's commands (R369 to R373): resets, TIME_NS, MSI-X messages, consumers' tails. -/

namespace Sys2Proof.Machine

/-! ### Resets of the host port (R369) -/

/-- A host port right after its reset: what took effect at the controller's own reset stays. -/
def HostPort.reset (h : HostPort) : HostPort :=
  ⟨[], [], false, false, false, false, false, false, false, [], 0, h.bar2, h.subVendor, h.subId⟩

/-- The mailbox empty: buffers, status, event ring. -/
def Ydp.mailboxReset (y : Ydp) : Ydp :=
  { y with mbxRequest := [], mbxResponse := [], mbxBusy := false, mbxReady := false, evtHead := 0, evtTail := 0, evtRing := [] }

/-- The link UP at a speed of 1 to 5 and a width of 1, 2, 4 or 8 lanes, else DOWN. -/
def Ctl.hostLink (c : Ctl) (speed width : Nat) : Ctl :=
  if 1 ≤ speed ∧ speed ≤ 5 ∧ [1, 2, 4, 8].contains width = true then
    ((c.putN Obj.host_link_state 2).putN Obj.link_speed speed).putN Obj.link_width width
  else ((c.putN Obj.host_link_state 0).putN Obj.link_speed 0).putN Obj.link_width 0

/-- The host port reset by PCIE_PERST_N (0), a hot reset (1), a link-down (2) or a Function Level Reset (3): its configuration, BAR
assignments, MSI-X table and mailbox; the mailbox session falls silent; target 2's stack is emptied (R41, 14). But for a Function Level
Reset the link trains again, to a speed and width, or stays down without one (R368). -/
def Ctl.resetHost (c : Ctl) (kind speed width : Nat) : Ctl :=
  let woken := if c.host.wakeLow then c.emit (.pin "PCIE_WAKE_N" true) else c
  let c1 := { woken.shutMailbox with host := c.host.reset }
  let c2 := (({ c1 with ydp := c1.ydp.mailboxReset }.putB Obj.msix_enabled false).putN Obj.max_payload 128)
  let c3 := if kind = 3 then c2 else c2.hostLink speed width
  (c3.bump Obj.host_resets).ring Src.HOST_RESET 0xFFFF Obj.host_resets |>.emptyTarget 2

/-- HOST_PORT_RESET. -/
def execHostPortReset (kind speed width : Nat) (s : State) : Host.Outcome State Fault Refusal :=
  if kind < 4 ∧ s.mach.ctl.phase ≠ .asleep then nextCtl s (s.mach.ctl.resetHost kind speed width) else .next s

/-! ### Reads of the host port (R368, R370, R371) -/

/-- TIME_NS_READ: a read of BAR0 or of configuration space; that of TIME_NS latches. -/
def execTimeNsRead (read : HostRead) (s : State) : Host.Outcome State Fault Refusal :=
  if s.mach.ctl.awake then nextCtl s (s.mach.ctl.hostRead read) else .next s

/-! ### MSI-X (R373) -/

/-- MSIX_SEND: after a write of the host that may lift what holds it, a message held is sent once nothing holds it. -/
def execMsixSend (vector : Nat) (write : HostWrite) (s : State) : Host.Outcome State Fault Refusal :=
  let c := s.mach.ctl.hostWrite write
  if !s.mach.ctl.awake then .next s
  else if vector < 16 ∧ kvGet false c.host.waiting vector = true ∧ c.msixFree vector = true then nextCtl s (c.msixRaise vector)
  else nextCtl s c

/-! ### Consumers' tails (R372) -/

/-- Tail object of a ring: 0 completion, 1 loop, 2 items, 3 to 6 index of a stream, 7 decoder. -/
def tailObject (ring : Nat) : Nat :=
  if ring = 0 then Obj.completion_tail else if ring = 1 then Obj.loop_tail else if ring = 2 then Obj.item_tail
  else if ring < 7 then Obj.index_tail (ring - 3) else Obj.dec_tail

/-- Head object of a ring. -/
def headObject (ring : Nat) : Nat :=
  if ring = 0 then Obj.completion_head else if ring = 1 then Obj.loop_head else if ring = 2 then Obj.item_head
  else if ring < 7 then Obj.index_head (ring - 3) else Obj.dec_head

/-- What a ring's indices count modulo: twice its entries; the decoder's 32 (R320). -/
def Ctl.ringSpan (c : Ctl) (ring : Nat) : Nat :=
  if ring = 0 then 8192 else if ring = 1 then 2 * c.nat Obj.loop_ring_entries else if ring = 2 then 2 * c.nat Obj.item_entries
  else if ring < 7 then 2 * c.nat (Obj.index_entries (ring - 3)) else 32

/-- Bits of a ring's tail register, and bytes of its object. -/
def tailBits (ring : Nat) : Nat := if ring = 0 then 13 else if ring = 2 then 17 else if ring < 7 then 21 else 5

/-- Bytes of a ring's tail object. -/
def tailBytes (ring : Nat) : Nat := if ring = 0 then 2 else if ring < 7 then 4 else 1

/-- `v` lies between the present tail and the head. -/
def Ctl.tailTakes (c : Ctl) (ring v : Nat) : Bool :=
  let m : Int := c.ringSpan ring
  let t : Int := c.nat (tailObject ring)
  decide (((v : Int) - t) % m ≤ ((c.nat (headObject ring) : Int) - t) % m)

/-- Entries from the present tail to `v`. -/
def Ctl.entriesTo (c : Ctl) (ring v : Nat) : Nat := (((v : Int) - c.nat (tailObject ring)) % (c.ringSpan ring : Int)).toNat

/-- What the owner of a ring frees with the entries passed: store space of items, output bytes of pictures; a decoder that waits goes on. -/
def Ctl.freesEntries (c : Ctl) (ring k : Nat) : Ctl :=
  if ring = 2 then c.freeItems k
  else if 3 ≤ ring ∧ ring < 7 then
    let x := c.stream (ring - 3)
    c.setStream (ring - 3) { x with pics := x.pics.drop k }
  else if ring = 7 ∧ c.nat Obj.decoder_state = 2 ∧ 0 < k then c.putN Obj.decoder_state 1
  else c

/-- A tail written: taken, or ignored, counted and rung (log entry 106). -/
def Ctl.consumerTail (c : Ctl) (ring v : Nat) : Nat × Ctl :=
  if c.tailTakes ring v then (St.OK, (c.freesEntries ring (c.entriesTo ring v)).putN (tailObject ring) v)
  else (St.OUT_OF_RANGE, (c.bump Obj.doorbell_errors).ring Src.HOST_DOORBELL_ERROR 0xFFFF Obj.doorbell_errors)

/-- CONSUMER_TAIL_WRITE. -/
def execConsumerTailWrite (ring : Nat) (w : TailWrite) (s : State) : Host.Outcome State Fault Refusal :=
  if ring < 8 then
    match w with
    | .reg v => if s.mach.ctl.awake then nextCtl s (s.mach.ctl.consumerTail ring (v % 2 ^ tailBits ring)).2 else .next s
    | .obj r v => nextMach s (s.mach.ctlRow r (tailObject ring) (le (tailBytes ring) v) fun _ c => c.consumerTail ring v)
  else .next s

end Sys2Proof.Machine
end

