-- ==== Sys2Proof/Machine/Operands.lean ====
section
/-! DEFINITION. Operand forms of a frame's payload: the entries of READ, WRITE and SUBSCRIBE (R46, R47, R52), and single
numbers as the bytes of a written value. -/

namespace Sys2Proof.Machine

/-- A 4-byte reference: index, subindex, 0 (R46). -/
def refKey (b : List Byte) : Nat := fld b 0 2 * 256 + fld b 2 1

/-- `n` references one after another (R46, R52). -/
def readRefs : Nat → List Byte → Option (List Nat)
  | 0, [] => some []
  | 0, _ => none
  | n + 1, b =>
    if b.length < 4 ∨ fld b 3 1 ≠ 0 then none
    else (readRefs n (b.drop 4)).map (refKey b :: ·)

/-- The references of a READ: count 1 to 32, 3 zero bytes, then 4 bytes each (R46). -/
def readList (b : List Byte) : Option (List Nat) :=
  let n := fld b 0 1
  if b.length < 4 ∨ n < 1 ∨ 32 < n ∨ fld b 1 3 ≠ 0 then none else readRefs n (b.drop 4)

/-- `n` entries of a WRITE, each reference, length, 2 zero bytes, value, padding to 4 bytes (R46). -/
def writeEntries : Nat → List Byte → Option (List Entry)
  | 0, [] => some []
  | 0, _ => none
  | n + 1, b =>
    let l := fld b 4 2
    let full := 8 + (l + 3) / 4 * 4
    if b.length < full ∨ fld b 3 1 ≠ 0 ∨ fld b 6 2 ≠ 0 ∨ fld (slice b (8 + l) (full - 8 - l)) 0 4 ≠ 0 then none
    else (writeEntries n (b.drop full)).map ((refKey b, slice b 8 l) :: ·)

/-- The entries of a WRITE (R47). -/
def writeList (b : List Byte) : Option (List Entry) :=
  let n := fld b 0 1
  if b.length < 4 ∨ n < 1 ∨ 32 < n ∨ fld b 1 3 ≠ 0 then none else writeEntries n (b.drop 4)

end Sys2Proof.Machine
end

