-- ==== Sys2Proof/Machine/Position.lean ====
section
/-! DEFINITION. Web position (chapter 08): encoder counts, index and check, loss, validation, the observer, the SSI inputs. -/

namespace Sys2Proof.Machine

/-! ### Quadrature (R209, R222) -/

/-- What new levels of A and B mean: nothing, an impossible transition, or a count with its direction. -/
inductive Count
  | none
  | impossible
  | forward
  | back
  deriving DecidableEq, Repr

/-- A direction, turned round where B leads. -/
def countOf (fwd : Bool) (dir : Nat) : Count := if fwd == (dir == 0) then .forward else .back

/-- Quadrature: every change of A or B is a count (R209). -/
def quadCount (e : Encoder) (a b : Bool) (dir : Nat) : Count :=
  if e.a ≠ a ∧ e.b ≠ b then .impossible
  else if e.a ≠ a then countOf (a != b) dir
  else if e.b ≠ b then countOf (a == b) dir
  else .none

/-- A count of ENC0 in the mode in force (R209, R222). -/
def Ctl.enc0Count (c : Ctl) (a b : Bool) : Count :=
  let e := c.pos.enc0
  let dir := c.nat Obj.enc0_direction
  match c.nat Obj.fire_mode with
  | 0 => quadCount e a b dir
  | 1 =>
    if e.a ≠ a ∧ e.b ≠ b then .impossible
    else if !e.a && a then countOf (!b) dir
    else .none
  | _ => if !e.a && a then .forward else .none

/-! ### Errors (R210, R211) -/

/-- ENC_ERROR rings for an error counted in an object. -/
def Ctl.encError (c : Ctl) (key : Nat) : Ctl := (c.bump key).ring Src.ENC_ERROR 0xFFFF key

/-- An encoder's impossible transition kept with those within 65,536 counts of it. -/
def Encoder.transit (e : Encoder) : Encoder :=
  { e with transitions := e.counts :: e.transitions.filter fun k => decide (e.counts < k + 65536), lastError := some e.counts }

/-- More than transition_limit of them: TRANSITIONS (R211). -/
def Ctl.judgeTransitions (c : Ctl) (e : Encoder) : Ctl :=
  if c.nat Obj.transition_limit < e.transitions.length then c.loseEncoder 1 else c

/-- 6100:29 follows the two travels (R210); an excess is CHECK (R211). -/
def Ctl.deviate (c : Ctl) : Ctl :=
  if c.nat Obj.enc1_mode = 0 then c
  else
    let d := ((c.pos.enc0.travelled.sub c.pos.enc1.travelled).divNat 1000000).round
    let c1 := c.putI Obj.check_deviation d
    if c1.nat Obj.check_limit < d.natAbs then
      (c1.setPos { c1.pos with enc0 := { c1.pos.enc0 with lastError := some c1.pos.enc0.counts } }).loseEncoder 3
    else c1

/-- An index error (R210); a second one with no passing index between is INDEX (R211). -/
def Ctl.indexError (c : Ctl) : Ctl :=
  let c1 := c.encError Obj.index_errors
  let p := c1.pos
  let c2 := c1.setPos { p with indexBad := true, enc0 := { p.enc0 with lastError := some p.enc0.counts } }
  if p.indexBad then c2.loseEncoder 2 else c2

/-- Index edges are checked: index_period set, and the mode sees direction (R210). -/
def Ctl.indexOn (c : Ctl) : Bool := c.nat Obj.index_period != 0 && c.nat Obj.fire_mode != 2

/-! ### A count of ENC0 (R213, R214, R216) -/

/-- Reverse travel beyond the tolerance with a ticket outstanding is REVERSE (R211). -/
def Ctl.judgeReverse (c : Ctl) : Ctl :=
  let behind := (Frac.ofInt (c.nat Obj.high_water)).sub c.pos.ticks
  if (Frac.ofInt (c.nat Obj.reverse_tolerance)).lt behind ∧ c.live ≠ [] then c.loseEncoder 4 else c

/-- Starvation (R88): web past the horizon while admission is OPEN, `before` being the position before the count. -/
def Ctl.starve (c : Ctl) (before : Nat) : Ctl :=
  let h := max before (c.nat Obj.horizon_end)
  if c.nat Obj.admission_state = 1 ∧ h < c.pp then
    let c1 := c.bumpBy Obj.starved_ticks (c.pp - h)
    if c1.on Obj.starved then c1 else (c1.putB Obj.starved true).ring Src.ADMIT_STARVED 0xFFFF Obj.starved
  else c

/-- The hold counts down while the speed keeps to the ceiling, and restarts from full above it (R225). -/
def Ctl.countHold (c : Ctl) : Ctl :=
  if c.nat Obj.overspeed_state ≠ 2 then c
  else if c.nat Obj.speed_ceiling < (c.int Obj.web_speed).natAbs then
    (c.putN Obj.hold_remaining c.fire.holdFull).setFire { c.fire with holdTick := c.pp }
  else
    let lines := (c.pp - c.fire.holdTick) / 64
    (c.putN Obj.hold_remaining (c.nat Obj.hold_remaining - lines)).setFire { c.fire with holdTick := c.fire.holdTick + 64 * lines }

/-- The position of a cue edge between two latch pairs, to 1 tick (R216). -/
def cueAt (p q : LatchPair) (at250 : Nat) : Option Nat :=
  if p.at250 ≤ at250 ∧ at250 ≤ q.at250 ∧ p.at250 < q.at250 then
    some (p.ticks.add (((q.ticks.sub p.ticks).mul ⟨(at250 - p.at250 : Nat), 1⟩).divNat (q.at250 - p.at250))).round.toNat
  else none

/-- Cue edges that wait for a latch pair take their position. -/
def Ctl.placeEdges (c : Ctl) : Ctl :=
  forEach [0, 1] (fun c i =>
    match kvGet none c.adm.cueEdge i, c.pos.before, c.pos.pair with
    | some e, some p, some q =>
      if e.pos.isNone then
        { c with adm := { c.adm with cueEdge := kvSet none c.adm.cueEdge i (some { e with pos := cueAt p q e.at250 }) } }
      else c
    | _, _, _ => c) c

/-- A placed edge's critical window overlaps the gap of the last switch-over (R230). -/
def Ctl.gapHits (c : Ctl) (placed : Nat) : Bool :=
  match c.fire.gapAt with
  | some g => decide (g < placed + windowAfter ∧ placed < g + 2 * windowBefore)
  | none => false

/-- In the edge modes the next strobe line of a pair once the position has come to its target (R222): the count that brings it there
places its edge, one that the count found already passed is omitted, never delayed (R224). -/
def Ctl.edgeLine (c : Ctl) (s before at250 : Nat) : Ctl :=
  match c.nextStrobe s with
  | none => c
  | some (t, n) =>
    let target := 64 * ((c.strobeTarget t n s + 32) / 64)
    if c.pp < target then c
    else
      let placed := at250 + kvGet 0 t.work.trims s
      let o0 := c.frozenOutcome s t n placed
      let o := if o0 ≠ 0 then o0 else if target ≤ before then 1 else if c.gapHits placed then 5 else 0
      let tag := t.countOf (pairBar s) n % 65536
      if o = 0 then
        let c1 := if (c.pair s).armed.isSome then c else c.emit (.armWord s (armBits tag))
        c1.setPair s { c1.pair s with armed := some ⟨t.number, n, tag, placed, 0, target, true⟩ }
      else c.strobeOutcome s t n o placed

/-- A placed line whose outcome is not yet known counts as fired when the next count comes. -/
def Ctl.settlePlaced (c : Ctl) (s : Nat) : Ctl :=
  match (c.pair s).armed with
  | some x => match c.strobePage x.ticket with
    | some t => if x.due then c.strobeOutcome s t x.line x.outcome x.placed else c
    | none => c
  | none => c

/-- A count in an edge mode, `before` being the position before it. -/
def Ctl.edgeFire (c : Ctl) (before at250 : Nat) : Ctl :=
  if c.nat Obj.fire_mode = 0 ∨ c.mayFire = false then c
  else forEach (List.range 32) (fun c s => (c.settlePlaced s).edgeLine s before at250) c

/-- Reverse travel: a line frozen whose edge has not left does not leave while the web is behind its high water (R213); it is frozen anew
when the web comes forward. -/
def Ctl.holdBack (c : Ctl) (at250 : Nat) : Ctl :=
  if c.nat Obj.high_water ≤ c.pp then c
  else forEach (List.range 32) (fun c s =>
    match (c.pair s).armed with
    | some x => if x.due ∧ at250 < x.placed then c.setPair s { c.pair s with armed := none } else c
    | none => c) c

/-- The position after a count, and all that follows from it. -/
def Ctl.moveTo (c : Ctl) (x : Frac) (at250 : Nat) : Ctl :=
  let before := c.pp
  let p := c.pos
  let pos := (max 0 x.floor).toNat
  let c1 := c.setPos { p with ticks := x, before := p.pair, pair := some ⟨x, at250, c.localNs⟩ }
  let c2 := (c1.putN Obj.print_position pos).putN Obj.high_water (max (c1.nat Obj.high_water) pos)
  (((((c2.holdBack at250).placeEdges.measureExposures.judgeReverse).starve before).countHold).deviate).edgeFire before at250

/-- A count of ENC0, forward or back. -/
def Ctl.countEnc0 (c : Ctl) (fwd : Bool) (at250 : Nat) : Ctl :=
  let st := c.stretches
  let mode := c.nat Obj.fire_mode
  let pm : Frac := if mode = 0 then Frac.ofInt (c.nat Obj.enc0_pitch) else (tickPm c.pitchNow).mul ⟨64, 1⟩
  let e := c.pos.enc0
  let e1 : Encoder := { e with counts := e.counts + 1, travelled := if fwd then e.travelled.add pm else e.travelled.sub pm }
  let c1 := (c.setPos { c.pos with enc0 := e1 }).putI Obj.enc0_counts (c.int Obj.enc0_counts + (if fwd then 1 else -1))
  let x := c.pos.ticks
  let y :=
    if mode = 0 then (if fwd then forwardBy st st.length x pm else backwardBy st st.length x pm)
    else if fwd then x.add ⟨64, 1⟩ else x.sub ⟨64, 1⟩
  (c1.camsTravel fwd pm).moveTo y at250

/-- A sample of an input (R208): the filter after it, and whether its level counts, having held for enc_filter samples since its
change. -/
def InFilter.sample (f : InFilter) (depth : Nat) (level : Bool) : InFilter × Bool :=
  let g : InFilter := if level = f.raw then ⟨level, min 16 (f.held + 1)⟩ else ⟨level, 0⟩
  (g, decide (depth ≤ g.held))

/-- The qualified level after a sample. -/
def qualified (old level counts : Bool) : Bool := if counts then level else old

/-- A sample of both inputs of an encoder: its filters after it, and the qualified levels. -/
def Encoder.sample (e : Encoder) (depth : Nat) (a b : Bool) : Encoder × Bool × Bool :=
  let x := e.inA.sample depth a
  let y := e.inB.sample depth b
  ({ e with inA := x.1, inB := y.1 }, qualified e.a a x.2, qualified e.b b y.2)

/-- What qualified levels of ENC0 do, at a time in 250 ps. -/
def Ctl.enc0Levels (c : Ctl) (a b : Bool) (at250 : Nat) : Ctl :=
  let k := c.enc0Count a b
  let c0 := c.setPos { c.pos with enc0 := { c.pos.enc0 with a := a, b := b } }
  match k with
  | .none => c0
  | .impossible =>
    let c1 := (c0.setPos { c0.pos with enc0 := c0.pos.enc0.transit }).encError Obj.impossible_transitions
    c1.judgeTransitions c1.pos.enc0
  | .forward => c0.countEnc0 true at250
  | .back => c0.countEnc0 false at250

/-- Samples of ENC0_A and ENC0_B, 1 ns apart, the first at a time in 250 ps. -/
def Ctl.sampleEnc0 (c : Ctl) : List (Bool × Bool) → Nat → Ctl
  | [], _ => c
  | (a, b) :: r, at250 =>
    let x := c.pos.enc0.sample (c.nat Obj.enc_filter) a b
    ((c.setPos { c.pos with enc0 := x.1 }).enc0Levels x.2.1 x.2.2 at250).sampleEnc0 r (at250 + 4)

/-- ENCODER_COUNT (R208 to R216): samples of ENC0_A and ENC0_B, 1 ns apart, from a time in 250 ps on. -/
def execEncoderCount (samples : List (Bool × Bool)) (at250ps : Nat) (s : State) : Host.Outcome State Fault Refusal :=
  nextCtl s (s.mach.ctl.sampleEnc0 samples at250ps)

/-- A count of ENC1, forward or back. -/
def Ctl.countEnc1 (c : Ctl) (fwd : Bool) : Ctl :=
  let pm := Frac.ofInt (c.nat Obj.enc1_pitch)
  let e := c.pos.enc1
  let e1 : Encoder := { e with counts := e.counts + 1, travelled := if fwd then e.travelled.add pm else e.travelled.sub pm }
  ((c.setPos { c.pos with enc1 := e1 }).putI Obj.enc1_counts (c.int Obj.enc1_counts + (if fwd then 1 else -1))).deviate

/-- What qualified levels of ENC1 do. -/
def Ctl.enc1Levels (c : Ctl) (a b : Bool) : Ctl :=
  let k := quadCount c.pos.enc1 a b (c.nat Obj.enc1_direction)
  let c0 := c.setPos { c.pos with enc1 := { c.pos.enc1 with a := a, b := b } }
  match k with
  | .none => c0
  | .impossible =>
    let c1 := (c0.setPos { c0.pos with enc1 := c0.pos.enc1.transit }).encError Obj.impossible_transitions
    c1.judgeTransitions c1.pos.enc1
  | .forward => c0.countEnc1 true
  | .back => c0.countEnc1 false

/-- ENC1_COUNT (R208 to R211): samples of ENC1_A and ENC1_B, 1 ns apart. -/
def execEnc1Count (samples : List (Bool × Bool)) (s : State) : Host.Outcome State Fault Refusal :=
  nextCtl s (forEach samples (fun c x =>
    let y := c.pos.enc1.sample (c.nat Obj.enc_filter) x.1 x.2
    (c.setPos { c.pos with enc1 := y.1 }).enc1Levels y.2.1 y.2.2) s.mach.ctl)

/-- The multiple of index_period nearest to a count. -/
def nearestMultiple (n p : Int) : Int := (2 * n + p) / (2 * p)

/-- A rising edge of ENC0_Z (R210): A and B high, and within the tolerance of a whole multiple of index_period from the first. -/
def Ctl.indexEdge (c : Ctl) : Ctl :=
  let n := c.int Obj.enc0_counts
  let p : Int := c.nat Obj.index_period
  let base := c.pos.indexBase.getD n
  let near := (n - base - nearestMultiple (n - base) p * p).natAbs ≤ c.nat Obj.index_tolerance
  if c.pos.enc0.a ∧ c.pos.enc0.b ∧ near then c.setPos { c.pos with indexBase := some base, indexBad := false } else c.indexError

/-- A sample of ENC0_Z. -/
def Ctl.sampleZ (c : Ctl) (level : Bool) : Ctl :=
  let y := c.pos.inZ.sample (c.nat Obj.enc_filter) level
  let z := qualified c.pos.z level y.2
  let c1 := c.setPos { c.pos with inZ := y.1, z := z }
  if c.indexOn && !c.pos.z && z then c1.indexEdge else c1

/-- INDEX_PULSE (R208, R210): samples of ENC0_Z, 1 ns apart. -/
def execIndexPulse (samples : List Bool) (s : State) : Host.Outcome State Fault Refusal :=
  nextCtl s (forEach samples Ctl.sampleZ s.mach.ctl)

/-! ### Validation (R212) -/

/-- An error of an encoder within its last 65,536 counts. -/
def Encoder.faulty (e : Encoder) : Bool :=
  match e.lastError with
  | some k => decide (e.counts < k + 65536)
  | none => false

/-- The web has stayed below 1,000 um/s for 100 ms. -/
def Ctl.webStill (c : Ctl) : Bool :=
  match c.pos.slowSince with
  | some t => decide (t + 100 * ms ≤ c.now)
  | none => false

/-- An encoder with its loss counts cleared. -/
def Encoder.cleared (e : Encoder) : Encoder := { e with transitions := [], lastError := none, travelled := ⟨0, 1⟩ }

/-- The position validated. -/
def Ctl.validate (c : Ctl) : Ctl :=
  let p := c.pos
  let c1 := c.setPos { p with enc0 := p.enc0.cleared, enc1 := p.enc1.cleared, indexBase := none, indexBad := false }
  (((((c1.putB Obj.position_valid true).putN Obj.loss_reason 0).putI Obj.check_deviation 0).putN Obj.high_water c1.pp).ring
    Src.POSITION_VALID 0xFFFF Obj.position_valid).camsFollow

/-- validate_position (R212). -/
def ownValidatePosition (n : Nat) (c : Ctl) : Nat × Ctl :=
  if c.pos.enc0.faulty || c.pos.enc1.faulty then refuse St.ENCODER_FAULTY c
  else if !c.webStill then refuse St.WEB_MOVING c
  else (St.STARTED, c.validate.cmdNow Obj.validate_position n Src.FIRE_CMD_DONE)

/-- VALIDATE_POSITION (R212). -/
def execValidatePosition (r : Req) (arg : Nat) (s : State) : Host.Outcome State Fault Refusal :=
  nextMach s (s.mach.ctlRow r Obj.validate_position (le 1 arg) ownValidatePosition)

/-! ### The observer (R215) -/

/-- One update of the three equations over 8 ns. -/
def observe (p : Position) (xm : Frac) (w : Frac) : Position :=
  let ts : Frac := ⟨8, 1000000000⟩
  let e := xm.sub p.x
  let w2 := w.mul w
  { p with x := p.x.add (ts.mul (p.v.add ((w.mul e).mul ⟨3, 1⟩)))
           v := p.v.add (ts.mul (p.a.add ((w2.mul e).mul ⟨3, 1⟩)))
           a := p.a.add (ts.mul ((w2.mul w).mul e)) }

/-- Ticks as um at the pitch under the datum, times a quantity per second. -/
def Ctl.ticksToUm (c : Ctl) (t : Frac) : Int := (t.mul ⟨396875, 1000 * c.pitchNow⟩).round

/-- 6100:22 to 24 follow the observer; the press's stop ends starvation (R88). -/
def Ctl.showSpeed (c : Ctl) : Ctl :=
  let v := c.ticksToUm c.pos.v
  let c1 := ((c.putI Obj.web_speed v).putI Obj.web_acceleration (c.ticksToUm c.pos.a)).putN Obj.datum_line_rate
    ((c.pos.v.divNat 64).abs.round).toNat
  let slow := if v.natAbs < 1000 then some (c.pos.slowSince.getD c.now) else none
  let c2 := c1.setPos { c1.pos with slowSince := slow }
  if v = 0 then c2.putB Obj.starved false else c2

/-- 2 pi times a bandwidth in Hz, pi to 18 decimals (log entry 157). -/
def omegaOf (hz : Nat) : Frac := ⟨2 * 3141592653589793238 * hz, 1000000000000000000⟩

/-- OBSERVER_UPDATE (R215): every 8 ns. -/
def execObserverUpdate (s : State) : Host.Outcome State Fault Refusal :=
  let c := s.mach.ctl
  if c.now < c.pos.observedAt + 8 then .next s
  else
    let xm := match c.pos.pair with
      | some k => k.ticks
      | none => c.pos.ticks
    let w := omegaOf (c.nat Obj.observer_bandwidth)
    nextCtl s (c.setPos { observe c.pos xm w with observedAt := c.now }).showSpeed

/-! ### Cue inputs (R216, R89) -/

/-- The edge that 3000:08 selects for an input is this change. -/
def Ctl.cueSelected (c : Ctl) (i : Nat) (rising : Bool) : Bool := rising != bit (c.nat Obj.cue_polarity) i

/-- CUE_EDGE: a qualified edge of an input at a time in 250 ps; the other edge ends the level that has to hold. -/
def execCueEdge (input : Nat) (rising : Bool) (at250ps : Nat) (s : State) : Host.Outcome State Fault Refusal :=
  let c := s.mach.ctl
  if input < 2 then
    let e := if c.cueSelected input rising then some ⟨at250ps, none⟩ else none
    nextCtl s (({ c with adm := { c.adm with cueEdge := kvSet none c.adm.cueEdge input e,
                                             cueLevel := kvSet false c.adm.cueLevel input rising } }).placeEdges)
  else .next s

/-! ### SSI inputs (R217) -/

/-- Gray code to binary. -/
def fromGray : Nat → Nat → Nat
  | 0, v => v
  | f + 1, v => v ^^^ fromGray f (v / 2)

/-- Distance of two counts on a circle of `2^bits`. -/
def circular (bits x y : Nat) : Nat := let d := (x + 2 ^ bits - y) % 2 ^ bits; min d (2 ^ bits - d)

/-- SSI_READ (R217): the raw bits, msb first as a number, and whether the line levels were right. -/
def execSsiRead (input raw : Nat) (ok : Bool) (s : State) : Host.Outcome State Fault Refusal :=
  let c := s.mach.ctl
  let x := kvGet ⟨none, 0⟩ c.fire.ssi input
  let per := c.nat (Obj.ssi_period input)
  if !decide (input < 4) || per == 0 || decide (c.now < x.at_ + 1000 * per) then .next s
  else
    let n := c.nat (Obj.ssi_bits input)
    let v := if c.nat (Obj.ssi_code input) = 1 then fromGray n (raw % 2 ^ n) else raw % 2 ^ n
    let far := match x.value with
      | some y => c.nat (Obj.ssi_max_step input) != 0 && decide (c.nat (Obj.ssi_max_step input) < circular n v y)
      | none => false
    let good := ok && !far
    let c1 := c.setFire { c.fire with ssi := kvSet ⟨none, 0⟩ c.fire.ssi input ⟨if good then some v else x.value, c.now⟩ }
    if good then
      nextCtl s ((((c1.putN (Obj.ssi_value input) v).put (Obj.ssi_time input) (.num c1.localNs)).putN (Obj.ssi_state input)
        1).ssiFresh input)
    else
      nextCtl s (((c1.bump (Obj.ssi_errors input)).putN (Obj.ssi_state input) 2).ring Src.SSI_ERROR input (Obj.ssi_state input))

/-- Writes of 6140+i:01, 02 and 04: SSI_TIMING where the read does not fit its period. -/
def ownSsi (key v : Nat) (c : Ctl) : Nat × Ctl :=
  let i := key / 256 - 0x6140
  let c1 := c.putN key v
  let per := c1.nat (Obj.ssi_period i)
  if per ≠ 0 ∧ 1000 * per * c1.nat (Obj.ssi_clock i) < 1000000 * c1.nat (Obj.ssi_bits i) + 10000 * c1.nat (Obj.ssi_clock i) then
    refuse St.SSI_TIMING c
  else (St.OK, if per = 0 then c1.putN (Obj.ssi_state i) 0 else c1)

end Sys2Proof.Machine
end

