-- ==== Sys2Proof/Machine/Own.lean ====
section
/-! DEFINITION. The owner of every object a session can write (R7, R10, R33 check 11, R47): one function per range of the dictionary. An
object no rule gives an effect of its own holds the value written (log entry 110). -/

namespace Sys2Proof.Machine

/-- The value of written bytes as an unsigned number, of the lowest 8 bytes. -/
def argNat (b : List Byte) : Nat := fld b 0 8

/-- An owner on the controller alone. -/
def Mach.own (m : Mach) (f : Ctl → Nat × Ctl) : Nat × Mach :=
  let a := f m.ctl
  (a.1, { m with ctl := a.2 })

/-- The value written, of the object's type. -/
def writtenVal (key : Nat) (b : List Byte) : Val :=
  match objOf key with
  | some r => decVal r.ty b
  | none => .oct b

/-- The object holds the value written. -/
def ownPut (key : Nat) (b : List Byte) (c : Ctl) : Nat × Ctl := (St.OK, c.put key (writtenVal key b))

/-- The object holds the value written, and something follows. -/
def ownThen (key : Nat) (b : List Byte) (f : Ctl → Ctl) (c : Ctl) : Nat × Ctl := (St.OK, f (c.put key (writtenVal key b)))

/-- A write that may break an area of the cellar (R331, log entry 26). -/
def ownArea (key area : Nat) (b : List Byte) (f : Ctl → Ctl) (c : Ctl) : Nat × Ctl :=
  let c1 := c.put key (writtenVal key b)
  if Ctl.areasBreak c c1 area = true then refuse St.OUT_OF_RANGE c else (St.OK, f c1)

/-- A write refused with a code while something holds. -/
def ownUnless (held : Bool) (code key : Nat) (b : List Byte) (c : Ctl) : Nat × Ctl :=
  if held then refuse code c else ownPut key b c

/-- A session's own value of a window object (R128, R296, R388, R487). -/
def ownWindow (n : Nat) (f : Session → Session) (c : Ctl) : Nat × Ctl := (St.OK, c.setSess n (f (c.sess n)))

/-! ### 1000 to 1FFF -/

/-- Sessions, the persistent record, faults and the bell. `w` is the session when the frame arrived. -/
def ownFirst (w : Session) (n i s key : Nat) (b : List Byte) (c : Ctl) : Nat × Ctl :=
  let v := argNat b
  if key = Obj.take_control then ownTakeControl v n c
  else if key = Obj.release_control then ownReleaseControl n c
  else if key = Obj.hand_over then ownHandOver v n c
  else if key = Obj.close_session then ownCloseSession v n c
  else if key = Obj.save_persistent then ownSavePersistent n c
  else if key = Obj.restore_defaults then c.atticCommand key n (.void regionPersistent key)
  else if key = Obj.format_attic then ownFormatAttic n c
  else if key = Obj.clear_faults then ownClearFaults v n c
  else if i = 0x1800 ∧ 0x0E ≤ s ∧ s ≤ 0x10 then ownForce (s - 0x0E) v n c
  else if key = Obj.bell_window then ownWindow n (fun x => { x with bellWindow := v }) c
  else if key = Obj.ring_software then ownRingSoftware v n c
  else if key = Obj.clear_pending then ownClearPending v n c
  else if i = 0x1910 then ownSourceConfig (w.bellWindow + s - 1) v c
  else if 0x1920 ≤ i ∧ s = 2 then ownComplete (i - 0x1920) v n c
  else if 0x1920 ≤ i ∧ s = 5 then ownResetTarget (i - 0x1920) n c
  else ownPut key b c

/-! ### 2000 to 2FFF -/

/-- Input windows judged out start anew when the tolerance changes (R391). -/
def Ctl.clearWindows (c : Ctl) : Ctl := forEach (List.range 4) (fun c k => c.putN (Obj.windows_out k) 0) c

/-- A port whose mode changes loses its link (R358, log entry 108). -/
def Ctl.portChanged (p old : Nat) (c : Ctl) : Ctl :=
  if c.nat (Obj.port_mode p) = old ∨ !c.portUp p then c
  else ((c.putN (Obj.fp_link_state p) 0).putN (Obj.fp_down_reason p) 1).ring Src.FP_LINK p (Obj.fp_link_state p)

/-- A write that moves the crates' region or the pool: the cellar serves, and every area stands clear of it (R331). -/
def ownCrates (key : Nat) (b : List Byte) (c : Ctl) : Nat × Ctl :=
  let c1 := c.put key (writtenVal key b)
  if c.cellarUnready then refuse St.CELLAR_NOT_READY c
  else if c1.nat Obj.crate_base + c1.nat Obj.crate_bytes > c1.generalEnd ∧ c1.nat Obj.crate_bytes ≠ 0 ∨
      Ctl.areasBreak c c1 key = true then refuse St.OUT_OF_RANGE c
  else (St.OK, c1)

/-- Power, clocks, reset, time, ports and the cellar's controllers. -/
def ownSecond (n i s key : Nat) (b : List Byte) (c : Ctl) : Nat × Ctl :=
  let v := argNat b
  if key = Obj.power_state_request then ownPowerRequest v n c
  else if key = Obj.regulator_step 0 ∧ v = 0 then refuse St.OUT_OF_RANGE c
  else if key = Obj.ref_tolerance then ownThen key b Ctl.clearWindows c
  else if key = Obj.select_reference then ownSelectReference v n c
  else if key = Obj.reset_controller then ownResetController v n c
  else if key = Obj.lifecycle_transition then ownLifecycle b n c
  else if key = Obj.set_time then ownSetTime b n c
  else if key = Obj.step_time then ownStepTime b n c
  else if key = Obj.accept_step then ownAcceptStep n c
  else if key = Obj.ptp_enable ∨ key = Obj.slave_only then ownThen key b (·.ptpSet key) c
  else if 0x2410 ≤ i ∧ i ≤ 0x2413 ∧ s = 6 then ownPulseArm (i - 0x2410) n c
  else if 0x2410 ≤ i ∧ i ≤ 0x2413 ∧ s = 1 ∧ v = 0 then ownThen key b (·.disarm (i - 0x2410)) c
  else if (i = 0x2510 ∨ i = 0x2511) ∧ s = 1 then ownThen key b (Ctl.portChanged (i - 0x2510) (c.nat key)) c
  else if key = Obj.cellar_retrain then ownCellarRetrain n c
  else if key = Obj.rate_select then ownRateSelect v n c
  else if i = 0x2810 ∧ 1 ≤ s ∧ s ≤ 3 then ownCrates key b c
  else ownPut key b c

/-! ### 3000 to 3FFF -/

/-- Bars that own more than 4 chains (R1). -/
def Ctl.crowded (c : Ctl) : Bool := (List.range 8).any fun b => decide (4 < (c.chainsOfBar b).length)

/-- Writes of 3110+c:01 to 04, judged together, and what follows them: a chain with a bar wants its lanes (R146). A fifth chain of a
bar is refused before all else (R1; log entry 125). -/
def ownChain (ch : Nat) (es : List (Nat × Nat)) (c : Ctl) : Nat × Ctl :=
  if Ctl.crowded (forEach es (fun c e => c.putN (Obj.chain_bar ch - 1 + e.1) e.2) c) then refuse St.OUT_OF_RANGE c
  else
    let a := ownChainConfig ch es c
    if a.1 ≠ St.OK then a
    else
      let c1 := if (a.2.chainBar ch).isSome then forEach (a.2.lanesOf ch) (fun c l => c.wantLane l) a.2 else a.2
      (St.OK, c1.revalidateAll.allCounts)

/-- Chains, lanes, heads and the nozzle tables. -/
def ownThird (n i s key : Nat) (b : List Byte) (c : Ctl) : Nat × Ctl :=
  let v := argNat b
  if 0x3010 ≤ i ∧ i ≤ 0x3017 ∧ s = 3 then ownThen key b (fun c => (c.newGeneration (32 + (i - 0x3010))).restartResiduals) c
  else if 0x3110 ≤ i ∧ i ≤ 0x311F ∧ 1 ≤ s ∧ s ≤ 4 then ownChain (i - 0x3110) [(s, v)] c
  else if 0x3110 ≤ i ∧ i ≤ 0x311F ∧ s = 9 then ownDiscoverChain (i - 0x3110) n c
  else if 0x3110 ≤ i ∧ i ≤ 0x311F ∧ s = 0x0A then ownHeadsIn (i - 0x3110) n c
  else if 0x3140 ≤ i ∧ i ≤ 0x315F ∧ s = 1 then ownLaneRole (i - 0x3140) v n c
  else if 0x3140 ≤ i ∧ i ≤ 0x315F ∧ s = 0x12 then ownTxSleep (i - 0x3140) v n c
  else if 0x3140 ≤ i ∧ i ≤ 0x315F ∧ s = 0x13 then ownRetrain (i - 0x3140) n c
  else if 0x3140 ≤ i ∧ i ≤ 0x315F ∧ s = 0x14 then ownCalibrate (i - 0x3140) v n c
  else if 0x3140 ≤ i ∧ i ≤ 0x315F ∧ s = 0x17 then ownClearCounters (i - 0x3140) n c
  else if 0x3160 ≤ i ∧ i ≤ 0x3167 ∧ s = 1 then ownQuadRate (i - 0x3160) v n c
  else if 0x3180 ≤ i ∧ i ≤ 0x318F then
    let a := ownGroupDistance key v c
    (a.1, a.2.restartResiduals)
  else if 0x3200 ≤ i ∧ i ≤ 0x32FF ∧ s = 6 then ownRowGroups (i - 0x3200) v c
  else if 0x3200 ≤ i ∧ i ≤ 0x32FF ∧ s = 0x0E then ownHeadIn (i - 0x3200) n c
  else if 0x3200 ≤ i ∧ i ≤ 0x32FF ∧ s = 0x0F then ownHeadOut (i - 0x3200) n c
  else if 0x3200 ≤ i ∧ i ≤ 0x32FF ∧ s = 0x10 then ownChallengeUsage (i - 0x3200) n c
  else if key = Obj.nozzle_window then ownWindow n (fun x => { x with nozzleWindow := v }) c
  else if key = Obj.save_care then c.atticCommand key n (.record regionCare 0 0 (careTable c.care.written) key)
  else ownPut key b c

/-! ### 5000 to 6FFF -/

/-- A setting of a slot: an EMPTY slot is OPEN, and the slot is revalidated (R61). -/
def ownSlotSetting (k key : Nat) (b : List Byte) (c : Ctl) : Nat × Ctl :=
  let c1 := c.put key (writtenVal key b)
  let c2 := if c1.nat (Obj.slot_state k) = 0 then c1.putN (Obj.slot_state k) 1 else c1
  (St.OK, (c2.revalidate k).noteChange (.slot k))

/-- A submit or completion ring placed anew: its indices start at 0, and no descriptor waits (R64, log entry 107). -/
def Ctl.newRings (c : Ctl) : Ctl :=
  let c1 := ((c.putN Obj.submit_head 0).putN Obj.submit_tail 0).putN Obj.completion_head 0
  ({ c1 with adm := { c1.adm with waiting := none } }.putN Obj.completion_tail 0).putN Obj.wait_reason 0 |>.putN Obj.verify_backlog 0

/-- Admission, position and fire. -/
def ownAdmit (n i s key : Nat) (b : List Byte) (c : Ctl) : Nat × Ctl :=
  let v := argNat b
  if key = Obj.open_admission then ownOpenAdmission n c
  else if key = Obj.close_admission then (St.STARTED, (c.closeAdmission St.CLOSED_COMMAND).cmdNow key n Src.ADMIT_CMD_DONE)
  else if key = Obj.submit_ring_base ∨ key = Obj.completion_ring_base then ownArea key key b Ctl.newRings c
  else if key = Obj.submit_tail then c.submitTail v
  else if key = Obj.completion_tail then c.consumerTail 0 v
  else if key = Obj.withdraw_from then ownWithdraw v n c
  else if key = Obj.validate_position then ownValidatePosition n c
  else if key = Obj.request_switch then ownRequestSwitch n c
  else if 0x6120 ≤ i ∧ i ≤ 0x613F ∧ s = 1 then ownThen key b (·.newGeneration (i - 0x6120)) c
  else if (0x6140 ≤ i ∧ i ≤ 0x6143) ∧ (s = 1 ∨ s = 2 ∨ s = 4) then ownSsi key v c
  else ownPut key b c

/-- A defect list in ascending order of row and column (R251). -/
def defectsRise (b : List Byte) : Bool :=
  (List.range (b.length / 4 - 1)).all fun k => decide (fld b (4 * k) 4 < fld b (4 * k + 4) 4)

/-- A camera is OFF or IDLE (R266). -/
def camResting (st : Nat) : Bool := st == 0 || st == 2

/-- Cameras. A defect list is refused CAM_STREAMING while its camera is neither OFF nor IDLE, else as the other objects of its tile
(R268; log entry 159). -/
def ownCamera (n i s key : Nat) (b : List Byte) (c : Ctl) : Nat × Ctl :=
  let v := argNat b
  let k := i % 16
  if i < 0x6420 then
    if s = 1 then ownCameraEnable k v n c
    else if s = 0x12 then ownCci k b n c
    else ownUnless (c.camOn k && (decide (3 ≤ s ∧ s ≤ 0x0B) || s == 0x0F)) St.CAM_ENABLED key b c
  else if i < 0x6430 then
    if s = 0x0C then ownFlatField k b n c
    else if s = 0x0B ∧ !camResting (c.nat (Obj.camera_state (k / 4))) then refuse St.CAM_STREAMING c
    else if c.camOn (k / 4) then refuse St.CAM_ENABLED c
    else ownUnless (s == 0x0B && !defectsRise b) St.DEFECT_ORDER key b c
  else if i < 0x6440 then
    ownUnless ((s == 3 || s == 6 || s == 8) && !camResting (c.nat (Obj.camera_state k))) St.CAM_STREAMING key b c
  else ownOutput k s b n c

/-- A loop ring placed anew: its indices start at 0. -/
def Ctl.newLoopRing (c : Ctl) : Ctl := (c.putN Obj.loop_head 0).putN Obj.loop_tail 0

/-- An item ring placed anew: its indices start at 0 and the store holds nothing. -/
def Ctl.newItemRing (c : Ctl) : Ctl :=
  (((c.setRec { c.recorder with store := [] }).putN Obj.item_head 0).putN Obj.item_tail 0).showFree

/-- An index ring placed anew: its indices start at 0 and no picture occupies the output. -/
def Ctl.newIndexRing (c : Ctl) (k : Nat) : Ctl :=
  ((c.setStream k { c.stream k with pics := [], place := 0 }).putN (Obj.index_head k) 0).putN (Obj.index_tail k) 0

/-- A stream's settings, locked while it is enabled (R308). -/
def ownStreamSetting (k s key : Nat) (b : List Byte) (c : Ctl) : Nat × Ctl :=
  if c.streamOn k && (decide (2 ≤ s ∧ s ≤ 9) || s == 0x0C) && s != 6 then refuse St.REC_ENABLED c
  else if s = 8 ∨ s = 9 then ownArea key (Obj.index_ring_base k) b (·.newIndexRing k) c
  else if s = 7 ∨ s = 0x0C then ownArea key (Obj.out_ring_base k) b id c
  else ownPut key b c

/-- The loop, calibrations and recording. -/
def ownRecord (n i s key : Nat) (b : List Byte) (c : Ctl) : Nat × Ctl :=
  let v := argNat b
  let k := i % 16
  if key = Obj.loop_ring_base ∨ key = Obj.loop_ring_entries then ownArea key Obj.loop_ring_base b Ctl.newLoopRing c
  else if key = Obj.loop_tail then c.consumerTail 1 v
  else if key = Obj.residual_window then ownWindow n (fun x => { x with residualWindow := v }) c
  else if key = Obj.cal_flat_field then ownCalFlat b n c
  else if key = Obj.cal_registration then ownCalRegistration b n c
  else if key = Obj.clear_cal_records then ownClearCal n c
  else if key = Obj.store_base ∨ key = Obj.store_bytes then ownArea key Obj.store_base b Ctl.newItemRing c
  else if key = Obj.item_ring_base ∨ key = Obj.item_entries then ownArea key Obj.item_ring_base b Ctl.newItemRing c
  else if key = Obj.item_tail then c.consumerTail 2 v
  else if key = Obj.capture then ownCapture b n c
  else if 0x6610 ≤ i ∧ i ≤ 0x6613 then
    if s = 1 then ownStreamEnable k v n c
    else if s = 0x0B then c.consumerTail (3 + k) v
    else if s = 0x11 then ownMarkLong k v n c
    else if s = 0x12 then ownReleaseLong k v n c
    else if s = 0x13 then ownForceIdr k n c
    else ownStreamSetting k s key b c
  else if key = Obj.decode then ownDecode b n c
  else if key = Obj.decode_stop then ownDecodeStop n c
  else if key = Obj.dec_tail then c.consumerTail 7 v
  else ownPut key b c

/-- Motion axes, usage and keys. -/
def ownLast (n i s key : Nat) (b : List Byte) (c : Ctl) : Nat × Ctl :=
  let v := argNat b
  let a := i - 0x6A00
  if 0x6A00 ≤ i ∧ i ≤ 0x6A07 then
    if s = 1 then ownAxisEnable a v n c
    else if s = 4 then ownAxisTarget a (sfld b 0 4) n c
    else if s = 5 then ownStop a n c
    else if s = 6 then ownHome a n c
    else if s = 7 then ownClearError a n c
    else if [0x1C, 0x1D, 0x20, 0x21, 0x22, 0x23, 0x2C, 0x2D].contains s ∨ key = Obj.bus_enable then
      ownAxisConfig key (writtenVal key b) c
    else if s = 0x40 ∨ s = 0x48 then ownThen key b (·.sampleLim (2 * a + (s - 0x40) / 8)) c
    else ownPut key b c
  else if key = Obj.usage_tail then ownUsageTail v n c
  else if key = Obj.low_water then ownThen key b (·.showStore) c
  else if key = Obj.record_window then ownWindow n (fun x => { x with recordWindow := v }) c
  else if key = Obj.head_window then ownWindow n (fun x => { x with headWindow := v }) c
  else if key = Obj.slot_window then ownWindow n (fun x => { x with slotWindow := v }) c
  else if key = Obj.close_period then ownClosePeriod n c
  else if key = Obj.stage_service_key then ownStageKey b n c
  else if key = Obj.set_family_key then ownSetFamily b n c
  else if key = Obj.clear_family_key then ownClearFamily v n c
  else ownPut key b c

/-! ### The owner of an object -/

/-- The owners that act on the cellar, or change what a waiting descriptor is checked against. -/
def ownMach (n i s key : Nat) (b : List Byte) (m : Mach) : Option (Nat × Mach) :=
  let v := argNat b
  if (i = 0x2820 ∨ i = 0x2821) ∧ s = 9 then some (ownCellarResume (i - 0x2820) n m)
  else if key = Obj.wipe_range then some (ownWipeRange b n m)
  else if i = 0x3000 ∨ (0x3010 ≤ i ∧ i ≤ 0x3017 ∧ s ≤ 2) then
    some (m.own (ownThen key b fun c => c.refreshGeometry.restartResiduals.revalidateAll.allCounts.refreshCams))
  else if key = Obj.load_table then some (ownLoadTable b n m)
  else if key = Obj.export_table then some (ownExportTable b n m)
  else if key = Obj.array_load then some (ownArrayLoad b n m)
  else if key = Obj.array_clear then some (ownArrayClear v n m)
  else if key = Obj.curve_clear then some (ownCurveClear v n m)
  else if i = 0x4002 then some (ownToneCurve (s - 1) b m)
  else if 0x5000 ≤ i ∧ i ≤ 0x50FF then
    if s = 0x0E then some (m.own fun c => (St.STARTED, c.sealSlot (i - 0x5000) n))
    else if s = 0x0F then some (m.own fun c => (St.STARTED, c.unsealSlot (i - 0x5000) n))
    else if s = 0x10 then some (ownClearSlot (i - 0x5000) n m)
    else
      some (m.own (ownSlotSetting (i - 0x5000) key b))
  else if key = Obj.appearance_load then some (ownAppearanceLoad b n m)
  else if key = Obj.appearance_clear then some (ownAppearanceClear v n m)
  else none

/-- The owner of an object, care entries apart. `w` is the session when the frame arrived (R128). -/
def ownObject (w : Session) (n key : Nat) (b : List Byte) (m : Mach) : Nat × Mach :=
  let i := key / 256
  let s := key % 256
  match ownMach n i s key b m with
  | some a => a
  | none => m.own fun c =>
    if i < 0x2000 then ownFirst w n i s key b c
    else if i < 0x3000 then ownSecond n i s key b c
    else if i < 0x4000 then ownThird n i s key b c
    else if 0x6410 ≤ i ∧ i ≤ 0x6443 then ownCamera n i s key b c
    else if i < 0x6400 then ownAdmit n i s key b c
    else if i < 0x6A00 then ownRecord n i s key b c
    else ownLast n i s key b c

/-! ### A frame of entries (R47) -/

/-- A frame being applied: the machine, codes of the care entries to come, the code of each chain, and the codes given, latest first. -/
structure FrameRun where
  mach : Mach
  care : Option (List Nat)
  chains : Kv (Option Nat)
  codes : List (Nat × Nat)

/-- An entry of 3110+c:01 to 04. -/
def chainEntry (key : Nat) : Option Nat :=
  if 0x3110 ≤ key / 256 ∧ key / 256 ≤ 0x311F ∧ 1 ≤ key % 256 ∧ key % 256 ≤ 4 then some (key / 256 - 0x3110) else none

/-- A care entry: the frame's care entries go to their committers at the first of them, one commit a bar (R47, R136; log entry 135). -/
def FrameRun.careStep (x : FrameRun) (w : Session) (es : List Entry) (key : Nat) : FrameRun :=
  match x.care with
  | some codes => { x with care := some (codes.drop 1), codes := (key, codes.headD St.OK) :: x.codes }
  | none =>
    let c := x.mach.ctl
    let r := c.careFrame w.role (es.filterMap fun e => c.careEntry w.nozzleWindow e.1 (argNat e.2))
    { x with mach := { x.mach with ctl := r.2 }, care := some ((r.1.map (·.2)).drop 1),
             codes := (key, (r.1.map (·.2)).headD St.OK) :: x.codes }

/-- An entry of a chain's configuration: those of one chain are judged together (log entry 14). -/
def FrameRun.chainStep (x : FrameRun) (es : List Entry) (ch key : Nat) : FrameRun :=
  match kvGet none x.chains ch with
  | some code => { x with codes := (key, code) :: x.codes }
  | none =>
    let mine := (es.filter fun e => chainEntry e.1 == some ch).map fun e => (e.1 % 256, argNat e.2)
    let a := x.mach.own (ownChain ch mine)
    { x with mach := a.2, chains := kvSet none x.chains ch (some a.1), codes := (key, a.1) :: x.codes }

/-- One entry of a frame applied. -/
def FrameRun.entry (w : Session) (n : Nat) (es : List Entry) (x : FrameRun) (e : Entry) : FrameRun :=
  if (x.mach.ctl.careEntry 0 e.1 0).isSome then x.careStep w es e.1
  else match chainEntry e.1 with
    | some ch => x.chainStep es ch e.1
    | none =>
      let a := ownObject w n e.1 e.2 x.mach
      { x with mach := a.2, codes := (e.1, a.1) :: x.codes }

/-- The entries of a frame applied in list order (R47), a waiting descriptor checked again after them (R73). -/
def ownFrame (n : Nat) (es : List Entry) (m : Mach) : List (Nat × Nat) × Mach :=
  let x := forEach es (FrameRun.entry (m.ctl.sess n) n es) ⟨m.newCycle, none, [], []⟩
  (x.codes.reverse, x.mach.recheck)

/-- What accepted commands do once the response has left: a transition closes sessions, a reset resets, SLEEP begins. -/
def Mach.afterResponse (m : Mach) : Mach := m.closeIfMoving.resetIfAsked.sleepIfAsked

end Sys2Proof.Machine
end

