-- ==== Sys2Proof/Machine/Shown.lean ====
section
/-! DEFINITION. The value an object shows to a session that reads it: the value the store holds, or one computed from the state it
shows (R30, R31, R46). -/

namespace Sys2Proof.Machine

/-- 64 of the fault sources as bits, from source 64k on. -/
def sourceBits (p : Nat → Bool) (k : Nat) : Nat :=
  (List.range 64).foldl (fun n i => if p (64 * k + i) && decide (64 * k + i < 192) then n + 2 ^ i else n) 0

/-- nozzle_effective of a nozzle (R128). -/
def Ctl.nozzleEffective (c : Ctl) (z : Nat) : Nat :=
  let e := kvGet 0 c.care.live z
  let fires := match c.barOfNozzle z with
    | some b => c.firesAt b (nozColumn e) == some z
    | none => false
  c.effState z * 2 ^ 30 + (if c.headFires (headOfNozzle z) then 0 else 2 ^ 29) + (if fires then 2 ^ 28 else 0) +
    (if fires && nozRole e == 2 then 2 ^ 27 else 0) + bits e 23 16 * 65536 + nozColumn e

/-- What remains of a suspension of SERVICE challenges, in ms begun (R38). -/
def Ctl.lockoutLeft (c : Ctl) : Nat := ((c.ydp.lockoutEnd.getD c.now) - c.now + ms - 1) / ms

/-- Time since a session was last heard, in ms (R41). -/
def Ctl.idleFor (c : Ctl) (n : Nat) : Nat := if (c.sess n).isOpen then (c.now - (c.sess n).heardAt) / ms else 0

/-- The part of 1000 to 2FFF that is computed when it is read. -/
def Ctl.shownFirst (c : Ctl) (w : Session) (i s key : Nat) : Option Nat :=
  if key = Obj.local_time then some c.localNs
  else if key = Obj.compact_time then some c.compact
  else if key = Obj.service_lockout then some c.lockoutLeft
  else if 0x1101 ≤ i ∧ i ≤ 0x1108 ∧ s = 5 then some (c.idleFor (i - 0x1100))
  else if key = Obj.unsaved_changes then some (if c.unsaved then 1 else 0)
  else if key = Obj.fault_summary then some c.faultSummary
  else if i = 0x1800 ∧ 8 ≤ s ∧ s ≤ 0x0A then some (sourceBits c.isLatched (s - 8))
  else if i = 0x1800 ∧ 0x0B ≤ s ∧ s ≤ 0x0D then some (sourceBits c.causePresent (s - 0x0B))
  else if key = Obj.bell_window then some w.bellWindow
  else if i = 0x1910 then some (c.bellWord (w.bellWindow + s - 1))
  else if 0x1920 ≤ i ∧ i ≤ 0x1922 ∧ s = 3 then some (c.stack (i - 0x1920)).length
  else if 0x1920 ≤ i ∧ i ≤ 0x1922 ∧ s = 4 then some (c.topWord (i - 0x1920))
  else if key = Obj.powered_seconds then some c.powered
  else none

/-- The verifier or the packer has crates for the check engines. -/
def Ctl.checkBusy (c : Ctl) : Bool := !c.recorder.held.isEmpty || c.adm.waiting.any fun w => !w.left.isEmpty

/-- Engines lent to the print fetch of a use that holds `n` of its own: all of them while it is idle and the print fetch has work (R13; log
entry 142). -/
def Ctl.lent (c : Ctl) (n : Nat) (busy : Bool) : Nat := if busy || c.serving.isEmpty then 0 else n

/-- 6000:20 to 22: the engines each use holds at the moment of reading, lending included, 20 in all (R13, R117). -/
def Ctl.engines (c : Ctl) (s : Nat) : Nat :=
  let inspect := c.lent 4 (c.adm.tickets.any c.readsDue)
  let check := c.lent 3 c.checkBusy
  if s = 0x20 then 13 + inspect + check else if s = 0x21 then 4 - inspect else 3 - check

/-- The part of 3000 to 6FFF that is computed when it is read. -/
def Ctl.shownRest (c : Ctl) (w : Session) (i s key : Nat) : Option Nat :=
  if key = Obj.nozzle_window then some w.nozzleWindow
  else if i = 0x3500 then some (kvGet 0 c.care.written (w.nozzleWindow + s - 1))
  else if i = 0x3501 then some (c.nozzleEffective (w.nozzleWindow + s - 1))
  else if 0x5000 ≤ i ∧ i ≤ 0x50FF ∧ s = 0x0B then some (c.pageCap (i - 0x5000))
  else if key = Obj.fetch_lead_min then some c.fetchLead
  else if i = 0x6000 ∧ 0x20 ≤ s ∧ s ≤ 0x22 then some (c.engines s)
  else if 0x6120 ≤ i ∧ i ≤ 0x613F ∧ s = 2 then some (c.pairSpacing (i - 0x6120))
  else if 0x3140 ≤ i ∧ i ≤ 0x315F ∧ s = 9 then some ((c.nat key + c.groupsSince (i - 0x3140)) % 2 ^ 64)
  else if key = Obj.residual_window then some w.residualWindow
  else if i = 0x6550 then
    let z := w.residualWindow + s - 1
    some (c.columnResidual (z / 65536) (z % 65536))
  else if key = Obj.record_window then some w.recordWindow
  else if i = 0x6C10 then some (c.inkNow (s - 1) / 100)
  else if key = Obj.head_window then some w.headWindow
  else if i = 0x6C11 ∧ 2 ≤ s ∧ s ≤ 8 then some (kvGet 0 c.use.counts.drops (8 * w.headWindow + (s - 1)))
  else if i = 0x6C11 ∧ s = 9 then some (kvGet 0 c.use.counts.strobes w.headWindow)
  else if key = Obj.slot_window then some w.slotWindow
  else if i = 0x6C12 ∧ s = 2 then some (kvGet 0 c.use.counts.delivered w.slotWindow)
  else if i = 0x6C12 ∧ s = 3 then some (kvGet 0 c.use.counts.notDelivered w.slotWindow)
  else none

/-- The bytes an object shows to a session `w`. -/
def Ctl.shown (c : Ctl) (w : Session) (key : Nat) : List Byte :=
  let i := key / 256
  let s := key % 256
  if key = Obj.usage_record then padTo 1024 (c.slotBytes (usageSlot w.recordWindow))
  else match objOf key with
    | none => []
    | some r =>
      match if i < 0x3000 then c.shownFirst w i s key else c.shownRest w i s key with
      | some v => encVal r.ty (.num v)
      | none => encVal (if r.acc = .cmd then .u32 else r.ty) (c.val key)

/-- The status of a read: checks 4 to 10, and the owner's (R482). -/
def Ctl.readCode (c : Ctl) (n : Nat) (w : Session) (key : Nat) : Nat :=
  if c.checkRead n key ≠ St.OK then c.checkRead n key
  else if key = Obj.usage_record ∧ !(decide (c.nat Obj.usage_tail ≤ w.recordWindow ∧ w.recordWindow < c.nat Obj.usage_head)) then
    St.USAGE_NO_RECORD
  else St.OK

/-- The target an object claims for when it is read (R380). -/
def claimOf (key : Nat) : Option Nat :=
  if 0x1920 ≤ key / 256 ∧ key / 256 ≤ 0x1922 ∧ key % 256 = 1 then some (key / 256 - 0x1920) else none

/-- A read that is served: the bytes and the controller after, which a claim changes. -/
def Ctl.serveRead (c : Ctl) (w : Session) (key : Nat) : List Byte × Ctl :=
  match claimOf key with
  | some t => (le 4 (c.claimTarget t).1, (c.claimTarget t).2)
  | none => (c.shown w key, c)

/-- Length of what a served read answers. -/
def Ctl.readLength (c : Ctl) (w : Session) (key : Nat) : Nat := if (claimOf key).isSome then 4 else (c.shown w key).length

end Sys2Proof.Machine
end

