-- ==== Sys2Proof/Machine/Ydp.lean ====
section
/-! DEFINITION. The frames of the dictionary protocol that carry any object (R46 to R54): READ, WRITE, DESCRIBE, segmented transfer,
publish sets, and the mailbox (R51). -/

namespace Sys2Proof.Machine

/-! ### READ (R46) -/

/-- Entries answered in order while the rest fit as TOO_LARGE; `used` counts the bytes of the response before them. -/
def readRun (n : Nat) (w : Session) (used : Nat) : List Nat → Ctl → List Byte × Ctl
  | [], c => ([], c)
  | k :: r, c =>
    let code := c.readCode n w k
    let size := if code = St.OK then 8 + roundUp (c.readLength w k) 4 else 8
    if 1400 < used + size + 8 * r.length then (((k :: r).map fun x => readEntry x St.TOO_LARGE []).flatten, c)
    else
      let a := if code = St.OK then c.serveRead w k else ([], c)
      let t := readRun n w (used + size) r a.2
      (readEntry k code a.1 ++ t.1, t.2)

/-- READ of session `n`; windows are those in force when the frame arrived. -/
def serveReads (n : Nat) (ks : List Nat) (m : Mach) : Answer :=
  let a := readRun n (m.ctl.sess n) 4 ks m.ctl
  (St.OK, le 1 ks.length ++ [0, 0, 0] ++ a.1, { m with ctl := a.2 })

/-- READ as served. -/
def Mach.readFrame (m : Mach) (f : Frame) : Mach :=
  m.sessionFrame 0x10 f (readList f.payload).isSome (serveReads f.session ((readList f.payload).getD []))

/-- READ (R46). -/
def execRead (f : Frame) (s : State) : Host.Outcome State Fault Refusal := nextMach s (s.mach.readFrame f)

/-! ### WRITE (R47) -/

/-- WRITE of session `n`: no entry is applied unless all pass checks 4 to 10. -/
def serveWrites (n : Nat) (es : List Entry) (m : Mach) : Answer := serveAll n (ownFrame n) es m

/-- WRITE as served, with what accepted commands do once the response has left. -/
def Mach.writeFrame (m : Mach) (f : Frame) : Mach :=
  (m.sessionFrame 0x11 f (writeList f.payload).isSome (serveWrites f.session ((writeList f.payload).getD []))).afterResponse

/-- WRITE (R47). -/
def execWrite (f : Frame) (s : State) : Host.Outcome State Fault Refusal := nextMach s (s.mach.writeFrame f)

/-! ### DESCRIBE (R49) -/

/-- References of a DESCRIBE: the top bit of the reserved byte asks for the next object. -/
def describeRefs : Nat → List Byte → Option (List (Bool × Nat))
  | 0, [] => some []
  | 0, _ => none
  | n + 1, b =>
    if b.length < 4 ∨ fld b 3 1 % 128 ≠ 0 then none
    else (describeRefs n (b.drop 4)).map ((fld b 3 1 == 128, refKey b) :: ·)

/-- The references of a DESCRIBE payload. -/
def describeList (b : List Byte) : Option (List (Bool × Nat)) :=
  let n := fld b 0 1
  if b.length < 4 ∨ n < 1 ∨ 32 < n ∨ fld b 1 3 ≠ 0 then none else describeRefs n (b.drop 4)

/-- The next existing object after a key. -/
def nextObject (key : Nat) : Option Nat := (allObjects.find? fun e => decide (key < e.1)).map (·.1)

/-- A string as ASCII bytes, cut or padded to `n`. -/
def ascii (n : Nat) (s : String) : List Byte := padTo n (s.toList.map fun x => BitVec.ofNat 8 x.toNat)

/-- The greatest length of a value of an object, in bytes. -/
def ObjRow.maxLength (r : ObjRow) : Nat :=
  match r.rng with
  | .bytes _ hi => hi
  | .entries mx _ => mx
  | .text mx => mx
  | _ => r.ty.size

/-- Least and greatest value of a range, and its step, 0 for 1. -/
def Rng.extremes : Rng → Int × Int × Nat
  | .span lo hi st => (lo, hi, if st = 1 then 0 else st)
  | .spanOr lo hi st os => (os.foldl min lo, os.foldl max hi, if st = 1 then 0 else st)
  | .oneOf vs => (vs.foldl min (vs.headD 0), vs.foldl max (vs.headD 0), 0)
  | .pow2 lo hi => (lo, hi, 0)
  | .rates => (cellarRates.foldl min 9600, cellarRates.foldl max 0, 0)
  | .bytes _ hi => (0, hi, 0)
  | .entries mx _ => (0, mx, 0)
  | .text mx => (0, mx, 0)
  | .any => (0, 0, 0)

/-- The access code an object has for session `n`. -/
def accessCode (r : ObjRow) (n key : Nat) : Nat :=
  if foreignSession n key then 1
  else match r.acc with
    | .ro => 1 | .wo => 2 | .rw => 3 | .rwStop => 4 | .rwSeal => 5 | .cmd => 6

/-- The four numbers of a descriptor: default, minimum, maximum, step. -/
def ObjRow.numbers (r : ObjRow) (key : Nat) : List Byte :=
  let x := r.rng.extremes
  let num (v : Int) : List Byte := le 8 (uns (8 * r.ty.size) v)
  match r.ty with
  | .str | .octets => zeros 16 ++ le 8 r.maxLength ++ zeros 4
  | .time => zeros 28
  | _ =>
    let d : Int := match dfltOf key with
      | .num v => v
      | .oct _ => 0
    num d ++ num x.1 ++ num x.2.1 ++ le 4 x.2.2

/-- The descriptor of an object as session `n` sees it. -/
def Ctl.descriptor (c : Ctl) (n key : Nat) (r : ObjRow) : List Byte :=
  le 1 r.ty.code ++ le 1 (accessCode r n key) ++ le 1 (c.writeRole r key []) ++
    le 1 ((if r.persistent then 1 else 0) + (if r.windowed then 2 else 0)) ++ le 2 (min 65535 r.maxLength) ++ ascii 8 r.unit ++
    r.numbers key ++ ascii 32 r.name

/-- One DESCRIBE response entry, its descriptor padded (R46; log entry 130). -/
def Ctl.describeEntry (c : Ctl) (n : Nat) (e : Bool × Nat) : List Byte :=
  match if e.1 then nextObject e.2 else some e.2 with
  | none => writeEntry e.2 St.NO_OBJECT
  | some k =>
    if !indexExists (k / 256) then writeEntry k St.NO_OBJECT
    else match objOf k with
      | none => writeEntry k St.NO_SUBINDEX
      | some r => writeEntry k St.OK ++ padTo 76 (c.descriptor n k r)

/-- Entries described while the rest fit as TOO_LARGE (log entry 109). -/
def Ctl.describeRun (c : Ctl) (n used : Nat) : List (Bool × Nat) → List Byte
  | [] => []
  | e :: r =>
    let x := c.describeEntry n e
    if 1400 < used + x.length + 8 * r.length then ((e :: r).map fun y => writeEntry y.2 St.TOO_LARGE).flatten
    else x ++ c.describeRun n (used + x.length) r

/-- DESCRIBE of session `n`. -/
def serveDescribe (n : Nat) (es : List (Bool × Nat)) (m : Mach) : Answer :=
  (St.OK, le 1 es.length ++ [0, 0, 0] ++ m.ctl.describeRun n 4 es, m)

/-- DESCRIBE as served. -/
def Mach.describeFrame (m : Mach) (f : Frame) : Mach :=
  m.sessionFrame 0x12 f (describeList f.payload).isSome (serveDescribe f.session ((describeList f.payload).getD []))

/-- DESCRIBE (R49). -/
def execDescribe (f : Frame) (s : State) : Host.Outcome State Fault Refusal := nextMach s (s.mach.describeFrame f)

/-! ### Segmented transfer (R50) -/

/-- The staging buffer's greatest value. -/
def stagingBytes : Nat := 1048576

/-- The staging buffer replaced. -/
def Ctl.setStaging (c : Ctl) (g : Option Staging) : Ctl := { c with ydp := { c.ydp with staging := g } }

/-- Fields of a SEG_WRITE payload. -/
def segKey (b : List Byte) : Nat := refKey b
def segOffset (b : List Byte) : Nat := fld b 4 4
def segTotal (b : List Byte) : Nat := fld b 8 4
def segChunk (b : List Byte) : List Byte := b.drop 16

/-- Layout of a SEG_WRITE: the more flag is clear on the last segment alone. -/
def segWriteOk (flags : Nat) (b : List Byte) : Bool :=
  let n := fld b 12 2
  decide (b.length = 16 + n ∧ 16 ≤ b.length ∧ 1 ≤ n ∧ n ≤ 1024 ∧ fld b 3 1 = 0 ∧ fld b 14 2 = 0 ∧
    segOffset b + n ≤ segTotal b) && ((flags == 2) == decide (segOffset b + n < segTotal b))

/-- The whole value judged and applied, as a WRITE of one entry. -/
def applySegments (n key : Nat) (v : List Byte) (m : Mach) : Answer :=
  let code := m.ctl.checkWrite n key v
  if code ≠ St.OK then (code, [], m)
  else
    let a := ownFrame n [(key, v)] m
    ((a.1.headD (key, St.OK)).2, [], a.2)

/-- A segment that continues or completes a value of `n`'s. -/
def addSegment (n : Nat) (b : List Byte) (got : List Byte) (m : Mach) : Answer :=
  let v := got ++ segChunk b
  if v.length = segTotal b then applySegments n (segKey b) v (m.onCtl (·.setStaging none))
  else (St.OK, [], m.onCtl fun c => c.setStaging (some ⟨n, true, segKey b, segTotal b, v, c.now⟩))

/-- SEG_WRITE of session `n`. -/
def serveSegWrite (n : Nat) (b : List Byte) (m : Mach) : Answer :=
  if stagingBytes < segTotal b then (St.TOO_LARGE, [], m)
  else match m.ctl.ydp.staging with
    | some g =>
      if segOffset b = 0 then (St.BUSY, [], m)
      else if g.owner = n ∧ g.writing = true ∧ g.key = segKey b ∧ g.total = segTotal b ∧ g.data.length = segOffset b then
        addSegment n b g.data m
      else (St.SEGMENT, [], m)
    | none => if segOffset b = 0 then addSegment n b [] m else (St.SEGMENT, [], m)

/-- SEG_WRITE as served. -/
def Mach.segWriteFrame (m : Mach) (f : Frame) : Mach :=
  (m.sessionFrame 0x14 f (segWriteOk f.flags f.payload) (serveSegWrite f.session f.payload)).afterResponse

/-- SEG_WRITE (R50). -/
def execSegWrite (f : Frame) (s : State) : Host.Outcome State Fault Refusal := nextMach s (s.mach.segWriteFrame f)

/-- Layout of a SEG_READ. -/
def segReadOk (b : List Byte) : Bool :=
  decide (b.length = 12 ∧ fld b 3 1 = 0 ∧ 1 ≤ fld b 8 2 ∧ fld b 8 2 ≤ 1024 ∧ fld b 10 2 = 0)

/-- A chunk of a copied value; the buffer is freed once its end is delivered. -/
def segmentOf (g : Staging) (o len : Nat) (m : Mach) : Answer :=
  let x := slice g.data o len
  (St.OK, le 4 g.total ++ le 2 x.length ++ zeros 2 ++ x,
    m.onCtl fun c => c.setStaging (if g.total ≤ o + len then none else some { g with lastAt := c.now }))

/-- SEG_READ of session `n`. -/
def serveSegRead (n : Nat) (b : List Byte) (m : Mach) : Answer :=
  let key := segKey b
  let w := m.ctl.sess n
  if segOffset b = 0 then
    if m.ctl.readCode n w key ≠ St.OK then (m.ctl.readCode n w key, [], m)
    else if m.ctl.ydp.staging.isSome then (St.BUSY, [], m)
    else
      let a := m.ctl.serveRead w key
      segmentOf ⟨n, false, key, a.1.length, a.1, m.ctl.now⟩ 0 (fld b 8 2) { m with ctl := a.2 }
  else match m.ctl.ydp.staging with
    | some g =>
      if g.owner = n ∧ g.writing = false ∧ g.key = key ∧ segOffset b < g.total then segmentOf g (segOffset b) (fld b 8 2) m
      else (St.SEGMENT, [], m)
    | none => (St.SEGMENT, [], m)

/-- SEG_READ as served. -/
def Mach.segReadFrame (m : Mach) (f : Frame) : Mach :=
  m.sessionFrame 0x13 f (segReadOk f.payload) (serveSegRead f.session f.payload)

/-- SEG_READ (R50). -/
def execSegRead (f : Frame) (s : State) : Host.Outcome State Fault Refusal := nextMach s (s.mach.segReadFrame f)

/-- SEGMENT_ABANDON: a transfer with no segment for 2,000 ms is abandoned. -/
def execSegmentAbandon (s : State) : Host.Outcome State Fault Refusal :=
  let c := s.mach.ctl
  match c.ydp.staging with
  | some g => if g.lastAt + 2000 * ms ≤ c.now then nextCtl s (c.setStaging none) else .next s
  | none => .next s

/-! ### Publishing (R52, R53) -/

/-- Layout of a SUBSCRIBE: set, period, references. -/
def subscribeOk (b : List Byte) : Bool :=
  decide (12 ≤ b.length ∧ fld b 0 1 ≤ 3 ∧ fld b 1 3 = 0 ∧ fld b 4 2 ≤ 10000 ∧ fld b 6 2 = 0) && (readList (b.drop 8)).isSome

/-- Bytes of a PUBLISH payload whose values have their greatest lengths. -/
def publishSize (ks : List Nat) : Nat :=
  20 + (ks.map fun k => 8 + roundUp ((objOf k).elim 0 fun r => if r.acc = .cmd then 4 else r.maxLength) 4).sum

/-- A session's publish set replaced. -/
def Session.setSet (x : Session) (i : Nat) (p : Option PubSet) : Session := { x with sets := kvSet none x.sets i p }

/-- SUBSCRIBE of session `n`; the publish count starts at a free value (log entry 109). -/
def serveSubscribe (n : Nat) (b : List Byte) (m : Mach) : Answer :=
  let i := fld b 0 1
  let period := fld b 4 2
  let ks := (readList (b.drop 8)).getD []
  if period = 0 then (St.OK, [], m.onCtl fun c => c.setSess n ((c.sess n).setSet i none))
  else if 1400 < publishSize ks then (St.TOO_LARGE, [], m)
  else (St.OK, [], m.onCtl fun c =>
    c.took.setSess n ((c.sess n).setSet i (some ⟨period, ks, c.fresh (2 ^ 32), c.nextSample period⟩)))

/-- SUBSCRIBE as served. -/
def Mach.subscribeFrame (m : Mach) (f : Frame) : Mach :=
  m.sessionFrame 0x20 f (subscribeOk f.payload) (serveSubscribe f.session f.payload)

/-- SUBSCRIBE (R52). -/
def execSubscribe (f : Frame) (s : State) : Host.Outcome State Fault Refusal := nextMach s (s.mach.subscribeFrame f)

/-- The values of a set as READ response entries, sampled in one cycle. -/
def sampleRun (n : Nat) (w : Session) : List Nat → Ctl → List Byte × Ctl
  | [], c => ([], c)
  | k :: r, c =>
    let code := c.readCode n w k
    let a := if code = St.OK then c.serveRead w k else ([], c)
    let t := sampleRun n w r a.2
    (readEntry k code a.1 ++ t.1, t.2)

/-- A set sampled and sent. -/
def Ctl.publishSet (c : Ctl) (n i : Nat) (p : PubSet) : Ctl :=
  let a := sampleRun n (c.sess n) p.keys c
  let count := (p.count + 1) % 2 ^ 32
  let c1 := a.2.setSess n ((a.2.sess n).setSet i (some { p with count := count, next := c.nextSample p.period }))
  c1.unasked n 0x21 (le 1 i ++ zeros 3 ++ le 4 count ++ timeBytes p.next ++ zeros 2 ++ a.1)

/-- PUBLISH: due once the local clock has reached the set's next multiple of its period. -/
def execPublish (session set : Nat) (s : State) : Host.Outcome State Fault Refusal :=
  let c := s.mach.ctl
  match kvGet none (c.sess session).sets set with
  | some p => if c.awake = true ∧ (c.sess session).isOpen = true ∧ p.next ≤ c.localNs then nextCtl s (c.publishSet session set p) else .next s
  | none => .next s

/-! ### A frame of any opcode, and the mailbox (R43, R51) -/

/-- A frame served by its opcode; one that does not travel to the controller fails check 1. -/
def Mach.serveYdp (m : Mach) (op : Nat) (f : Frame) : Mach :=
  if op = 0x01 then m.discover f
  else if op = 0x02 then m.openFrame f
  else if op = 0x03 then m.closeFrame f
  else if op = 0x04 then m.keepaliveFrame f
  else if op = 0x05 then m.challengeFrame f
  else if op = 0x06 then m.proveFrame f
  else if op = 0x10 then m.readFrame f
  else if op = 0x11 then m.writeFrame f
  else if op = 0x12 then m.describeFrame f
  else if op = 0x13 then m.segReadFrame f
  else if op = 0x14 then m.segWriteFrame f
  else if op = 0x20 then m.subscribeFrame f
  else if op = 0x23 then m.onCtl (·.eventAck f)
  else m.frame op f false id

/-- The YDP frame in some bytes (R43). -/
def ydpFrame (path : Nat) (peer b : List Byte) : Frame :=
  ⟨path, peer, fld b 0 2, fld b 2 1, fld b 4 1, fld b 5 1, fld b 6 2, fld b 8 4, fld b 12 2, fld b 14 2,
    slice b 16 (if path = 2 then fld b 12 2 else b.length)⟩

/-- The mailbox with a frame posted. -/
def Ctl.posted (c : Ctl) (b : List Byte) : Ctl :=
  { c with ydp := { c.ydp with mbxRequest := b, mbxBusy := true, mbxReady := false } }

/-- POST: the frame in the request buffer is served, and the response fills the response buffer; ignored while BUSY. -/
def execPost (buffer : List Byte) (s : State) : Host.Outcome State Fault Refusal :=
  let c := s.mach.ctl
  let b := buffer.take 2048
  if c.awake = true ∧ c.ydp.mbxBusy = false then
    nextMach s ((s.mach.onCtl (·.posted b)).serveYdp (fld b 3 1) (ydpFrame 2 [] b))
  else .next s

end Sys2Proof.Machine
end

