-- ==== Sys2Proof/Machine/Ether.lean ====
section
/-! DEFINITION. Frames of the field ports (R358 to R360, R365): the bridge, the traffic handled locally, and link changes. Formats of
Ethernet, ARP, IPv4, ICMP, UDP and PTP are those of their standards (log entry 111). -/

namespace Sys2Proof.Machine

/-! ### Reading a frame -/

/-- A big-endian field. -/
def bfld (b : List Byte) (o n : Nat) : Nat := beVal (slice b o n)

/-- A frame with a right FCS and a length that a port receives (R358). -/
def frameGood (b : List Byte) : Bool :=
  decide (18 ≤ b.length ∧ b.length ≤ 1522) && fld b (b.length - 4) 4 == fcsOf (b.take (b.length - 4))

/-- A frame carries a VLAN tag. -/
def tagged (b : List Byte) : Bool := bfld b 12 2 == 0x8100

/-- The VLAN of a frame, 0 for none. -/
def vidOf (b : List Byte) : Nat := if tagged b then bfld b 14 2 % 4096 else 0

/-- Where a frame's EtherType stands. -/
def typeAt (b : List Byte) : Nat := if tagged b then 16 else 12

/-- EtherType, and what follows it up to the FCS. -/
def etherType (b : List Byte) : Nat := bfld b (typeAt b) 2
def etherData (b : List Byte) : List Byte := (b.take (b.length - 4)).drop (typeAt b + 2)

/-- Destination and source addresses. -/
def dstOf (b : List Byte) : List Byte := b.take 6
def srcOf (b : List Byte) : List Byte := slice b 6 6

/-- A broadcast or multicast frame. -/
def toGroup (b : List Byte) : Bool := bit (fld b 0 1) 0

/-- The addresses in force. -/
def Ctl.macNow (c : Ctl) : List Byte := c.ydp.net.mac.getD (dfltOct Obj.mac_address)
def Ctl.maskNow (c : Ctl) : List Byte := c.ydp.net.mask.getD (dfltOct Obj.ipv4_netmask)

/-! ### IPv4 and its checksums -/

/-- An IPv4 packet without options or fragmentation whose header checksum is right, cut to its total length. -/
def ipv4Of (d : List Byte) : Option (List Byte) :=
  let n := bfld d 2 2
  if 20 ≤ d.length ∧ fld d 0 1 = 0x45 ∧ 20 ≤ n ∧ n ≤ d.length ∧ bfld d 6 2 % 16384 = 0 ∧ inetSum (d.take 20) = 0 then some (d.take n)
  else none

/-- The broadcast address of the controller's network. -/
def Ctl.netBroadcast (c : Ctl) : Nat := beVal c.ipNow ||| (2 ^ 32 - 1 - beVal c.maskNow)

/-- A packet is addressed to the controller, or to every host of its network. -/
def Ctl.takesIp (c : Ctl) (p : List Byte) : Bool :=
  slice p 16 4 == c.ipNow || bfld p 16 4 == 2 ^ 32 - 1 || bfld p 16 4 == c.netBroadcast

/-- The pseudo header of a UDP datagram. -/
def pseudo (p : List Byte) : List Byte := slice p 12 8 ++ [0, 17] ++ slice p 24 2

/-- A UDP datagram that YDP takes: whole, with a checksum that is set and right, 16 bytes at least (R43). -/
def udpOk (p : List Byte) : Bool :=
  let u := p.drop 20
  decide (8 + 16 ≤ bfld u 4 2 ∧ bfld u 4 2 ≤ u.length) && bfld u 6 2 != 0 && inetSum (pseudo p ++ u.take (bfld u 4 2)) == 0

/-! ### Answers -/

/-- A frame with its FCS, filled to 64 bytes. -/
def sealFrame (b : List Byte) : List Byte :=
  let x := if b.length < 60 then padTo 60 b else b
  x ++ le 4 (fcsOf x)

/-- A frame sent out of a port; in SLEEP the booth sends it. -/
def Ctl.sendEth (c : Ctl) (p : Nat) (b : List Byte) : Ctl :=
  if c.phase = .asleep then c.emit (.eth p b) else c.sendOut p b.length (.eth p b)

/-- An ARP packet of the controller for a target. -/
def Ctl.arp (c : Ctl) (oper : Nat) (tha tpa : List Byte) : List Byte :=
  [0, 1, 8, 0, 6, 4] ++ be 2 oper ++ c.macNow ++ c.ipNow ++ tha ++ tpa

/-- An ARP request for the controller's address is answered. -/
def Ctl.arpIn (c : Ctl) (p : Nat) (d : List Byte) : Ctl :=
  if 28 ≤ d.length ∧ bfld d 0 2 = 1 ∧ bfld d 2 2 = 0x0800 ∧ bfld d 6 2 = 1 ∧ slice d 24 4 = c.ipNow then
    c.sendEth p (sealFrame (slice d 8 6 ++ c.macNow ++ [8, 6] ++ c.arp 2 (slice d 8 6) (slice d 14 4)))
  else c

/-- The gratuitous ARP of a link-up. -/
def Ctl.gratuitous (c : Ctl) (p : Nat) : Ctl :=
  c.sendEth p (sealFrame (List.replicate 6 0xFF ++ c.macNow ++ [8, 6] ++ c.arp 1 (zeros 6) c.ipNow))

/-- A header of an IPv4 packet the controller sends, with an identification that is free. -/
def Ctl.ipHeader (c : Ctl) (len proto : Nat) (dst : List Byte) : List Byte :=
  let h := [0x45, 0] ++ be 2 (20 + len) ++ be 2 (c.fresh 65536) ++ [0, 0, 64] ++ le 1 proto
  let tail := c.ipNow ++ dst
  h ++ be 2 (inetSum (h ++ [0, 0] ++ tail)) ++ tail

/-- Echo requests answered in the present second, 64 at most. -/
def Ctl.echoOk (c : Ctl) : Bool :=
  let e := c.ydp.net.echo
  c.on Obj.icmp_echo && (e.1 != c.now / 10 ^ 9 || decide (e.2 < 64))

/-- One echo answered. -/
def Ctl.countEcho (c : Ctl) : Ctl :=
  let e := c.ydp.net.echo
  c.setNet { c.ydp.net with echo := (c.now / 10 ^ 9, if e.1 = c.now / 10 ^ 9 then e.2 + 1 else 1) }

/-- An ICMP echo request to the controller's own address. -/
def Ctl.echoIn (c : Ctl) (p : Nat) (b ip : List Byte) : Ctl :=
  let i := ip.drop 20
  if 8 ≤ i.length ∧ bfld i 0 2 = 0x0800 ∧ inetSum i = 0 ∧ slice ip 16 4 = c.ipNow ∧ c.echoOk = true then
    let body := [0, 0] ++ be 2 (inetSum ([0, 0, 0, 0] ++ i.drop 4)) ++ i.drop 4
    (c.countEcho.took).sendEth p (sealFrame (srcOf b ++ c.macNow ++ [8, 0] ++ c.ipHeader body.length 1 (slice ip 12 4) ++ body))
  else c

/-- The peer of a datagram: MAC address, IPv4 address, UDP port. -/
def peerOf (b ip : List Byte) : List Byte := srcOf b ++ slice ip 12 4 ++ le 2 (bfld ip 20 2)

/-! ### Local delivery (R360) -/

/-- What local delivery makes of a frame: a YDP datagram with its peer and frame bytes, or something else. -/
inductive Local
  | ydp (peer bytes : List Byte)
  | arp
  | echo (ip : List Byte)
  | other
  deriving DecidableEq, Repr

/-- The kind of a frame that is delivered locally. -/
def Ctl.localKind (c : Ctl) (b : List Byte) : Local :=
  if vidOf b ≠ 0 then .other
  else if etherType b = 0x0806 then .arp
  else if etherType b ≠ 0x0800 then .other
  else match ipv4Of (etherData b) with
    | none => .other
    | some ip =>
      if fld ip 9 1 = 1 then .echo ip
      else if fld ip 9 1 = 17 ∧ c.takesIp ip = true ∧ bfld ip 22 2 = c.ydp.net.udp ∧ udpOk ip = true then
        .ydp (peerOf b ip) (slice ip 28 (bfld ip 24 2 - 8))
      else .other

/-- A frame delivered locally; a YDP frame is counted where it is served. -/
def Mach.deliver (m : Mach) (p : Nat) (b : List Byte) : Mach :=
  match m.ctl.localKind b with
  | .ydp peer y => m.serveYdp (fld y 3 1) (ydpFrame p peer y)
  | .arp => m.onCtl fun c => (c.receivedOn p).arpIn p (etherData b)
  | .echo ip => m.onCtl fun c => if c.phase = .asleep then c else (c.receivedOn p).echoIn p b ip
  | .other => m.onCtl (·.receivedOn p)

/-! ### PTP through the bridge (R365) -/

/-- Where a PTP message begins in a frame, and the frame is one: over Ethernet, or UDP to port 319 or 320. -/
def ptpAt (b : List Byte) : Option Nat :=
  let o := typeAt b + 2
  if etherType b = 0x88F7 then some o
  else match ipv4Of (etherData b) with
    | some ip => if etherType b = 0x0800 ∧ fld ip 9 1 = 17 ∧ (bfld ip 22 2 = 319 ∨ bfld ip 22 2 = 320) then some (o + 28) else none
    | none => none

/-- A Sync or Delay_Req. -/
def residenceAt (b : List Byte) : Option Nat :=
  match ptpAt b with
  | some o => if fld b o 1 % 16 ≤ 1 ∧ o + 16 ≤ b.length - 4 then some o else none
  | none => none

/-- A non-zero UDP checksum after 8 bytes of its datagram change, by the ones' complement differences of their words. -/
def udpUpdated (sum : Nat) (old new : List Byte) : Nat :=
  if sum = 0 then 0
  else
    let x := 65535 - fold16 (65535 - sum + wordSum new + wordSum (old.map fun v => 255 - v))
    if x = 0 then 65535 else x

/-- A frame whose PTP message at `o` has `ns` added to its correctionField, in 2^-16 ns. -/
def addResidence (b : List Byte) (o ns : Nat) : List Byte :=
  let old := slice b (o + 8) 8
  let new := be 8 ((beVal old + ns * 65536) % 2 ^ 64)
  let x := splice (b.take (b.length - 4)) (o + 8) new
  let y := if etherType b = 0x0800 then splice x (o - 2) (be 2 (udpUpdated (bfld b (o - 2) 2) old new)) else x
  y ++ le 4 (fcsOf y)

/-! ### The bridge (R359) -/

/-- A broadcast or multicast frame that is no PTP message finds the limit of its direction reached. -/
def Ctl.flooded (c : Ctl) (q : Nat) (b : List Byte) : Bool :=
  let e := kvGet (0, 0) c.ydp.net.flood q
  toGroup b && (ptpAt b).isNone && c.nat Obj.broadcast_limit != 0 && e.1 == c.now / 10 ^ 9 && decide (c.nat Obj.broadcast_limit ≤ e.2)

/-- A frame counted against the limit of its direction. -/
def Ctl.countFlood (c : Ctl) (q : Nat) (b : List Byte) : Ctl :=
  let e := kvGet (0, 0) c.ydp.net.flood q
  let t := c.now / 10 ^ 9
  if toGroup b && (ptpAt b).isNone then
    c.setNet { c.ydp.net with flood := kvSet (0, 0) c.ydp.net.flood q (t, if e.1 = t then e.2 + 1 else 1) }
  else c

/-- The residence time of an event message, 13 us at most: a free value. -/
def Ctl.withResidence (c : Ctl) (b : List Byte) : List Byte × Ctl :=
  match residenceAt b with
  | some o =>
    let ns := c.fresh 13001
    (addResidence b o ns, c.took.putN Obj.residence_max (max ns (c.nat Obj.residence_max)))
  | none => (b, c)

/-- A frame forwarded to port `q`, or dropped and counted. -/
def Ctl.forward (c : Ctl) (q : Nat) (b : List Byte) : Ctl :=
  if !c.portUp q then c
  else if c.flooded q b then c.bump (Obj.fp_frames_dropped q)
  else
    let c1 := c.countFlood q b
    if 65536 < c1.queuedAt q + b.length then c1.bump (Obj.fp_frames_dropped q)
    else
      let a := c1.withResidence b
      (a.2.sendOut q b.length (.eth q a.1)).bump (Obj.frames_forwarded q)

/-- A good frame on a port of a controller that is awake: delivered locally, forwarded, or both. -/
def Mach.bridged (m : Mach) (p : Nat) (b : List Byte) : Mach :=
  let own := dstOf b == m.ctl.macNow
  let pass (m : Mach) : Mach := if m.ctl.on Obj.bridge && !own then m.onCtl (·.forward (1 - p) b) else m
  if own || toGroup b then (pass m).deliver p b else (pass m).onCtl (·.receivedOn p)

/-- A frame received on a port: asleep, ARP and YDP are answered alone (R42). -/
def Mach.frameIn (m : Mach) (p : Nat) (b : List Byte) : Mach :=
  if m.ctl.phase = .asleep then
    if frameGood b && (dstOf b == m.ctl.macNow || toGroup b) then m.deliver p b else m
  else if !frameGood b then m.onCtl (·.bump (Obj.fp_frames_bad p))
  else m.bridged p b

/-- ETHERNET_FRAME: bytes from the destination address to the FCS; a port that is OFF or DOWN receives nothing. -/
def execEthernetFrame (port : Nat) (bytes : List Byte) (s : State) : Host.Outcome State Fault Refusal :=
  let c := s.mach.ctl
  if port < 2 ∧ (c.phase = .asleep ∨ c.awake = true ∧ c.portUp port = true) then nextMach s (s.mach.frameIn port bytes) else .next s

/-! ### Links (R358) -/

/-- FP_LINK_CHANGE: a port that is not OFF comes up, with a gratuitous ARP, or goes down for a reason. -/
def Ctl.fpLink (c : Ctl) (p : Nat) (up : Bool) (reason : Nat) : Ctl :=
  if up then
    if c.portUp p then c
    else (((c.putN (Obj.fp_link_state p) 1).putN (Obj.fp_down_reason p) 0).ring Src.FP_LINK p (Obj.fp_link_state p)).gratuitous p
  else
    let c1 := (c.putN (Obj.fp_link_state p) 0).putN (Obj.fp_down_reason p) reason
    if c.portUp p then c1.ring Src.FP_LINK p (Obj.fp_link_state p) else c1

/-- FP_LINK_CHANGE; in SLEEP a link that comes up wakes the controller where FIELD is enabled (R406). -/
def execFpLinkChange (port : Nat) (up : Bool) (reason : Nat) (s : State) : Host.Outcome State Fault Refusal :=
  let c := s.mach.ctl
  if c.phase = .asleep then nextCtl s (c.wakeByField (up && decide (port < 2) && c.nat (Obj.port_mode port) != 0))
  else if port < 2 ∧ c.awake = true ∧ c.nat (Obj.port_mode port) ≠ 0 ∧ (up = true ∨ (1 ≤ reason ∧ reason ≤ 5)) then
    nextCtl s (c.fpLink port up reason)
  else .next s

end Sys2Proof.Machine
end

