-- ==== Sys2Proof/Machine/Dispatch.lean ====
section
/-! DEFINITION. The dispatcher: one arm per command, each one direct call of that command's meaning. -/

namespace Sys2Proof.Machine

/-- The meaning of each command, on everything but the queue. -/
def exec (i : Instr) (s : State) : Host.Outcome State Fault Refusal :=
  match i with
  | .discover f => Sys2Proof.Machine.execDiscover f s
  | .openSession f => Sys2Proof.Machine.execOpenSession f s
  | .close f => Sys2Proof.Machine.execClose f s
  | .keepalive f => Sys2Proof.Machine.execKeepalive f s
  | .challenge f => Sys2Proof.Machine.execChallenge f s
  | .prove f => Sys2Proof.Machine.execProve f s
  | .read f => Sys2Proof.Machine.execRead f s
  | .write f => Sys2Proof.Machine.execWrite f s
  | .describe f => Sys2Proof.Machine.execDescribe f s
  | .segWrite f => Sys2Proof.Machine.execSegWrite f s
  | .segRead f => Sys2Proof.Machine.execSegRead f s
  | .subscribe f => Sys2Proof.Machine.execSubscribe f s
  | .eventAck f => Sys2Proof.Machine.execEventAck f s
  | .publish session set => Sys2Proof.Machine.execPublish session set s
  | .event session => Sys2Proof.Machine.execEvent session s
  | .eventResend session => Sys2Proof.Machine.execEventResend session s
  | .sessionSilent session => Sys2Proof.Machine.execSessionSilent session s
  | .segmentAbandon => Sys2Proof.Machine.execSegmentAbandon s
  | .nonceExpire session => Sys2Proof.Machine.execNonceExpire session s
  | .serviceLockoutEnd => Sys2Proof.Machine.execServiceLockoutEnd s
  | .post buffer => Sys2Proof.Machine.execPost buffer s
  | .mbxEvtTailWrite value => Sys2Proof.Machine.execMbxEvtTailWrite value s
  | .takeControl r arg => Sys2Proof.Machine.execTakeControl r arg s
  | .releaseControl r arg => Sys2Proof.Machine.execReleaseControl r arg s
  | .handOver r arg => Sys2Proof.Machine.execHandOver r arg s
  | .closeSession r arg => Sys2Proof.Machine.execCloseSession r arg s
  | .savePersistent r arg => Sys2Proof.Machine.execSavePersistent r arg s
  | .restoreDefaults r arg => Sys2Proof.Machine.execRestoreDefaults r arg s
  | .atticWriteDone ok => Sys2Proof.Machine.execAtticWriteDone ok s
  | .formatAttic r arg => Sys2Proof.Machine.execFormatAttic r arg s
  | .sealSlot r slot arg => Sys2Proof.Machine.execSealSlot r slot arg s
  | .unsealSlot r slot arg => Sys2Proof.Machine.execUnsealSlot r slot arg s
  | .clearSlot r slot arg => Sys2Proof.Machine.execClearSlot r slot arg s
  | .openAdmission r arg => Sys2Proof.Machine.execOpenAdmission r arg s
  | .closeAdmission r arg => Sys2Proof.Machine.execCloseAdmission r arg s
  | .withdrawFrom r arg => Sys2Proof.Machine.execWithdrawFrom r arg s
  | .pageDoorbell w => Sys2Proof.Machine.execPageDoorbell w s
  | .consumerTailWrite ring w => Sys2Proof.Machine.execConsumerTailWrite ring w s
  | .admitDescriptor => Sys2Proof.Machine.execAdmitDescriptor s
  | .admissionWaitEnd => Sys2Proof.Machine.execAdmissionWaitEnd s
  | .arrayPlaceLoad => Sys2Proof.Machine.execArrayPlaceLoad s
  | .ceilingRecompute => Sys2Proof.Machine.execCeilingRecompute s
  | .cueEdge input rising at250ps => Sys2Proof.Machine.execCueEdge input rising at250ps s
  | .cueMarkQualified input => Sys2Proof.Machine.execCueMarkQualified input s
  | .cueWindowClose ticket => Sys2Proof.Machine.execCueWindowClose ticket s
  | .ticketEndPost => Sys2Proof.Machine.execTicketEndPost s
  | .printFetchBand ticket bar band => Sys2Proof.Machine.execPrintFetchBand ticket bar band s
  | .fetchDeadlineMiss ticket bar line => Sys2Proof.Machine.execFetchDeadlineMiss ticket bar line s
  | .inspectFetch ticket bar line camera => Sys2Proof.Machine.execInspectFetch ticket bar line camera s
  | .screenLine bar => Sys2Proof.Machine.execScreenLine bar s
  | .nozzleEntryWrite r entries => Sys2Proof.Machine.execNozzleEntryWrite r entries s
  | .toneCurveWrite r curve value => Sys2Proof.Machine.execToneCurveWrite r curve value s
  | .arrayLoad r value => Sys2Proof.Machine.execArrayLoad r value s
  | .arrayClear r arg => Sys2Proof.Machine.execArrayClear r arg s
  | .curveClear r arg => Sys2Proof.Machine.execCurveClear r arg s
  | .loadTable r value => Sys2Proof.Machine.execLoadTable r value s
  | .exportTable r value => Sys2Proof.Machine.execExportTable r value s
  | .saveCare r arg => Sys2Proof.Machine.execSaveCare r arg s
  | .discoverChain r chain arg => Sys2Proof.Machine.execDiscoverChain r chain arg s
  | .headsIn r chain arg => Sys2Proof.Machine.execHeadsIn r chain arg s
  | .headIn r head arg => Sys2Proof.Machine.execHeadIn r head arg s
  | .headOut r head arg => Sys2Proof.Machine.execHeadOut r head arg s
  | .headOutComplete head => Sys2Proof.Machine.execHeadOutComplete head s
  | .challengeUsage r head arg => Sys2Proof.Machine.execChallengeUsage r head arg s
  | .dispatchLine chain line group => Sys2Proof.Machine.execDispatchLine chain line group s
  | .status m => Sys2Proof.Machine.execStatus m s
  | .lineReport m => Sys2Proof.Machine.execLineReport m s
  | .discoverReply m => Sys2Proof.Machine.execDiscoverReply m s
  | .capability m => Sys2Proof.Machine.execCapability m s
  | .configAck m => Sys2Proof.Machine.execConfigAck m s
  | .usageRecord m => Sys2Proof.Machine.execUsageRecord m s
  | .headReplyTimeout head => Sys2Proof.Machine.execHeadReplyTimeout head s
  | .headTimeout head => Sys2Proof.Machine.execHeadTimeout head s
  | .tick chain => Sys2Proof.Machine.execTick chain s
  | .chainHeal chain => Sys2Proof.Machine.execChainHeal chain s
  | .hotDiscovery chain => Sys2Proof.Machine.execHotDiscovery chain s
  | .quadPllLocked quad => Sys2Proof.Machine.execQuadPllLocked quad s
  | .rxAligned lane symbols => Sys2Proof.Machine.execRxAligned lane symbols s
  | .alignLoss lane symbols => Sys2Proof.Machine.execAlignLoss lane symbols s
  | .trainReq lane target request => Sys2Proof.Machine.execTrainReq lane target request s
  | .trainRsp lane echo status => Sys2Proof.Machine.execTrainRsp lane echo status s
  | .trainTimeout lane => Sys2Proof.Machine.execTrainTimeout lane s
  | .laneLoss lane lockLost => Sys2Proof.Machine.execLaneLoss lane lockLost s
  | .laneRecover lane symbols => Sys2Proof.Machine.execLaneRecover lane symbols s
  | .skipSend lane => Sys2Proof.Machine.execSkipSend lane s
  | .skipReceived lane held => Sys2Proof.Machine.execSkipReceived lane held s
  | .sleepReceived lane => Sys2Proof.Machine.execSleepReceived lane s
  | .laneWake lane symbols => Sys2Proof.Machine.execLaneWake lane symbols s
  | .wakeAlignTimeout lane => Sys2Proof.Machine.execWakeAlignTimeout lane s
  | .txSleepWrite r lane arg => Sys2Proof.Machine.execTxSleepWrite r lane arg s
  | .laneRoleWrite r lane arg => Sys2Proof.Machine.execLaneRoleWrite r lane arg s
  | .quadRateWrite r quad arg => Sys2Proof.Machine.execQuadRateWrite r quad arg s
  | .retrain r lane arg => Sys2Proof.Machine.execRetrain r lane arg s
  | .calibrateSlicer r lane arg => Sys2Proof.Machine.execCalibrateSlicer r lane arg s
  | .calSwitchToSpare lane => Sys2Proof.Machine.execCalSwitchToSpare lane s
  | .calHistogramsDone lane levels pairs => Sys2Proof.Machine.execCalHistogramsDone lane levels pairs s
  | .calSwitchBack lane => Sys2Proof.Machine.execCalSwitchBack lane s
  | .calDivergeTimeout lane => Sys2Proof.Machine.execCalDivergeTimeout lane s
  | .calSpareLost lane lost => Sys2Proof.Machine.execCalSpareLost lane lost s
  | .clearCounters r lane arg => Sys2Proof.Machine.execClearCounters r lane arg s
  | .encoderCount samples at250ps => Sys2Proof.Machine.execEncoderCount samples at250ps s
  | .enc1Count samples => Sys2Proof.Machine.execEnc1Count samples s
  | .indexPulse samples => Sys2Proof.Machine.execIndexPulse samples s
  | .validatePosition r arg => Sys2Proof.Machine.execValidatePosition r arg s
  | .observerUpdate => Sys2Proof.Machine.execObserverUpdate s
  | .strobeArm pair => Sys2Proof.Machine.execStrobeArm pair s
  | .strobeFire pair => Sys2Proof.Machine.execStrobeFire pair s
  | .overspeedEpisodeEnd => Sys2Proof.Machine.execOverspeedEpisodeEnd s
  | .overspeedHold => Sys2Proof.Machine.execOverspeedHold s
  | .holdEnd => Sys2Proof.Machine.execHoldEnd s
  | .rmSelfCheck a b => Sys2Proof.Machine.execRmSelfCheck a b s
  | .rmSyncStart rm => Sys2Proof.Machine.execRmSyncStart rm s
  | .rmSyncDone rm => Sys2Proof.Machine.execRmSyncDone rm s
  | .rmRetake => Sys2Proof.Machine.execRmRetake s
  | .retakeWaitExpiry => Sys2Proof.Machine.execRetakeWaitExpiry s
  | .requestSwitch r arg => Sys2Proof.Machine.execRequestSwitch r arg s
  | .ssiRead input raw ok => Sys2Proof.Machine.execSsiRead input raw ok s
  | .cameraEnable r camera arg => Sys2Proof.Machine.execCameraEnable r camera arg s
  | .outputViewWrite r camera sub value => Sys2Proof.Machine.execOutputViewWrite r camera sub value s
  | .flatFieldWrite r tile value => Sys2Proof.Machine.execFlatFieldWrite r tile value s
  | .exposureTrigger camera => Sys2Proof.Machine.execExposureTrigger camera s
  | .exposureTag camera exposure => Sys2Proof.Machine.execExposureTag camera exposure s
  | .csi f => Sys2Proof.Machine.execCsi f s
  | .frameTimeout camera sensor => Sys2Proof.Machine.execFrameTimeout camera sensor s
  | .bridgeStatus f => Sys2Proof.Machine.execBridgeStatus f s
  | .bridgeStatusTimeout camera => Sys2Proof.Machine.execBridgeStatusTimeout camera s
  | .cameraLostClear camera => Sys2Proof.Machine.execCameraLostClear camera s
  | .cciTransfer r camera value => Sys2Proof.Machine.execCciTransfer r camera value s
  | .cciReply f => Sys2Proof.Machine.execCciReply f s
  | .cciTimeout camera => Sys2Proof.Machine.execCciTimeout camera s
  | .cameraIdleSleep camera => Sys2Proof.Machine.execCameraIdleSleep camera s
  | .monitorFrame camera => Sys2Proof.Machine.execMonitorFrame camera s
  | .recordFrame camera => Sys2Proof.Machine.execRecordFrame camera s
  | .loopBandMeasure camera => Sys2Proof.Machine.execLoopBandMeasure camera s
  | .loopActionEntry => Sys2Proof.Machine.execLoopActionEntry s
  | .appearanceLoad r value => Sys2Proof.Machine.execAppearanceLoad r value s
  | .appearanceClear r arg => Sys2Proof.Machine.execAppearanceClear r arg s
  | .calFlatField r value => Sys2Proof.Machine.execCalFlatField r value s
  | .calFlatDone => Sys2Proof.Machine.execCalFlatDone s
  | .calRegistration r value => Sys2Proof.Machine.execCalRegistration r value s
  | .calMarkZone => Sys2Proof.Machine.execCalMarkZone s
  | .calWaitExpiry => Sys2Proof.Machine.execCalWaitExpiry s
  | .clearCalRecords r arg => Sys2Proof.Machine.execClearCalRecords r arg s
  | .streamEnable r stream arg => Sys2Proof.Machine.execStreamEnable r stream arg s
  | .encodePicture stream => Sys2Proof.Machine.execEncodePicture stream s
  | .markLongTerm r stream arg => Sys2Proof.Machine.execMarkLongTerm r stream arg s
  | .releaseLongTerm r stream arg => Sys2Proof.Machine.execReleaseLongTerm r stream arg s
  | .forceIdr r stream arg => Sys2Proof.Machine.execForceIdr r stream arg s
  | .decode r value => Sys2Proof.Machine.execDecode r value s
  | .decodePicture concealed => Sys2Proof.Machine.execDecodePicture concealed s
  | .decodeStop r arg => Sys2Proof.Machine.execDecodeStop r arg s
  | .capture r value => Sys2Proof.Machine.execCapture r value s
  | .capturePack => Sys2Proof.Machine.execCapturePack s
  | .captureTimeout => Sys2Proof.Machine.execCaptureTimeout s
  | .cropCut => Sys2Proof.Machine.execCropCut s
  | .packCrateCheck => Sys2Proof.Machine.execPackCrateCheck s
  | .crateUnchecked => Sys2Proof.Machine.execCrateUnchecked s
  | .fireRecordComplete => Sys2Proof.Machine.execFireRecordComplete s
  | .cellarTrain found => Sys2Proof.Machine.execCellarTrain found s
  | .cellarWipe => Sys2Proof.Machine.execCellarWipe s
  | .cellarRetrain r arg => Sys2Proof.Machine.execCellarRetrain r arg s
  | .dqsOscillatorRead => Sys2Proof.Machine.execDqsOscillatorRead s
  | .patrolScrub block => Sys2Proof.Machine.execPatrolScrub block s
  | .cellarFreeze controller e => Sys2Proof.Machine.execCellarFreeze controller e s
  | .cellarResume r controller arg => Sys2Proof.Machine.execCellarResume r controller arg s
  | .wipeRange r value => Sys2Proof.Machine.execWipeRange r value s
  | .rateSelect r arg => Sys2Proof.Machine.execRateSelect r arg s
  | .rateSwitch => Sys2Proof.Machine.execRateSwitch s
  | .selfRefreshEntry => Sys2Proof.Machine.execSelfRefreshEntry s
  | .bar2Access access => Sys2Proof.Machine.execBar2Access access s
  | .ethernetFrame port bytes => Sys2Proof.Machine.execEthernetFrame port bytes s
  | .fpLinkChange port up reason => Sys2Proof.Machine.execFpLinkChange port up reason s
  | .ptpSync offset delay => Sys2Proof.Machine.execPtpSync offset delay s
  | .ptpAnnounce a => Sys2Proof.Machine.execPtpAnnounce a s
  | .ptpDelayReq => Sys2Proof.Machine.execPtpDelayReq s
  | .announceTimeout => Sys2Proof.Machine.execAnnounceTimeout s
  | .setTime r value => Sys2Proof.Machine.execSetTime r value s
  | .stepTime r value => Sys2Proof.Machine.execStepTime r value s
  | .acceptStep r arg => Sys2Proof.Machine.execAcceptStep r arg s
  | .pulseArm r output arg => Sys2Proof.Machine.execPulseArm r output arg s
  | .pulseEdge output => Sys2Proof.Machine.execPulseEdge output s
  | .hostPortReset kind speed width => Sys2Proof.Machine.execHostPortReset kind speed width s
  | .timeNsRead read => Sys2Proof.Machine.execTimeNsRead read s
  | .msixSend vector write => Sys2Proof.Machine.execMsixSend vector write s
  | .bellRing value => Sys2Proof.Machine.execBellRing value s
  | .ringSoftware r arg => Sys2Proof.Machine.execRingSoftware r arg s
  | .claim by_ target => Sys2Proof.Machine.execClaim by_ target s
  | .complete by_ target source => Sys2Proof.Machine.execComplete by_ target source s
  | .resetTarget r target arg => Sys2Proof.Machine.execResetTarget r target arg s
  | .clearPending r arg => Sys2Proof.Machine.execClearPending r arg s
  | .pendingW1c word value => Sys2Proof.Machine.execPendingW1c word value s
  | .sourceConfigWrite r x value => Sys2Proof.Machine.execSourceConfigWrite r x value s
  | .clockWindow clock deviation => Sys2Proof.Machine.execClockWindow clock deviation s
  | .refDeviationWindow other alref0 alref1 => Sys2Proof.Machine.execRefDeviationWindow other alref0 alref1 s
  | .refLost input => Sys2Proof.Machine.execRefLost input s
  | .refRestored input => Sys2Proof.Machine.execRefRestored input s
  | .refRevert => Sys2Proof.Machine.execRefRevert s
  | .selectReference r arg => Sys2Proof.Machine.execSelectReference r arg s
  | .boothCalibrate rc xtal => Sys2Proof.Machine.execBoothCalibrate rc xtal s
  | .xtalJudgement rcCycles => Sys2Proof.Machine.execXtalJudgement rcCycles s
  | .rideStarted ride voutWord => Sys2Proof.Machine.execRideStarted ride voutWord s
  | .rideIdleStop ride => Sys2Proof.Machine.execRideIdleStop ride s
  | .powerStateRequest r arg => Sys2Proof.Machine.execPowerStateRequest r arg s
  | .wake event => Sys2Proof.Machine.execWake event s
  | .railEnable rose => Sys2Proof.Machine.execRailEnable rose s
  | .pgFail step => Sys2Proof.Machine.execPgFail step s
  | .pmbusTelemetry readings => Sys2Proof.Machine.execPmbusTelemetry readings s
  | .vcoreScaleTimeout => Sys2Proof.Machine.execVcoreScaleTimeout s
  | .powerOn => Sys2Proof.Machine.execPowerOn s
  | .resetN => Sys2Proof.Machine.execResetN s
  | .startup attic fusesOk boothOk voutModes => Sys2Proof.Machine.execStartup attic fusesOk boothOk voutModes s
  | .atticBackgroundErase => Sys2Proof.Machine.execAtticBackgroundErase s
  | .resetController r arg => Sys2Proof.Machine.execResetController r arg s
  | .lifecycleTransition r value => Sys2Proof.Machine.execLifecycleTransition r value s
  | .axisBusCycle => Sys2Proof.Machine.execAxisBusCycle s
  | .axisReply axis reply => Sys2Proof.Machine.execAxisReply axis reply s
  | .stageTimeout axis => Sys2Proof.Machine.execStageTimeout axis s
  | .axisEnable r axis arg => Sys2Proof.Machine.execAxisEnable r axis arg s
  | .axisTarget r axis value => Sys2Proof.Machine.execAxisTarget r axis value s
  | .stop r axis arg => Sys2Proof.Machine.execStop r axis arg s
  | .home r axis arg => Sys2Proof.Machine.execHome r axis arg s
  | .clearError r axis arg => Sys2Proof.Machine.execClearError r axis arg s
  | .standstillDelay axis => Sys2Proof.Machine.execStandstillDelay axis s
  | .limitSwitchInput input level => Sys2Proof.Machine.execLimitSwitchInput input level s
  | .limFilterExpiry input => Sys2Proof.Machine.execLimFilterExpiry input s
  | .limReleaseExpiry input => Sys2Proof.Machine.execLimReleaseExpiry input s
  | .faultLatch samples => Sys2Proof.Machine.execFaultLatch samples s
  | .clearFaults r arg => Sys2Proof.Machine.execClearFaults r arg s
  | .forceWrite r word value => Sys2Proof.Machine.execForceWrite r word value s
  | .heartbeatLoss => Sys2Proof.Machine.execHeartbeatLoss s
  | .carouselToggle => Sys2Proof.Machine.execCarouselToggle s
  | .dieTempRead a b => Sys2Proof.Machine.execDieTempRead a b s
  | .periodClose => Sys2Proof.Machine.execPeriodClose s
  | .closePeriod r arg => Sys2Proof.Machine.execClosePeriod r arg s
  | .usageTailWrite r arg => Sys2Proof.Machine.execUsageTailWrite r arg s
  | .stageServiceKey r value => Sys2Proof.Machine.execStageServiceKey r value s
  | .setFamilyKey r value => Sys2Proof.Machine.execSetFamilyKey r value s
  | .clearFamilyKey r arg => Sys2Proof.Machine.execClearFamilyKey r arg s
  | .vddBoothioSag => Sys2Proof.Machine.execVddBoothioSag s
  | .ptpMasterSync => Sys2Proof.Machine.execPtpMasterSync s
  | .ptpMasterAnnounce => Sys2Proof.Machine.execPtpMasterAnnounce s
  | .clockRecoveryLock lane => Sys2Proof.Machine.execClockRecoveryLock lane s

end Sys2Proof.Machine
end

