-- ==== Sys2Proof/Machine/Step.lean ====
section
/-! DEFINITION. One step: the command at the front of the queue, or one cycle of the control clock when none waits. -/

namespace Sys2Proof.Machine

/-- The state with its front command taken off the queue. -/
def State.popped (s : State) (rest : List Instr) : State := { s with pending := rest }

/-- An idle cycle: 4 ns of the control clock pass (log entry 1). -/
def State.idle (s : State) : State := { s with mach := { s.mach with ctl := s.mach.ctl.idleCycle } }

/-- One step of the block. -/
def step (s : State) : Host.Outcome State Fault Refusal :=
  match s.pending with
  | [] => .next s.idle
  | i :: rest => exec i (s.popped rest)

/-- The state with the command a word spells in front of its queue. -/
def State.withFetchWord (s : State) (nbits w : Nat) : State :=
  match decodeTableWord nbits w with
  | some i => { s with pending := i :: s.pending }
  | none => s

end Sys2Proof.Machine
end

