-- ==== Sys2Proof/Machine/Tap.lean ====
section
/-! DEFINITION. The test access port (R498). No row of the command table drives it: an instruction is loaded from outside, by `Ctl.tapLoad`
(log entry 162). -/

namespace Sys2Proof.Machine

/-- IDCODE: version 1, part 0x9450, manufacturer 0x5A3, then 1. -/
abbrev tapIdcode : Nat := 1 * 2 ^ 28 + 0x9450 * 2 ^ 12 + 0x5A3 * 2 + 1

/-- An instruction drives balls. -/
def TapInstr.drives : TapInstr → Bool
  | .extest | .extestPulse | .extestTrain | .clamp | .highz => true
  | .bypass | .idcode | .samplePreload => false

/-- What the port loads for an instruction: BYPASS in place of one that drives balls, but in MANUFACTURE. -/
def Ctl.tapTakes (c : Ctl) (i : TapInstr) : TapInstr := if i.drives && c.nat Obj.lifecycle_state != 0 then .bypass else i

/-- An instruction loaded. One that drives balls takes the FIRE balls from the arbiter, whose readback of every pair then latches. -/
def Ctl.tapLoad (c : Ctl) (i : TapInstr) : Ctl :=
  let j := c.tapTakes i
  let c1 : Ctl := { c with life := { c.life with tap := j } }
  if j.drives then forEach (List.range 32) (fun c s => c.raiseFault (faultStrobeReadback s)) c1 else c1

/-- The data register between the port's ends, where it is not the boundary scan's: one bit of 0, or IDCODE (R498). -/
def TapInstr.register : TapInstr → Option (Nat × Nat)
  | .bypass => some (1, 0)
  | .idcode => some (32, tapIdcode)
  | _ => none

end Sys2Proof.Machine
end

