-- ==== Sys2Proof/Safety.lean ====
section
/-! DEFINITION. What a safe state is, and what a command leaves alone, in the terms the statements use. -/

namespace Sys2Proof.Machine

/-- The controller of a state. -/
abbrev State.c (s : State) : Ctl := s.mach.ctl

/-- Replay `x` runs and may go on (R318, R320): its ring has room, its rate allows, the record ride and the cellar serve. -/
abbrev Ctl.decodes (c : Ctl) (x : Replay) : Prop :=
  c.recorder.replay = some x ∧ (c.nat Obj.dec_head + 32 - c.nat Obj.dec_tail) % 32 < x.frames ∧
    (x.count = 0 ∨ x.lastAt + 10 ^ 9 / max 1 x.rate ≤ c.now) ∧ c.rideRuns rideRecord = true ∧ c.cellarUp = true ∧
    c.frozen 0 = false ∧ c.frozen 1 = false

/-- The first byte of the slot that a replay writes next for a picture of a size, and the one after its last (R320). -/
def Replay.slotRange (x : Replay) (w h depth : Nat) : Nat × Nat :=
  (x.base + x.slot * replaySlot w h depth, x.base + (x.slot + 1) * replaySlot w h depth)

end Sys2Proof.Machine

namespace Sys2Proof.Safety

open Sys2Proof.Machine

/-- The cellar's bytes are in canonical form and lie in one store (R337): equal memories are equal data. -/
abbrev cellarCanonical (s : State) : Prop := s.mach.memWf

/-! ### Objects that serving a request may change -/

/-- The counters a ring may raise: rings_total (R388), and events_lost of a session (R54). -/
def bellObject (k : Nat) : Bool := k == Obj.rings_total || decide (0x1101 ≤ k / 256 ∧ k / 256 ≤ 0x1108 ∧ k % 256 = 7)

/-- The objects that serving any request may change besides its own effect: the ring counters, path and peer of a session
(R41, R360), and the frames a field port received, sent or dropped (R358). -/
def wireObject (k : Nat) : Bool :=
  bellObject k || decide (0x1101 ≤ k / 256 ∧ k / 256 ≤ 0x1108 ∧ (k % 256 = 3 ∨ k % 256 = 4)) ||
    decide (0x2510 ≤ k / 256 ∧ k / 256 ≤ 0x2511 ∧ (k % 256 = 7 ∨ k % 256 = 8 ∨ k % 256 = 11))

/-! ### Answers -/

/-- The response kept for request `r`, a WRITE of the one object `key`, answers `st` for it (R44, R46). -/
def answered (s : State) (r : Req) (key st : Nat) : Prop :=
  (s.mach.ctl.sess r.session).stored = some ⟨0x11, r.session, r.seq, r.tag, St.OK, writePayload [(key, st)]⟩

/-- The response kept for a frame of opcode `op`: its status and payload (R44). -/
def replied (s : State) (op : Nat) (f : Frame) (st : Nat) (payload : List Byte) : Prop :=
  (s.mach.ctl.sess f.session).stored = some ⟨op, f.session, f.seq, f.tag, st, payload⟩

/-- The hypotheses under which a session's frame reaches its handler (R33, R43): the controller is awake, the header and the
layout are right, the path is one of the three with room in its queue, the session is known and the sequence is its next one. -/
def admitted (c : Ctl) (op : Nat) (f : Frame) (layout : Bool) : Prop :=
  c.awake = true ∧ headerOk op f = true ∧ layout = true ∧ f.path ≤ 2 ∧ c.knows f.session f.tag = true ∧
    f.seq = ((c.sess f.session).lastSeq + 1) % 65536 ∧ c.rxFull f.path = false

/-- Nothing that a WRITE's response would let begin is owed: no life-cycle transition, controller reset or sleep (R405, R415, R424). -/
def steady (c : Ctl) : Prop :=
  c.life.moving = none ∧ c.cmdBusy Obj.reset_controller = false ∧ c.nat Obj.power_state_request ≠ 0

/-! ### Pages -/

/-- The objects that ticketing a page of a slot may change, or the page's wait (R72, R73). -/
def admitObjects (slot : Nat) : List Nat :=
  [Obj.wait_reason, Obj.verify_backlog, Obj.mc_state 0, Obj.mc_state 1, Obj.submit_head, Obj.completion_head,
    Obj.tickets_outstanding slot, Obj.all_tickets_outstanding, Obj.last_ticket, Obj.slot_state slot, Obj.appearance_state,
    Obj.starved, Obj.horizon_end, Obj.speed_ceiling, Obj.ceiling_binding, Obj.power_state]

/-- The objects of a change of the active ringmaster (R227 to R233). -/
def switchObjects : List Nat :=
  [Obj.active_ringmaster, rmState 0, rmState 1, Obj.request_switch, Obj.switchovers, Obj.switchover_log]

/-- The validations of all slots. -/
def validations : List Nat := (List.range 256).map Obj.validation

/-- No wait condition holds for a descriptor whose crates need no verification (R73), its gap need not stretch or may, and the
fetch ledger holds it (R83): steps 10 and 11 of R72 pass. -/
def admissible (m : Mach) (d : Desc) : Prop :=
  m.waitCode d false = 0 ∧ (d.exactGap = false ∨ (m.ctl.plan d).stretch = 0) ∧
    ledgerHolds (((m.ctl.startStretch (m.ctl.plan d).gapStart (m.ctl.nat (Obj.line_pitch d.slot))).live.map
        (m.ctl.startStretch (m.ctl.plan d).gapStart (m.ctl.nat (Obj.line_pitch d.slot))).ticketSpans).flatten)
      (m.ctl.planSpans d (m.ctl.plan d) (d.map.declaredAll m.cellar)) (m.ctl.nat Obj.fetch_budget) = true

/-- `t` has one ticket more than `a`, the page of descriptor `d` under the next number (R76). -/
def ticketed (a t : Ctl) (d : Desc) : Prop :=
  ∃ x, t.adm.tickets = a.adm.tickets ++ [x] ∧ x.number = nextNumber a.adm.lastNumber ∧ x.slot = d.slot ∧ x.bars = d.bars ∧
    x.length = d.length ∧ x.width = d.width ∧ x.table = d.table ∧ x.hostRef = d.hostRef ∧ x.ended = false

/-! ### Frames: what a command leaves alone -/

/-- The parts of the machine a frame speaks of, beside the dictionary's objects. -/
inductive Part
  | cellar | now | sessions | staging | lockout | ports | mailbox | eventRing | bell | faults | clock | host | phase
  | admission | axes | care | chains | pages | position | fire | cellarCtl | loop | usage | keys | attic | life | power
  | units
  deriving DecidableEq, Repr

/-- A part is as it was. Of a session, what every request and ring may change is left out (path, peer, time last heard,
sequence and answer kept, queued event records); of the bell, PENDING and the record count; of the host port, its pending
vectors and wake pin; of the ports, their egress, receive queues and counts; of admission, the changes of the cycle; of the mailbox, its response. -/
def kept (a b : Mach) : Part → Prop
  | .cellar => b.cellar = a.cellar
  | .now => b.ctl.now = a.ctl.now
  | .sessions => ∀ n, b.ctl.sess n =
      { a.ctl.sess n with path := (b.ctl.sess n).path, peer := (b.ctl.sess n).peer, heardAt := (b.ctl.sess n).heardAt,
                          lastSeq := (b.ctl.sess n).lastSeq, stored := (b.ctl.sess n).stored,
                          queue := (b.ctl.sess n).queue, pendingLost := (b.ctl.sess n).pendingLost }
  | .staging => b.ctl.ydp.staging = a.ctl.ydp.staging
  | .lockout => b.ctl.ydp.lockoutEnd = a.ctl.ydp.lockoutEnd
  | .ports => b.ctl.ydp.net = { a.ctl.ydp.net with busyTo := b.ctl.ydp.net.busyTo, rx := b.ctl.ydp.net.rx }
  | .mailbox => b.ctl.ydp.mbxRequest = a.ctl.ydp.mbxRequest
  | .eventRing => b.ctl.ydp.evtHead = a.ctl.ydp.evtHead ∧ b.ctl.ydp.evtTail = a.ctl.ydp.evtTail ∧
      b.ctl.ydp.evtRing = a.ctl.ydp.evtRing
  | .bell => b.ctl.bell = { a.ctl.bell with pending := b.ctl.bell.pending, eventSeq := b.ctl.bell.eventSeq }
  | .faults => b.ctl.flt = a.ctl.flt
  | .clock => b.ctl.clock = a.ctl.clock
  | .host => b.ctl.host = { a.ctl.host with waiting := b.ctl.host.waiting, wakeLow := b.ctl.host.wakeLow }
  | .phase => b.ctl.phase = a.ctl.phase
  | .admission => b.ctl.adm = { a.ctl.adm with changed := b.ctl.adm.changed }
  | .axes => b.ctl.axs = a.ctl.axs
  | .care => b.ctl.care = a.ctl.care
  | .chains => b.ctl.chn = a.ctl.chn
  | .pages => b.ctl.page = a.ctl.page
  | .position => b.ctl.pos = a.ctl.pos
  | .fire => b.ctl.fire = a.ctl.fire
  | .cellarCtl => b.ctl.mem = a.ctl.mem
  | .loop => b.ctl.loop = a.ctl.loop
  | .usage => b.ctl.use = a.ctl.use
  | .keys => b.ctl.keys = a.ctl.keys
  | .attic => b.ctl.attic = a.ctl.attic
  | .life => b.ctl.life = a.ctl.life
  | .power => b.ctl.pwr = a.ctl.pwr
  | .units => b.ctl.units = a.ctl.units

/-! ### The safe stop (R462) -/

/-- The parts the safe stop may change. -/
def stopParts : List Part := [.faults, .admission, .axes, .care, .chains, .loop, .power]

/-- The objects the safe stop may change. -/
def stopObjects : List Nat :=
  [Obj.first_fault, Obj.safe_stops, Obj.faults_latched, Obj.carousel_state, Obj.admission_state, Obj.closed_reason,
    Obj.wait_reason, Obj.verify_backlog, Obj.horizon_end, Obj.speed_ceiling, Obj.ceiling_binding, Obj.open_admission,
    Obj.cal_flat_field, Obj.cal_registration] ++
    ((List.range 8).map fun a => [Obj.axis_state a, Obj.home a]).flatten

/-- The objects a source that latches may change: its own two, and those of the safe stop it may start (R459, R462). -/
def faultObjects (f : Nat) : List Nat := Obj.source_cause f :: Obj.source_raises f :: stopObjects

/-! ### Sessions that end (R40, R41, R92) -/

/-- The parts the end of a session may change. -/
def shutParts : List Part := [.sessions, .staging, .admission, .power]

/-- The objects the end of session `n` may change: its own, and those of the grant it held. -/
def shutObjects (n : Nat) : List Nat :=
  [Obj.controlling_session, Obj.admission_state, Obj.closed_reason, Obj.wait_reason, Obj.verify_backlog, Obj.speed_ceiling,
    Obj.ceiling_binding, Obj.session_state n, Obj.session_role n, Obj.session_path n, Obj.session_peer n, Obj.session_idle_time n,
    Obj.events_enable n, Obj.events_lost n]

/-! ### A usage period that closes (R477) -/

/-- The parts the close of a usage period may change. -/
def periodParts : List Part := [.usage, .chains, .attic]

/-- The objects the close of a usage period may change. -/
def periodObjects : List Nat :=
  [Obj.time_stepped, Obj.period_number, Obj.period_start] ++ allHeads.map Obj.auth_state

/-- The objects that admission closing may change (R71, R92). -/
def closeObjects : List Nat :=
  [Obj.admission_state, Obj.closed_reason, Obj.wait_reason, Obj.verify_backlog, Obj.speed_ceiling, Obj.ceiling_binding]

/-! ### The loop (R275 to R296) -/

/-- The cellar's bytes outside some ranges, each from its first byte to the one after its last, are as they were. -/
def keptOutside (rs : List (Nat × Nat)) (a b : State) : Prop :=
  ∀ x, (∀ r ∈ rs, x < r.1 ∨ r.2 ≤ x) → memGet b.mach.cellar x = memGet a.mach.cellar x

/-- The bytes from the first to beyond the last of the loop ring (R296). -/
def loopRing (c : Ctl) : Nat × Nat := (c.nat Obj.loop_ring_base, c.nat Obj.loop_ring_base + 64 * c.nat Obj.loop_ring_entries)

/-- The objects that the measuring of one band of camera `k` may change. -/
def bandObjects (k : Nat) : List Nat :=
  [Obj.align_state k, Obj.align_score k, Obj.align_dx k, Obj.align_dy k, Obj.bands_unaligned k, Obj.tiles_excluded k,
    Obj.tiles_compared k, Obj.defect_tiles k, Obj.samples_stale, Obj.loop_head, Obj.records_lost, Obj.ride_state 5, pllKey 5] ++
    ((List.range 8).map fun b => [Obj.bins_ready b, Obj.worst_residual b, Obj.worst_column b, Obj.cross_error b, Obj.along_error b,
      Obj.registration_discards b, Obj.proposals b]).flatten

/-- The objects a library change may touch: which places are in use, and every slot's validation (R61, R65). -/
def libraryObjects : List Nat :=
  Obj.appearance_state :: (List.range 64).map Obj.array_state ++ (List.range 128).map Obj.curve_state ++
    (List.range 256).map Obj.validation

/-! ### The packer (R320 to R331) -/

/-- The parts an item of the packer may change. -/
def packParts : List Part := [.units, .cellar, .cellarCtl, .power]

/-- The objects an item may change, with those of the cellar's ride and of a capture that it ends. -/
def packObjects : List Nat :=
  [Obj.pack_store_free, Obj.item_head, Obj.items_dropped, Obj.fire_lines_lost, Obj.capture, Obj.mc_state 0, Obj.mc_state 1,
    Obj.ride_state 6, pllKey 6]

/-- The pack store and the item ring. -/
def packRanges (c : Ctl) : List (Nat × Nat) :=
  [(c.nat Obj.store_base, c.nat Obj.store_base + c.nat Obj.store_bytes),
    (c.nat Obj.item_ring_base, c.nat Obj.item_ring_base + 64 * c.nat Obj.item_entries)]

/-- The store's items and the place of its next lie in it (an invariant of the packer). -/
def storeInside (c : Ctl) : Prop :=
  c.recorder.next ≤ c.nat Obj.store_bytes ∧ ∀ e ∈ c.recorder.store, e.1 + e.2 ≤ c.nat Obj.store_bytes

/-! ### The decoder (R318 to R320) -/

/-- The picture parameter set a last IDR slice of a stream names, and its bits after: its no_output_of_prior_pics flag first. -/
def idrSlice (nal : List Byte) : Option (Bool × Nat × List Bool) :=
  if (nal.headD 0).toNat = 0x26 ∧ (nal.getD 1 0).toNat % 8 ≠ 0 ∧ bit (nal.getD 2 0).toNat 7 = true then do
    let d ← readBits 1 ((msbBits (unemulated 0 (nal.drop 2))).drop 1)
    let i ← ue d.2
    some (d.1 == 1, i.1, i.2)
  else none

/-! ### Lanes and cameras (R188 to R262) -/

/-- A good frame of a camera that is on (R150, R191, R239), with this type, tag, auxiliary field and payload. -/
abbrev camSends (c : Ctl) (f : CamFrame) (type tag aux : Nat) (p : List Byte) : Prop :=
  (c.camFrame f type).map (fun b => (frameTag b, frameAux b, framePayload b)) = some (tag, aux, p)

/-- The objects that a lane's start may change (R188 to R191). -/
def laneObjects (l : Nat) : List Nat :=
  [Obj.tx_state l, Obj.rx_state l, Obj.tx_taps l, Obj.rx_thresholds l, Obj.rx_dfe l, Obj.hop_received l, Obj.lane_down_reason l,
    Obj.groups_received l]

/-- The objects that a camera's state brings with it (R254, R273). -/
def camObjects (k : Nat) : List Nat :=
  [Obj.camera_state k, Obj.lost_reason k, Obj.rows_missing k, Obj.align_state k, Obj.columns_per_pixel k]

/-- The objects that show a camera's settings in force (R259 to R262). -/
def shownObjects (k : Nat) : List Nat :=
  [Obj.field_first k, Obj.field_last k, Obj.stitched_width k, Obj.pixel_rate k, Obj.iso_demand k, Obj.iso_committed]

/-- The parts the strip of a camera may change as rows join it (R247 to R257, R299). -/
def stripParts : List Part := [.units, .cellar, .cellarCtl, .loop]

/-- The objects it may change. -/
def stripObjects (k : Nat) : List Nat := [Obj.crop_rows_written k, Obj.cal_flat_field, Obj.mc_state 0, Obj.mc_state 1]

/-- The crop ring of a camera (R257). -/
def cropRange (c : Ctl) (k : Nat) : Nat × Nat :=
  (ringBase (c.cam k).crop, ringBase (c.cam k).crop + ringBytes (c.cam k).crop)

/-- The next slot of a camera's crop ring lies in the ring (an invariant of the strip). -/
def cropInside (c : Ctl) (k : Nat) : Prop :=
  (c.cam k).cropSlot < max 1 (ringBytes (c.cam k).crop / cropSlotBytes (ringFormat (c.cam k).crop) (c.stitched k))

/-! ### Heads (R163 to R186) -/

/-- The objects of a position of a chain that a discovery or a head's own frames may change. -/
def headObjects (h : Nat) : List Nat :=
  [Obj.head_state h, Obj.serial h, Obj.head_family h, Obj.capability h, Obj.auth_state h, Obj.out_reason h, Obj.status_flags h,
    Obj.last_fired h]

/-- The objects that show a bar's pending changes (R136). -/
def pendingObjects : List Nat := Obj.staging_free :: (List.range 8).map Obj.pending_commits

/-- The parts that lines lost with a head may change (R177, R178). -/
def lossParts : List Part := [.chains, .care, .admission, .usage, .units, .loop]

/-- The objects that a head's end may change: its state and reason, its commands, the lines it loses, and its pending change. -/
def endObjects (h : Nat) : List Nat :=
  [Obj.head_state h, Obj.out_reason h, Obj.head_in h, Obj.head_out h, Obj.pending_in h, Obj.heads_in (h / 16),
    Obj.lines_lost (h / 16)] ++ pendingObjects

/-- The objects that a receiver's fall may change: state, reason, and the calibration that it aborts (R198, R204), and the code
groups it received (R205). -/
def downObjects (l : Nat) : List Nat :=
  [Obj.rx_state l, Obj.lane_down_reason l, Obj.rx_thresholds l, Obj.rx_dfe l, Obj.cal_spare l, Obj.calibrate_slicer l,
    Obj.groups_received l]

/-- The objects that the loss of a lane may change: its own and its counters', those of its camera, or those of its chain's
breaks (R148, R199, R239). -/
def fallObjects (c : Ctl) (l : Nat) : List Nat :=
  [Obj.los_events l, Obj.lol_events l, Obj.align_losses l, Obj.train_timeouts l, Obj.elastic_overruns l] ++ downObjects l ++
    match c.camOfLane l, c.chainOfLane l with
    | some k, _ => ((c.camLanes k).map downObjects).flatten ++ camObjects k
    | none, some (ch, _) =>
      [Obj.chain_state ch, Obj.split_after ch, Obj.splits ch] ++ ((headsOfChain ch).map endObjects).flatten
    | none, none => []

/-- The objects a change of the heads' geometry may change (R138, R150). -/
def reachObjects : List Nat := Obj.head_line_rate_max :: (List.range 8).map Obj.bar_reach

/-- A good frame of a chain (R150) comes from head `h`, with this type, auxiliary field and payload. -/
abbrev headSends (c : Ctl) (m : HeadFrame) (type h aux : Nat) (b : List Byte) : Prop :=
  frameOk m.bytes = true ∧ frameType m.bytes = type ∧ frameAddress m.bytes < 16 ∧ frameAux m.bytes = aux ∧
    framePayload m.bytes = b ∧ (c.chainOfLane m.lane).map (fun x => 16 * x.1 + frameAddress m.bytes) = some h

/-! ### The care table -/

/-- The objects a commit to the care table may change beside the table itself (R129 to R136). -/
def careObjects : List Nat :=
  [Obj.staging_free, Obj.head_line_rate_max] ++
    ((List.range 8).map fun b => [Obj.bar_reach b, Obj.pending_commits b]).flatten

/-! ### Unchanged, completes -/

/-- Every part but those named is as it was, and so is every object but those named, those of the indexes named, and those
that serving any request may change. -/
def unchangedBut (ps : List Part) (ks is_ : List Nat) (a b : Mach) : Prop :=
  (∀ p, p ∉ ps → kept a b p) ∧
    ∀ k, wireObject k = false → k ∉ ks → k / 256 ∉ is_ → b.ctl.val k = a.ctl.val k

/-- The command answers a next state that holds `P`; the queue is as it was, and so is everything but the parts, objects and
indexes named. -/
def completes (i : Instr) (s : State) (ps : List Part) (ks : List Nat) (P : State → Prop) (is_ : List Nat := []) : Prop :=
  ∃ t, exec i s = .next t ∧ t.pending = s.pending ∧ P t ∧ unchangedBut ps ks is_ s.mach t.mach

/-- The command of a WRITE of the one object `key`: where request `r` passes the checks before the owner's (R47), it answers a
next state whose kept response to `r` says `st`, that holds `P`, and that leaves all but `key` and what is named. -/
def completesWrite (r : Req) (key : Nat) (value : List Byte) (st : Nat) (i : Instr) (s : State) (ps : List Part)
    (ks : List Nat) (P : State → Prop) (is_ : List Nat := []) : Prop :=
  s.c.reaches r key value → completes i s ps (key :: ks) (fun t => answered t r key st ∧ P t) is_

/-- A write of the command object `key` that begins its command: it answers STARTED, and the object shows that it stands in
state `n`, begun by the session of `r`, with code 0 (R31). -/
def completesCmd (r : Req) (key : Nat) (value : List Byte) (n : Nat) (i : Instr) (s : State) (ps : List Part)
    (ks : List Nat) (P : State → Prop) (is_ : List Nat := []) : Prop :=
  completesWrite r key value St.STARTED i s ps ks (fun t => t.c.nat key = cmdWord n r.session 0 ∧ P t) is_

/-! ### What resets leave -/

/-- The command answers a next state that holds `P`; the queue is as it was. -/
def becomes (i : Instr) (s : State) (P : State → Prop) : Prop := ∃ t, exec i s = .next t ∧ t.pending = s.pending ∧ P t

/-- Every object that `keep` names holds its value, and every other the value of the reset (R416, R405). -/
def objectsReset (keep : Nat → Bool) (a b : Ctl) : Prop := ∀ k, b.val k = if keep k = true then a.val k else Ctl.reset.val k

/-- The engines are as at reset: admission, axes but for the levels on LIM's pins, nozzle care, chains, page data, position, fire, cellar, loop, camera units,
sessions and bell (R416). -/
def enginesReset (c : Ctl) : Prop :=
  c.adm = Ctl.reset.adm ∧ c.axs = c.axs.restart ∧ c.care = Ctl.reset.care ∧ c.chn = Ctl.reset.chn ∧ c.page = Ctl.reset.page ∧
    c.pos = Ctl.reset.pos ∧ c.fire = Ctl.reset.fire ∧ c.mem = Ctl.reset.mem ∧ c.loop = Ctl.reset.loop ∧
    c.units = Ctl.reset.units ∧ c.ydp.sessions = Ctl.reset.ydp.sessions ∧ c.bell.pending = Ctl.reset.bell.pending ∧
    c.bell.active = Ctl.reset.bell.active ∧ c.host = Ctl.reset.host

/-! ### Invariants -/

/-- Each claim raised the level at the top of its target's stack (R379): the levels of a stack fall strictly from its top, and a
level has 4 bits. -/
def claimsDescend (s : State) : Prop :=
  ∀ t ∈ List.range 3, (s.mach.ctl.stack t).Pairwise (fun a b => b.2 < a.2) ∧ ∀ e ∈ s.mach.ctl.stack t, e.2 < 16

/-- The session that 1100:05 names is open (R39, R40). -/
def holderOpen (s : State) : Prop :=
  s.mach.ctl.nat Obj.controlling_session ≠ 0 → (s.mach.ctl.sess (s.mach.ctl.nat Obj.controlling_session)).isOpen = true

/-- The commands by which the booth starts from zero: its power cycle, and a start-up that finds its check failed (R420). -/
def boothStarts : Instr → Bool
  | .powerOn => true
  | .startup _ _ boothOk _ => !boothOk
  | _ => false

/-! ### The cellar -/

/-- The commands that may change bytes of the cellar: writes from outside, engines with a ring, a store or a table in it,
frames and doorbells whose requests may be such a write, and the resets and power changes with which its contents are lost. -/
def mayStore : Instr → Bool
  | .write _ | .segWrite _ | .post _ | .ethernetFrame _ _ | .bar2Access _ => true
  | .clearSlot _ _ _ | .pageDoorbell _ | .admitDescriptor | .admissionWaitEnd | .arrayPlaceLoad | .cueMarkQualified _ => true
  | .ticketEndPost | .printFetchBand _ _ _ | .inspectFetch _ _ _ _ | .screenLine _ => true
  | .nozzleEntryWrite _ _ | .toneCurveWrite _ _ _ | .arrayLoad _ _ | .arrayClear _ _ | .curveClear _ _ => true
  | .loadTable _ _ | .exportTable _ _ | .appearanceLoad _ _ | .appearanceClear _ _ => true
  | .exposureTag _ _ | .csi _ | .frameTimeout _ _ | .monitorFrame _ | .recordFrame _ => true
  | .loopBandMeasure _ | .loopActionEntry | .encodePicture _ | .decodePicture _ => true
  | .capturePack | .cropCut | .packCrateCheck | .crateUnchecked | .fireRecordComplete => true
  | .cellarWipe | .cellarResume _ _ _ | .wipeRange _ _ | .atticWriteDone _ => true
  | .powerStateRequest _ _ | .pgFail _ | .powerOn | .vddBoothioSag | .resetN | .startup _ _ _ _ | .resetController _ _ => true
  | _ => false

/-! ### The CRC of a slot (R440) -/

/-- The bits of a byte, most significant first. -/
def msbFirst (b : Byte) : List Bool := (List.range 8).map fun i => b.getLsbD (7 - i)

/-- A 16-bit register of polynomial 0x1021 takes one bit: shifted left, the polynomial added where the bit shifted out and the bit
taken differ. -/
def crcShift (r : Nat) (b : Bool) : Nat :=
  if (r / 32768 % 2 == 1) != b then (r * 2 % 65536) ^^^ 0x1021 else r * 2 % 65536

end Sys2Proof.Safety
end

