-- ==== Sys2Proof/Certificates/Slice0/Obligations.lean ====
section
/-! DEFINITION. The statements for the provers. A completion statement gives the hypotheses on state and operands under which
a command has its own effect, and says that exec answers a next state with that effect and with everything else unchanged:
`completes i s ps ks P` lists the parts `ps` and objects `ks` that may change. Where the command is a WRITE of one object,
`completesWrite r key value st i s ps ks P` adds the hypothesis that request `r` passes the checks before the owner's, that
the response answers `st`, and that `key` may change; `completesCmd r key value n i s ps ks P` says besides that the answer is
STARTED and the command object then shows state `n` of session `r`, code 0. -/

open Sys2Proof Machine Safety Obj

/-- R62: slots are sealed, unsealed and cleared. -/
def Obligations.SlotCommandsComplete : Prop :=
  (∀ s r slot arg, slot < 256 → s.c.nat (slot_state slot) = 1 → s.c.nat (validation slot) = 0 →
    completesCmd r (seal_slot slot) (arg1 arg) 2 (.sealSlot r slot arg) s [.admission] [slot_state slot, seal_hold slot, appearance_state]
    (is_ := [0x4001, 0x4003]) fun t =>
    t.c.nat (slot_state slot) = 2 ∧ t.c.on (seal_hold slot)) ∧
  (∀ s r slot arg, slot < 256 → s.c.nat (slot_state slot) = 2 → s.c.nat (tickets_outstanding slot) = 0 →
    completesCmd r (unseal_slot slot) (arg1 arg) 2 (.unsealSlot r slot arg) s [] [slot_state slot, seal_hold slot, validation slot, appearance_state]
    (is_ := [0x4001, 0x4003]) fun t =>
    t.c.nat (slot_state slot) = 1 ∧ t.c.on (seal_hold slot) = false) ∧
  (∀ s r slot arg, slot < 256 → s.c.reaches r (clear_slot slot) (arg1 arg) → s.c.nat (slot_state slot) ≠ 2 → s.c.adm.waiting = none →
    completes (.clearSlot r slot arg) s [] [] (is_ := [0x5000 + slot]) fun t =>
    answered t r (clear_slot slot) St.STARTED ∧ t.c.nat (slot_state slot) = 0 ∧ ∀ k, clearedKey slot k = true → k ≠ clear_slot slot → t.c.val
    k = dfltOf k)

/-- R66, R71, R82, R86: admission is opened and closed, tickets are withdrawn, the tail and the ceiling are set. -/
def Obligations.AdmissionCommandsComplete : Prop :=
  (∀ s r arg, s.c.nat admission_state = 0 → s.c.openCode = 0 → s.c.rideRuns ridePrint →
    completesCmd r open_admission (arg1 arg) 2 (.openAdmission r arg) s [.admission] [admission_state, speed_ceiling, ceiling_binding] fun t =>
    t.c.nat admission_state = 1) ∧
  (∀ s r arg, s.c.nat admission_state = 1 →
    completesCmd r close_admission (arg1 arg) 2 (.closeAdmission r arg) s [.admission, .power] [admission_state, closed_reason, wait_reason,
    verify_backlog] fun t =>
    t.c.nat admission_state = 0 ∧ t.c.nat closed_reason = 0x211 ∧ t.c.adm.tickets = s.c.adm.tickets) ∧
  (∀ s r ts x, s.c.adm.tickets = ts ++ [x] → (∀ y ∈ ts, y.number < x.number) → x.ended = false → x.begun = false → s.c.stopPoint ≤ x.work.before →
    completesCmd r withdraw_from (le 4 x.number) 2 (.withdrawFrom r x.number) s [.admission] [horizon_end, speed_ceiling, ceiling_binding] fun t =>
    t.c.nat horizon_end = x.work.before ∧ t.c.adm.tickets = ts ++ [x.endWith reasonWithdrawn] ∧ t.c.adm.prevEnd = x.gapStart) ∧
  (∀ s v, s.c.awake → s.c.tailOk (v % 8192) → completes (.pageDoorbell (.reg v)) s [] [submit_tail] fun t => t.c.nat submit_tail = v % 8192) ∧
  (∀ s r v, s.c.tailOk v → completesWrite r submit_tail (le 2 v) St.OK (.pageDoorbell (.obj r v)) s [] [] fun t => t.c.nat submit_tail = v) ∧
  (∀ s, s.c.adm.ceilingAt + 50000 ≤ s.c.now → completes .ceilingRecompute s [.admission] [speed_ceiling, ceiling_binding] fun t =>
    t.c.adm.ceilingAt = s.c.now ∧ t.c.nat speed_ceiling ≤ 16256000 ∧ (s.c.ceilingForced = true → t.c.nat speed_ceiling = 0 ∧ t.c.nat
    ceiling_binding = 3))

/-- R20, R72, R73, R89, R90: a descriptor at the head or waiting is ticketed, an array is placed, a cue places its page or its window closes. -/
def Obligations.SequencerStepsComplete : Prop :=
  (∀ s, s.c.nat admission_state = 1 → s.c.nat submit_head ≠ s.c.nat submit_tail → s.c.adm.waiting = none → s.c.cellarUp → s.c.bulkMay →
    ((s.mach.onCtl (·.useCellar)).eightSteps (descOf s.mach.headDesc)).1 = 0 → (descOf s.mach.headDesc).verify = false → s.c.on
    (verify (descOf s.mach.headDesc).slot) = false → admissible (s.mach.onCtl (·.useCellar)) (descOf s.mach.headDesc) →
    completes .admitDescriptor s [.admission, .cellarCtl, .cellar] (admitObjects (descOf s.mach.headDesc).slot) (is_ := [0x4001, 0x4003]) fun t =>
    ticketed s.c t.c (descOf s.mach.headDesc) ∧ t.c.adm.waiting = none ∧ t.c.nat submit_head = (s.c.nat submit_head + 1) % 8192 ∧ t.c.nat
    completion_head = (s.c.nat completion_head + 1) % 8192) ∧
  (∀ s w, s.c.adm.waiting = some w → w.failed = none → w.verify = false → s.c.nat admission_state = 1 → s.c.cellarUp → admissible
    (s.mach.onCtl (·.useCellar)) (descOf w.bytes) →
    completes .admissionWaitEnd s [.admission, .cellarCtl, .cellar] (admitObjects (descOf w.bytes).slot) (is_ := [0x4001, 0x4003]) fun t =>
    ticketed s.c t.c (descOf w.bytes) ∧ t.c.adm.waiting = none ∧ t.c.nat submit_head = (s.c.nat submit_head + 1) % 8192 ∧ t.c.nat
    completion_head = (s.c.nat completion_head + 1) % 8192) ∧
  (∀ s w a p, s.c.adm.waiting = some w → s.c.cellarUp → s.c.rangeFrozen (s.c.usable - libraryBytes) libraryBytes = false → s.c.missingArray
    (descOf w.bytes).slot (descOf w.bytes).bars = some a → s.c.loadPlace (descOf w.bytes).slot (descOf w.bytes).bars = some p →
    completes .arrayPlaceLoad s [.admission, .cellarCtl] [resident_arrays, mc_state 0, mc_state 1] fun t =>
    kvGet [] t.c.adm.places p = memRead s.mach.cellar (s.c.libraryAt a) 458752 ∧ t.c.oct resident_arrays = splice (s.c.oct resident_arrays) p (le 1 a)) ∧
  (∀ (s : State) (input : Nat) (x : Nat) (at250 : Nat) (y : Ticket), input < 2 → kvGet none s.c.adm.cueEdge input = some ⟨at250, some x⟩ →
    (Frac.ofInt (s.c.nat cue_min_width * 1000)).le (s.c.nmBetween x s.c.pp) = true → s.c.cueTicket input = some y → (y.earliest : Int) ≤ s.c.underCue
    input x + s.c.int (cue_offset y.slot) → s.c.underCue input x + s.c.int (cue_offset y.slot) ≤ y.earliest + y.window →
    completes (.cueMarkQualified input) s [.admission, .cellar] [horizon_end, speed_ceiling, ceiling_binding, completion_head] fun t =>
    ∃ u ∈ t.c.adm.tickets, u.number = y.number ∧ u.pos = some (s.c.underCue input x + s.c.int (cue_offset y.slot)).toNat) ∧
  (∀ s n y, s.c.ticket n = some y → y.ended = false → y.pos = none → ((y.earliest + y.window : Nat) : Int) < s.c.underCue
    (s.c.nat (cue_mode y.slot) - 1) s.c.pp + s.c.int (cue_offset y.slot) →
    completes (.cueWindowClose n) s [.admission] [horizon_end, speed_ceiling, ceiling_binding] fun t =>
    ∃ u ∈ t.c.adm.tickets, u.number = n ∧ u.ended ∧ u.pos = none)

/-- R446, R447, R451, R453, R455: the commands of an axis change its state as its rules say. -/
def Obligations.AxisCommandsComplete : Prop :=
  (∀ s r axis k, axis < 8 → s.c.on (axis_enable axis) = false → (s.c.axis axis).reply = some k → s.c.nat bus_cycles ≤ k + 4 →
    completesWrite r (axis_enable axis) (le 1 1) St.OK (.axisEnable r axis 1) s [.axes] [homed axis, axis_error axis, axis_state axis] fun t =>
    t.c.on (axis_enable axis) ∧ t.c.nat (axis_error axis) = 0 ∧ t.c.axisState axis = (if s.c.axisState axis = 4 then 4 else 1)) ∧
  (∀ s r axis, axis < 8 → completesWrite r (axis_enable axis) (le 1 0) St.OK (.axisEnable r axis 0) s [.axes] [axis_state axis, home axis] fun t =>
    t.c.on (axis_enable axis) = false) ∧
  (∀ s r axis value, axis < 8 → s.c.targetCode axis value = St.OK →
    completesWrite r (target axis) (le 4 (uns 32 value)) St.OK (.axisTarget r axis value) s [.axes] [] fun t =>
    t.c.int (target axis) = value ∧ (t.c.axis axis).goalAt.isSome = true) ∧
  (∀ s r axis arg, axis < 8 → s.c.axisState axis = 2 → completesCmd r (stop axis) (le 1 arg) 1 (.stop r axis arg) s [.axes] [] fun t =>
    (t.c.axis axis).halting = true ∧ (t.c.axis axis).goalAt = none) ∧
  (∀ s r axis arg, axis < 8 → s.c.homeCode axis = St.OK →
    completesCmd r (home axis) (le 1 arg) 1 (.home r axis arg) s [.axes] [homed axis, axis_state axis] fun t =>
    t.c.axisState axis = 3 ∧ t.c.on (homed axis) = false) ∧
  (∀ s r axis arg, axis < 8 → s.c.axisState axis = 5 → s.c.nat (stage_flags axis) < 16 →
    completesCmd r (clear_error axis) (le 1 arg) 2 (.clearError r axis arg) s [.axes] [axis_error axis, axis_state axis, stop axis] fun t =>
    t.c.axisState axis = 1 ∧ t.c.nat (axis_error axis) = 0)

/-- R437, R439, R442, R448: a cycle of the stage bus, and the replies and losses of its stages. -/
def Obligations.StageBusCompletes : Prop :=
  (∀ s, s.c.awake → s.c.on bus_enable → (∀ x ∈ s.c.axs.cycleAt, x + 50000 ≤ s.c.now) → (∀ a ∈ List.range 8, s.c.axisState a ≠ 3) →
    completes .axisBusCycle s [.axes] (bus_cycles :: ((List.range 8).map fun a => [stop a, axis_state a, position a, speed a]).flatten) fun t =>
    t.c.axs.cycleAt = some s.c.now ∧ ∀ a ∈ List.range 8, s.c.axisState a ≠ 2 → (s.c.axis a).emergency = false → (s.c.axis a).goalAt = none →
    (t.c.axis a).p = (s.c.axis a).p) ∧
  (∀ s axis reply, axis < 8 → crc16 ((be 8 reply).take 6) = beVal ((be 8 reply).drop 6) → bits reply 55 48 = (s.c.nat bus_cycles + 253) % 256 → bits
    reply 63 60 = 0 → s.c.axisState axis = 0 →
    completes (.axisReply axis reply) s [.axes] [stage_flags axis, bemf_amplitude axis, load_angle axis] fun t =>
    t.c.nat (stage_flags axis) = bits reply 63 56 ∧ t.c.nat (bemf_amplitude axis) = bits reply 47 38 ∧ (t.c.axis axis).reply = some
    (s.c.nat bus_cycles)) ∧
  (∀ s axis, axis < 8 → s.c.on (axis_enable axis) → ((s.c.axis axis).reply.getD 0) + s.c.nat stage_timeout ≤ s.c.nat bus_cycles → s.c.axisState
    axis ≠ 0 → s.c.axisState axis ≠ 5 → s.c.axisState axis ≠ 6 →
    completes (.stageTimeout axis) s stopParts (axis_error axis :: homed axis :: faultObjects (64 + axis)) fun t =>
    t.c.axisState axis = 6 ∧ t.c.nat (axis_error axis) = 8 ∧ t.c.on (homed axis) = false) ∧
  (∀ s axis, axis < 8 → s.c.axisState axis = 1 → (s.c.axis axis).goalAt = none → (s.c.axis axis).standSince + s.c.nat (standstill_delay axis) *
    1000000 ≤ s.c.now →
    completes (.standstillDelay axis) s [.axes] [] fun t =>
    (t.c.axis axis).mode = (if s.c.nat (standstill_mode axis) = 1 then 3 else if s.c.nat (standstill_mode axis) = 2 then 2 else 4))

/-- R449: a limit input is filtered, trips and is released. -/
def Obligations.LimitInputsComplete : Prop :=
  (∀ s input level, input < 16 → (s.c.lim input).active ≠ (level == (s.c.nat (lim_active_level input) == 1)) → s.c.nat (lim_chatter_count input) = 0 →
    completes (.limitSwitchInput input level) s [.axes] [lim_state input] fun t =>
    (t.c.lim input).active = (level == (s.c.nat (lim_active_level input) == 1)) ∧ (t.c.lim input).since = s.c.now) ∧
  (∀ s input, input < 16 → (s.c.lim input).active = true → (s.c.lim input).since + s.c.nat (lim_filter input) * 1000 ≤ s.c.now → (∀ a ∈ List.range 8,
    s.c.nat (lim_negative a) ≠ input ∧ s.c.nat (lim_positive a) ≠ input) →
    completes (.limFilterExpiry input) s [] [lim_state input] fun t => t.c.nat (lim_state input) = 1) ∧
  (∀ s input, input < 16 → (s.c.lim input).active = false → s.c.nat (lim_state input) = 2 → (s.c.lim input).since + s.c.nat (lim_release input) *
    1000000 ≤ s.c.now →
    completes (.limReleaseExpiry input) s [] [lim_state input] fun t => t.c.nat (lim_state input) = 0)

/-- R376, R377, R380, R381, R383, R384: rings, claims, completions, and the clearing and configuring of sources. -/
def Obligations.BellCommandsComplete : Prop :=
  (∀ s value, s.c.awake → 960 ≤ value → value ≤ 1023 → completes (.bellRing value) s [] [] fun t => t.c.isPending value) ∧
  (∀ s r arg, 960 ≤ arg → arg ≤ 1023 → completesCmd r ring_software (le 2 arg) 2 (.ringSoftware r arg) s [] [] fun t => t.c.isPending arg) ∧
  (∀ s target n, target < 3 → s.c.awake → s.c.delivered target = some n → completes (.claim .bar0 target) s [.bell] [] fun t =>
    Out.hostRead (0x12000 + 0x100 * target) (claimWord n (cfgLevel (s.c.bellCfg n))) ∈ t.c.out ∧ t.c.isPending n = false ∧ t.c.isActive n ∧ t.c.stack
    target = (n, cfgLevel (s.c.bellCfg n)) :: s.c.stack target) ∧
  (∀ s target n l rest, target < 3 → s.c.awake → n < 1024 → s.c.stack target = (n, l) :: rest →
    completes (.complete .bar0 target n) s [.bell] [] fun t => t.c.stack target = rest ∧ t.c.isActive n = false) ∧
  (∀ s r target arg, target < 3 → completesWrite r (reset_target target) (le 1 arg) St.STARTED (.resetTarget r target arg) s [.bell] [] fun t =>
    t.c.stack target = [] ∧ ∀ e ∈ s.c.stack target, t.c.isPending e.1 = true ∧ t.c.isActive e.1 = false) ∧
  (∀ s r arg, cfgTarget (s.c.bellCfg arg) = 3 → completesWrite r clear_pending (le 2 arg) St.STARTED (.clearPending r arg) s [] [] fun t =>
    t.c.isPending arg = false) ∧
  (∀ s word value, word < 32 → s.c.awake → completes (.pendingW1c word value) s [] [] fun t =>
    ∀ i ∈ List.range 32, t.c.isPending (32 * word + i) = (s.c.isPending (32 * word + i) && !(bit value i && cfgTarget (s.c.bellCfg (32 * word + i)) ==
    3))) ∧
  (∀ s r x value, (s.c.sess r.session).bellWindow ≤ x → x < (s.c.sess r.session).bellWindow + 128 → s.c.reaches r (source_config
    (x - (s.c.sess r.session).bellWindow)) (le 4 value) → bellReserved x = false → s.c.isActive x = false →
    completes (.sourceConfigWrite r x value) s [.bell] [] fun t =>
    answered t r (source_config (x - (s.c.sess r.session).bellWindow)) St.OK ∧ t.c.bellCfg x = cfgKept value)

/-- R459, R461, R465, R468, R469: faults latch, are cleared and are forced; the heartbeat; the temperatures. -/
def Obligations.FaultCommandsComplete : Prop :=
  (∀ s x k, x.wellFormed → s.c.collects → railCause (s.c.railsOf x.source) x = some k → s.c.isLatched x.source = false → s.c.forced x.source = false →
    0 < k →
    completes (.faultLatch [x]) s stopParts (faultObjects x.source) fun t =>
    t.c.nat (source_cause x.source) = k ∧ t.c.nat faults_latched = s.c.nat faults_latched + 1) ∧
  (∀ s r arg, arg < 192 → s.c.isLatched arg → hardLatched arg = false → s.c.causePresent arg = false →
    completesCmd r clear_faults (le 2 arg) 2 (.clearFaults r arg) s [.faults] [source_cause arg, faults_latched] fun t =>
    t.c.nat (source_cause arg) = 0 ∧ t.c.nat faults_latched = s.c.nat faults_latched - 1) ∧
  (∀ s r word value, word < 3 →
    completesWrite r (force word) (le 8 value) St.OK (.forceWrite r word value) s stopParts stopObjects (is_ := [0x1810, 0x1811]) fun t =>
    t.c.nat (force word) = value ∧ ∀ i ∈ List.range 64, bit value i = true → bit (s.c.nat (force word)) i = false → t.c.isLatched
    (64 * word + i) = true) ∧
  (∀ s, completes .heartbeatLoss s [.faults] [carousel_state] fun t => t.c.nat carousel_state = 0 ∧ t.c.flt.beatLost = some s.c.now) ∧
  (∀ s, s.c.carouselHealthy → (s.c.nat carousel_state = 0 ∨ s.c.flt.toggledAt + 490000 ≤ s.c.now) →
    completes .carouselToggle s [.faults] [carousel_state] fun t =>
    t.c.flt.carousel = !s.c.flt.carousel ∧ t.c.flt.toggledAt = s.c.now ∧ t.c.nat carousel_state = 1) ∧
  (∀ s a b, s.c.collects → a ≤ 10 * (s.c.nat temp_limit : Int) → b ≤ 10 * (s.c.nat temp_limit : Int) → (a - b).natAbs ≤ 80 →
    completes (.dieTempRead a b) s [.faults] [die_temp_a, die_temp_b] fun t => t.c.int die_temp_a = a ∧ t.c.int die_temp_b = b)

/-- R68, R358, R359: the oldest ticket ends; a field port forwards and shows its link. -/
def Obligations.EndPostAndPortsComplete : Prop :=
  (∀ s x ts, s.c.adm.tickets = x :: ts → s.c.endDue x → s.c.cellarUp →
    completes .ticketEndPost s [.admission, .cellarCtl, .cellar, .usage, .units, .loop, .pages, .power] [mc_state 0, mc_state 1, completion_head,
    tickets_outstanding x.slot, all_tickets_outstanding, slot_state x.slot, validation x.slot, appearance_state, power_state, speed_ceiling,
    ceiling_binding] (is_ := [0x4001, 0x4003]) fun t =>
    t.c.adm.tickets = ts ∧ t.c.nat completion_head = (s.c.nat completion_head + 1) % 8192 ∧ t.c.nat all_tickets_outstanding = s.c.nat
    all_tickets_outstanding - 1) ∧
  (∀ s port bytes, port < 2 → s.c.awake → s.c.portUp port → frameGood bytes → s.c.on bridge → (dstOf bytes == s.c.macNow) = false → toGroup
    bytes = false → s.c.portUp (1 - port) → residenceAt bytes = none → s.c.queuedAt (1 - port) + bytes.length ≤ 65536 →
    completes (.ethernetFrame port bytes) s [] [frames_forwarded (1 - port)] fun t => Out.eth (1 - port) bytes ∈ t.c.out) ∧
  (∀ s port, port < 2 → s.c.awake → s.c.nat (port_mode port) ≠ 0 → s.c.portUp port = false →
    completes (.fpLinkChange port true 0) s [] [fp_link_state port, fp_down_reason port] fun t =>
    t.c.nat (fp_link_state port) = 1 ∧ t.c.nat (fp_down_reason port) = 0)

/-- R121 to R123: curves and arrays are loaded and cleared. -/
def Obligations.LibraryCommandsComplete : Prop :=
  (∀ s r curve value, curve < 256 → s.c.nat (curve_state curve) ≠ 2 → s.c.adm.waiting = none →
    completesWrite r (tone_curve curve) value St.OK (.toneCurveWrite r curve value) s [] (curve_state curve :: validations) fun t =>
    t.c.oct (tone_curve curve) = value ∧ t.c.nat (curve_state curve) = 1) ∧
  (∀ s r arg, arg < 256 → s.c.nat (curve_state arg) ≠ 2 → s.c.adm.waiting = none →
    completesCmd r curve_clear (arg1 arg) 2 (.curveClear r arg) s [] (tone_curve arg :: curve_state arg :: validations) fun t =>
    t.c.oct (tone_curve arg) = zeros 512 ∧ t.c.nat (curve_state arg) = 0) ∧
  (∀ s r value b k, fld value 12 1 = k → memRead s.mach.cellar (fld value 0 8) 458752 = b → s.c.loadOk (fld value 0 8) 458752 → s.c.nat
    (array_state k) ≠ 2 → s.c.rangeFrozen (fld value 0 8) 458752 = false → s.c.rangeFrozen (s.c.libraryAt k) 458752 = false → crc32c b = fld value 8 4
    → orderBreak 65536 0 b = none → s.c.adm.waiting = none → s.c.cellarUp →
    completesCmd r array_load value 2 (.arrayLoad r value) s [.cellar, .cellarCtl, .admission] (array_state k :: resident_arrays :: mc_state 0 ::
    mc_state 1 :: validations) fun t =>
    t.c.nat (array_state k) = 1 ∧ memRead t.mach.cellar (s.c.libraryAt k) 458752 = b ∧ ∀ x, x < s.c.libraryAt k ∨ s.c.libraryAt k + 458752 ≤ x →
    memGet t.mach.cellar x = memGet s.mach.cellar x) ∧
  (∀ s r arg, arg < 64 → s.c.nat (array_state arg) ≠ 2 → s.c.adm.waiting = none →
    completesCmd r array_clear (arg1 arg) 2 (.arrayClear r arg) s [.admission] (array_state arg :: resident_arrays :: validations) fun t =>
    t.c.nat (array_state arg) = 0)

/-- R127, R129: the nozzle table through its window, loaded and exported. -/
def Obligations.CareTableCommandsComplete : Prop :=
  (∀ s r i v z, i < 32 → v < 2 ^ 32 → s.c.reaches r (0x350001 + i) (le 4 v) → (s.c.sess r.session).nozzleWindow + i = z → s.c.retiredLocked
    (s.c.sess r.session).role z v = false → z < 2 ^ 19 → s.c.admissible s.c.care.written 2 [(z, v)] = [(z, v)] → (∀ b ∈ s.c.barOfNozzle z,
    s.c.stageFull b 1 = false) →
    completes (.nozzleEntryWrite r [(i, v)]) s [.care, .loop] careObjects fun t => answered t r (0x350001 + i) St.OK ∧ kvGet 0 t.c.care.written z = v) ∧
  (∀ s r value a first count es, fld value 0 8 = a → fld value 8 4 = first → fld value 12 4 = count → 1 ≤ count → count ≤ 262144 → first +
    count ≤ 524288 → s.c.loadOk a (4 * count) → s.c.rangeFrozen a (4 * count) = false → count ≤ s.c.nat staging_free → loadEntries s.c
    (memRead s.mach.cellar a (4 * count)) first count = es → s.c.loadCode (s.c.sess r.session).role es = 0 → (∀ b ∈ List.range 8, loadOf es b = [] ∨
    s.c.commitsOf b < 16) → s.c.cellarUp →
    completesCmd r load_table value 2 (.loadTable r value) s [.care, .loop, .cellarCtl] (mc_state 0 :: mc_state 1 :: careObjects) fun t =>
    ∀ e ∈ es, kvGet 0 t.c.care.written e.item = e.value) ∧
  (∀ s r value a first count, fld value 0 8 = a → fld value 8 4 = first → fld value 12 4 = count → 1 ≤ count → count ≤ 262144 → first + count ≤ 524288
    → s.c.loadOk a (4 * count) → s.c.rangeFrozen a (4 * count) = false → s.c.cellarUp →
    completesCmd r export_table value 2 (.exportTable r value) s [.cellar, .cellarCtl] [mc_state 0, mc_state 1] fun t =>
    (∀ i < count, memRead t.mach.cellar (a + 4 * i) 4 = le 4 (kvGet 0 s.c.care.written (first + i))) ∧ ∀ x, x < a ∨ a + 4 * count ≤ x → memGet
    t.mach.cellar x = memGet s.mach.cellar x)

/-- R298 to R300, R303: calibrations are queued, run, ended and given up. -/
def Obligations.CalibrationsComplete : Prop :=
  (∀ s r value, s.c.camState (fld value 0 1) = 2 → (∀ k ∈ List.range 4, bit (fld value 1 1) k = true → k ∈ s.c.tiles (fld value 0 1)) →
    completesCmd r cal_flat_field value 4 (.calFlatField r value) s [.loop] [] fun t =>
    t.c.loop.flat = some ⟨fld value 0 1, fld value 1 1, fld value 2 2, s.c.now, [], []⟩) ∧
  (∀ s g, s.c.loop.flat = some g → s.c.flatFull g → g.camera < 4 → (∀ k ∈ (List.range 4).filter (bit g.mask), (s.c.flatGains g k).isSome = true) →
    completes .calFlatDone s [.loop, .attic, .units] (cal_flat_field :: (List.range 4).map fun k => flat_field (4 * g.camera + k)) fun t =>
    t.c.loop.flat = none ∧ t.c.nat cal_flat_field = cmdWord 2 (s.c.cmdStarter cal_flat_field) 0 ∧ ∀ k ∈ (List.range 4).filter (bit g.mask), some
    (t.c.oct (flat_field (4 * g.camera + k))) = s.c.flatGains g k) ∧
  (∀ s r value b, b ∈ barsOf (fld value 0 1) → s.c.barSeen b → s.c.rideRuns ridePrint →
    completesCmd r cal_registration value 4 (.calRegistration r value) s [.loop] [] fun t => t.c.loop.reg.isSome) ∧
  (∀ s g x, s.c.loop.reg = some g → g.zone = none → s.c.rideRuns ridePrint → s.c.markGap s.c.live = some x →
    completes .calMarkZone s [.loop] [cal_registration] fun t =>
    t.c.nat cal_registration = cmdWord 1 (s.c.cmdStarter cal_registration) 0 ∧ t.c.loop.reg = some
    { g with zone := some (markTicket g.bars x), after := x.number }) ∧
  (∀ s g, s.c.loop.flat = some g → s.c.loop.reg = none → s.c.cmdBusy cal_flat_field → g.since + s.c.nat cal_wait_limit * 1000000 ≤ s.c.now →
    completes .calWaitExpiry s [.loop, .care, .power] [cal_flat_field] fun t =>
    t.c.loop.flat = none ∧ t.c.nat cal_flat_field = cmdWord 3 (s.c.cmdStarter cal_flat_field) St.CAL_NO_GAP) ∧
  (∀ s r arg, s.c.atticReady → completesCmd r clear_cal_records (arg1 arg) 1 (.clearCalRecords r arg) s [.attic] [] fun t =>
    t.c.attic.jobs = s.c.attic.jobs ++ [.void regionCalibration clear_cal_records])

/-- R335, R336, R339, R341, R343, R354: the cellar is trained, wiped, scrubbed, frozen and repaired. -/
def Obligations.CellarStepsComplete : Prop :=
  (∀ s x, s.c.untrained 0 → s.c.untrained 1 → s.c.nat (ride_state 6) ≠ 0 → s.c.trainFault x 0 = 0 → s.c.trainFault x 1 = 0 →
    completes (.cellarTrain x) s [.cellarCtl] [capacity, training_fault 0, training_fault 1, mc_state 0, mc_state 1, data_rate, fetch_budget,
    iso_limit, usable_bytes] fun t =>
    t.c.nat (mc_state 0) = 2 ∧ t.c.nat (mc_state 1) = 2 ∧ t.c.mem.wiping ∧ t.c.nat capacity = x.ranks * x.density ∧ t.c.nat usable_bytes = x.ranks *
    x.density * 2 ^ 30 / 32 * 31) ∧
  (∀ s, s.c.mem.wiping → s.c.phase = .up → s.c.adm.waiting = none →
    completes .cellarWipe s [.cellar, .cellarCtl] (cellar_retrain :: (List.range 64).map array_state) fun t =>
    (∀ a, memGet t.mach.cellar a = 0) ∧ t.c.mem.wiping = false ∧ ∀ k ∈ List.range 64, t.c.nat (array_state k) = 0) ∧
  (∀ s r arg, s.c.cellarInUse = false → s.c.rideRuns 6 →
    completesCmd r cellar_retrain (le 1 arg) 1 (.cellarRetrain r arg) s [] [mc_state 0, mc_state 1, usable_bytes] fun t =>
    t.c.nat (mc_state 0) = 1 ∧ t.c.nat (mc_state 1) = 1 ∧ t.c.nat usable_bytes = 0) ∧
  (∀ s, s.c.serves 0 → s.c.serves 1 → s.c.mem.oscAt + s.c.nat oscillator_period * 1000000 ≤ s.c.now →
    completes .dqsOscillatorRead s [.cellarCtl] [] fun t => t.c.mem.oscAt = s.c.now) ∧
  (∀ s i, s.c.mem.scrubAt + 1 < s.c.groups → i < 31 → s.c.serves (s.c.mem.scrubAt % 8 / 4) → s.c.scrubDue → s.c.bulkMay →
    completes (.patrolScrub (some i)) s [.cellarCtl] [corrected_errors 0, corrected_errors 1, last_ce_address 0, last_ce_address 1] fun t =>
    t.c.mem.scrubAt = s.c.mem.scrubAt + 1 ∧ t.c.nat (last_ce_address
    (controllerOf (s.c.mem.scrubAt * 1984 + i * 64))) = (s.c.mem.scrubAt * 1984 + i * 64) / 64 * 64) ∧
  (∀ s m e, m < 2 → s.c.serves m → freezeOn e m → s.c.recorder.replay = none → s.c.recorder.capture = none → s.c.recorder.jobs = [] →
    completes (.cellarFreeze m e) s (.cellarCtl :: stopParts) (freeze_record m :: mc_state m :: freezes m :: faultObjects (freezeFault e m)) fun t =>
    t.c.frozen m ∧ t.c.oct (freeze_record m) = s.c.freezeRecord e ∧ t.c.isLatched (freezeFault e m)) ∧
  (∀ s r m arg a, m < 2 → s.c.frozen m → kvGet none s.c.mem.badBlock m = some a →
    completesCmd r (cellar_resume m) (le 1 arg) 2 (.cellarResume r m arg) s [.cellar, .cellarCtl] [mc_state m, blocks_zeroed m] fun t =>
    t.c.nat (mc_state m) = 2 ∧ ∀ x, memGet t.mach.cellar x = if a ≤ x ∧ x < a + 64 then 0 else memGet s.mach.cellar x) ∧
  (∀ s r value a n, fld value 0 8 = a → fld value 8 8 = n → a % 64 = 0 → n % 64 = 0 → 64 ≤ n → a + n ≤ s.c.generalEnd → s.c.cellarUnready = false →
    s.c.rangeFrozen a n = false → s.c.cellarUp →
    completesCmd r wipe_range value 2 (.wipeRange r value) s [.cellar, .cellarCtl] [mc_state 0, mc_state 1] fun t =>
    ∀ x, memGet t.mach.cellar x = if a ≤ x ∧ x < a + n then 0 else memGet s.mach.cellar x)

/-- R349 to R351, R355: the rates of the cellar, its self-refresh, and the reads and writes of the host. -/
def Obligations.CellarAccessCompletes : Prop :=
  (∀ s r arg, s.c.nat data_rate ≠ 0 → arg ≠ s.c.nat rate_select → s.c.frozen 0 = false → s.c.frozen 1 = false → s.c.nat data_rate ≤ s.c.rateFor arg →
    completesWrite r rate_select (le 1 arg) St.OK (.rateSelect r arg) s [.cellarCtl] [] fun t =>
    t.c.nat rate_select = arg ∧ t.c.mem.switchAt = some s.c.now) ∧
  (∀ s, s.c.mem.switchAt.isSome → s.c.panicLevel = 0 → s.c.serves 0 → s.c.serves 1 →
    completes .rateSwitch s [.cellarCtl] [data_rate, fetch_budget, iso_limit, mc_state 0, mc_state 1] fun t =>
    t.c.nat data_rate = s.c.rateFor (s.c.nat rate_select) ∧ t.c.mem.switchAt = none ∧ t.c.nat fetch_budget = 40000 * s.c.rateFor (s.c.nat rate_select)
    / 9600) ∧
  (∀ s, s.c.nat (mc_state 0) = 2 → s.c.nat (mc_state 1) = 2 → s.c.cellarActive = false → s.c.mem.usedAt + s.c.nat cellar_idle_time * 1000 ≤ s.c.now →
    completes .selfRefreshEntry s [.power] [mc_state 0, mc_state 1] fun t => t.c.nat (mc_state 0) = 3 ∧ t.c.nat (mc_state 1) = 3) ∧
  (∀ s a n, s.c.phase ≠ .asleep → a + n ≤ s.c.usable → 0 < n → a < s.c.host.bar2 * 2 ^ 30 → s.c.bulkMay → s.c.rangeFrozen a n = false → s.c.cellarUp →
    completes (.bar2Access (.read a n none)) s [.cellarCtl] [mc_state 0, mc_state 1] fun t =>
    Out.hostRead a (leVal (memRead s.mach.cellar a n)) ∈ t.c.out) ∧
  (∀ s a b, s.c.phase ≠ .asleep → s.c.panicLevel ≠ 3 → a < s.c.host.bar2 * 2 ^ 30 → a + b.length ≤ s.c.generalEnd → s.c.frozen 0 = false → s.c.frozen
    1 = false → s.c.cellarUp →
    completes (.bar2Access (.write a b)) s [.cellar, .cellarCtl] [mc_state 0, mc_state 1] fun t =>
    memRead t.mach.cellar a b.length = b ∧ ∀ x, x < a ∨ a + b.length ≤ x → memGet t.mach.cellar x = memGet s.mach.cellar x)

/-- R391, R394, R395, R397, R399, R400: references, oscillators and trims. -/
def Obligations.ClockStepsComplete : Prop :=
  (∀ s i, i < 2 → 0 < s.c.pwr.rails → 1 ≤ s.c.refState i → s.c.refState i ≤ 4 → s.c.nat ref_selected = i → s.c.refRuns (1 - i) →
    completes (.refLost i) s [.power] [input_state i, held_time i, windows_out i, losses i, ref_selected, ref_switches] fun t =>
    t.c.refState i = 5 ∧ t.c.nat ref_selected = 1 - i) ∧
  (∀ s clock dev, s.c.pwr.rails ≠ 0 → clock < 4 → s.c.refState clock = 1 → dev.natAbs ≤ 10000000 → s.c.goodRun clock = 7 →
    completes (.clockWindow clock dev) s [.power] [input_state clock, Obj.deviation clock] fun t => t.c.refState clock = 2) ∧
  (∀ s i, i < 2 → s.c.nat ref_selected = 2 → s.c.refState i = 2 → kvGet 0 s.c.pwr.validAt i + 1000000000 ≤ s.c.now →
    completes (.refRestored i) s [.power] [ref_selected] fun t => t.c.nat ref_selected = i) ∧
  (∀ s other a0 a1, s.c.nat ref_selected < 2 → (∀ i ∈ List.range 4, s.c.refState i ≠ 4 ∧ s.c.nat (windows_out i) < 7) → (∀ i ∈ List.range 2, ∀ v ∈
    [other, a0, a1, (s.c.refDeviations (s.c.standard a0 a1) other a0 a1).2] ++ (s.c.refDeviations (s.c.standard a0 a1) other a0 a1).1.toList,
    v.natAbs ≤ s.c.nat ref_tolerance) → s.c.nat ref_tolerance ≤ 300000 → (s.c.int (Obj.deviation (s.c.nat ref_selected))).natAbs ≤ 300000 →
    completes (.refDeviationWindow other a0 a1) s [.power] (judging_standard :: ((List.range 4).map fun i => [Obj.deviation i, held_time i,
    windows_out i, input_state i]).flatten) fun t =>
    t.c.nat judging_standard = s.c.standard a0 a1 ∧ (s.c.refRuns 2 = true → t.c.int (Obj.deviation 2) = a0) ∧ (s.c.refRuns 3 = true → t.c.int
    (Obj.deviation 3) = a1)) ∧
  (∀ s, s.c.on ref_revertive → s.c.nat ref_selected < 2 → s.c.nat ref_selected ≠ s.c.nat ref_preferred → s.c.refGood (s.c.nat ref_preferred) →
    60 ≤ s.c.nat (held_time (s.c.nat ref_preferred)) →
    completes .refRevert s [] [ref_selected, ref_switches] fun t => t.c.nat ref_selected = s.c.nat ref_preferred) ∧
  (∀ s r arg, s.c.refGood arg → 60 ≤ s.c.nat (held_time arg) →
    completesCmd r select_reference (le 1 arg) 2 (.selectReference r arg) s [] [ref_selected, ref_switches] fun t => t.c.nat ref_selected = arg) ∧
  (∀ s rc xtal, s.c.awake → s.c.nat ref_selected < 2 → s.c.nat booth_clock = 0 →
    completes (.boothCalibrate rc xtal) s [.power] [rc_deviation, rc_trim, xtal_deviation] fun t =>
    t.c.int rc_deviation = rc ∧ t.c.nat rc_trim ≤ 1023 ∧ t.c.pwr.xtal = (xtal :: s.c.pwr.xtal).take 64) ∧
  (∀ s rcCycles, s.c.nat booth_clock = 0 → s.c.awake → s.c.pwr.xtalGood → xtalAgrees rcCycles = false →
    completes (.xtalJudgement rcCycles) s [] [booth_clock] fun t => t.c.nat booth_clock = 1)

/-- R107, R109, R133: bands are decoded, lines are screened, an underrun latches. -/
def Obligations.FetchAndScreenComplete : Prop :=
  (∀ s x b k, s.c.ticket x.number = some x → x.ended = false → x.pos.isSome → b < 8 → bit x.bars b → k < x.map.bands → kvGet 0 x.printDone b = k →
    s.c.barAt (x.place + 64 * 256 * k) b ≤ s.c.pp + 208 * 64 → s.c.rideRuns ridePrint → s.c.rideRuns 6 → s.mach.bandStalls x.map b k = false →
    (x.map.bandCrates s.mach.cellar b k).all (fun c => c.2.err.isNone) = true →
    completes (.printFetchBand x.number b k) s [.admission, .pages, .cellarCtl] [mc_state 0, mc_state 1, panic_3_entries] fun t =>
    (t.c.ticket x.number).map (fun u => kvGet 0 u.printDone b) = some (k + 1) ∧ ∀ n ∈ List.range (x.map.bandLines k), kvGet 0 x.screened b ≤ 256 * k +
    n → (⟨x.number, b, 256 * k + n, bandLine (x.map.bandCrates s.mach.cellar b k) n⟩ : ContoneLine) ∈ t.c.page.lines) ∧
  (∀ s x b n, s.c.nextScreen b = some (x, n) → b < 8 → (s.c.contone x.number b n).isNone = true → s.c.barAt (x.place + 64 * n) b ≤ s.c.pp + 32 * 64 →
    s.c.overCap = false →
    completes (.fetchDeadlineMiss x.number b n) s stopParts (faultObjects faultFetchUnderrun) fun t => t.c.isLatched faultFetchUnderrun) ∧
  (∀ s x b n l, s.c.nextScreen b = some (x, n) → b < 8 → 0 < n → s.c.contone x.number b n = some l → s.c.barAt (x.place + 64 * n) b ≤ s.c.pp + 48 * 64
    → s.c.rideRuns ridePrint → (s.c.careBar b).pending = [] → (s.c.careBar b).outs = [] → s.c.loop.outbox = [] →
    completes (.screenLine b) s [.admission, .care, .pages, .units, .loop] [pages_gapped b] fun t =>
    (t.c.ticket x.number).map (fun u => kvGet 0 u.screened b) = some (n + 1) ∧ (t.c.careBar b).lines = (s.c.careBar b).lines + 1)

/-- R369, R371 to R373: host resets, time reads, pending vectors and consumer tails. -/
def Obligations.HostCommandsComplete : Prop :=
  (∀ s kind speed width, kind < 3 → 1 ≤ speed → speed ≤ 5 → [1, 2, 4, 8].contains width → s.c.phase ≠ .asleep → s.c.nat host_resets < 2 ^ 32 - 1 → (∀
    n ∈ List.range 9, (s.c.sess n).isOpen = false ∨ (s.c.sess n).path ≠ 2) →
    completes (.hostPortReset kind speed width) s [.host, .mailbox, .eventRing, .bell] [msix_enabled, max_payload, host_link_state, link_speed,
    link_width, host_resets] fun t =>
    t.c.host.enable = false ∧ t.c.on msix_enabled = false ∧ t.c.nat max_payload = 128 ∧ t.c.nat host_link_state = 2 ∧ t.c.nat link_speed = speed ∧
    t.c.nat link_width = width ∧ t.c.nat host_resets = s.c.nat host_resets + 1) ∧
  (∀ s, s.c.awake → completes (.timeNsRead (.bar0 0x84 [15])) s [.host] [] fun t =>
    t.c.host.secLatch = s.c.localNs / 10 ^ 9 ∧ Out.hostRead 0x84 (s.c.localNs % 10 ^ 9) ∈ t.c.out) ∧
  (∀ s v x, s.c.awake → kvGet false s.c.host.waiting v = false → completes (.msixSend v (.command x)) s [.host] [] fun t =>
    t.c.host = { s.c.host with memory := bit x 1, busMaster := bit x 2 }) ∧
  (∀ s ring v, ring < 8 → s.c.awake → s.c.tailTakes ring (v % 2 ^ tailBits ring) →
    completes (.consumerTailWrite ring (.reg v)) s [.units] [tailObject ring, decoder_state, pack_store_free] fun t =>
    t.c.nat (tailObject ring) = v % 2 ^ tailBits ring)

/-- R210, R212, R214 to R217: counts and indexes of the encoders, validation, the observer, cues and SSI words. -/
def Obligations.PositionStepsComplete : Prop :=
  (∀ s a b qa qb e at250, s.c.pos.enc0.sample (s.c.nat enc_filter) a b = (e, qa, qb) → Ctl.enc0Count (s.c.setPos { s.c.pos with enc0 := e }) qa
    qb = .forward → s.c.nat fire_mode = 0 → s.c.nat enc1_mode = 0 → s.c.pos.indexBase = none → s.c.live = [] →
    completes (.encoderCount [(a, b)] at250) s [.position, .units, .admission, .fire] [enc0_counts, print_position, high_water, starved_ticks,
    starved, hold_remaining] fun t =>
    t.c.int enc0_counts = s.c.int enc0_counts + 1 ∧ t.c.pos.enc0.a = qa ∧ t.c.pos.enc0.b = qb ∧ t.c.pos.ticks = forwardBy s.c.stretches
    s.c.stretches.length s.c.pos.ticks (Frac.ofInt (s.c.nat enc0_pitch))) ∧
  (∀ s a b qa qb e, s.c.pos.enc1.sample (s.c.nat enc_filter) a b = (e, qa, qb) → quadCount e qa qb (s.c.nat enc1_direction) = .forward → s.c.nat
    enc1_mode = 0 →
    completes (.enc1Count [(a, b)]) s [.position] [enc1_counts] fun t =>
    t.c.int enc1_counts = s.c.int enc1_counts + 1 ∧ t.c.pos.enc1.a = qa ∧ t.c.pos.enc1.b = qb) ∧
  (∀ s f, s.c.pos.inZ.sample (s.c.nat enc_filter) true = (f, true) → s.c.indexOn → s.c.pos.z = false → s.c.pos.indexBase = none → s.c.pos.enc0.a →
    s.c.pos.enc0.b →
    completes (.indexPulse [true]) s [.position] [] fun t => t.c.pos.indexBase = some (s.c.int enc0_counts) ∧ t.c.pos.z) ∧
  (∀ s r arg, s.c.pos.enc0.faulty = false → s.c.pos.enc1.faulty = false → s.c.webStill →
    completesCmd r validate_position (le 1 arg) 2 (.validatePosition r arg) s [.position, .units] ([position_valid, loss_reason, check_deviation,
    high_water] ++ (List.range 4).map camera_state) fun t =>
    t.c.on position_valid ∧ t.c.nat loss_reason = 0 ∧ t.c.nat high_water = s.c.pp) ∧
  (∀ s, s.c.pos.observedAt + 8 ≤ s.c.now → completes .observerUpdate s [.position] [web_speed, web_acceleration, datum_line_rate, starved] fun t =>
    t.c.pos.observedAt = s.c.now ∧ t.c.int web_speed = s.c.ticksToUm t.c.pos.v) ∧
  (∀ s input rising at250, input < 2 → s.c.cueSelected input rising → s.c.pos.before = none →
    completes (.cueEdge input rising at250) s [.admission] [] fun t =>
    kvGet none t.c.adm.cueEdge input = some ⟨at250, none⟩ ∧ kvGet false t.c.adm.cueLevel input = rising) ∧
  (∀ s input raw, input < 4 → s.c.nat (ssi_period input) ≠ 0 → (kvGet ⟨none, 0⟩ s.c.fire.ssi input).at_ + 1000 * s.c.nat (ssi_period input) ≤ s.c.now
    → s.c.nat (ssi_code input) = 0 → s.c.nat (ssi_max_step input) = 0 → (∀ a ∈ List.range 8, s.c.nat (ssi_input a) ≠ input) →
    completes (.ssiRead input raw true) s [.fire] [ssi_value input, ssi_time input, ssi_state input] fun t =>
    t.c.nat (ssi_value input) = raw % 2 ^ s.c.nat (ssi_bits input) ∧ t.c.nat (ssi_state input) = 1)

/-- R219, R225: strobe lines are armed and fire; overspeed episodes end and hold. -/
def Obligations.StrobesComplete : Prop :=
  (∀ s p n tp x, p < 32 → (s.c.pair p).armed = none → s.c.mayFire → s.c.nextStrobe p = some (x, n) → s.c.nat fire_mode = 0 → s.c.crossing
    (s.c.strobeTarget x n p) (s.c.now250 + windowBefore) = some tp →
    completes (.strobeArm p) s [.fire] [] fun t =>
    ∃ a, (t.c.pair p).armed = some a ∧ a.ticket = x.number ∧ a.line = n ∧ a.placed = tp + kvGet 0 x.work.trims p ∧ a.target = s.c.strobeTarget x n p) ∧
  (∀ s p a x, p < 32 → (s.c.pair p).armed = some a → s.c.strobePage a.ticket = some x → x.ended = false → s.c.flt.pairsLow = false → s.c.on
    position_valid → a.due → a.outcome = 0 → a.placed + windowAfter ≤ s.c.now250 →
    completes (.strobeFire p) s [.fire, .admission, .care, .loop, .units] [strobes_fired p, last_tag p] fun t =>
    (t.c.pair p).armed = none ∧ Out.strobe p a.placed (x.countOf (pairBar p) a.line % 65536) ∈ t.c.out) ∧
  (∀ s, s.c.nat overspeed_state = 1 → s.c.fire.lastOmitAt + 64 * 64 ≤ s.c.pp → completes .overspeedEpisodeEnd s [] [overspeed_state] fun t =>
    t.c.nat overspeed_state = 0) ∧
  (∀ s, s.c.nat overspeed_state = 1 → s.c.fire.episodeFrom + 64 * s.c.nat overspeed_limit < s.c.pp →
    completes .overspeedHold s [.fire] [overspeed_state, hold_remaining] fun t =>
    t.c.nat overspeed_state = 2 ∧ t.c.nat hold_remaining = max 1 (maxOf (s.c.live.map (·.length)))) ∧
  (∀ s, s.c.nat overspeed_state = 2 → s.c.nat hold_remaining = 0 → completes .holdEnd s [.fire] [overspeed_state] fun t =>
    t.c.nat overspeed_state = 0)

/-- R227, R229, R233: the ringmasters check, are readmitted and change over. -/
def Obligations.RingmastersComplete : Prop :=
  (∀ s rm, s.c.fire.checkAt + 1024 ≤ s.c.now → rm < 2 → s.c.nat (rmState rm) = 2 →
    completes (.rmSelfCheck 0 0) s [.fire] [rmClean 0, rmClean 1] fun t =>
    t.c.fire.checkAt = s.c.now ∧ t.c.nat (rmClean rm) = min 1024 (s.c.nat (rmClean rm) + 1)) ∧
  (∀ s rm, rm < 2 → s.c.nat (rmState rm) = 2 → s.c.nat (rmClean rm) = 1024 → s.c.nat active_ringmaster = 1 - rm →
    completes (.rmSyncStart rm) s [.fire] [rmState rm] fun t => t.c.nat (rmState rm) = 3 ∧ t.c.fire.syncAt = some s.c.now) ∧
  (∀ s rm, rm < 2 → s.c.nat (rmState rm) = 3 → completes (.rmSyncDone rm) s [.fire] [rmState rm] fun t =>
    t.c.nat (rmState rm) = 1 ∧ t.c.fire.syncAt = none) ∧
  (∀ s, s.c.changeWanted → s.c.quiet → completes .rmRetake s [.fire] switchObjects fun t => t.c.nat active_ringmaster = 1 - s.c.nat active_ringmaster) ∧
  (∀ s x, s.c.fire.retakeAt = some x → s.c.changeWanted → x + s.c.nat retake_wait * 1000000 ≤ s.c.now →
    completes .retakeWaitExpiry s [.fire, .admission, .care, .loop, .units] (switchObjects ++ (List.range 32).map lines_withheld) fun t =>
    t.c.nat active_ringmaster = 1 - s.c.nat active_ringmaster) ∧
  (∀ s r arg, s.c.reaches r request_switch (le 1 arg) → s.c.nat active_ringmaster < 2 → s.c.nat (rmState (1 - s.c.nat active_ringmaster)) = 1 →
    s.c.quiet →
    completes (.requestSwitch r arg) s [.fire] switchObjects fun t =>
    answered t r request_switch St.STARTED ∧ t.c.nat request_switch = cmdWord 2 r.session 0 ∧ t.c.nat active_ringmaster = 1 - s.c.nat
    active_ringmaster)

/-- R401, R412: rides start, go to rest and fail to start. -/
def Obligations.RidesComplete : Prop :=
  (∀ s w vout, s.c.voutOf 0 w = vout → s.c.nat (ride_state 0) = 1 → s.c.nat (pll_state 1) = 2 → vout ≤ s.c.nat vcore_run + 10 → s.c.nat
    vcore_run ≤ vout + 10 → s.c.cmdBusy open_admission = false →
    completes (.rideStarted 0 w) s [.power] ([ride_state 0, vcore_now, power_state] ++ (List.range 6).map pllKey) fun t =>
    t.c.nat (ride_state 0) = 2 ∧ t.c.nat vcore_now = vout ∧ t.c.nat power_state = (if s.c.nat power_state = 1 then 2 else s.c.nat power_state)) ∧
  (∀ s ride, ride < 7 → s.c.nat (ride_state ride) ≠ 0 → s.c.rideNeeded ride = false → s.c.rideUsedAt ride + s.c.rideRest ride ≤ s.c.now →
    completes (.rideIdleStop ride) s [] [ride_state ride, pllKey ride, power_state] fun t =>
    t.c.nat (ride_state ride) = 0 ∧ t.c.nat (pllKey ride) = 0 ∧ t.c.nat power_state = (if ride = 0 ∧ s.c.nat power_state = 2 then 1 else s.c.nat
    power_state)) ∧
  (∀ s j, j < 6 → s.c.nat (ride_state j) = 1 → s.c.coreReady j = false → kvGet 0 s.c.pwr.rideAt j + 500000 ≤ s.c.now → s.c.isLatched
    faultVcoreScale = false →
    completes .vcoreScaleTimeout s stopParts ((List.range 6).map ride_state ++ (List.range 6).map pllKey ++ faultObjects faultVcoreScale) fun t =>
    t.c.nat (ride_state j) = 0 ∧ t.c.nat (pllKey j) = 0)

/-- R404, R407, R408, R411: regulators answer, a change of the power state is taken, rails rise. -/
def Obligations.PowerCommandsComplete : Prop :=
  (∀ s x, s.c.awake → x.regulator < 8 → s.c.nat (pmbus_address x.regulator) ≠ 0 → pmbusOk x → x.regulator ≠ 0 →
    completes (.pmbusTelemetry [x]) s [] [vout x.regulator, iout x.regulator, reg_temperature x.regulator, status_word x.regulator] fun t =>
    t.c.nat (vout x.regulator) = s.c.voutOf x.regulator x.vout ∧ t.c.nat (iout x.regulator) = (linear11 1000 x.iout).toNat ∧ t.c.int
    (reg_temperature x.regulator) = linear11 10 x.temperature ∧ t.c.nat (status_word x.regulator) = x.status) ∧
  (∀ s r arg, 1 ≤ arg → arg ≤ 2 →
    completesWrite r power_state_request (le 1 arg) St.OK (.powerStateRequest r arg) s [.power] [ride_state 0, pllKey 0] fun t =>
    t.c.nat power_state_request = arg ∧ (arg = 2 → t.c.nat (ride_state 0) ≠ 0 ∧ t.c.nat (ride_state 0) ≠ 3)) ∧
  (∀ s e, s.c.phase = .asleep → s.c.wakes (wakeSource e) → s.c.wakeSeen e → completes (.wake e) s [.phase, .life, .clock] [wake_cause] fun t =>
    t.c.phase = .held ∧ t.c.nat wake_cause = wakeSource e ∧ t.c.life.cause = 5) ∧
  (∀ s rose, s.c.phase = .held → s.c.pwr.rails < 8 → (s.c.pwr.rails = 0 ∨ rose ≤ 3000000 ∧ s.c.pwr.railAt + rose + 100000 ≤ s.c.now) →
    completes (.railEnable rose) s [.power] [] fun t => t.c.pwr = { s.c.pwr with rails := s.c.pwr.rails + 1, railAt := s.c.now })

/-- R409, R500: rails that fail and a supply that sags leave a record; what a power cycle keeps. -/
def Obligations.PowerFailuresComplete : Prop :=
  (∀ s step, 1 ≤ step → step ≤ 8 → step < s.c.pwr.rails → becomes (.pgFail step) s fun t =>
    t.c.phase = .asleep ∧ t.c.pwr.rails = 0 ∧ t.mach.cellar = [] ∧ t.c.nat power_state = 0 ∧ (t.c.oct power_fail_record).take
    2 = [BitVec.ofNat 8 step, 2] ∧ t.c.adm = Ctl.reset.adm ∧ t.c.life = s.c.life ∧ t.c.attic.slots = s.c.attic.slots) ∧
  (∀ s, s.c.phase ≠ .asleep → becomes .vddBoothioSag s fun t =>
    t.c.phase = .asleep ∧ t.c.pwr.rails = 0 ∧ t.mach.cellar = [] ∧ t.c.nat power_state = 0 ∧ (t.c.oct power_fail_record).take 2 = [0, 2] ∧
    t.c.adm = Ctl.reset.adm ∧ t.c.life = s.c.life ∧ t.c.attic.slots = s.c.attic.slots) ∧
  (∀ s, becomes .powerOn s fun t =>
    t.c.phase = .held ∧ t.mach.cellar = [] ∧ t.c.life.cause = 1 ∧ t.c.life.burntP = s.c.life.burntP ∧ t.c.life.burntF = s.c.life.burntF ∧
    t.c.life.burntD = s.c.life.burntD ∧ t.c.attic.slots = s.c.attic.slots ∧ objectsReset (fun _ => false) s.c t.c ∧ enginesReset t.c)

/-- R417, R418, R432: the resets, and what they keep. -/
def Obligations.ResetsComplete : Prop :=
  (∀ s, s.c.attic.jobs = [] → becomes .resetN s fun t =>
    t.c.phase = .held ∧ t.mach.cellar = [] ∧ t.c.life = { s.c.life with cause := 2, startedAt := s.c.now } ∧ t.c.attic.slots = s.c.attic.slots ∧
    t.c.attic.jobs = [] ∧ t.c.pwr.rails = s.c.pwr.rails ∧ t.c.localNs = s.c.localNs ∧ t.c.ydp.lockoutEnd = s.c.ydp.lockoutEnd ∧ objectsReset
    boothHolds s.c t.c ∧ enginesReset t.c) ∧
  (∀ s r arg, s.c.reaches r reset_controller (le 1 arg) → (arg ≠ 0 ∨ s.c.ticketed = false) → s.c.attic.jobs = [] →
    becomes (.resetController r arg) s fun t =>
    t.c.phase = .held ∧ t.mach.cellar = [] ∧ t.c.life.cause = 3 ∧ t.c.now = s.c.now + 1000000 ∧ t.c.attic.slots = s.c.attic.slots ∧ objectsReset
    boothHolds s.c t.c ∧ enginesReset t.c) ∧
  (∀ s a modes, s.c.phase = .held → 8 ≤ s.c.pwr.rails → s.c.refRuns 0 → a.answers → 32 ≤ a.capacity → a.contents = none →
    becomes (.startup a true true modes) s fun t =>
    t.c.phase = .released ∧ t.mach.cellar = [] ∧ t.c.pwr.rails = 9 ∧ t.c.nat reset_cause = s.c.life.cause ∧ t.c.nat ref_selected = 0 ∧ t.c.nat
    (pll_state 0) = 2 ∧ t.c.nat attic_capacity = min 4096 a.capacity ∧ t.c.nat attic_state = s.c.atticFound a)

/-- R55, R56, R142, R425, R427, R431: saves and lifecycle steps, and the writes of the attic. -/
def Obligations.AtticCommandsComplete : Prop :=
  (∀ s r arg, s.c.nat attic_state = 2 → completesCmd r save_persistent (le 1 arg) 1 (.savePersistent r arg) s [.attic] [] fun t =>
    ∃ data, t.c.attic.jobs = s.c.attic.jobs ++ [.record regionPersistent 0 0 data save_persistent]) ∧
  (∀ s r arg, s.c.nat attic_state = 2 → completesCmd r restore_defaults (le 1 arg) 1 (.restoreDefaults r arg) s [.attic] [] fun t =>
    t.c.attic = { s.c.attic with jobs := s.c.attic.jobs ++ [.void regionPersistent restore_defaults] }) ∧
  (∀ s r arg, s.c.nat attic_state = 2 → completesCmd r save_care (le 1 arg) 1 (.saveCare r arg) s [.attic] [] fun t =>
    t.c.attic = { s.c.attic with jobs := s.c.attic.jobs ++ [.record regionCare 0 0 (careTable s.c.care.written) save_care] }) ∧
  (∀ s r arg, s.c.nat attic_state ≠ 2 → completesCmd r format_attic (le 1 arg) 1 (.formatAttic r arg) s [.attic] [attic_state] fun t =>
    t.c.nat attic_state = 1 ∧ t.c.attic = { s.c.attic with jobs := s.c.attic.jobs ++ [.format format_attic] }) ∧
  (∀ s r v, s.c.reaches r lifecycle_transition v → s.c.lifeCode v = St.OK →
    completes (.lifecycleTransition r v) s ([.life] ++ periodParts ++ shutParts) ([lifecycle_transition, lifecycle_pending] ++ periodObjects ++
    ((List.range 8).map fun i => shutObjects (i + 1)).flatten) fun t =>
    t.c.nat lifecycle_transition = cmdWord 1 r.session 0 ∧ t.c.nat lifecycle_pending = fld v 0 1 ∧
    t.c.life = { s.c.life with moving := some (s.c.nat lifecycle_state, fld v 0 1), transitions := s.c.life.transitions + 1 } ∧ t.c.nat
    controlling_session = 0) ∧
  (∀ s data rest, s.c.attic.jobs = .record regionPersistent 0 0 data save_persistent :: rest →
    completes (.atticWriteDone true) s [.attic] [save_persistent, region_state, last_save_time, save_count] fun t =>
    t.c.attic.jobs = rest ∧ t.c.nat save_persistent = cmdWord 2 (s.c.cmdStarter save_persistent) 0) ∧
  (∀ s, s.c.phase = .up → s.c.nat attic_state = 2 → completes .atticBackgroundErase s [.attic] [region_state] fun t =>
    t.c.attic.slots = s.c.attic.slots.filter fun e => !strayAt e)

/-- R477, R482, R486, R487: usage periods close, their records are collected, keys are queued. -/
def Obligations.UsageCommandsComplete : Prop :=
  (∀ s, s.c.awake → s.c.retired = false → s.c.use.closing = none → s.c.nat period_start + s.c.use.length ≤ s.c.powered → s.c.storeFull = false →
    completes .periodClose s periodParts periodObjects fun t =>
    t.c.nat period_number = s.c.nat period_number + 1 ∧ t.c.nat period_start = s.c.powered ∧ t.c.on time_stepped = false ∧
    t.c.use.counts = UseCounts.zero ∧ t.c.use.length = s.c.nat period_length ∧ (t.c.use.closing.map (·.number)) = some (s.c.nat period_number)) ∧
  (∀ s r arg, s.c.storeFull = false → s.c.use.closing = none →
    completesCmd r close_period (le 1 arg) 1 (.closePeriod r arg) s periodParts periodObjects fun t =>
    t.c.nat period_number = s.c.nat period_number + 1 ∧ t.c.nat period_start = s.c.powered) ∧
  (∀ s r arg, arg < 2 ^ 32 → s.c.nat usage_tail ≤ arg → arg ≤ s.c.nat usage_head →
    completesWrite r usage_tail (le 4 arg) St.OK (.usageTailWrite r arg) s [.attic, .admission, .power] ([region_state, usage_store_free, store_state]
    ++ closeObjects) fun t =>
    t.c.nat usage_tail = arg ∧ t.c.nat usage_store_free = t.c.storeFree ∧ ∀ e ∈ t.c.attic.slots, e ∈ s.c.attic.slots) ∧
  (∀ s r v, s.c.nat attic_state = 2 → s.c.nat service_key_state ≠ 2 → keyCheck (slice v 0 32) = fld v 32 4 →
    completesCmd r stage_service_key v 1 (.stageServiceKey r v) s [.attic] [] fun t =>
    t.c.attic = { s.c.attic with jobs := s.c.attic.jobs ++ [.keys (.stage (slice v 0 32)) stage_service_key] }) ∧
  (∀ s r v, s.c.nat attic_state = 2 → fld v 2 2 ≠ 0xFFFF → (∀ i ∈ List.range 4, i = fld v 0 1 ∨ kvGet [] s.c.keys.family i = [] ∨ s.c.nat
    (key_family i) ≠ fld v 2 2) → keyCheck (slice v 4 32) = fld v 36 4 →
    completesCmd r set_family_key v 1 (.setFamilyKey r v) s [.attic] [] fun t =>
    t.c.attic = { s.c.attic with jobs := s.c.attic.jobs ++ [.keys (.setFamily (fld v 0 1) (fld v 2 2) (slice v 4 32)) set_family_key] }) ∧
  (∀ s r arg, s.c.nat attic_state = 2 → completesCmd r clear_family_key (le 1 arg) 1 (.clearFamilyKey r arg) s [.attic] [] fun t =>
    t.c.attic = { s.c.attic with jobs := s.c.attic.jobs ++ [.keys (.clearFamily arg) clear_family_key] })

/-- R363, R367: the local clock is set and stepped. -/
def Obligations.TimeCommandsComplete : Prop :=
  (∀ s r v tm, tm = fld v 4 6 * 10 ^ 9 + fld v 0 4 % 2 ^ 30 → tm < 2 ^ 48 * 10 ^ 9 → (s.c.nat clock_status = 0 ∨ fld v 10 1 = 1) →
    s.c.clock.pulses = [] →
    completesCmd r set_time v 2 (.setTime r v) s [.clock, .sessions, .units] [last_step, clock_status, steps_forced, time_stepped] fun t =>
    t.c.localNs = tm ∧ t.c.nat clock_status ≠ 0) ∧
  (∀ s r v, s.c.nat clock_status ≠ 0 → (sfld v 0 8).natAbs ≤ s.c.nat step_limit → 0 ≤ (s.c.localNs : Int) + sfld v 0 8 → (s.c.localNs : Int) + sfld v
    0 8 < 2 ^ 48 * 10 ^ 9 → s.c.clock.pulses = [] →
    completesCmd r step_time v 2 (.stepTime r v) s [.clock, .sessions, .units] [last_step] fun t => (t.c.localNs : Int) = s.c.localNs + sfld v 0 8) ∧
  (∀ s r arg, s.c.nat clock_status = 5 → completesCmd r accept_step (le 1 arg) 2 (.acceptStep r arg) s [.clock] [] fun t =>
    t.c.clock = { s.c.clock with ptp := { s.c.clock.ptp with accept := true } }) ∧
  (∀ s r q arg, q < 4 → s.c.nat (pulse_width q) < s.c.nat (pulse_period q) → s.c.nat (pulse_mode q) = 1 → s.c.localNs < s.c.nat (pulse_start q) →
    completesCmd r (pulse_arm q) (le 1 arg) 2 (.pulseArm r q arg) s [.clock] [pulse_state q] fun t =>
    t.c.nat (pulse_state q) = 1 ∧ (t.c.pulse q).next = s.c.nat (pulse_start q) ∧ (t.c.pulse q).endAt = none) ∧
  (∀ s q, q < 4 → s.c.awake → (s.c.pulse q).mode ≠ 0 → (s.c.pulse q).endAt = none → (s.c.pulse q).next ≤ s.c.localNs → s.c.nat (pulses_emitted q) < 2
    ^ 32 - 1 →
    completes (.pulseEdge q) s [.clock] [pulses_emitted q, pulse_state q] fun t =>
    t.c.nat (pulses_emitted q) = s.c.nat (pulses_emitted q) + 1 ∧ t.c.nat (pulse_state q) = 2 ∧ (t.c.pulse q).endAt = some
    ((s.c.pulse q).next + (s.c.pulse q).width) ∧ t.c.out = s.c.out ++ [.pin (pulsePin q) (!(s.c.pulse q).low)])

/-- R364, R366: pTP masters are chosen, followed and lost. -/
def Obligations.PtpStepsComplete : Prop :=
  (∀ s a, s.c.awake → s.c.on ptp_enable → s.c.on slave_only → a.port < 2 → a.sender ≠ s.c.ownData.sender → s.c.clock.ptp.best = none → s.c.nat
    ptp_port_state = 4 →
    completes (.ptpAnnounce a) s [.clock] [ptp_parent_port, grandmaster_identity, utc_offset, ptp_port_state, clock_status] fun t =>
    t.c.nat ptp_parent_port = a.port ∧ t.c.oct grandmaster_identity = be 8 a.grandmaster ∧ t.c.int utc_offset = a.utcOffset ∧ t.c.nat
    ptp_port_state = 9 ∧ t.c.clock.ptp.best = some a ∧ t.c.clock.ptp.heardAt = s.c.now) ∧
  (∀ s offset delay, s.c.awake → s.c.nat ptp_port_state = 9 → offset.natAbs ≤ s.c.nat slew_window → offset.natAbs ≤ s.c.nat step_limit →
    completes (.ptpSync offset delay) s [.clock] [offset_from_master, mean_path_delay, frequency_adjust, clock_status] fun t =>
    t.c.int offset_from_master = offset ∧ t.c.int mean_path_delay = delay ∧ t.c.localNs = s.c.localNs ∧ t.c.clock.ptp.good = (if
    offset.natAbs < s.c.nat locked_threshold then min 16 (s.c.clock.ptp.good + 1) else 0)) ∧
  (∀ s, s.c.awake → s.c.nat ptp_port_state = 9 → s.c.clock.ptp.heardAt + s.c.nat announce_timeout * logInterval
    (s.c.int log_announce_interval) ≤ s.c.now →
    completes .announceTimeout s [.clock] [ptp_parent_port, ptp_port_state, clock_status, grandmaster_identity] fun t =>
    t.c.nat ptp_parent_port = 0xFF ∧ t.c.clock.ptp.best = none ∧ t.c.nat ptp_port_state = (if s.c.on slave_only = true then 4 else 6) ∧ t.c.nat
    clock_status = (if s.c.nat clock_status = 0 then 0 else 4)) ∧
  (∀ s, s.c.awake → s.c.nat ptp_port_state = 9 → s.c.clock.ptp.delayAt + logInterval (s.c.int log_delay_req_interval) ≤ s.c.now →
    completes .ptpDelayReq s [.clock] [] fun t => t.c.clock.ptp.delayAt = s.c.now ∧ t.c.ptpSeq 1 = (s.c.ptpSeq 1 + 1) % 65536) ∧
  (∀ s, s.c.awake → s.c.nat ptp_port_state = 6 → s.c.clock.ptp.syncAt + logInterval (s.c.int log_sync_interval) ≤ s.c.now →
    completes .ptpMasterSync s [.clock] [] fun t => t.c.clock.ptp.syncAt = s.c.now ∧ t.c.ptpSeq 0 = (s.c.ptpSeq 0 + 1) % 65536) ∧
  (∀ s, s.c.awake → s.c.nat ptp_port_state = 6 → s.c.clock.ptp.announceAt + logInterval (s.c.int log_announce_interval) ≤ s.c.now →
    completes .ptpMasterAnnounce s [.clock] [] fun t => t.c.clock.ptp.announceAt = s.c.now ∧ t.c.ptpSeq 11 = (s.c.ptpSeq 11 + 1) % 65536)

/-- R270, R280, R293: the inspection loop measures, its actions take effect, appearance tables are loaded. -/
def Obligations.LoopCommandsComplete : Prop :=
  (∀ s k strip, k < 4 → s.c.nextBand k = some strip → s.c.bandReadsDue k (strip.map (s.c.bandRow k 0)) = false →
    completes (.loopBandMeasure k) s [.loop, .units, .pages, .power, .cellar] (bandObjects k) fun t =>
    (t.c.loopCam k).bands = (s.c.loopCam k).bands + 1 ∧ keptOutside [loopRing s.c] s t) ∧
  (∀ s b xs rest, b < 8 → s.c.loop.requests = .nozzles b xs :: rest → xs ≠ [] → (∀ x ∈ xs, s.c.lostChange x = 0) → s.c.stageFull b xs.length = false →
    s.c.loop.outbox = [] → (∀ x ∈ xs, x.target < 2 ^ 19) →
    completes .loopActionEntry s [.loop, .care] careObjects fun t =>
    t.c.loop.requests = rest ∧ (t.c.careBar b).pending = (s.c.careBar b).pending ++ [⟨xs.map fun x => (x.target, changedEntry
    (s.c.writtenEntry x.target) x), true, xs⟩]) ∧
  (∀ s r v b, memRead s.mach.cellar (fld v 0 8) tableBytes = b → s.c.loadOk (fld v 0 8) tableBytes → fld (s.c.oct appearance_state) (fld v 12 1) 1 ≠ 2
    → s.c.rangeFrozen (fld v 0 8) tableBytes = false → crc32c b = fld v 8 4 → tableFormatOk b → s.c.adm.waiting = none → s.c.cellarUp →
    completesCmd r appearance_load v 2 (.appearanceLoad r v) s [.loop, .cellarCtl] (mc_state 0 :: mc_state 1 :: libraryObjects) fun t =>
    kvGet [] t.c.loop.tables (fld v 12 1) = b) ∧
  (∀ s r p, p < 256 → fld (s.c.oct appearance_state) p 1 ≠ 2 → s.c.adm.waiting = none →
    completesCmd r appearance_clear (arg1 p) 2 (.appearanceClear r p) s [.loop] libraryObjects fun t => kvGet [] t.c.loop.tables p = [])

/-- R323, R327 to R329: captures, crops and fire records are packed, checked and stored. -/
def Obligations.PackerStepsComplete : Prop :=
  (∀ s r v, s.c.captureFrozen (fld v 0 1) = false → completesCmd r capture v 4 (.capture r v) s [.units, .power] [ride_state 5, pllKey 5] fun t =>
    t.c.recorder.capture = some ⟨fld v 0 1, fld v 4 8, fld v 12 4, fld v 16 4, fld v 20 4, s.c.now⟩) ∧
  (∀ s w rows, s.c.recorder.capture = some w → s.c.captureRows w = some rows → s.c.packerMay → s.c.bulkMay →
    (rows.head?.map (s.c.inRing w.camera)) = some true → storeInside s.c →
    completes .capturePack s packParts packObjects fun t =>
    t.c.recorder.capture = none ∧ t.c.recorder.jobNumber = s.c.recorder.jobNumber + 1 ∧ keptOutside (packRanges s.c) s t) ∧
  (∀ s w, s.c.recorder.capture = some w → w.since + 10000000000 ≤ s.c.now → completes .captureTimeout s [.units] [capture] fun t =>
    t.c.recorder = { s.c.recorder with capture := none } ∧ t.c.nat capture = cmdWord 3 (s.c.cmdStarter capture) St.CAPTURE_GONE) ∧
  (∀ s w rows, (s.c.recorder.crops.find? fun w => (s.c.cropRows w).isSome) = some w → s.c.cropRows w = some rows → s.c.packerMay → s.c.bulkMay →
    storeInside s.c →
    completes .cropCut s packParts packObjects fun t =>
    t.c.recorder.crops = s.c.recorder.crops.filter (fun x => x != w) ∧ keptOutside (packRanges s.c) s t) ∧
  (∀ s h rest, s.c.recorder.held = h :: rest → s.c.crateMay h → s.c.nat crates_mismatched < 2 ^ 32 - 1 → storeInside s.c →
    completes .packCrateCheck s packParts (crates_mismatched :: packObjects) fun t =>
    t.c.recorder.held = rest.filter (fun x => x != h) ∧ t.c.nat crates_mismatched = s.c.nat crates_mismatched + (if h.checks = true then 0 else 1) ∧
    keptOutside (packRanges s.c) s t) ∧
  (∀ s h, s.c.recorder.held.find? s.c.recorder.overdue = some h → s.c.crateMay h → s.c.nat crates_unchecked < 2 ^ 32 - 1 → storeInside s.c →
    completes .crateUnchecked s packParts (crates_unchecked :: packObjects) fun t =>
    t.c.recorder.held = s.c.recorder.held.filter (fun x => x != h) ∧ t.c.nat crates_unchecked = s.c.nat crates_unchecked + 1 ∧ keptOutside
    (packRanges s.c) s t) ∧
  (∀ s f, (s.c.recorder.fires.find? fun f => (s.c.fireOver f).isSome) = some f → f.openBands = [] → (∀ h ∈ s.c.recorder.held,
    (h.fire && h.owner == f.ticket) = false) → s.c.packerMay → storeInside s.c →
    completes .fireRecordComplete s packParts packObjects fun t =>
    t.c.recorder.fires = s.c.recorder.fires.filter (fun x => x.ticket != f.ticket) ∧ keptOutside (packRanges s.c) s t)

/-- R258, R308, R311, R313, R315: streams start, stop and record. -/
def Obligations.StreamCommandsComplete : Prop :=
  (∀ s r i v, i < 4 → s.c.streamOn i = false → s.c.streamView i = some v → s.c.streamCode i = 0 →
    completesWrite r (stream_enable i) (le 1 1) St.OK (.streamEnable r i 1) s [.units, .power] [level i, pool_bytes i, iso_commit i, iso_committed,
    ride_state 5, pllKey 5] fun t =>
    t.c.streamOn i ∧ t.c.stream i = { Stream.reset with pics := (s.c.stream i).pics, place := (s.c.stream i).place } ∧ t.c.nat
    (iso_commit i) = streamCommit v (s.c.nat (refs i))) ∧
  (∀ s r i, i < 4 → s.c.streamOn i →
    completesWrite r (stream_enable i) (le 1 0) St.OK (.streamEnable r i 0) s [.units, .power] [level i, pool_bytes i, iso_commit i, iso_committed]
    fun t =>
    t.c.streamOn i = false ∧ t.c.nat (level i) = 0 ∧ t.c.nat (iso_commit i) = 0 ∧ (t.c.stream i).waiting = []) ∧
  (∀ s k w v, k < 4 → s.c.camState k = 2 → (s.c.cam k).record = v → (s.c.cam k).outOn = true → viewOn v → viewStream v < 4 →
    (s.c.cam k).recordAt < s.c.frameIndex (viewRate v) → s.c.viewRow0 k v = some w → s.c.streamOn (viewStream v) → s.c.nat
    (pictures_skipped (viewStream v)) < 2 ^ 32 - 1 →
    completes (.recordFrame k) s [.units] [pictures_skipped (viewStream v)] fun t =>
    (t.c.cam k).recordAt = s.c.frameIndex (viewRate v) ∧ (t.c.cam k).recordRow = some w ∧ (if 2 ≤ (s.c.stream (viewStream v)).waiting.length then
    t.c.nat (pictures_skipped (viewStream v)) = s.c.nat (pictures_skipped (viewStream v)) + 1 else
    (t.c.stream (viewStream v)).waiting.length = (s.c.stream (viewStream v)).waiting.length + 1)) ∧
  (∀ s i f rest v, i < 4 → s.c.streamOn i → 65536 ≤ s.c.ringFree i → s.c.indexFull i = false → s.c.rideRuns rideRecord → s.c.cellarUp → s.c.frozen
    0 = false → s.c.frozen 1 = false → (s.c.stream i).waiting = f :: rest → s.c.streamView i = some v → s.c.streamTurn i f →
    (s.c.stream i).place < s.c.nat (out_ring_bytes i) → s.c.nat (pictures i) < 2 ^ 32 - 1 →
    completes (.encodePicture i) s [.units, .cellar, .cellarCtl] [pictures i, index_head i, cap_excess_bits i, mc_state 0, mc_state 1] fun t =>
    (t.c.stream i).waiting = rest ∧ (t.c.stream i).count = (s.c.stream i).count + 1 ∧ t.c.nat (pictures i) = s.c.nat (pictures i) + 1 ∧ t.c.nat
    (index_head i) = (s.c.nat (index_head i) + 1) % (2 * s.c.nat (index_entries i)) ∧ keptOutside [(s.c.nat (out_ring_base i), s.c.nat
    (out_ring_base i) + s.c.nat (out_ring_bytes i)), (s.c.nat (index_ring_base i), s.c.nat (index_ring_base i) + 32 * s.c.nat (index_entries i))] s t) ∧
  (∀ s r i place, i < 4 → (s.c.stream i).longs.any (·.1 == place) = false →
    completesCmd r (mark_long_term i) (le 1 place) 2 (.markLongTerm r i place) s [.units] [] fun t =>
    t.c.stream i = { s.c.stream i with mark := some place }) ∧
  (∀ s r i place, i < 4 → completesCmd r (release_long_term i) (le 1 place) 2 (.releaseLongTerm r i place) s [.units] [] fun t =>
    t.c.stream i = { s.c.stream i with longs := (s.c.stream i).longs.filter (·.1 != place) }) ∧
  (∀ s r i arg, i < 4 → completesCmd r (force_idr i) (le 1 arg) 2 (.forceIdr r i arg) s [.units] [] fun t =>
    t.c.stream i = { s.c.stream i with idrNext := true })

/-- R318, R320: replays start, run and stop. -/
def Obligations.ReplayCommandsComplete : Prop :=
  (∀ s r v, s.c.inCrates (fld v 0 8) (fld v 8 4) → s.c.replayRingOk (fld v 16 8) (fld v 24 1 * replaySlot (fld v 12 2) (fld v 14 2) 10) →
    s.c.rangeFrozen (fld v 0 8) (fld v 8 4) = false → s.c.rangeFrozen (fld v 16 8) (fld v 24 1 * replaySlot (fld v 12 2) (fld v 14 2) 10) = false →
    s.c.isoOthers 4 + mbUp ⟨fld v 12 2 * fld v 14 2 * fld v 25 1 * 9, 1⟩ ≤ s.c.nat iso_limit →
    completesCmd r decode v 1 (.decode r v) s [.units, .power] [decoder_state, iso_committed, ride_state 5, pllKey 5] fun t =>
    t.c.nat decoder_state = 1 ∧ (t.c.recorder.replay.map fun x => (x.address, x.length, x.base, x.frames, x.rate, x.done)) = some (fld v 0 8, fld v 8
    4, fld v 16 8, fld v 24 1, fld v 25 1, 0)) ∧
  (∀ s x q p h id concealed o discard nal bs, s.c.decodes x → x.pictures = [] → x.active = none → nextStart (memRead s.mach.cellar
    (x.address + x.done) (x.length - x.done)) 0 = some (o, nal) → nextStart nal 0 = none → idrSlice nal = some (discard, id, bs) → x.setsOf id = some
    (q, p) → readSlice q p 19 x.poc discard bs = some h → s.c.nat pictures_decoded < 2 ^ 32 - 1 →
    completes (.decodePicture concealed) s [.units, .cellar, .cellarCtl] [dec_head, pictures_decoded, decoder_state, decode_errors, ctbs_concealed,
    mc_state 0, mc_state 1] fun t =>
    t.c.nat pictures_decoded = s.c.nat pictures_decoded + 1 ∧ keptOutside [x.slotRange q.width q.height q.depth] s t) ∧
  (∀ s r arg, s.c.cmdBusy decode → s.c.recorder.replay.isSome →
    completesWrite r decode_stop (le 1 arg) St.STARTED (.decodeStop r arg) s [.units, .power] [decode, decoder_state, iso_committed] fun t =>
    t.c.recorder.replay = none ∧ t.c.nat decoder_state = 0 ∧ t.c.nat decode = cmdWord 2 (s.c.cmdStarter decode) 0)

/-- R239, R243, R258, R260, R262, R263, R265: the commands and the register channel of a camera. -/
def Obligations.CameraCommandsComplete : Prop :=
  (∀ s r k, k < 4 → s.c.camOn k = false → s.c.camCode k (s.c.nat (measurement k)) (s.c.oct (crop_ring k)) (s.c.oct (record_view k))
    (s.c.oct (monitor_view k)) = 0 →
    completesWrite r (camera_enable k) (le 1 1) St.OK (.cameraEnable r k 1) s [.units, .power, .loop] ([ride_state (1 + k), pllKey (1 + k)] ++
    camObjects k ++ shownObjects k ++ ((s.c.camLanes k).map laneObjects).flatten ++ ((s.c.camLanes k).map fun l =>
    [ride_state (7 + l / 4), quad_state (l / 4)]).flatten) fun t =>
    t.c.camOn k ∧ t.c.camState k = 1 ∧ t.c.nat (lost_reason k) = 0 ∧ t.c.nat (stitched_width k) = s.c.stitched k) ∧
  (∀ s r k, k < 4 → s.c.camOn k →
    completesWrite r (camera_enable k) (le 1 0) St.OK (.cameraEnable r k 0) s [.units, .power, .loop] (camObjects k ++ shownObjects k ++
    (s.c.camLanes k).map tx_state) fun t =>
    t.c.camOn k = false ∧ t.c.camState k = 0 ∧ t.c.nat (iso_demand k) = 0) ∧
  (∀ s r k sub v, k < 4 → 2 ≤ sub → sub ≤ 4 → s.c.camOn k = false → (sub = 2 → s.c.viewStreams k = false) → (sub = 2 ∨ sub = 4 → s.c.viewOk k
    (sub == 2) v = true) → (sub = 3 ∨ sub = 4 → Ctl.areasBreak s.c (s.c.putO (measurement k + (sub - 1)) v) (measurement k + (sub - 1)) = false) →
    completesWrite r (measurement k + (sub - 1)) v St.OK (.outputViewWrite r k sub v) s [] [] fun t => t.c.oct (measurement k + (sub - 1)) = v) ∧
  (∀ s r k v, k < 4 → (s.c.camOn k = false ∨ fld v 0 1 = 0) →
    completesWrite r (measurement k) v St.OK (.outputViewWrite r k 1 v) s [] (shownObjects k) fun t => t.c.nat (measurement k) = fld v 0 1) ∧
  (∀ s r i v, i < 16 → completesWrite r (flat_field i) v St.OK (.flatFieldWrite r i v) s [.attic, .units] [] fun t =>
    t.c.oct (flat_field i) = v ∧ t.c.attic = { s.c.attic with jobs := s.c.attic.jobs ++ (if s.c.atticReady = true then [.record regionCalibration
    kindFlat i (v ++ le 2 (s.c.nat (tile_width i))) 0] else []) }) ∧
  (∀ s f k tag p, f.camera = k → camSends s.c f 0xC3 tag 0 p → statusPayloadOk p → s.c.camState k = 1 → s.c.bridgeFault k p = 0 → s.c.camLanesUp k →
    completes (.bridgeStatus f) s [.units, .loop] (bridge_status k :: camObjects k) fun t =>
    t.c.oct (bridge_status k) = p ∧ t.c.camState k = (if s.c.on position_valid = true then 3 else 2)) ∧
  (∀ s k, k < 4 → 2 ≤ s.c.camState k → s.c.camState k ≤ 3 → s.c.statusStale k →
    completes (.bridgeStatusTimeout k) s [.units, .loop] (camObjects k) fun t =>
    t.c.camState k = 4 ∧ t.c.nat (lost_reason k) = 2 ∧ (t.c.cam k).packet = none ∧ (t.c.cam k).outOn = false ∧
    (t.c.cam k).exposures = (s.c.cam k).exposures.map fun e => (s.c.cutExposure k e).1) ∧
  (∀ s k x, k < 4 → s.c.camState k = 4 → (s.c.cam k).clearAt = some x → x + 10000000 ≤ s.c.now → s.c.statusStale k = false → s.c.camLanesUp k →
    completes (.cameraLostClear k) s [.units, .loop] (camObjects k) fun t => t.c.camState k = (if s.c.on position_valid = true then 3 else 2)) ∧
  (∀ s r k v, k < 4 → (s.c.camState k = 2 ∨ s.c.camState k = 3) →
    completesCmd r (cci_transfer k) v 1 (.cciTransfer r k v) s [.units] ((s.c.camLanes k).map tx_state) fun t => (t.c.cam k).cciAt = s.c.now) ∧
  (∀ s f k tag p, f.camera = k → camSends s.c f 0xC2 tag 0 p → p.length = 36 → fld p 2 2 = 0 → s.c.cmdBusy (cci_transfer k) → fld p 0 1 = 0 →
    completes (.cciReply f) s [] [cci_transfer k, cci_result k] fun t =>
    t.c.oct (cci_result k) = p ∧ t.c.nat (cci_transfer k) = cmdWord 2 (s.c.cmdStarter (cci_transfer k)) 0) ∧
  (∀ s k, k < 4 → s.c.cmdBusy (cci_transfer k) → (s.c.cam k).cciAt + 10000000 ≤ s.c.now →
    completes (.cciTimeout k) s [.units] [cci_transfer k] fun t =>
    t.c.nat (cci_transfer k) = cmdWord 3 (s.c.cmdStarter (cci_transfer k)) St.CCI_TIMEOUT) ∧
  (∀ s k l, k < 4 → s.c.camState k = 2 → s.c.nat (idle_sleep k) ≠ 0 → s.c.cmdBusy (cci_transfer k) = false → (s.c.cam k).downAt + s.c.nat
    (idle_sleep k) * 1000000 ≤ s.c.now → s.c.bondLane k = some l → s.c.tx l = 2 →
    completes (.cameraIdleSleep k) s [.units] [tx_state l] fun t => t.c.tx l = 1 ∧ t.c.out = .link l [.sleep] 16 (s.c.codeNow l) :: s.c.out) ∧
  (∀ s k v w, k < 4 → s.c.camState k = 2 → (s.c.cam k).monitor = v → (s.c.cam k).outOn = true → viewOn v → (s.c.cam k).monitorAt < s.c.frameIndex
    (viewRate v) → s.c.cellarUp → s.c.rangeFrozen (viewBase v + (s.c.cam k).frames % max 1 (viewFrames v) * monitorSlotBytes v)
    (monitorSlotBytes v) = false → s.c.viewRow0 k v = some w →
    completes (.monitorFrame k) s [.units, .cellar, .cellarCtl] [monitor_slot k, mc_state 0, mc_state 1] fun t =>
    t.c.nat (monitor_slot k) = (s.c.cam k).frames % max 1 (viewFrames v) ∧ (t.c.cam k).frames = (s.c.cam k).frames + 1 ∧
    (t.c.cam k).monitorAt = s.c.frameIndex (viewRate v))

/-- R110, R240, R242, R245, R246: exposures are triggered, tagged and taken in. -/
def Obligations.ExposuresComplete : Prop :=
  (∀ s k x late, k < 4 → s.c.camState k = 3 → s.c.exposureCentre k 16 = some (x, late) → s.c.downAsleep k = false → s.c.downQuiet k = false →
    s.c.startsNow k x → s.c.nat (exposures k) < 2 ^ 32 - 1 →
    completes (.exposureTrigger k) s [.units, .loop] [exposures k, last_exposure k, exposures_late k, align_state k, columns_per_pixel k,
    crop_ring_rows k, crop_rows_written k] fun t =>
    t.c.nat (exposures k) = s.c.nat (exposures k) + 1 ∧ t.c.nat (last_exposure k) = (s.c.cam k).number % 65535 + 1 ∧
    (t.c.cam k).exposures = (s.c.cam k).exposures ++ [⟨(s.c.cam k).number % 65535 + 1, s.c.sensorMask k, (x - s.c.triggerLead k) / 4, x, none, none,
    [], [], 0, false, false, false, []⟩]) ∧
  (∀ s k n, k < 4 → cropInside s.c k → completes (.exposureTag k n) s (.power :: stripParts) (stripObjects k) fun t =>
    (∀ e ∈ (t.c.cam k).exposures, e.number = n → e.tag.isSome = true ∨ e.measured = none) ∧ keptOutside [cropRange s.c k] s t) ∧
  (∀ s g k v n tag h b e, g.camera = k → camSends s.c g 0xC1 tag 0xC000 b → (s.c.cam k).csiSeq = none → (s.c.cam k).packet = none → 4 ≤ b.length →
    csiHeader (fld b 0 4) = some h → v < 4 → n < 65536 → h = n * 256 + v * 64 → s.c.openFrame k v = none → (s.c.cam k).exposures = [e] → e.tag = none
    → e.number = n → e.outstanding v → s.c.frameLate k e = false →
    completes (.csi g) s [.units, .loop] [] fun t =>
    ((t.c.cam k).exposures.map fun y => (y.number, y.frames)) = [(n, e.frames ++ [⟨v, true, [], 0, [], s.c.oct (flat_field (4 * k + v))⟩])] ∧
    (t.c.cam k).csiSeq = some tag) ∧
  (∀ s k v e, k < 4 → v < 4 → (s.c.cam k).exposures = [e] → e.outstanding v → e.tag = none → s.c.frameLate k e → s.c.nat (rows_missing k) + s.c.nat
    (sensor_rows (4 * k + v)) < 2 ^ 32 →
    completes (.frameTimeout k v) s [.units] [rows_missing k] fun t =>
    t.c.nat (rows_missing k) = s.c.nat (rows_missing k) + s.c.nat (sensor_rows (4 * k + v)) ∧
    ((t.c.cam k).exposures.map (·.missing)) = [e.missing ++ [v]]) ∧
  (∀ s x b line k, k < 4 → b < 8 → s.c.adm.tickets = [x] → s.c.inspectDue x b line k → s.c.cameraAt x line k ≤ s.c.pp → s.mach.bandStalls x.map b
    (line / 256) = false → s.c.cellarUp →
    completes (.inspectFetch x.number b line k) s [.admission, .pages, .cellarCtl] [mc_state 0, mc_state 1, crate_errors_inspect, last_crate_error]
    fun t =>
    (t.c.adm.tickets.map fun y => y.work.inspected.contains (k, b * 65536 + line / 2)) = [true] ∧ ∃ rows, t.c.page.means = s.c.page.means ++ rows)

/-- R145, R163, R174, R175, R179: chains are discovered, heads are asked in, out and sent data. -/
def Obligations.HeadCommandsComplete : Prop :=
  (∀ s r ch arg, ch < 16 → (∀ h ∈ headsOfChain ch, s.c.headState h ≠ 2) → (∀ x ∈ s.c.adm.tickets, (s.c.chainBar ch).map (bit x.bars) ≠ some true) →
    completesCmd r (discover_chain ch) (le 1 arg) 1 (.discoverChain r ch arg) s [.chains, .power, .units] ([chain_state ch] ++
    ((s.c.lanesOf ch).map laneObjects).flatten ++ ((s.c.lanesOf ch).map fun l => [ride_state (7 + l / 4), quad_state (l / 4)]).flatten) fun t =>
    t.c.chainState ch = 1 ∧ (t.c.mgr ch).replies = [] ∧ (t.c.mgr ch).stage = (if (s.c.chainRides ch).all s.c.rideRuns = true then 2 else 1)) ∧
  (∀ s r h arg, h < 256 → s.c.headInCode h = St.OK → completesCmd r (head_in h) (le 1 arg) 1 (.headIn r h arg) s [.chains, .units] [] fun t =>
    (t.c.headMgr h).asked = .config 1 ∧ (t.c.headMgr h).askedAt = s.c.now) ∧
  (∀ s r ch arg, ch < 16 → s.c.chainBar ch ≠ none →
    completesWrite r (heads_in ch) (le 1 arg) St.STARTED (.headsIn r ch arg) s [.chains, .units] ((headsOfChain ch).map head_in) fun t =>
    (∀ h ∈ headsOfChain ch, s.c.headInCode h = St.OK → t.c.nat (head_in h) = cmdWord 1 r.session 0 ∧ (t.c.headMgr h).asked = .config 1) ∧ ((∀ h ∈
    headsOfChain ch, s.c.headState h ≠ 1 ∧ s.c.headState h ≠ 4 ∧ s.c.cmdBusy (head_in h) = false) → t.c.nat (heads_in ch) = cmdWord 2 r.session 0)) ∧
  (∀ s r h arg, h < 256 → s.c.headState h = 2 →
    completesCmd r (head_out h) (le 1 arg) 1 (.headOut r h arg) s [.chains, .care, .loop, .units] ([out_reason h] ++ pendingObjects) fun t =>
    t.c.nat (out_reason h) = 7 ∧ ((t.c.headMgr h).leaving.map (·.2)) = some s.c.now) ∧
  (∀ s h n x, h < 256 → (s.c.headMgr h).leaving = some (n, x) → s.c.firedOut h →
    completes (.headOutComplete h) s lossParts [head_state h, head_out h, lines_lost (h / 16)] fun t =>
    t.c.headState h = 5 ∧ t.c.nat (head_out h) = cmdWord 2 (s.c.cmdStarter (head_out h)) 0 ∧ (t.c.headMgr h).leaving = none ∧ ∀ e ∈ t.c.care.store,
    e.head ≠ h) ∧
  (∀ s r h arg, h < 256 → recAuth (s.c.oct (capability h)) →
    completesCmd r (challenge_usage h) (le 1 arg) 1 (.challengeUsage r h arg) s [.chains, .units] [] fun t =>
    (t.c.headMgr h).usage = some 1 ∧ (t.c.headMgr h).usageAt = s.c.now) ∧
  (∀ s ch b g x u, ch < 16 → g < 4 → s.c.chainBar ch = some b → (s.c.care.shelf.find? fun y => y.bar == b && y.count == x.count) = some x → kvGet
    false x.sent (4 * ch + g) = false → (s.c.chainState ch = 2 ∨ s.c.chainState ch = 3) → s.c.strobePage x.ticket = some u → s.c.groupAt
    (u.place + 64 * x.line) b g ≤ s.c.pp + 48 * 64 →
    completes (.dispatchLine ch x.count g) s [.chains, .care, .units] [] fun t =>
    ((t.c.care.shelf.find? fun y => y.bar == b && y.count == x.count).map fun y => kvGet false y.sent (4 * ch + g)) = some true)

/-- R148, R149, R160 to R163, R167, R168, R171, R176, R179: the frames that heads send show their state. -/
def Obligations.HeadMessagesComplete : Prop :=
  (∀ s m h b, headSends s.c m 0x81 h 0 b → statusOk 0 b → s.c.headState h = 1 → bit (fld b 0 2) 11 = false → bit (fld b 0 2) 10 = false → bit
    (s.c.nat (status_flags h)) 13 = false →
    completes (.status m) s [.chains, .care, .units] [status_flags h, head_temperature h, last_fired h] fun t =>
    t.c.nat (status_flags h) = fld b 0 2 ∧ t.c.int (head_temperature h) = sfld b 2 2 ∧ t.c.oct (last_fired h) = slice b 4 8 ∧
    (t.c.headMgr h).statusAt = s.c.now) ∧
  (∀ s m h aux, headSends s.c m 0x86 h aux [] → aux < 4 → (s.c.headState h = 1 ∨ s.c.headState h = 2 ∨ s.c.headState h = 4) →
    (s.c.headMgr h).missed = [] → s.c.nat (lines_missing h) < 2 ^ 32 - 1 →
    completes (.lineReport m) s lossParts [lines_missing h, lines_lost (h / 16)] fun t =>
    t.c.nat (lines_missing h) = s.c.nat (lines_missing h) + 1 ∧ t.c.care.store = s.c.care.store.filter fun e => !(e.head == h && e.group == aux &&
    e.count % 65536 == frameTag m.bytes)) ∧
  (∀ s m ch b, s.c.chainOfLane m.lane = some (ch, true) → frameOk m.bytes → frameType m.bytes = 0x83 → framePayload m.bytes = b → b.length = 16 →
    zeroAt b 11 5 → (frameAddress m.bytes < 16 ∨ frameAddress m.bytes = 0x1F) → (s.c.mgr ch).stage = 2 →
    completes (.discoverReply m) s [.chains] [] fun t =>
    (t.c.mgr ch).replies = (s.c.mgr ch).replies ++ [⟨false, frameAux m.bytes, fld b 0 8, fld b 8 2, fld b 10 1⟩]) ∧
  (∀ s m h b, headSends s.c m 0x82 h 0 b → b.length = 128 → (s.c.headMgr h).asked = .capability → recordOk b
    (s.c.nat (chain_mode (chainOf h)) == 1) = true → (s.c.nat (expected_serial h) = 0 ∨ s.c.nat (expected_serial h) = fld b 4 8) → recAuth b →
    completes (.capability m) s [.chains, .units] ([capability h, head_family h, serial h] ++ reachObjects) fun t =>
    t.c.oct (capability h) = b ∧ t.c.nat (head_family h) = fld b 2 2 ∧ t.c.nat (serial h) = fld b 4 8 ∧ (t.c.headMgr h).usage = some 0 ∧
    (t.c.headMgr h).asked = .nothing) ∧
  (∀ s m h, headSends s.c m 0x85 h 0 [] → (s.c.headMgr h).asked = .config 0 → (s.c.mgr (chainOf h)).stage ≠ 4 →
    completes (.configAck m) s [.chains, .units] [head_state h] fun t =>
    t.c.headState h = 1 ∧ (t.c.headMgr h).asked = .nothing ∧ (t.c.headMgr h).statusAt = s.c.now) ∧
  (∀ s m h b, headSends s.c m 0x84 h 0 b → b.length = 112 → zeroAt b 28 4 → (s.c.headMgr h).usage = some 1 →
    completes (.usageRecord m) s [.chains, .units] [head_usage_record h, auth_state h, challenge_usage h] fun t =>
    t.c.oct (head_usage_record h) = b ∧ t.c.nat (auth_state h) = s.c.judgeUsage h b ∧ t.c.nat (challenge_usage h) = cmdWord 2
    (s.c.cmdStarter (challenge_usage h)) 0 ∧ (t.c.headMgr h).usage = none) ∧
  (∀ s h, h < 256 → (s.c.headMgr h).asked = .capability → (s.c.headMgr h).askedAt + 1000000 ≤ s.c.now → (s.c.mgr (chainOf h)).stage ≠ 4 →
    completes (.headReplyTimeout h) s [.chains] [head_state h, out_reason h] fun t =>
    t.c.headState h = 6 ∧ t.c.nat (out_reason h) = 1 ∧ (t.c.headMgr h).asked = .nothing) ∧
  (∀ s h, h < 256 → (s.c.headMgr h).statusAt + s.c.nat (head_timeout (chainOf h)) * 1000 ≤ s.c.now → (s.c.headState h = 1 ∨ s.c.headState h = 2 ∨
    s.c.headState h = 4 ∨ s.c.headState h = 6) →
    completes (.headTimeout h) s lossParts (endObjects h) fun t => t.c.headState h = 3 ∧ t.c.nat (out_reason h) = 1) ∧
  (∀ s ch, ch < 16 → s.c.chainState ch = 2 → (s.c.mgr ch).stage = 0 → completes (.tick ch) s [.chains, .units] [] fun t =>
    (t.c.mgr ch).tickAt = s.c.now ∧ kvGet 0 (t.c.mgr ch).seqs 0x0A = (kvGet 0 (s.c.mgr ch).seqs 0x0A + (s.c.lanesOf ch).length) % 65536) ∧
  (∀ s ch x, ch < 16 → (s.c.mgr ch).healFrom = some x → x + s.c.nat heal_hold * 1000000 ≤ s.c.now → s.c.breaks ch = [] →
    completes (.chainHeal ch) s [.chains] [chain_state ch, split_after ch] fun t =>
    t.c.chainState ch = 2 ∧ t.c.nat (split_after ch) = 0xFF ∧ (t.c.mgr ch).healFrom = none) ∧
  (∀ s ch, ch < 16 → s.c.on hot_discovery → s.c.chainState ch = 2 → (s.c.mgr ch).stage = 0 → (s.c.mgr ch).discoverAt + 100000000 ≤ s.c.now →
    completes (.hotDiscovery ch) s [.chains, .units] [] fun t => (t.c.mgr ch).discoverAt = s.c.now ∧ (t.c.mgr ch).portUp = false)

/-- R187, R194 to R197: lanes start, align, train and come up. -/
def Obligations.LaneTrainingCompletes : Prop :=
  (∀ s q, q < 8 → s.c.nat (quad_state q) = 1 → 16 ≤ kvGet 0 s.c.pwr.runs (12 + q) →
    completes (.quadPllLocked q) s [.units] (quad_state q :: ((lanesOfQuad q).map laneObjects).flatten) fun t =>
    t.c.nat (quad_state q) = 2 ∧ (∀ l ∈ lanesOfQuad q, s.c.rx l ≠ 7 → s.c.laneWanted l = true → t.c.rx l = 2 ∧ t.c.nat (tx_taps l) = tapsWord
    (presetTaps 1) ∧ t.c.nat (hop_received l) = 0xFF ∧ t.c.nat (lane_down_reason l) = 0) ∧ (∀ l ∈ lanesOfQuad q, s.c.rx l ≠ 7 → s.c.laneWanted
    l = false → t.c.rx l = (if s.c.role l = 3 then 1 else 0) ∧ t.c.tx l = t.c.rx l)) ∧
  (∀ s l, l < 32 → s.c.rx l = 2 → completes (.clockRecoveryLock l) s [] [rx_state l] fun t => t.c.rx l = 3) ∧
  (∀ s l hop ps, l < 32 → hop < 256 → s.c.rx l = 3 → (alignWords ps).bind (fun a => lastHop a.1) = some hop →
    completes (.rxAligned l ps) s [.units] [rx_state l, hop_received l] fun t =>
    t.c.rx l = 4 ∧ t.c.nat (hop_received l) = hop ∧ (t.c.lane l).elastic = 32 ∧ (t.c.lane l).alignedAt = s.c.now ∧ (t.c.lane l).trained = false ∧
    (t.c.lane l).request = some (requestByte false (!(s.c.lane l).toggle))) ∧
  (∀ s l target q j, l < 32 → target < 255 → q < 128 → s.c.aligned l → s.c.ownerOf l target = some j → (s.c.lane j).applied.all
    (fun p => p.1 != bit q 6) = true →
    completes (.trainReq l target q) s [.units] [tx_taps j] fun t =>
    t.c.nat (tx_taps j) = tapsWord (applyTap (wordTaps (s.c.nat (tx_taps j))) q).2 ∧ (t.c.lane j).applied = some (bit q 6,
    (applyTap (wordTaps (s.c.nat (tx_taps j))) q).1) ∧ (t.c.lane j).answer = some (q / 4 % 32 * 4, (applyTap (wordTaps (s.c.nat (tx_taps j))) q).1,
    s.c.now)) ∧
  (∀ s l q status, l < 32 → status < 4 → s.c.rx l = 4 → (s.c.lane l).request = some q → l ∈ s.c.lanesWith l →
    completes (.trainRsp l (q / 4 % 32 * 4) status) s [.units] ((s.c.lanesWith l).map rx_state ++ (s.c.lanesWith l).map lane_down_reason ++
    (s.c.lanesWith l).map retrain) fun t =>
    (t.c.lane l).trained = true ∧ (t.c.lane l).request = none ∧ s.c.ownTarget l ∈ (t.c.lane l).ready) ∧
  (∀ s l, l < 32 → s.c.rx l = 4 → (s.c.lane l).trained = false → (s.c.lane l).alignedAt + 6000000 ≤ s.c.now → s.c.nat (train_timeouts l) < 2 ^ 32 - 1
    →
    completes (.trainTimeout l) s lossParts (retrain l :: fallObjects s.c l) fun t =>
    t.c.rx l = 7 ∧ t.c.nat (lane_down_reason l) = 4 ∧ t.c.nat (train_timeouts l) = s.c.nat (train_timeouts l) + 1 ∧ (t.c.lane l).request = none ∧
    (t.c.lane l).retraining = false)

/-- R187, R189, R190, R198 to R200: the events of a lane that is up, its losses and its recovery. -/
def Obligations.LaneEventsComplete : Prop :=
  (∀ s l ps, l < 32 → s.c.aligned l → ((s.c.takeSymbols l ps).lane l).rxCode.errors = 4 → s.c.nat (align_losses l) < 2 ^ 32 - 1 →
    completes (.alignLoss l ps) s lossParts (hop_received l :: code_errors l :: fallObjects s.c l) fun t =>
    t.c.rx l = 7 ∧ t.c.nat (lane_down_reason l) = 3 ∧ t.c.nat (align_losses l) = s.c.nat (align_losses l) + 1) ∧
  (∀ s l k, l < 32 → 2 ≤ s.c.rx l → s.c.rx l ≤ 6 → s.c.nat (los_events l) < 2 ^ 32 - 1 → s.c.nat (lol_events l) < 2 ^ 32 - 1 →
    completes (.laneLoss l k) s lossParts (fallObjects s.c l) fun t =>
    t.c.rx l = 7 ∧ t.c.nat (lane_down_reason l) = (if k = true then 2 else 1) ∧ t.c.nat (los_events l) = s.c.nat (los_events l) +
    (if k = true then 0 else 1) ∧ t.c.nat (lol_events l) = s.c.nat (lol_events l) + (if k = true then 1 else 0)) ∧
  (∀ s l ps, l < 32 → s.c.rx l = 7 → s.c.nat (quad_state (l / 4)) = 2 → s.c.losClear l → (alignWords ps).isSome = true → s.c.nat
    (lane_down_reason l) = 4 →
    completes (.laneRecover l ps) s [.units] [rx_state l, hop_received l] fun t =>
    t.c.rx l = 4 ∧ (t.c.lane l).elastic = 32 ∧ (t.c.lane l).trained = false ∧ (t.c.lane l).alignedAt = s.c.now) ∧
  (∀ s l, l < 32 → s.c.tx l = 2 → s.c.skipDue l → s.c.triggerNear l = false → completes (.skipSend l) s [.units] [] fun t =>
    (t.c.lane l).skipAt = s.c.now ∧ Out.link l [.skip] 1 (s.c.codeNow l) ∈ t.c.out) ∧
  (∀ s l held, l < 32 → s.c.aligned l → 0 < held → held < 64 → s.c.camOfLane l = none →
    completes (.skipReceived l held) s [.units] [skips_deleted l, skips_inserted l] fun t =>
    (t.c.lane l).elastic = (if 40 < held then held - 4 else if held < 24 then held + 4 else held) ∧ (40 < held → s.c.nat (skips_deleted l) < 2 ^ 32 -
    1 → t.c.nat (skips_deleted l) = s.c.nat (skips_deleted l) + 1) ∧ (held < 24 → s.c.nat (skips_inserted l) < 2 ^ 32 - 1 → t.c.nat
    (skips_inserted l) = s.c.nat (skips_inserted l) + 1)) ∧
  (∀ s l, l < 32 → s.c.aligned l → completes (.sleepReceived l) s [.units] (downObjects l) fun t =>
    t.c.rx l = 1 ∧ (t.c.lane l).before = (if s.c.rx l = 6 then 5 else s.c.rx l) ∧ (t.c.lane l).cal = none) ∧
  (∀ s l ps, l < 32 → s.c.rx l = 1 → (s.c.lane l).before = 5 → (alignWords ps).isSome = true →
    completes (.laneWake l ps) s [.units] [rx_state l, hop_received l] fun t => t.c.rx l = 5 ∧ (t.c.lane l).before = 0 ∧ (t.c.lane l).elastic = 32) ∧
  (∀ s l x, l < 32 → s.c.rx l = 1 → (s.c.lane l).before ≠ 0 → (s.c.lane l).signalAt = some x → x + 100000 ≤ s.c.now → s.c.nat (align_losses l) < 2 ^
    32 - 1 →
    completes (.wakeAlignTimeout l) s lossParts (fallObjects s.c l) fun t =>
    t.c.rx l = 7 ∧ t.c.nat (lane_down_reason l) = 3 ∧ t.c.nat (align_losses l) = s.c.nat (align_losses l) + 1)

/-- R201 to R205: the commands of a lane. -/
def Obligations.LaneCommandsComplete : Prop :=
  (∀ s r l arg, l < 32 → arg ≤ 1 → s.c.chainRuns l = false →
    completesWrite r (tx_sleep l) (le 1 arg) St.OK (.txSleepWrite r l arg) s [.units, .chains] [tx_state l] fun t =>
    t.c.nat (tx_sleep l) = arg ∧ (arg = 1 → t.c.tx l = (if s.c.tx l = 2 then 1 else s.c.tx l)) ∧ (arg = 0 → s.c.laneWanted l = true → s.c.transmits
    l = true → s.c.tx l = 1 → t.c.tx l = 2)) ∧
  (∀ s r l arg, l < 32 → arg ≤ 3 → (arg = 1 → 160 ≤ s.c.nat (quad_rate (l / 4))) → (arg = s.c.role l ∨ s.c.laneInUse l = false) →
    completesWrite r (lane_role l) (le 1 arg) St.OK (.laneRoleWrite r l arg) s [.units] (laneObjects l) fun t => t.c.role l = arg) ∧
  (∀ s r q arg, q < 8 → arg < 2 ^ 16 → (arg < 160 → ∀ l ∈ lanesOfQuad q, s.c.role l ≠ 1) → (∀ l ∈ lanesOfQuad q, s.c.chainRuns l = false ∧ s.c.camRuns
    l = false) →
    completesWrite r (quad_rate q) (le 2 arg) St.OK (.quadRateWrite r q arg) s [.units, .power] ([lane_net_rate q, quad_state q] ++
    ((List.range 32).map downObjects).flatten ++ (lanesOfQuad q).map tx_state) fun t =>
    t.c.nat (quad_rate q) = arg ∧ t.c.nat (lane_net_rate q) = 160 * arg ∧ (arg ≠ s.c.nat (quad_rate q) → s.c.nat (quad_state q) ≠ 0 → t.c.nat
    (quad_state q) = 1 ∧ ∀ l ∈ lanesOfQuad q, t.c.rx l = 0 ∧ t.c.tx l = 0)) ∧
  (∀ s r l arg, l < 32 → s.c.chainRuns l = false → s.c.camRuns l = false → s.c.cmdBusy (calibrate_slicer l) = false →
    completesCmd r (retrain l) (le 1 arg) 1 (.retrain r l arg) s [.units] (((s.c.lanesWith l).map downObjects).flatten) fun t =>
    (t.c.lane l).retraining = true ∧ ∀ j ∈ s.c.lanesWith l, s.c.rx j = 4 ∨ s.c.rx j = 5 → t.c.rx j = 4) ∧
  (∀ s r l arg j, l < 32 → (s.c.calSpare l arg).toOption = some j → j < 32 →
    completesCmd r (calibrate_slicer l) (le 1 arg) 1 (.calibrateSlicer r l arg) s [.units, .power] [ride_state (7 + j / 4), quad_state (j / 4)] fun t
    =>
    ((t.c.lane l).cal.map fun k => (k.spare, k.stage)) = some (j, 1)) ∧
  (∀ s l k, l < 32 → (s.c.lane l).cal = some k → k.stage = 1 → k.spare < 256 → s.c.rateOf k.spare = s.c.rateOf l →
    completes (.calSwitchToSpare l) s [.units] [rx_state l, cal_spare l] fun t =>
    t.c.rx l = 6 ∧ t.c.nat (cal_spare l) = k.spare ∧ (t.c.lane l).cal = some { k with stage := 2 }) ∧
  (∀ s l k th dfe, l < 32 → (s.c.lane l).cal = some k → k.stage = 2 →
    completes (.calHistogramsDone l th dfe) s [.units] [rx_thresholds l, rx_dfe l] fun t =>
    t.c.oct (rx_thresholds l) = thresholdBytes (sweepThresholds th) ∧ t.c.nat (rx_dfe l) = dfeWord (sweepTaps dfe) ∧ (t.c.lane l).cal = some
    { k with stage := 3, loadedAt := s.c.now }) ∧
  (∀ s l k, l < 32 → (s.c.lane l).cal = some k → k.stage = 3 →
    completes (.calSwitchBack l) s [.units, .attic] [rx_state l, cal_spare l, last_cal_time l, calibrate_slicer l] fun t =>
    t.c.rx l = 5 ∧ t.c.nat (cal_spare l) = 0xFF ∧ t.c.nat (last_cal_time l) = s.c.localNs ∧ t.c.nat (calibrate_slicer l) = cmdWord 2
    (s.c.cmdStarter (calibrate_slicer l)) 0 ∧ (t.c.lane l).cal = none) ∧
  (∀ s l k, l < 32 → (s.c.lane l).cal = some k → k.stage = 3 → k.loadedAt + 1000000 ≤ s.c.now →
    completes (.calDivergeTimeout l) s [.units] [rx_state l, cal_spare l, rx_thresholds l, rx_dfe l, calibrate_slicer l] fun t =>
    t.c.rx l = 5 ∧ t.c.nat (cal_spare l) = 0xFF ∧ t.c.oct (rx_thresholds l) = k.thresholds ∧ t.c.nat (rx_dfe l) = k.dfe ∧ t.c.nat
    (calibrate_slicer l) = cmdWord 3 (s.c.cmdStarter (calibrate_slicer l)) St.CAL_DIVERGED ∧ (t.c.lane l).cal = none) ∧
  (∀ s l n k, l < 32 → (s.c.lane l).cal = some k → (k.stage = 2 ∨ k.stage = 3) →
    completes (.calSpareLost l n) s [.units] [code_errors l, rx_state l, cal_spare l, rx_thresholds l, rx_dfe l, calibrate_slicer l] fun t =>
    t.c.rx l = 5 ∧ t.c.nat (cal_spare l) = 0xFF ∧ t.c.oct (rx_thresholds l) = k.thresholds ∧ t.c.nat (rx_dfe l) = k.dfe ∧ t.c.nat
    (calibrate_slicer l) = cmdWord 3 (s.c.cmdStarter (calibrate_slicer l)) St.CAL_ABORTED ∧ (t.c.lane l).cal = none ∧ t.c.nat
    (code_errors l) = (s.c.nat (code_errors l) + n) % 2 ^ 32) ∧
  (∀ s r l arg, l < 32 →
    completesCmd r (clear_counters l) (le 1 arg) 2 (.clearCounters r l arg) s [.units] ((List.range 9).map fun i => groups_received l + i) fun t =>
    ∀ i ∈ List.range 9, t.c.nat (groups_received l + i) = 0)

/-- R36 to R38, R40, R41, R43: sessions are opened, kept and closed. -/
def Obligations.SessionsComplete : Prop :=
  (∀ s f, s.c.awake → headerOk 0x01 f → f.payload = [] → f.path = 2 → completes (.discover f) s [] [] fun t =>
    t.c.ydp.mbxReady ∧ t.c.ydp.mbxBusy = false ∧ t.c.ydp.mbxResponse = (Sent.bytes ⟨0x01, 0, f.seq, 0, St.OK, s.c.discoverPayload⟩)) ∧
  (∀ s f n rest, s.c.awake → headerOk 0x02 f → f.payload.length = 4 → fld f.payload 1 3 = 0 → f.path ≤ 2 → s.c.rxFull f.path = false → s.c.nat
    lifecycle_pending = 0xFF → (fld f.payload 0 1 = 1 ∨ fld f.payload 0 1 = 2) → (f.path = 2 → s.c.mailboxOpen = false) → s.c.freeSessions = n :: rest
    →
    completes (.openSession f) s [.sessions] [session_state n, session_role n] fun t =>
    (t.c.sess n).isOpen = true ∧ (t.c.sess n).path = f.path ∧ (t.c.sess n).role = min (fld f.payload 0 1) (s.c.roleCeiling f.path) ∧
    (t.c.sess n).tag = s.c.fresh (2 ^ 32) ∧ (t.c.sess n).heardAt = s.c.now ∧ t.c.nat (session_state n) = 1 ∧ ∀ i ∈ List.range n, i ≠ 0 →
    (s.c.sess i).isOpen = true) ∧
  (∀ s f, admitted s.c 0x03 f f.payload.isEmpty → completes (.close f) s shutParts (shutObjects f.session) fun t =>
    (t.c.sess f.session).isOpen = false ∧ t.c.nat (session_state f.session) = 0 ∧ (s.c.nat controlling_session = f.session → t.c.nat
    controlling_session = 0 ∧ t.c.nat admission_state = 0) ∧ (s.c.nat controlling_session ≠ f.session → t.c.nat controlling_session = s.c.nat
    controlling_session)) ∧
  (∀ s f, admitted s.c 0x04 f f.payload.isEmpty → completes (.keepalive f) s [] [] fun t =>
    replied t 0x04 f St.OK [] ∧ (t.c.sess f.session).heardAt = s.c.now) ∧
  (∀ s f, admitted s.c 0x05 f f.payload.isEmpty → s.c.nat lifecycle_state ≠ 4 → s.c.serviceKey ≠ none → s.c.ydp.lockoutEnd = none →
    completes (.challenge f) s [.sessions] [] fun t =>
    replied t 0x05 f St.OK (freeBytes s.c.free 16) ∧ (t.c.sess f.session).nonce = some ⟨freeBytes s.c.free 16, s.c.now⟩) ∧
  (∀ s f b k, admitted s.c 0x06 f (f.payload.length == 16) → s.c.ydp.lockoutEnd = none → s.c.validNonce f.session = some b → s.c.serviceKey = some k →
    f.payload = (hmac k (b ++ le 1 f.session ++ le 4 f.tag)).take 16 →
    completes (.prove f) s [.sessions] [session_role f.session, service_failures] fun t =>
    replied t 0x06 f St.OK [] ∧ (t.c.sess f.session).role = 3 ∧ t.c.nat (session_role f.session) = 3 ∧ (t.c.sess f.session).nonce = none ∧ t.c.nat
    service_failures = 0) ∧
  (∀ s n, (s.c.sess n).isOpen = true → 1 ≤ n → n ≤ 8 → (s.c.sess n).heardAt + s.c.nat session_timeout * 1000000 ≤ s.c.now →
    completes (.sessionSilent n) s shutParts (shutObjects n) fun t =>
    (t.c.sess n).isOpen = false ∧ t.c.nat (session_state n) = 0 ∧ (s.c.nat controlling_session = n → t.c.nat controlling_session = 0 ∧ t.c.nat
    admission_state = 0)) ∧
  (∀ s n x, (s.c.sess n).nonce = some x → x.at_ + 10 ^ 10 ≤ s.c.now → completes (.nonceExpire n) s [.sessions] [] fun t => (t.c.sess n).nonce = none) ∧
  (∀ s x, s.c.ydp.lockoutEnd = some x → x ≤ s.c.now → completes .serviceLockoutEnd s [.lockout] [service_failures] fun t =>
    t.c.ydp.lockoutEnd = none ∧ t.c.nat service_failures = 0)

/-- R40, R51, R54: the control grant, and events to sessions. -/
def Obligations.ControlAndEventsComplete : Prop :=
  (∀ s r, s.c.nat controlling_session = 0 → completesCmd r take_control (le 1 0) 2 (.takeControl r 0) s [] [controlling_session] fun t =>
    t.c.nat controlling_session = r.session) ∧
  (∀ s r arg,
    completesCmd r release_control (le 1 arg) 2 (.releaseControl r arg) s [.admission, .power] ([controlling_session] ++ closeObjects) fun t =>
    t.c.nat controlling_session = 0 ∧ t.c.nat admission_state = 0) ∧
  (∀ s r m, m < 256 → (s.c.sess m).isOpen = true → m ≠ r.session →
    completesCmd r hand_over (le 1 m) 2 (.handOver r m) s [] [controlling_session] fun t => t.c.nat controlling_session = m) ∧
  (∀ s r m, 1 ≤ m → m ≤ 8 → (s.c.sess m).isOpen = true → m ≠ r.session → s.c.nat controlling_session ≠ m →
    completesCmd r close_session (le 1 m) 2 (.closeSession r m) s [.sessions, .staging] (shutObjects m) fun t =>
    (t.c.sess m).isOpen = false ∧ t.c.nat (session_state m) = 0 ∧ t.c.nat controlling_session = s.c.nat controlling_session) ∧
  (∀ s f x, s.c.awake → headerOk 0x23 f → f.payload.length = 4 → f.path ≤ 2 → s.c.rxFull f.path = false → s.c.knows f.session f.tag →
    (s.c.sess f.session).flight = some x → x.sequence = fld f.payload 0 4 →
    completes (.eventAck f) s [.sessions] [] fun t => (t.c.sess f.session).flight = none ∧ (t.c.sess f.session).heardAt = s.c.now) ∧
  (∀ s n, (s.c.sess n).isOpen = true → (s.c.sess n).path ≤ 2 → s.c.on (events_enable n) → (s.c.sess n).queue ≠ [] → (s.c.sess n).flight = none →
    ((s.c.sess n).path = 2 → s.c.evtFull = false) →
    completes (.event n) s [.sessions, .eventRing] [] fun t =>
    (t.c.sess n).flight = some ⟨((s.c.sess n).evSeq + 1) % 2 ^ 32, (s.c.sess n).queue.take 43, min 65535 (s.c.sess n).pendingLost, 0, s.c.now⟩ ∧
    (t.c.sess n).evSeq = ((s.c.sess n).evSeq + 1) % 2 ^ 32) ∧
  (∀ s n x, (s.c.sess n).flight = some x → (s.c.sess n).path ≤ 2 → s.c.on (events_enable n) → x.sentAt + 20 * 10 ^ 6 ≤ s.c.now → x.resends < 5 →
    completes (.eventResend n) s [.sessions, .eventRing] [] fun t => (t.c.sess n).flight = some { x with resends := x.resends + 1, sentAt := s.c.now }) ∧
  (∀ s v, s.c.awake → (v % 16 + 16 - s.c.ydp.evtTail) % 16 ≤ (s.c.ydp.evtHead + 16 - s.c.ydp.evtTail) % 16 →
    completes (.mbxEvtTailWrite v) s [.sessions, .eventRing] [] fun t => t.c.ydp.evtTail = v % 16 ∧ t.c.ydp.evtHead = s.c.ydp.evtHead)

/-- R46, R47, R49 to R53: reads, writes and the other requests of the data protocol. -/
def Obligations.YdpRequestsComplete : Prop :=
  (∀ s f k, admitted s.c 0x10 f true → readList f.payload = some [k] → claimOf k = none → s.c.readCode f.session (s.c.sess f.session) k = St.OK →
    s.c.readLength (s.c.sess f.session) k ≤ 1024 → wireObject k = false → (k / 256 < 0x1101 ∨ 0x1108 < k / 256) →
    completes (.read f) s [] [] fun t => replied t 0x10 f St.OK ([1, 0, 0, 0] ++ readEntry k St.OK (s.c.shown (s.c.sess f.session) k))) ∧
  (∀ s f a b, admitted s.c 0x11 f true → writeList f.payload = some [(session_timeout, le 4 a), (role_ceiling_mailbox, le 1 b)] → steady s.c →
    s.c.checkWrite f.session session_timeout (le 4 a) = St.OK → s.c.checkWrite f.session role_ceiling_mailbox (le 1 b) = St.OK → a < 2 ^ 32 → b < 2 ^
    8 →
    completes (.write f) s [] [session_timeout, role_ceiling_mailbox] fun t =>
    replied t 0x11 f St.OK (writePayload [(session_timeout, St.OK), (role_ceiling_mailbox, St.OK)]) ∧ t.c.nat session_timeout = a ∧ t.c.nat
    role_ceiling_mailbox = b) ∧
  (∀ s f k row, admitted s.c 0x12 f true → describeList f.payload = some [(false, k)] → objOf k = some row → indexExists (k / 256) →
    completes (.describe f) s [] [] fun t => replied t 0x12 f St.OK ([1, 0, 0, 0] ++ writeEntry k St.OK ++ padTo 76 (s.c.descriptor f.session k row))) ∧
  (∀ s f, admitted s.c 0x14 f (segWriteOk f.flags f.payload) → steady s.c → s.c.ydp.staging = none → segOffset f.payload = 0 → fld f.payload 12
    2 < segTotal f.payload → segTotal f.payload ≤ 1048576 →
    completes (.segWrite f) s [.staging] [] fun t =>
    replied t 0x14 f St.OK [] ∧ t.c.ydp.staging = some ⟨f.session, true, segKey f.payload, segTotal f.payload, segChunk f.payload, s.c.now⟩) ∧
  (∀ s f g, admitted s.c 0x13 f (segReadOk f.payload) → s.c.ydp.staging = some g → g.owner = f.session → g.writing = false → g.key = segKey f.payload
    → 0 < segOffset f.payload → segOffset f.payload < g.total →
    completes (.segRead f) s [.staging] [] fun t =>
    replied t 0x13 f St.OK (le 4 g.total ++ le 2 (slice g.data (segOffset f.payload) (fld f.payload 8 2)).length ++ zeros 2 ++ slice g.data
    (segOffset f.payload) (fld f.payload 8 2)) ∧ t.c.ydp.staging = (if g.total ≤ segOffset f.payload + fld f.payload 8 2 then none else some
    { g with lastAt := s.c.now })) ∧
  (∀ s g, s.c.ydp.staging = some g → g.lastAt + 2 * 10 ^ 9 ≤ s.c.now → completes .segmentAbandon s [.staging] [] fun t => t.c.ydp.staging = none) ∧
  (∀ s f keys, admitted s.c 0x20 f (subscribeOk f.payload) → readList (f.payload.drop 8) = some keys → 0 < fld f.payload 4 2 → publishSize keys ≤ 1400
    →
    completes (.subscribe f) s [.sessions] [] fun t =>
    replied t 0x20 f St.OK [] ∧ kvGet none (t.c.sess f.session).sets (fld f.payload 0 1) = some ⟨fld f.payload 4 2, keys, s.c.fresh (2 ^ 32),
    s.c.nextSample (fld f.payload 4 2)⟩) ∧
  (∀ s n i p, s.c.awake → (s.c.sess n).isOpen = true → (s.c.sess n).path ≤ 2 → kvGet none (s.c.sess n).sets i = some p → p.next ≤ s.c.localNs →
    (∀ k ∈ p.keys, claimOf k = none) →
    completes (.publish n i) s [.sessions, .eventRing] [] fun t =>
    kvGet none (t.c.sess n).sets i = some { p with count := (p.count + 1) % 2 ^ 32, next := s.c.nextSample p.period }) ∧
  (∀ s b, s.c.awake → s.c.ydp.mbxBusy = false → fld (b.take 2048) 3 1 = 0x04 → admitted s.c 0x04 (ydpFrame 2 [] (b.take 2048))
    (ydpFrame 2 [] (b.take 2048)).payload.isEmpty →
    completes (.post b) s [.mailbox] [] fun t =>
    t.c.ydp.mbxRequest = b.take 2048 ∧ t.c.ydp.mbxReady ∧ t.c.ydp.mbxBusy = false ∧ t.c.ydp.mbxResponse = Sent.bytes ⟨0x04,
    (ydpFrame 2 [] (b.take 2048)).session, (ydpFrame 2 [] (b.take 2048)).seq, (ydpFrame 2 [] (b.take 2048)).tag, St.OK, []⟩)

/-- R62, R355, R358, R359, R363, R366, R367, R371 to R373, R380, R381, R391, R399, R401, R404, R409, R411, R425, R449, R461, R477: further cases of
the print, bell, port, clock, power and time commands. -/
def Obligations.FurtherControlCases : Prop :=
  (∀ s r slot arg, slot < 256 → s.c.nat (validation slot) ≠ 0 →
    completesWrite r (seal_slot slot) (arg1 arg) St.STARTED (.sealSlot r slot arg) s [] [] fun t =>
    t.c.nat (seal_slot slot) = cmdWord 3 r.session 0x0203) ∧
  (∀ s input a, input < 16 → (s.c.lim input).active = true → (s.c.lim input).since + s.c.nat (lim_filter input) * 1000 ≤ s.c.now → s.c.nat
    (lim_state input) ≠ 1 → a < 8 → s.c.axisState a = 2 → 0 < (s.c.axis a).v → s.c.nat (lim_positive a) = input → s.c.faulted →
    completes (.limFilterExpiry input) s [.axes] (lim_state input :: faults_latched :: ((List.range 8).map fun a => [axis_state a, axis_error a, home
    a, source_cause (64 + a), source_raises (64 + a)]).flatten) fun t =>
    t.c.nat (lim_state input) = 1 ∧ t.c.axisState a = 4 ∧ t.c.nat (axis_error a) = 2) ∧
  (∀ s r target n, target < 3 → s.c.awake → s.c.knows r.session r.tag → r.path ≤ 2 → s.c.rxFull r.path = false →
    r.seq = ((s.c.sess r.session).lastSeq + 1) % 65536 → s.c.nat controlling_session = r.session → s.c.delivered target = some n →
    completes (.claim (.dict r) target) s [.bell] [] fun t =>
    (t.c.sess r.session).stored = some ⟨0x10, r.session, r.seq, r.tag, St.OK, [1, 0, 0, 0] ++ readEntry (claim target) St.OK
    (le 4 (claimWord n (cfgLevel (s.c.bellCfg n))))⟩ ∧ t.c.isPending n = false ∧ t.c.isActive n) ∧
  (∀ s r target n l rest, target < 3 → s.c.stack target = (n, l) :: rest →
    completesWrite r (complete target) (le 2 n) St.STARTED (.complete (.dict r) target n) s [.bell] [] fun t =>
    t.c.stack target = rest ∧ t.c.isActive n = false) ∧
  (∀ s a b, s.c.collects → 10 * (s.c.nat temp_limit : Int) < a → (a - b).natAbs ≤ 80 → s.c.isLatched 11 = false →
    completes (.dieTempRead a b) s stopParts (die_temp_a :: die_temp_b :: faultObjects 11) fun t =>
    t.c.nat (source_cause 11) = 1 ∧ t.c.nat faults_latched = s.c.nat faults_latched + 1) ∧
  (∀ (c : Ctl) (i : TapInstr), c.nat lifecycle_state ≠ 0 → i.drives → (c.tapLoad i).life.tap = .bypass) ∧
  (∀ (c : Ctl) (i : TapInstr), (c.nat lifecycle_state = 0 ∨ i.drives = false) → (c.tapLoad i).life.tap = i) ∧
  (∀ s port bytes, port < 2 → s.c.awake → s.c.portUp port → frameGood bytes = false → s.c.nat (fp_frames_bad port) < 2 ^ 64 - 1 →
    completes (.ethernetFrame port bytes) s [] [fp_frames_bad port] fun t =>
    t.c.nat (fp_frames_bad port) = s.c.nat (fp_frames_bad port) + 1 ∧ t.c.out = s.c.out) ∧
  (∀ s port reason, port < 2 → s.c.awake → s.c.nat (port_mode port) ≠ 0 → 1 ≤ reason → reason ≤ 5 →
    completes (.fpLinkChange port false reason) s [] [fp_link_state port, fp_down_reason port] fun t =>
    t.c.nat (fp_link_state port) = 0 ∧ t.c.nat (fp_down_reason port) = reason) ∧
  (∀ s a n, s.c.phase ≠ .asleep → a < s.c.usable → a + n ≤ s.c.usable → 0 < n → a % 64 + n ≤ 64 → a < s.c.host.bar2 * 2 ^ 30 → s.c.bulkMay = false →
    s.c.rangeFrozen a n = false → s.c.heldBy 0 = [] → s.c.heldBy 1 = [] →
    completes (.bar2Access (.read a n none)) s [.cellarCtl] [] fun t => t.c.heldBy (controllerOf a) = [⟨.bar2, a, n, s.c.now⟩] ∧ t.c.out = s.c.out) ∧
  (∀ s a n, s.c.phase ≠ .asleep → a < s.c.usable → a + n ≤ s.c.usable → a < s.c.host.bar2 * 2 ^ 30 → s.c.rangeFrozen a n → s.c.heldBy 0 = [] →
    s.c.heldBy 1 = [] →
    completes (.bar2Access (.read a n none)) s [] [] fun t => t.c.out = .bus "COMPLETER_ABORT" a :: s.c.out) ∧
  (∀ s a b, s.c.phase ≠ .asleep → s.c.panicLevel ≠ 3 → a < s.c.host.bar2 * 2 ^ 30 → s.c.generalEnd ≤ a → b ≠ [] → s.c.heldBy 0 = [] → s.c.heldBy
    1 = [] → s.c.nat bar2_discarded < 2 ^ 32 - 1 →
    completes (.bar2Access (.write a b)) s [] [bar2_discarded] fun t => t.c.nat bar2_discarded = s.c.nat bar2_discarded + 1) ∧
  (∀ s clock dev, s.c.pwr.rails ≠ 0 → 4 ≤ clock → clock < 12 → s.c.nat ref_selected < 2 → s.c.nat (pll_state (clock - 4)) = 1 → dev.natAbs ≤ 500000 →
    s.c.goodRun clock = 15 →
    completes (.clockWindow clock dev) s [.power] [pll_state (clock - 4)] fun t => t.c.nat (pll_state (clock - 4)) = 2) ∧
  (∀ s rcCycles, s.c.nat booth_clock = 0 → s.c.pwr.xtalGood = false → xtalAgrees rcCycles → s.c.goodRun 20 = 7 →
    completes (.xtalJudgement rcCycles) s [.power] [] fun t => t.c.pwr.xtalGood) ∧
  (∀ s o v, s.c.awake → s.c.configDword (o / 4 * 4) = some v → completes (.timeNsRead (.config o)) s [] [] fun t =>
    Out.hostRead (o / 4 * 4) v ∈ t.c.out) ∧
  (∀ s v, s.c.awake → v < 16 → kvGet false s.c.host.waiting v = true → s.c.msixFree v → completes (.msixSend v .nothing) s [] [] fun t =>
    kvGet false t.c.host.waiting v = false ∧ Out.msix (kvGet MsixEntry.reset s.c.host.table v).address (kvGet MsixEntry.reset s.c.host.table v).data ∈
    t.c.out) ∧
  (∀ s r ring v, ring < 8 → s.c.tailTakes ring v →
    completesWrite r (tailObject ring) (le (tailBytes ring) v) St.OK (.consumerTailWrite ring (.obj r v)) s [.units] [decoder_state, pack_store_free]
    fun t =>
    t.c.nat (tailObject ring) = v) ∧
  (∀ s ride w vout, s.c.voutOf 0 w = vout → 1 ≤ ride → ride ≤ 5 → s.c.nat (ride_state ride) = 1 → s.c.nat (pllKey ride) = 2 → vout ≤ s.c.nat vcore_run
    + 10 → s.c.nat vcore_run ≤ vout + 10 →
    completes (.rideStarted ride w) s [.power] ([ride_state ride, vcore_now] ++ (List.range 6).map pllKey) fun t =>
    t.c.nat (ride_state ride) = 2 ∧ t.c.nat vcore_now = vout) ∧
  (∀ s ride w, 6 ≤ ride → ride < 15 → s.c.nat (ride_state ride) = 1 → s.c.nat (pllKey ride) = 2 → (∀ ch ∈ List.range 16, (s.c.mgr ch).stage ≠ 1) →
    completes (.rideStarted ride w) s [] [ride_state ride] fun t => t.c.nat (ride_state ride) = 2) ∧
  (∀ s q, q < 8 → s.c.nat (ride_state (7 + q)) ≠ 0 → s.c.rideNeeded (7 + q) = false → s.c.rideUsedAt (7 + q) ≤ s.c.now →
    completes (.rideIdleStop (7 + q)) s [] ([ride_state (7 + q), quad_state q] ++ (lanesOfQuad q).map rx_state ++ (lanesOfQuad q).map tx_state) fun t
    =>
    t.c.nat (ride_state (7 + q)) = 0 ∧ t.c.nat (quad_state q) = 0 ∧ ∀ l ∈ lanesOfQuad q, t.c.nat (rx_state l) = 0 ∧ t.c.nat (tx_state l) = 0) ∧
  (∀ s x, s.c.awake → x.regulator = 0 → s.c.nat (pmbus_address 0) ≠ 0 → pmbusOk x →
    completes (.pmbusTelemetry [x]) s [.power, .faults] ([vout 0, iout 0, reg_temperature 0, status_word 0, vcore_now] ++ (List.range 6).map pllKey)
    fun t =>
    t.c.nat (vout 0) = s.c.voutOf 0 x.vout ∧ t.c.nat (iout 0) = (linear11 1000 x.iout).toNat ∧ t.c.int (reg_temperature 0) = linear11 10 x.temperature
    ∧ t.c.nat (status_word 0) = x.status ∧ t.c.nat vcore_now = s.c.voutOf 0 x.vout) ∧
  (∀ s x, s.c.awake → x.regulator < 8 → x.regulator ≠ 0 → s.c.nat (pmbus_address x.regulator) ≠ 0 → pmbusOk x = false → s.c.nat pmbus_errors < 2 ^ 32
    - 1 →
    completes (.pmbusTelemetry [x]) s [] [pmbus_errors] fun t => t.c.nat pmbus_errors = s.c.nat pmbus_errors + 1) ∧
  (∀ s r, s.c.reaches r power_state_request (le 1 0) → s.c.sleepCode = St.OK → becomes (.powerStateRequest r 0) s fun t =>
    t.c.phase = .asleep ∧ t.c.nat power_state = 0 ∧ t.mach.cellar = [] ∧ t.c.pwr.rails = 0 ∧ t.c.use = s.c.use ∧ t.c.life = s.c.life ∧
    t.c.attic.slots = s.c.attic.slots ∧ t.c.adm = Ctl.reset.adm) ∧
  (∀ s step, 1 ≤ step → step ≤ 8 → step = s.c.pwr.rails → s.c.pwr.railAt + 3000000 ≤ s.c.now → becomes (.pgFail step) s fun t =>
    t.c.phase = .asleep ∧ t.c.pwr.rails = 0 ∧ t.mach.cellar = [] ∧ t.c.nat power_state = 0 ∧ (t.c.oct power_fail_record).take
    2 = [BitVec.ofNat 8 step, 1] ∧ t.c.adm = Ctl.reset.adm ∧ t.c.life = s.c.life ∧ t.c.attic.slots = s.c.attic.slots) ∧
  (∀ s region kind target data cmd rest, s.c.attic.jobs = .record region kind target data cmd :: rest → cmd ≠ 0 → s.c.nat attic_errors < 2 ^ 32 - 1 →
    wireObject cmd = false → cmd ≠ attic_errors →
    completes (.atticWriteDone false) s [.attic] [cmd, attic_errors] fun t =>
    t.c.attic = { s.c.attic with jobs := rest } ∧ t.c.nat attic_errors = s.c.nat attic_errors + 1 ∧ t.c.nat cmd = cmdWord 3 (s.c.cmdStarter cmd)
    St.ATTIC_WRITE) ∧
  (∀ s, s.c.awake → s.c.retired = false → s.c.use.closing = none → s.c.nat period_start + s.c.use.length ≤ s.c.powered → s.c.storeFull →
    completes .periodClose s [.usage] [] fun t => t.c.use = { s.c.use with overdue := true }) ∧
  (∀ s u, s.c.awake → s.c.retired = false → s.c.use.closing = some u → u.writing = false → s.c.closeWaits = false →
    completes .periodClose s [.usage, .attic] [] fun t =>
    t.c.use.closing = some { u with writing := true } ∧ t.c.attic.jobs = s.c.attic.jobs ++ (s.c.periodRecords u).map AtticJob.usage) ∧
  (∀ s r v, s.c.reaches r step_time v → s.c.nat clock_status ≠ 0 → s.c.nat step_limit < (sfld v 0 8).natAbs → fld v 8 1 ≠ 1 → s.c.nat
    steps_refused < 2 ^ 32 - 1 →
    completes (.stepTime r v) s [] [steps_refused] fun t =>
    answered t r step_time St.TIME_STEP_REFUSED ∧ t.c.nat steps_refused = s.c.nat steps_refused + 1) ∧
  (∀ s q e, q < 4 → s.c.awake → (s.c.pulse q).mode = 1 → (s.c.pulse q).endAt = some e → e ≤ s.c.localNs → s.c.nat (pulse_state q) = 2 →
    completes (.pulseEdge q) s [.clock] [pulse_state q] fun t => t.c.nat (pulse_state q) = 3 ∧ t.c.pulse q = Pulse.reset) ∧
  (∀ s offset delay, s.c.awake → s.c.nat ptp_port_state = 9 → s.c.nat clock_status = 0 → s.c.nat step_limit < offset.natAbs → s.c.clock.pulses = [] →
    0 ≤ (s.c.localNs : Int) - offset → (s.c.localNs : Int) - offset < 2 ^ 48 * 10 ^ 9 →
    completes (.ptpSync offset delay) s [.clock, .sessions, .units] [offset_from_master, mean_path_delay, frequency_adjust, clock_status, last_step,
    steps_forced, time_stepped] fun t =>
    (t.c.localNs : Int) = s.c.localNs - offset ∧ t.c.nat clock_status = 2) ∧
  (∀ s offset delay, s.c.awake → s.c.nat ptp_port_state = 9 → s.c.nat clock_status ≠ 0 → s.c.clock.ptp.accept = false → s.c.nat
    step_limit < offset.natAbs → s.c.nat steps_refused < 2 ^ 32 - 1 →
    completes (.ptpSync offset delay) s [.clock] [offset_from_master, mean_path_delay, clock_status, steps_refused] fun t =>
    t.c.nat clock_status = 5 ∧ t.c.nat steps_refused = s.c.nat steps_refused + 1 ∧ t.c.localNs = s.c.localNs)

/-- R239, R240, R243, R293, R320: further cases of the loop, the replays and the cameras. -/
def Obligations.FurtherImageCases : Prop :=
  (∀ s x g cal rest, s.c.loop.requests = .register x g cal :: rest → x.kind = kindTrim → x.target < 32 → s.c.generation x.target = g →
    s.c.loop.outbox = [] →
    completes .loopActionEntry s [.loop] [tap_trim x.target] fun t =>
    t.c.loop.requests = rest ∧ t.c.int (tap_trim x.target) = x.new ∧ t.c.generation x.target = g + 1) ∧
  (∀ s x g cal rest, s.c.loop.requests = .register x g cal :: rest → x.kind = kindOffset → x.target < 8 → s.c.generation (32 + x.target) ≠ g → s.c.nat
    discards < 2 ^ 32 - 1 →
    completes .loopActionEntry s [.loop, .cellar] [discards, loop_head, records_lost] fun t =>
    t.c.loop.requests = rest ∧ t.c.nat discards = s.c.nat discards + 1 ∧ t.c.int (column_offset x.target) = s.c.int (column_offset x.target) ∧
    keptOutside [loopRing s.c] s t) ∧
  (∀ s x concealed, s.c.recorder.replay = some x → x.frames ≤ (s.c.nat dec_head + 32 - s.c.nat dec_tail) % 32 →
    completes (.decodePicture concealed) s [] [decoder_state] fun t => t.c.nat decoder_state = 2) ∧
  (∀ s x concealed, s.c.decodes x → x.pictures = [] → nextStart (memRead s.mach.cellar (x.address + x.done) (x.length - x.done)) 0 = none →
    completes (.decodePicture concealed) s [.units, .power] [decode, decoder_state, iso_committed] fun t =>
    t.c.recorder.replay = none ∧ t.c.nat decoder_state = 0 ∧ t.c.nat decode = cmdWord 2 (s.c.cmdStarter decode) 0) ∧
  (∀ s x q d concealed, s.c.decodes x → x.active = some q → mustOutput q x.pictures → nextOutput x.pictures = some d →
    completes (.decodePicture concealed) s [.units, .cellar, .cellarCtl] [dec_head, decoder_state, mc_state 0, mc_state 1] fun t =>
    t.c.nat dec_head = (s.c.nat dec_head + 1) % 32 ∧ t.c.nat decoder_state = 1 ∧ (t.c.recorder.replay.map fun y => (y.count, y.slot)) = some
    (x.count + 1, (x.slot + 1) % max 1 x.frames) ∧ keptOutside [x.slotRange d.width d.height d.depth] s t) ∧
  (∀ s f k tag p, f.camera = k → camSends s.c f 0xC3 tag 0 p → statusPayloadOk p → 1 ≤ s.c.camState k → s.c.camState k ≤ 3 → s.c.bridgeFault k p ≠ 0 →
    completes (.bridgeStatus f) s [.units, .loop] (bridge_status k :: camObjects k) fun t =>
    t.c.oct (bridge_status k) = p ∧ t.c.camState k = 4 ∧ t.c.nat (lost_reason k) = s.c.bridgeFault k p ∧ (t.c.cam k).packet = none ∧
    (t.c.cam k).outOn = false ∧ (t.c.cam k).exposures = (s.c.cam k).exposures.map fun e => (s.c.cutExposure k e).1) ∧
  (∀ s f k tag p, f.camera = k → camSends s.c f 0xC2 tag 0 p → p.length = 36 → fld p 2 2 = 0 → s.c.cmdBusy (cci_transfer k) → fld p 0 1 = 1 →
    completes (.cciReply f) s [] [cci_transfer k] fun t => t.c.nat (cci_transfer k) = cmdWord 3 (s.c.cmdStarter (cci_transfer k)) St.CCI_NACK) ∧
  (∀ s g k tag aux b, g.camera = k → camSends s.c g 0xC1 tag aux b → aux / 4 % 4096 = 0 → (s.c.cam k).csiSeq = none → (s.c.cam k).packet = none → bit
    aux 15 → bit aux 14 → b.length - aux % 4 < 4 → (∀ e ∈ (s.c.cam k).exposures, e.tag = none) → s.c.nat (packets_bad k) < 2 ^ 32 - 1 →
    completes (.csi g) s [.units] [packets_bad k] fun t => t.c.nat (packets_bad k) = s.c.nat (packets_bad k) + 1 ∧ (t.c.cam k).csiSeq = some tag) ∧
  (∀ s g k v tag aux h b e f, g.camera = k → camSends s.c g 0xC1 tag aux b → aux / 4 = 0x3000 → (s.c.cam k).csiSeq = none → (s.c.cam k).packet = none
    → 4 ≤ b.length → csiHeader (fld b 0 4) = some h → v < 4 → h = h / 256 * 256 + v * 64 + s.c.nat (data_type (4 * k + v)) → h < 2 ^ 24 → (s.c.nat
    (data_type (4 * k + v)) = 0x2A ∨ s.c.nat (data_type (4 * k + v)) = 0x2C) → (s.c.cam k).exposures = [e] → e.tag = none → s.c.openFrame k v = some
    (e, f) → e.frames = [f] → f.packets < s.c.nat (sensor_rows (4 * k + v)) → s.c.slowestRow k v e = none → h / 256 * 8 = s.c.nat
    (tile_width (4 * k + v)) * rawBits (s.c.nat (data_type (4 * k + v))) → b.length = h / 256 + 6 + aux % 4 → csiChecksum (slice b 4 (h / 256)) = fld
    b (4 + h / 256) 2 →
    completes (.csi g) s [.units] [] fun t =>
    (t.c.cam k).exposures = [{ e with frames := [{ f with packets := f.packets + 1, rows := kvSet [] f.rows f.packets (unpackRow
    (s.c.nat (data_type (4 * k + v))) (s.c.nat (tile_width (4 * k + v))) (slice b 4 (h / 256))) }] }])

/-- R37, R40, R43, R46, R47, R50 to R52, R54, R160, R161, R163, R168, R179, R190, R195, R199: further cases of heads, lanes and sessions. -/
def Obligations.FurtherLinkCases : Prop :=
  (∀ s r h arg, h < 256 → recAuth (s.c.oct (capability h)) = false →
    completesCmd r (challenge_usage h) (le 1 arg) 2 (.challengeUsage r h arg) s [.chains] [auth_state h] fun t => t.c.nat (auth_state h) = 4) ∧
  (∀ s m h b, headSends s.c m 0x81 h 0 b → statusOk 0 b → s.c.headState h = 2 → bit (fld b 0 2) 15 → bit (fld b 0 2) 11 = false → bit (fld b 0 2)
    10 = false →
    completes (.status m) s lossParts ([status_flags h, head_temperature h, last_fired h] ++ endObjects h) fun t =>
    t.c.nat (status_flags h) = fld b 0 2 ∧ t.c.headState h = 3 ∧ t.c.nat (out_reason h) = 2) ∧
  (∀ s m h, headSends s.c m 0x85 h 0 [] → (s.c.headMgr h).asked = .config 1 → s.c.backFull h = false →
    completes (.configAck m) s [.chains, .care, .loop, .units] (pending_in h :: pendingObjects) fun t =>
    t.c.on (pending_in h) ∧ (t.c.headMgr h).asked = .nothing ∧ ∀ b ∈ (s.c.chainBar (chainOf h)).toList, (t.c.careBar b).backs = (s.c.careBar b).backs
    ++ [h]) ∧
  (∀ s h, h < 256 → (s.c.headMgr h).asked = .nothing → (s.c.headMgr h).usage = some 1 → (s.c.headMgr h).usageAt + 2000000 ≤ s.c.now →
    completes (.headReplyTimeout h) s [.chains, .units] [auth_state h, challenge_usage h] fun t =>
    t.c.nat (auth_state h) = 5 ∧ t.c.nat (challenge_usage h) = cmdWord 2 (s.c.cmdStarter (challenge_usage h)) 0) ∧
  (∀ s ch, ch < 16 → s.c.chainState ch = 1 → (s.c.mgr ch).stage = 2 → (s.c.mgr ch).discoverAt + 1000000 ≤ s.c.now → s.c.folded ch = false →
    (s.c.mgr ch).replies = [] →
    completes (.tick ch) s [.chains, .units] ([discover_chain ch, heads_found ch, heads_excess ch, chain_state ch, split_after ch] ++ reachObjects ++
    ((headsOfChain ch).map fun h => headObjects h ++ endObjects h).flatten) fun t =>
    t.c.chainState ch = 0 ∧ t.c.nat (heads_found ch) = 0 ∧ t.c.nat (discover_chain ch) = cmdWord 2 (s.c.cmdStarter (discover_chain ch)) 0 ∧
    (t.c.mgr ch).stage = 0 ∧ ∀ h ∈ headsOfChain ch, t.c.headState h = 0) ∧
  (∀ s l q, l < 32 → q < 256 → s.c.aligned l → (∀ j ∈ s.c.lanesWith l, (s.c.lane j).retraining = false) →
    completes (.trainReq l 0xFF q) s [.units] ((s.c.lanesWith l).map downObjects).flatten fun t =>
    ∀ j ∈ s.c.lanesWith l, s.c.rx j = 4 ∨ s.c.rx j = 5 → t.c.rx j = 4 ∧ (t.c.lane j).trained = false) ∧
  (∀ s l target q j, l < 32 → target < 255 → q < 128 → s.c.aligned l → s.c.ownerOf l target = none → (∀ x ∈ s.c.lanesWith l, s.c.ownTarget x ≠ target)
    → s.c.relayLane l = some j →
    completes (.trainReq l target q) s [.units] [] fun t =>
    s.c.tx j = 2 → s.c.quietUntil j ≤ s.c.now → (s.c.lane j).held = [] → Out.link j [.trainReq target q] 1 (s.c.codeNow j) ∈ t.c.out) ∧
  (∀ s l target q, l < 32 → target < 255 → 128 ≤ q → q < 256 → s.c.aligned l → s.c.ownerOf l target = none → l ∈ s.c.lanesWith l →
    completes (.trainReq l target q) s [.units] ((s.c.lanesWith l).map rx_state ++ (s.c.lanesWith l).map lane_down_reason ++ (s.c.lanesWith l).map
    retrain) fun t =>
    target ∈ (t.c.lane l).ready) ∧
  (∀ s l ps, l < 32 → s.c.rx l = 7 → s.c.nat (quad_state (l / 4)) = 2 → s.c.losClear l → (alignWords ps).isSome = true → s.c.nat
    (lane_down_reason l) ≠ 4 →
    completes (.laneRecover l ps) s [.units, .chains] [rx_state l, lane_down_reason l, hop_received l, retrain l] fun t =>
    t.c.rx l = 5 ∧ t.c.nat (lane_down_reason l) = 0 ∧ (t.c.lane l).elastic = 32) ∧
  (∀ s l held k, l < 32 → s.c.aligned l → 0 < held → held < 64 → s.c.camOfLane l = some k →
    completes (.skipReceived l held) s [.units] ((s.c.camLanes k).map skips_deleted ++ (s.c.camLanes k).map skips_inserted) fun t =>
    24 ≤ held → held ≤ 40 → (t.c.lane l).elastic = held) ∧
  (∀ s l held, l < 32 → s.c.aligned l → (held = 0 ∨ 64 ≤ held) → s.c.nat (elastic_overruns l) < 2 ^ 32 - 1 →
    completes (.skipReceived l held) s lossParts (fallObjects s.c l) fun t =>
    t.c.rx l = 7 ∧ t.c.nat (lane_down_reason l) = 5 ∧ t.c.nat (elastic_overruns l) = s.c.nat (elastic_overruns l) + 1) ∧
  (∀ s f, s.c.awake → headerOk 0x01 f → f.payload = [] → f.path < 2 → s.c.rxFull f.path = false → s.c.queuedAt f.path + 1400 ≤ 65536 →
    s.c.discoverPayload.length ≤ 1000 →
    completes (.discover f) s [] [] fun t =>
    t.c.out = .ydp f.path f.peer ⟨0x01, 0, f.seq, 0, St.OK, s.c.discoverPayload⟩ (s.c.datagram f.peer ⟨0x01, 0, f.seq, 0, St.OK, s.c.discoverPayload⟩)
    :: s.c.out) ∧
  (∀ s f b k, admitted s.c 0x06 f (f.payload.length == 16) → s.c.ydp.lockoutEnd = none → s.c.validNonce f.session = some b → s.c.serviceKey = some k →
    f.payload ≠ (hmac k (b ++ le 1 f.session ++ le 4 f.tag)).take 16 → s.c.nat service_failures = 2 →
    completes (.prove f) s [.sessions, .lockout] [service_failures] fun t =>
    replied t 0x06 f St.CHALLENGE_FAILED [] ∧ t.c.nat service_failures = 3 ∧ t.c.ydp.lockoutEnd = some (s.c.now + 60 * 10 ^ 9) ∧ ∀ i ∈ List.range 8,
    (t.c.sess (i + 1)).nonce = none) ∧
  (∀ s f, admitted s.c 0x06 f (f.payload.length == 16) → s.c.ydp.lockoutEnd ≠ none → completes (.prove f) s [] [] fun t =>
    replied t 0x06 f St.LOCKED_OUT []) ∧
  (∀ s r, s.c.nat controlling_session ≠ r.session →
    completesWrite r take_control (le 1 1) St.STARTED (.takeControl r 1) s [] [controlling_session] fun t => t.c.nat controlling_session = r.session) ∧
  (∀ s r, s.c.reaches r take_control (le 1 0) → s.c.nat controlling_session ≠ 0 → s.c.nat controlling_session ≠ r.session →
    completes (.takeControl r 0) s [] [] fun t => answered t r take_control St.CONTROL_HELD) ∧
  (∀ s n x, 1 ≤ n → n ≤ 8 → (s.c.sess n).flight = some x → s.c.on (events_enable n) → x.sentAt + 20 * 10 ^ 6 ≤ s.c.now → 5 ≤ x.resends → s.c.nat
    (events_lost n) + x.records.length < 2 ^ 32 →
    completes (.eventResend n) s [.sessions] [] fun t =>
    (t.c.sess n).flight = none ∧ (t.c.sess n).pendingLost = (s.c.sess n).pendingLost + x.records.length + x.lost ∧ t.c.nat (events_lost n) = s.c.nat
    (events_lost n) + x.records.length) ∧
  (∀ s n x b, s.c.awake → s.c.ydp.evtHead = (s.c.ydp.evtTail + 1) % 16 → s.c.ydp.evtTail < 16 → kvGet [] s.c.ydp.evtRing (s.c.ydp.evtTail % 8) = b →
    fld b 3 1 = 0x22 → fld b 4 1 = n → (s.c.sess n).flight = some x → fld b 16 4 = x.sequence →
    completes (.mbxEvtTailWrite s.c.ydp.evtHead) s [.sessions, .eventRing] [] fun t => t.c.ydp.evtTail = s.c.ydp.evtHead ∧ (t.c.sess n).flight = none) ∧
  (∀ s f k, admitted s.c 0x10 f true → readList f.payload = some [k] → s.c.readCode f.session (s.c.sess f.session) k ≠ St.OK →
    completes (.read f) s [] [] fun t => replied t 0x10 f St.OK ([1, 0, 0, 0] ++ readEntry k (s.c.readCode f.session (s.c.sess f.session) k) [])) ∧
  (∀ s f es, admitted s.c 0x11 f true → writeList f.payload = some es → steady s.c → (∃ e ∈ es, s.c.checkWrite f.session e.1 e.2 ≠ St.OK) →
    completes (.write f) s [] [] fun t =>
    replied t 0x11 f St.OK (writePayload (es.map fun e => (e.1, if s.c.checkWrite f.session e.1 e.2 = St.OK then St.NOT_APPLIED else s.c.checkWrite
    f.session e.1 e.2)))) ∧
  (∀ s f g, admitted s.c 0x14 f (segWriteOk f.flags f.payload) → steady s.c → s.c.ydp.staging = some g → g.owner = f.session → g.writing →
    g.key = segKey f.payload → g.total = segTotal f.payload → g.data.length = segOffset f.payload → 0 < segOffset f.payload → segOffset f.payload +
    fld f.payload 12 2 < segTotal f.payload → segTotal f.payload ≤ 1048576 →
    completes (.segWrite f) s [.staging] [] fun t =>
    replied t 0x14 f St.OK [] ∧ t.c.ydp.staging = some { g with data := g.data ++ segChunk f.payload, lastAt := s.c.now }) ∧
  (∀ s f g, admitted s.c 0x14 f (segWriteOk f.flags f.payload) → steady s.c → s.c.ydp.staging = some g → g.owner = f.session → g.writing →
    g.key = segKey f.payload → g.total = segTotal f.payload → g.data.length = segOffset f.payload → 0 < segOffset f.payload → segOffset f.payload +
    fld f.payload 12 2 = segTotal f.payload → segTotal f.payload ≤ 1048576 → segKey f.payload = session_timeout → s.c.checkWrite f.session
    session_timeout (g.data ++ segChunk f.payload) = St.OK →
    completes (.segWrite f) s [.staging] [session_timeout] fun t =>
    replied t 0x14 f St.OK [] ∧ t.c.ydp.staging = none ∧ t.c.nat session_timeout = fld (g.data ++ segChunk f.payload) 0 4) ∧
  (∀ s f, admitted s.c 0x20 f (subscribeOk f.payload) → fld f.payload 4 2 = 0 → completes (.subscribe f) s [.sessions] [] fun t =>
    replied t 0x20 f St.OK [] ∧ kvGet none (t.c.sess f.session).sets (fld f.payload 0 1) = none)

/-- A step takes the command at the front of the queue and runs it with the queue's rest. -/
def Obligations.StepRunsFrontCommand : Prop := ∀ (s : State) (c : Instr) (rest : List Instr), s.pending = c :: rest → step s = exec c
  { s with pending := rest }

/-- An empty queue lets one cycle of the control clock pass: 4 ns, and nothing else (the model's choice, log entry 1). -/
def Obligations.IdleStepPassesOneCycle : Prop := ∀ s : State, s.pending = [] → step s = .next
  { s with mach := { s.mach with ctl := { s.c with now := s.c.now + 4 } } }

/-- R29, R76, R35: at reset every object holds its default, no session is open, no ticket is outstanding and none was issued, no page waits and nothing is queued; the cellar lists nothing. A default that the tables do not give is the model's (log entry 4). -/
def Obligations.ResetLeavesDefaults : Prop := (∀ k : Nat, State.reset.c.val k = dfltOf k) ∧ State.reset.pending = [] ∧ State.reset.mach.cellar = [] ∧
  (∀ n : Nat, State.reset.c.sess n = Session.closed) ∧ State.reset.c.adm.tickets = [] ∧ State.reset.c.adm.waiting = none ∧ nextNumber
  State.reset.c.adm.lastNumber = 1 ∧ (∀ n : Nat, State.reset.c.isPending n = false ∧ State.reset.c.isActive n = false)

/-- What every step keeps holds at reset: the cellar's canonical form, falling levels on the claim stacks, and a grant that only an open session holds. -/
def Obligations.ResetMeetsInvariants : Prop := cellarCanonical State.reset ∧ claimsDescend State.reset ∧ holderOpen State.reset

/-- The opcode table gives no bits, so no word spells a command, and placing one leaves the state (the model's choice, log entry 5). -/
def Obligations.WordsSpellNoCommand : Prop := ∀ (s : State) (nbits w : Nat), decodeTableWord nbits w = none ∧ s.withFetchWord nbits w = s

/-- Every command answers a next state, and no command touches the queue. -/
def Obligations.EveryCommandCompletes : Prop := ∀ (i : Instr) (s : State), ∃ t, exec i s = .next t ∧ t.pending = s.pending

/-- R337: every step keeps the cellar's canonical form, addresses rising, no byte listed that reads as an unlisted one. -/
def Obligations.StepKeepsCellarCanonical : Prop := ∀ s t : State, cellarCanonical s → step s = .next t → cellarCanonical t

/-- R379, R381: every step keeps the levels of each claim stack falling from its top, so no stack passes 16 entries. -/
def Obligations.StepKeepsClaimStacks : Prop := ∀ s t : State, claimsDescend s → step s = .next t → claimsDescend t ∧ ∀ x ∈ List.range 3,
  (t.c.stack x).length ≤ 16

/-- R39 to R42: every step keeps the control grant with an open session or with none. -/
def Obligations.StepKeepsGrant : Prop := ∀ s t : State, holderOpen s → step s = .next t → holderOpen t

/-- R420, R466: no command, no reset and no sleep clears a hard-latched source; only the booth starting from zero does. -/
def Obligations.HardLatchesStay : Prop := ∀ (i : Instr) (s t : State) (f : Nat), f < 192 → hardLatched f = true → boothStarts i = false →
  s.c.isLatched f = true → exec i s = .next t → t.c.isLatched f = true

/-- Every command outside the list of those that may store leaves every byte of the cellar. -/
def Obligations.OthersLeaveTheCellar : Prop := ∀ (i : Instr) (s t : State), mayStore i = false → exec i s = .next t → t.mach.cellar = s.mach.cellar

/-- R379: the delivered source of a target is the deliverable one of highest level, and of lowest number among equals; a claim raises the level at the top of the stack, which never needs more than 16 entries. -/
def Obligations.DeliveredSource : Prop := (∀ (s : State) (t n : Nat), t < 3 → (s.c.delivered t = some n ↔ s.c.deliverable t n = true ∧ ∀ m,
  s.c.deliverable t m = true → cfgLevel (s.c.bellCfg m) < cfgLevel (s.c.bellCfg n) ∨ (cfgLevel (s.c.bellCfg m) = cfgLevel (s.c.bellCfg n) ∧ n ≤ m))) ∧
  (∀ (s : State) (t n : Nat), t < 3 → (s.c.deliverable t n = true ↔ s.c.isPending n = true ∧ cfgEnable (s.c.bellCfg n) = true ∧ cfgTarget
  (s.c.bellCfg n) = t ∧ (s.c.stack t = [] ∨ ∃ e r, s.c.stack t = e :: r ∧ e.2 < cfgLevel (s.c.bellCfg n)))) ∧ (∀ (s : State) (target n : Nat),
  claimsDescend s → target < 3 → s.c.awake = true → s.c.delivered target = some n → becomes (.claim .bar0 target) s fun t => claimsDescend t ∧
  t.c.stack target = (n, cfgLevel (s.c.bellCfg n)) :: s.c.stack target ∧ (t.c.stack target).length ≤ 16)

/-- R384: clear_pending of a source not routed to EVENT is refused BELL_NOT_EVENT, 0x02D1, and a one written to such a bit of PENDING is ignored. -/
def Obligations.OnlyEventSourcesClear : Prop :=
  (∀ s r arg, s.c.reaches r clear_pending (le 2 arg) → cfgTarget (s.c.bellCfg arg) ≠ 3 → completes (.clearPending r arg) s [] [] fun t =>
    answered t r clear_pending 0x02D1 ∧ (s.c.isPending arg = true → t.c.isPending arg = true)) ∧
  (∀ s word value, word < 32 → s.c.awake → completes (.pendingW1c word value) s [] [] fun t =>
    ∀ i ∈ List.range 32, cfgTarget (s.c.bellCfg (32 * word + i)) ≠ 3 → t.c.isPending (32 * word + i) = s.c.isPending (32 * word + i))

/-- R440: the CRC of a slot is that of a 16-bit shift register of polynomial 0x1021 from 0xFFFF over the bits, most significant first, not reflected, nothing added at the end; of "123456789" it is 0x29B1; a command slot ends in that of its first 48 bits, and a reply that does not is discarded and counted. -/
def Obligations.SlotCrcIsOfItsBits : Prop := (∀ b : List Byte, crc16 b = ((b.map msbFirst).flatten).foldl crcShift 0xFFFF) ∧ (crc16 [0x31, 0x32, 0x33,
  0x34, 0x35, 0x36, 0x37, 0x38, 0x39] = 0x29B1) ∧ (∀ (c : Ctl) (a seq : Nat), (c.commandSlot a seq).length = 8 ∧ (c.commandSlot a seq).drop 6 = be 2
  (crc16 ((c.commandSlot a seq).take 6))) ∧ (∀ (s : State) (axis reply : Nat), axis < 8 → crc16 ((be 8 reply).take 6) ≠ beVal ((be 8 reply).drop 6) →
  s.c.nat (bus_errors axis) < 2 ^ 32 - 1 → completes (.axisReply axis reply) s [.axes] [bus_errors axis] fun t => t.c.nat (bus_errors axis) = s.c.nat
  (bus_errors axis) + 1)

/-- R33, R42 to R44: the checks of a whole frame. A WRITE over the mailbox that comes asleep, malformed, of no open session, or out of sequence is
answered with a header that says so, one that repeats the last is answered as before, and none of them changes anything else. -/
def Obligations.FrameChecksAnswer : Prop :=
  (∀ s f, s.c.phase = .asleep → f.path = 2 → steady s.c → completes (.write f) s [] [] fun t =>
    t.c.ydp.sessions = s.c.ydp.sessions ∧ t.c.ydp.mbxResponse = Sent.bytes ⟨0x11, f.session, f.seq, f.tag, 0x0117, []⟩) ∧
  (∀ s f, s.c.awake → f.path = 2 → steady s.c → (headerOk 0x11 f = false ∨ writeList f.payload = none) → completes (.write f) s [] [] fun t =>
    t.c.ydp.mbxResponse = Sent.bytes ⟨0x11, f.session, f.seq, f.tag, 0x0116, []⟩) ∧
  (∀ s f es, s.c.awake → f.path = 2 → steady s.c → headerOk 0x11 f → writeList f.payload = some es → s.c.knows f.session f.tag = false →
    completes (.write f) s [] [] fun t => t.c.ydp.mbxResponse = Sent.bytes ⟨0x11, f.session, f.seq, f.tag, 0x0110, []⟩) ∧
  (∀ s f es x, s.c.awake → f.path = 2 → steady s.c → headerOk 0x11 f → writeList f.payload = some es → s.c.knows f.session f.tag →
    (s.c.sess f.session).stored = some x → f.seq = (s.c.sess f.session).lastSeq →
    completes (.write f) s [] [] fun t =>
    t.c.ydp.mbxResponse = Sent.bytes x ∧ (t.c.sess f.session).stored = some x ∧ (t.c.sess f.session).lastSeq = f.seq ∧
    (t.c.sess f.session).heardAt = s.c.now) ∧
  (∀ s f es, s.c.awake → f.path = 2 → steady s.c → headerOk 0x11 f → writeList f.payload = some es → s.c.knows f.session f.tag →
    ((s.c.sess f.session).stored = none ∨ f.seq ≠ (s.c.sess f.session).lastSeq) → f.seq ≠ ((s.c.sess f.session).lastSeq + 1) % 65536 →
    completes (.write f) s [] [] fun t =>
    t.c.ydp.mbxResponse = Sent.bytes ⟨0x11, f.session, f.seq, f.tag, 0x0111, []⟩ ∧ (t.c.sess f.session).lastSeq = (s.c.sess f.session).lastSeq)
end

