-- ==== Sys2Proof/Laws/Store.lean ====
section
/-! SUPPORT. Sparse stores and the cellar's bytes: read after write, and the canonical form kept. -/

namespace Sys2Proof.Laws

open Sys2Proof.Machine

variable {α : Type}

/-! ### Reading -/

@[simp] theorem kvGet_nil (d : α) (x : Nat) : kvGet d [] x = d := rfl

theorem kvGet_cons (d : α) (k : Nat) (v : α) (r : Kv α) (x : Nat) :
    kvGet d ((k, v) :: r) x = if k = x then v else kvGet d r x := rfl

theorem kvGet_drop_same (d : α) (m : Kv α) (x : Nat) : kvGet d (kvDrop m x) x = d := by
  induction m with
  | nil => rfl
  | cons e r ih =>
    obtain ⟨k, v⟩ := e
    by_cases h : k = x
    · simp [kvDrop, h, ih]
    · simp [kvDrop, h, kvGet_cons, ih]

theorem kvGet_drop_other (d : α) (m : Kv α) {x y : Nat} (h : x ≠ y) : kvGet d (kvDrop m x) y = kvGet d m y := by
  induction m with
  | nil => rfl
  | cons e r ih =>
    obtain ⟨k, v⟩ := e
    by_cases hk : k = x
    · subst hk; simp [kvDrop, kvGet_cons, h, ih]
    · simp [kvDrop, hk, kvGet_cons, ih]

theorem kvGet_ins_same (d : α) (m : Kv α) (x : Nat) (w : α) : kvGet d (kvIns (kvDrop m x) x w) x = w := by
  induction m with
  | nil => simp [kvDrop, kvIns, kvGet_cons]
  | cons e r ih =>
    obtain ⟨k, v⟩ := e
    by_cases hk : k = x
    · simp [kvDrop, hk, ih]
    · simp only [kvDrop, hk, if_false, kvIns]
      split <;> simp [kvGet_cons, hk, ih]

theorem kvGet_ins_other (d : α) (m : Kv α) {x y : Nat} (w : α) (h : x ≠ y) : kvGet d (kvIns m x w) y = kvGet d m y := by
  induction m with
  | nil => simp [kvIns, kvGet_cons, h]
  | cons e r ih =>
    obtain ⟨k, v⟩ := e
    simp only [kvIns]
    split <;> simp [kvGet_cons, h, ih]

/-- A store reads what was set, and elsewhere as before. -/
theorem kvGet_set [DecidableEq α] (d : α) (m : Kv α) (x y : Nat) (w : α) :
    kvGet d (kvSet d m x w) y = if x = y then w else kvGet d m y := by
  unfold kvSet
  by_cases hw : w = d
  · by_cases h : x = y
    · subst h; simp [hw, kvGet_drop_same]
    · simp [hw, h, kvGet_drop_other d m h]
  · by_cases h : x = y
    · subst h; simp [hw, kvGet_ins_same]
    · simp [hw, h, kvGet_ins_other d _ w h, kvGet_drop_other d m h]

@[simp] theorem kvGet_set_same [DecidableEq α] (d : α) (m : Kv α) (x : Nat) (w : α) : kvGet d (kvSet d m x w) x = w := by
  simp [kvGet_set]

/-- A key not set reads as before, under any reading of unlisted keys. -/
theorem kvGet_set_other [DecidableEq α] (d e : α) (m : Kv α) {x y : Nat} (w : α) (h : x ≠ y) :
    kvGet d (kvSet e m x w) y = kvGet d m y := by
  unfold kvSet
  split
  · exact kvGet_drop_other d m h
  · rw [kvGet_ins_other d _ w h, kvGet_drop_other d m h]

theorem kvGet_append (d : α) (p q : Kv α) (x : Nat) :
    kvGet d (p ++ q) x = if p.any (fun e => e.1 == x) then kvGet d p x else kvGet d q x := by
  induction p with
  | nil => simp
  | cons e r ih =>
    obtain ⟨k, v⟩ := e
    by_cases h : k = x
    · simp [kvGet_cons, h]
    · simp only [List.cons_append, kvGet_cons, h, if_false, ih, List.any_cons, Bool.or_eq_true, beq_iff_eq, false_or]

theorem kvGet_absent (d : α) (m : Kv α) (x : Nat) (h : ∀ e ∈ m, e.1 ≠ x) : kvGet d m x = d := by
  induction m with
  | nil => rfl
  | cons e r ih =>
    obtain ⟨k, v⟩ := e
    have hk : k ≠ x := h _ (List.mem_cons_self ..)
    simp [kvGet_cons, hk, ih (fun e he => h e (List.mem_cons_of_mem _ he))]

theorem kvGet_filter (d : α) (m : Kv α) (p : Nat → Bool) (x : Nat) :
    kvGet d (m.filter fun e => p e.1) x = if p x then kvGet d m x else d := by
  induction m with
  | nil => simp
  | cons e r ih =>
    obtain ⟨k, v⟩ := e
    by_cases hp : p k = true
    · rw [List.filter_cons_of_pos (by simpa using hp)]
      by_cases h : k = x
      · subst h; simp [kvGet_cons, hp]
      · simp [kvGet_cons, h, ih]
    · rw [List.filter_cons_of_neg (by simpa using hp), ih]
      by_cases h : k = x
      · subst h; simp [hp]
      · simp [kvGet_cons, h]

/-! ### The canonical form -/

theorem kvWf_nil (d : α) : kvWf d ([] : Kv α) := ⟨List.Pairwise.nil, by simp⟩

theorem kvWf_sublist {d : α} {m n : Kv α} (h : kvWf d m) (s : n.Sublist m) : kvWf d n :=
  ⟨h.1.sublist s, fun e he => h.2 e (s.mem he)⟩

theorem kvWf_filter {d : α} {m : Kv α} (h : kvWf d m) (p : Nat × α → Bool) : kvWf d (m.filter p) :=
  kvWf_sublist h (List.filter_sublist ..)

theorem kvDrop_eq (m : Kv α) (x : Nat) : kvDrop m x = m.filter fun e => e.1 != x := by
  induction m with
  | nil => rfl
  | cons e r ih =>
    obtain ⟨k, v⟩ := e
    by_cases h : k = x <;> simp [kvDrop, h, ih]

theorem kvIns_mem {m : Kv α} {x : Nat} {w : α} {e : Nat × α} (h : e ∈ kvIns m x w) : e = (x, w) ∨ e ∈ m := by
  induction m with
  | nil => simpa [kvIns] using h
  | cons a r ih =>
    obtain ⟨k, v⟩ := a
    simp only [kvIns] at h
    split at h
    · simpa using h
    · rcases List.mem_cons.1 h with rfl | h
      · simp
      · rcases ih h with rfl | h <;> simp_all

theorem kvIns_wf {d : α} {m : Kv α} {x : Nat} {w : α} (h : kvWf d m) (hx : ∀ e ∈ m, e.1 ≠ x) (hw : w ≠ d) :
    kvWf d (kvIns m x w) := by
  refine ⟨?_, fun e he => ?_⟩
  · induction m with
    | nil => simp [kvIns]
    | cons a r ih =>
      obtain ⟨k, v⟩ := a
      have hp := List.pairwise_cons.1 h.1
      simp only [kvIns]
      split
      · rename_i hlt
        refine List.pairwise_cons.2 ⟨fun e he => ?_, h.1⟩
        rcases List.mem_cons.1 he with rfl | he
        · exact hlt
        · have := hp.1 e he; simp at this ⊢; omega
      · rename_i hlt
        have hk : k ≠ x := hx _ (List.mem_cons_self ..)
        refine List.pairwise_cons.2 ⟨fun e he => ?_, ih ⟨hp.2, fun e he => h.2 e (List.mem_cons_of_mem _ he)⟩
          (fun e he => hx e (List.mem_cons_of_mem _ he))⟩
        rcases kvIns_mem he with rfl | he
        · simp; omega
        · exact hp.1 e he
  · rcases kvIns_mem he with rfl | he
    · exact hw
    · exact h.2 e he

/-- Setting a key keeps a store canonical. -/
theorem kvSet_wf [DecidableEq α] {d : α} {m : Kv α} (h : kvWf d m) (x : Nat) (w : α) : kvWf d (kvSet d m x w) := by
  have hd : kvWf d (kvDrop m x) := by rw [kvDrop_eq]; exact kvWf_filter h _
  unfold kvSet
  split
  · exact hd
  · rename_i hw
    refine kvIns_wf hd (fun e he => ?_) hw
    rw [kvDrop_eq] at he
    simpa using (List.mem_filter.1 he).2

/-! ### The cellar's bytes -/

theorem memCells_mem {a : Nat} {b : List Byte} {e : Nat × Byte} (h : e ∈ memCells a b) :
    a ≤ e.1 ∧ e.1 < a + b.length ∧ e.2 ≠ 0 := by
  induction b generalizing a with
  | nil => simp [memCells] at h
  | cons x r ih =>
    simp only [memCells] at h
    split at h
    · have := ih h; simp only [List.length_cons]; exact ⟨by omega, by omega, this.2.2⟩
    · rename_i hx
      rcases List.mem_cons.1 h with rfl | h
      · simp only [List.length_cons]; exact ⟨Nat.le_refl _, by omega, hx⟩
      · have := ih h; simp only [List.length_cons]; refine ⟨?_, ?_, this.2.2⟩ <;> omega

theorem memCells_wf (a : Nat) (b : List Byte) : kvWf (0 : Byte) (memCells a b) := by
  refine ⟨?_, fun e he => (memCells_mem he).2.2⟩
  induction b generalizing a with
  | nil => exact List.Pairwise.nil
  | cons x r ih =>
    simp only [memCells]
    split
    · exact ih _
    · exact List.pairwise_cons.2 ⟨fun e he => by have := (memCells_mem he).1; simp; omega, ih _⟩

theorem memCells_get (a : Nat) (b : List Byte) (x : Nat) :
    kvGet 0 (memCells a b) x = if a ≤ x then b.getD (x - a) 0 else 0 := by
  induction b generalizing a with
  | nil => simp [memCells]
  | cons v r ih =>
    by_cases h : x = a
    · subst h
      simp only [memCells]
      split
      · rename_i hv
        rw [ih, if_neg (by omega), if_pos (Nat.le_refl _), Nat.sub_self]
        exact hv.symm
      · simp [kvGet_cons]
    · have key : kvGet 0 (memCells a (v :: r)) x = kvGet 0 (memCells (a + 1) r) x := by
        simp only [memCells]
        split
        · rfl
        · simp [kvGet_cons, Ne.symm h]
      rw [key, ih]
      by_cases hx : a ≤ x
      · have h1 : a + 1 ≤ x := by omega
        have h2 : x - a = (x - (a + 1)) + 1 := by omega
        simp [hx, h1, h2]
      · have h1 : ¬ a + 1 ≤ x := by omega
        simp [hx, h1]

theorem kvGet_memCells_outside (a : Nat) (b : List Byte) (x : Nat) (h : x < a ∨ a + b.length ≤ x) :
    kvGet 0 (memCells a b) x = 0 := by
  rw [memCells_get]
  split
  · have : b.length ≤ x - a := by omega
    simp [List.getD_eq_getElem?_getD, List.getElem?_eq_none this]
  · rfl

/-- A write to the cellar is read back byte for byte, and every other byte reads as before. -/
theorem memGet_memWrite (m : Kv Byte) (a : Nat) (b : List Byte) (x : Nat) :
    memGet (memWrite m a b) x = if a ≤ x ∧ x < a + b.length then b.getD (x - a) 0 else memGet m x := by
  have hl : kvGet 0 (m.filter fun e => decide (e.1 < a)) x = if x < a then kvGet 0 m x else 0 := by
    simpa using kvGet_filter 0 m (fun k => decide (k < a)) x
  have hr : kvGet 0 (m.filter fun e => decide (a + b.length ≤ e.1)) x = if a + b.length ≤ x then kvGet 0 m x else 0 := by
    simpa using kvGet_filter 0 m (fun k => decide (a + b.length ≤ k)) x
  unfold memGet memWrite
  simp only [kvGet_append, List.any_append]
  by_cases h1 : x < a
  · have hc : (memCells a b).any (fun e => e.1 == x) = false := by
      simp only [List.any_eq_false, beq_iff_eq]
      intro e he h; have := memCells_mem he; omega
    have h2 : ¬ (a ≤ x ∧ x < a + b.length) := by omega
    have h3 : ¬ a + b.length ≤ x := by omega
    simp only [hc, Bool.or_false, hl, hr, h1, h2, h3, if_true, if_false]
    split
    · rfl
    · rename_i hn
      have := kvGet_absent (0 : Byte) (m.filter fun e => decide (e.1 < a)) x (by
        intro e he h; exact hn (List.any_eq_true.2 ⟨e, he, by simpa using h⟩))
      rw [hl] at this; simpa [h1] using this.symm
  · have hf : (m.filter fun e => decide (e.1 < a)).any (fun e => e.1 == x) = false := by
      simp only [List.any_eq_false, beq_iff_eq]
      intro e he h; have := (List.mem_filter.1 he).2; simp at this; omega
    simp only [hf, Bool.false_or]
    by_cases h2 : x < a + b.length
    · have h3 : ¬ a + b.length ≤ x := by omega
      have h4 : a ≤ x ∧ x < a + b.length := by omega
      simp only [hr, h3, h4, if_false, if_true, and_self]
      split
      · rw [memCells_get]; simp [h4.1]
      · rename_i hn
        have := kvGet_absent (0 : Byte) (memCells a b) x (by
          intro e he h; exact hn (List.any_eq_true.2 ⟨e, he, by simpa using h⟩))
        rw [memCells_get] at this; simpa [h4.1] using this.symm
    · have hc : (memCells a b).any (fun e => e.1 == x) = false := by
        simp only [List.any_eq_false, beq_iff_eq]
        intro e he h; have := memCells_mem he; omega
      have h4 : ¬ (a ≤ x ∧ x < a + b.length) := by omega
      have h5 : a + b.length ≤ x := by omega
      simp only [hc, h4, hr, h5, if_true, if_false, Bool.false_eq_true]

/-- A wiped range reads 0, and every other byte as before. -/
theorem memGet_memWipe (m : Kv Byte) (a n x : Nat) :
    memGet (memWipe m a n) x = if a ≤ x ∧ x < a + n then 0 else memGet m x := by
  have := kvGet_filter (0 : Byte) m (fun k => decide (k < a ∨ a + n ≤ k)) x
  unfold memGet memWipe
  rw [this]
  by_cases h : a ≤ x ∧ x < a + n
  · have h2 : ¬ (x < a ∨ a + n ≤ x) := by omega
    simp only [h, h2, decide_false, and_self, if_true]; rfl
  · have h2 : x < a ∨ a + n ≤ x := by omega
    simp only [h, h2, decide_true, if_true, if_false]

/-- A write keeps the cellar's canonical form. -/
theorem memWrite_wf {m : Kv Byte} (h : kvWf (0 : Byte) m) (a : Nat) (b : List Byte) : kvWf (0 : Byte) (memWrite m a b) := by
  unfold memWrite
  have hl := kvWf_filter h (fun e => decide (e.1 < a))
  have hr := kvWf_filter h (fun e => decide (a + b.length ≤ e.1))
  have hc := memCells_wf a b
  refine ⟨List.pairwise_append.2 ⟨List.pairwise_append.2 ⟨hl.1, hc.1, ?_⟩, hr.1, ?_⟩, ?_⟩
  · intro e he f hf
    have h1 := (List.mem_filter.1 he).2
    have h2 := memCells_mem hf
    simp at h1; omega
  · intro e he f hf
    have h2 := (List.mem_filter.1 hf).2
    simp at h2
    rcases List.mem_append.1 he with he | he
    · have h1 := (List.mem_filter.1 he).2; simp at h1; omega
    · have h1 := memCells_mem he; omega
  · intro e he
    rcases List.mem_append.1 he with he | he
    · rcases List.mem_append.1 he with he | he
      · exact hl.2 e he
      · exact hc.2 e he
    · exact hr.2 e he

/-- A wipe keeps the cellar's canonical form. -/
theorem memWipe_wf {m : Kv Byte} (h : kvWf (0 : Byte) m) (a n : Nat) : kvWf (0 : Byte) (memWipe m a n) := kvWf_filter h _

theorem memWalk_get {m : Kv Byte} (h : m.Pairwise (fun a b => a.1 < b.1)) (a n : Nat) (hb : ∀ e ∈ m, a ≤ e.1) :
    memWalk m a n = (List.range n).map fun i => memGet m (a + i) := by
  induction n generalizing m a with
  | zero => cases m <;> rfl
  | succ n ih =>
    rw [List.range_succ_eq_map, List.map_cons, List.map_map]
    match m, h, hb with
    | [], h, _ =>
      simp only [memWalk]
      rw [ih List.Pairwise.nil (a + 1) (by simp)]
      rfl
    | (k, v) :: r, h, hb =>
      have hp := List.pairwise_cons.1 h
      have hk : a ≤ k := hb _ (List.mem_cons_self ..)
      simp only [memWalk]
      split
      · rename_i he
        subst he
        rw [ih hp.2 (k + 1) (fun e he => by have := hp.1 e he; simp at this; omega)]
        simp only [memGet, kvGet_cons, Nat.add_zero, if_true, List.cons.injEq, true_and]
        refine List.map_congr_left fun i _ => ?_
        have h1 : ¬ k = k + (i + 1) := by omega
        have h2 : k + 1 + i = k + (i + 1) := by omega
        simp [Function.comp, h2]
      · rename_i he
        rw [ih h (a + 1) (fun e he' => by
          rcases List.mem_cons.1 he' with rfl | he'
          · simp; omega
          · have := hp.1 e he'; simp at this; omega)]
        have h0 : memGet ((k, v) :: r) (a + 0) = 0 := by
          unfold memGet
          refine kvGet_absent _ _ _ fun e he' => ?_
          rcases List.mem_cons.1 he' with rfl | he'
          · simpa using he
          · have := hp.1 e he'; simp at this; omega
        rw [h0]
        simp only [List.cons.injEq, true_and]
        refine List.map_congr_left fun i _ => ?_
        have h2 : a + 1 + i = a + (i + 1) := by omega
        simp [Function.comp, h2]

/-- Bytes read from a canonical cellar are those `memGet` reads one by one. -/
theorem memRead_get {m : Kv Byte} (h : kvWf (0 : Byte) m) (a n : Nat) :
    memRead m a n = (List.range n).map fun i => memGet m (a + i) := by
  unfold memRead
  rw [memWalk_get (kvWf_filter h _).1 a n (fun e he => by have := (List.mem_filter.1 he).2; simp at this; omega)]
  refine List.map_congr_left fun i hi => ?_
  have := kvGet_filter (0 : Byte) m (fun k => decide (a ≤ k ∧ k < a + n)) (a + i)
  unfold memGet
  rw [this]
  have hlt := List.mem_range.1 hi
  simp [hlt]

@[simp] theorem memRead_length (m : Kv Byte) (a n : Nat) : (memRead m a n).length = n := by
  unfold memRead
  generalize (m.filter fun e => decide (a ≤ e.1 ∧ e.1 < a + n)) = w
  induction n generalizing a w with
  | zero => cases w <;> rfl
  | succ n ih =>
    cases w with
    | nil => simp [memWalk, ih]
    | cons e r =>
      obtain ⟨k, v⟩ := e
      simp only [memWalk]
      split <;> simp [ih]

end Sys2Proof.Laws
end

