-- ==== Sys2Proof/Laws/State.lean ====
section
/-! SUPPORT. One lemma per field per update of the state, and the dictionary's reads after its writes. -/

namespace Sys2Proof.Machine

/-! ### State and machine -/

@[simp] theorem State.popped_pending (s : State) (q : List Instr) : (s.popped q).pending = q := rfl
@[simp] theorem State.popped_mach (s : State) (q : List Instr) : (s.popped q).mach = s.mach := rfl
@[simp] theorem State.idle_pending (s : State) : s.idle.pending = s.pending := rfl
@[simp] theorem State.idle_cellar (s : State) : s.idle.mach.cellar = s.mach.cellar := rfl
@[simp] theorem State.idle_ctl (s : State) : s.idle.mach.ctl = s.mach.ctl.idleCycle := rfl
@[simp] theorem Mach.onCtl_ctl (m : Mach) (f : Ctl → Ctl) : (m.onCtl f).ctl = f m.ctl := rfl
@[simp] theorem Mach.onCtl_cellar (m : Mach) (f : Ctl → Ctl) : (m.onCtl f).cellar = m.cellar := rfl

/-! ### Every put is a `put` -/

@[simp] theorem Ctl.putN_put (c : Ctl) (k n : Nat) : c.putN k n = c.put k (.num n) := rfl
@[simp] theorem Ctl.putI_put (c : Ctl) (k : Nat) (n : Int) : c.putI k n = c.put k (.num n) := rfl
@[simp] theorem Ctl.putB_put (c : Ctl) (k : Nat) (b : Bool) : c.putB k b = c.put k (.num (if b then 1 else 0)) := rfl
@[simp] theorem Ctl.putO_put (c : Ctl) (k : Nat) (b : List Byte) : c.putO k b = c.put k (.oct b) := rfl

/-! ### Objects after a put -/

/-- The number a value holds. -/
def Val.int : Val → Int
  | .num n => n
  | .oct _ => 0

/-- The bytes a value holds. -/
def Val.octets : Val → List Byte
  | .num _ => []
  | .oct b => b

@[simp] theorem Val.int_num (n : Int) : (Val.num n).int = n := rfl
@[simp] theorem Val.int_oct (b : List Byte) : (Val.oct b).int = 0 := rfl
@[simp] theorem Val.octets_oct (b : List Byte) : (Val.oct b).octets = b := rfl
@[simp] theorem Val.octets_num (n : Int) : (Val.num n).octets = [] := rfl

/-- Numbers, booleans and octets of the dictionary are read from `val`. -/
theorem Ctl.int_val (c : Ctl) (k : Nat) : c.int k = (c.val k).int := by unfold Ctl.int; cases c.val k <;> rfl
theorem Ctl.nat_val (c : Ctl) (k : Nat) : c.nat k = (c.val k).int.toNat := by unfold Ctl.nat; rw [Ctl.int_val]
theorem Ctl.on_val (c : Ctl) (k : Nat) : c.on k = ((c.val k).int != 0) := by unfold Ctl.on; rw [Ctl.int_val]
theorem Ctl.oct_val (c : Ctl) (k : Nat) : c.oct k = (c.val k).octets := by unfold Ctl.oct; cases c.val k <;> rfl

theorem Ctl.val_put (c : Ctl) (k j : Nat) (v : Val) : (c.put k v).val j = if k = j then v else c.val j := by
  unfold Ctl.val Ctl.put
  by_cases h : k = j
  · subst h; simp
  · simpa [h] using Laws.kvGet_set_other _ _ _ _ h

@[simp] theorem Ctl.val_put_same (c : Ctl) (k : Nat) (v : Val) : (c.put k v).val k = v := by simp [Ctl.val_put]

theorem Ctl.val_put_other (c : Ctl) {k j : Nat} (v : Val) (h : k ≠ j) : (c.put k v).val j = c.val j := by
  simp [Ctl.val_put, h]

/-! ### Sessions -/

theorem Ctl.sess_setSess (c : Ctl) (n m : Nat) (v : Session) : (c.setSess n v).sess m = if n = m then v else c.sess m := by
  unfold Ctl.sess Ctl.setSess
  exact Laws.kvGet_set ..

@[simp] theorem Ctl.sess_setSess_same (c : Ctl) (n : Nat) (v : Session) : (c.setSess n v).sess n = v := by
  simp [Ctl.sess_setSess]

/-! ### A component replaced -/

/-- `adm` replaced. -/
def Ctl.setAdm (c : Ctl) (x : Admission) : Ctl := { c with adm := x }
/-- `axs` replaced. -/
def Ctl.setAxs (c : Ctl) (x : Axes) : Ctl := { c with axs := x }
/-- `care` replaced. -/
def Ctl.setCare (c : Ctl) (x : Care) : Ctl := { c with care := x }
/-- `chn` replaced. -/
def Ctl.setChn (c : Ctl) (x : Chains) : Ctl := { c with chn := x }
/-- `page` replaced. -/
def Ctl.setPage (c : Ctl) (x : PageData) : Ctl := { c with page := x }
/-- `keys` replaced. -/
def Ctl.setKeys (c : Ctl) (x : Keys) : Ctl := { c with keys := x }
/-- `attic` replaced. -/
def Ctl.setAttics (c : Ctl) (x : Attic) : Ctl := { c with attic := x }
/-- `units` replaced. -/
def Ctl.setUnits (c : Ctl) (x : Units) : Ctl := { c with units := x }
/-- `host` replaced. -/
def Ctl.setHost (c : Ctl) (x : HostPort) : Ctl := { c with host := x }
/-- `bell` replaced. -/
def Ctl.setBell (c : Ctl) (x : Bell) : Ctl := { c with bell := x }
/-- `ydp` replaced. -/
def Ctl.setYdp (c : Ctl) (x : Ydp) : Ctl := { c with ydp := x }
/-- `phase` replaced. -/
def Ctl.setPhase (c : Ctl) (x : Phase) : Ctl := { c with phase := x }


/-! ### put -/

@[simp] theorem Ctl.put_now (c : Ctl) (k : Nat) (v : Val) : (c.put k v).now = c.now := (rfl)
@[simp] theorem Ctl.put_free (c : Ctl) (k : Nat) (v : Val) : (c.put k v).free = c.free := (rfl)
@[simp] theorem Ctl.put_out (c : Ctl) (k : Nat) (v : Val) : (c.put k v).out = c.out := (rfl)
@[simp] theorem Ctl.put_ydp (c : Ctl) (k : Nat) (v : Val) : (c.put k v).ydp = c.ydp := (rfl)
@[simp] theorem Ctl.put_bell (c : Ctl) (k : Nat) (v : Val) : (c.put k v).bell = c.bell := (rfl)
@[simp] theorem Ctl.put_flt (c : Ctl) (k : Nat) (v : Val) : (c.put k v).flt = c.flt := (rfl)
@[simp] theorem Ctl.put_clock (c : Ctl) (k : Nat) (v : Val) : (c.put k v).clock = c.clock := (rfl)
@[simp] theorem Ctl.put_host (c : Ctl) (k : Nat) (v : Val) : (c.put k v).host = c.host := (rfl)
@[simp] theorem Ctl.put_phase (c : Ctl) (k : Nat) (v : Val) : (c.put k v).phase = c.phase := (rfl)
@[simp] theorem Ctl.put_adm (c : Ctl) (k : Nat) (v : Val) : (c.put k v).adm = c.adm := (rfl)
@[simp] theorem Ctl.put_axs (c : Ctl) (k : Nat) (v : Val) : (c.put k v).axs = c.axs := (rfl)
@[simp] theorem Ctl.put_care (c : Ctl) (k : Nat) (v : Val) : (c.put k v).care = c.care := (rfl)
@[simp] theorem Ctl.put_chn (c : Ctl) (k : Nat) (v : Val) : (c.put k v).chn = c.chn := (rfl)
@[simp] theorem Ctl.put_page (c : Ctl) (k : Nat) (v : Val) : (c.put k v).page = c.page := (rfl)
@[simp] theorem Ctl.put_pos (c : Ctl) (k : Nat) (v : Val) : (c.put k v).pos = c.pos := (rfl)
@[simp] theorem Ctl.put_fire (c : Ctl) (k : Nat) (v : Val) : (c.put k v).fire = c.fire := (rfl)
@[simp] theorem Ctl.put_mem (c : Ctl) (k : Nat) (v : Val) : (c.put k v).mem = c.mem := (rfl)
@[simp] theorem Ctl.put_loop (c : Ctl) (k : Nat) (v : Val) : (c.put k v).loop = c.loop := (rfl)
@[simp] theorem Ctl.put_use (c : Ctl) (k : Nat) (v : Val) : (c.put k v).use = c.use := (rfl)
@[simp] theorem Ctl.put_keys (c : Ctl) (k : Nat) (v : Val) : (c.put k v).keys = c.keys := (rfl)
@[simp] theorem Ctl.put_attic (c : Ctl) (k : Nat) (v : Val) : (c.put k v).attic = c.attic := (rfl)
@[simp] theorem Ctl.put_life (c : Ctl) (k : Nat) (v : Val) : (c.put k v).life = c.life := (rfl)
@[simp] theorem Ctl.put_pwr (c : Ctl) (k : Nat) (v : Val) : (c.put k v).pwr = c.pwr := (rfl)
@[simp] theorem Ctl.put_units (c : Ctl) (k : Nat) (v : Val) : (c.put k v).units = c.units := (rfl)
@[simp] theorem Ctl.put_sess (c : Ctl) (k : Nat) (v : Val) (j : Nat) : (c.put k v).sess j = c.sess j := (rfl)

/-! ### took -/

@[simp] theorem Ctl.took_now (c : Ctl) : (c.took).now = c.now := (rfl)
@[simp] theorem Ctl.took_out (c : Ctl) : (c.took).out = c.out := (rfl)
@[simp] theorem Ctl.took_dict (c : Ctl) : (c.took).dict = c.dict := (rfl)
@[simp] theorem Ctl.took_ydp (c : Ctl) : (c.took).ydp = c.ydp := (rfl)
@[simp] theorem Ctl.took_bell (c : Ctl) : (c.took).bell = c.bell := (rfl)
@[simp] theorem Ctl.took_flt (c : Ctl) : (c.took).flt = c.flt := (rfl)
@[simp] theorem Ctl.took_clock (c : Ctl) : (c.took).clock = c.clock := (rfl)
@[simp] theorem Ctl.took_host (c : Ctl) : (c.took).host = c.host := (rfl)
@[simp] theorem Ctl.took_phase (c : Ctl) : (c.took).phase = c.phase := (rfl)
@[simp] theorem Ctl.took_adm (c : Ctl) : (c.took).adm = c.adm := (rfl)
@[simp] theorem Ctl.took_axs (c : Ctl) : (c.took).axs = c.axs := (rfl)
@[simp] theorem Ctl.took_care (c : Ctl) : (c.took).care = c.care := (rfl)
@[simp] theorem Ctl.took_chn (c : Ctl) : (c.took).chn = c.chn := (rfl)
@[simp] theorem Ctl.took_page (c : Ctl) : (c.took).page = c.page := (rfl)
@[simp] theorem Ctl.took_pos (c : Ctl) : (c.took).pos = c.pos := (rfl)
@[simp] theorem Ctl.took_fire (c : Ctl) : (c.took).fire = c.fire := (rfl)
@[simp] theorem Ctl.took_mem (c : Ctl) : (c.took).mem = c.mem := (rfl)
@[simp] theorem Ctl.took_loop (c : Ctl) : (c.took).loop = c.loop := (rfl)
@[simp] theorem Ctl.took_use (c : Ctl) : (c.took).use = c.use := (rfl)
@[simp] theorem Ctl.took_keys (c : Ctl) : (c.took).keys = c.keys := (rfl)
@[simp] theorem Ctl.took_attic (c : Ctl) : (c.took).attic = c.attic := (rfl)
@[simp] theorem Ctl.took_life (c : Ctl) : (c.took).life = c.life := (rfl)
@[simp] theorem Ctl.took_pwr (c : Ctl) : (c.took).pwr = c.pwr := (rfl)
@[simp] theorem Ctl.took_units (c : Ctl) : (c.took).units = c.units := (rfl)
@[simp] theorem Ctl.took_val_of (c : Ctl) (j : Nat) : (c.took).val j = c.val j := (rfl)
@[simp] theorem Ctl.took_int_of (c : Ctl) (j : Nat) : (c.took).int j = c.int j := (rfl)
@[simp] theorem Ctl.took_nat_of (c : Ctl) (j : Nat) : (c.took).nat j = c.nat j := (rfl)
@[simp] theorem Ctl.took_on_of (c : Ctl) (j : Nat) : (c.took).on j = c.on j := (rfl)
@[simp] theorem Ctl.took_oct_of (c : Ctl) (j : Nat) : (c.took).oct j = c.oct j := (rfl)
@[simp] theorem Ctl.took_sess (c : Ctl) (j : Nat) : (c.took).sess j = c.sess j := (rfl)

/-! ### emit -/

@[simp] theorem Ctl.emit_now (c : Ctl) (o : Out) : (c.emit o).now = c.now := (rfl)
@[simp] theorem Ctl.emit_free (c : Ctl) (o : Out) : (c.emit o).free = c.free := (rfl)
@[simp] theorem Ctl.emit_dict (c : Ctl) (o : Out) : (c.emit o).dict = c.dict := (rfl)
@[simp] theorem Ctl.emit_ydp (c : Ctl) (o : Out) : (c.emit o).ydp = c.ydp := (rfl)
@[simp] theorem Ctl.emit_bell (c : Ctl) (o : Out) : (c.emit o).bell = c.bell := (rfl)
@[simp] theorem Ctl.emit_flt (c : Ctl) (o : Out) : (c.emit o).flt = c.flt := (rfl)
@[simp] theorem Ctl.emit_clock (c : Ctl) (o : Out) : (c.emit o).clock = c.clock := (rfl)
@[simp] theorem Ctl.emit_host (c : Ctl) (o : Out) : (c.emit o).host = c.host := (rfl)
@[simp] theorem Ctl.emit_phase (c : Ctl) (o : Out) : (c.emit o).phase = c.phase := (rfl)
@[simp] theorem Ctl.emit_adm (c : Ctl) (o : Out) : (c.emit o).adm = c.adm := (rfl)
@[simp] theorem Ctl.emit_axs (c : Ctl) (o : Out) : (c.emit o).axs = c.axs := (rfl)
@[simp] theorem Ctl.emit_care (c : Ctl) (o : Out) : (c.emit o).care = c.care := (rfl)
@[simp] theorem Ctl.emit_chn (c : Ctl) (o : Out) : (c.emit o).chn = c.chn := (rfl)
@[simp] theorem Ctl.emit_page (c : Ctl) (o : Out) : (c.emit o).page = c.page := (rfl)
@[simp] theorem Ctl.emit_pos (c : Ctl) (o : Out) : (c.emit o).pos = c.pos := (rfl)
@[simp] theorem Ctl.emit_fire (c : Ctl) (o : Out) : (c.emit o).fire = c.fire := (rfl)
@[simp] theorem Ctl.emit_mem (c : Ctl) (o : Out) : (c.emit o).mem = c.mem := (rfl)
@[simp] theorem Ctl.emit_loop (c : Ctl) (o : Out) : (c.emit o).loop = c.loop := (rfl)
@[simp] theorem Ctl.emit_use (c : Ctl) (o : Out) : (c.emit o).use = c.use := (rfl)
@[simp] theorem Ctl.emit_keys (c : Ctl) (o : Out) : (c.emit o).keys = c.keys := (rfl)
@[simp] theorem Ctl.emit_attic (c : Ctl) (o : Out) : (c.emit o).attic = c.attic := (rfl)
@[simp] theorem Ctl.emit_life (c : Ctl) (o : Out) : (c.emit o).life = c.life := (rfl)
@[simp] theorem Ctl.emit_pwr (c : Ctl) (o : Out) : (c.emit o).pwr = c.pwr := (rfl)
@[simp] theorem Ctl.emit_units (c : Ctl) (o : Out) : (c.emit o).units = c.units := (rfl)
@[simp] theorem Ctl.emit_val_of (c : Ctl) (o : Out) (j : Nat) : (c.emit o).val j = c.val j := (rfl)
@[simp] theorem Ctl.emit_int_of (c : Ctl) (o : Out) (j : Nat) : (c.emit o).int j = c.int j := (rfl)
@[simp] theorem Ctl.emit_nat_of (c : Ctl) (o : Out) (j : Nat) : (c.emit o).nat j = c.nat j := (rfl)
@[simp] theorem Ctl.emit_on_of (c : Ctl) (o : Out) (j : Nat) : (c.emit o).on j = c.on j := (rfl)
@[simp] theorem Ctl.emit_oct_of (c : Ctl) (o : Out) (j : Nat) : (c.emit o).oct j = c.oct j := (rfl)
@[simp] theorem Ctl.emit_sess (c : Ctl) (o : Out) (j : Nat) : (c.emit o).sess j = c.sess j := (rfl)

/-! ### idleCycle -/

@[simp] theorem Ctl.idleCycle_free (c : Ctl) : (c.idleCycle).free = c.free := (rfl)
@[simp] theorem Ctl.idleCycle_out (c : Ctl) : (c.idleCycle).out = c.out := (rfl)
@[simp] theorem Ctl.idleCycle_dict (c : Ctl) : (c.idleCycle).dict = c.dict := (rfl)
@[simp] theorem Ctl.idleCycle_ydp (c : Ctl) : (c.idleCycle).ydp = c.ydp := (rfl)
@[simp] theorem Ctl.idleCycle_bell (c : Ctl) : (c.idleCycle).bell = c.bell := (rfl)
@[simp] theorem Ctl.idleCycle_flt (c : Ctl) : (c.idleCycle).flt = c.flt := (rfl)
@[simp] theorem Ctl.idleCycle_clock (c : Ctl) : (c.idleCycle).clock = c.clock := (rfl)
@[simp] theorem Ctl.idleCycle_host (c : Ctl) : (c.idleCycle).host = c.host := (rfl)
@[simp] theorem Ctl.idleCycle_phase (c : Ctl) : (c.idleCycle).phase = c.phase := (rfl)
@[simp] theorem Ctl.idleCycle_adm (c : Ctl) : (c.idleCycle).adm = c.adm := (rfl)
@[simp] theorem Ctl.idleCycle_axs (c : Ctl) : (c.idleCycle).axs = c.axs := (rfl)
@[simp] theorem Ctl.idleCycle_care (c : Ctl) : (c.idleCycle).care = c.care := (rfl)
@[simp] theorem Ctl.idleCycle_chn (c : Ctl) : (c.idleCycle).chn = c.chn := (rfl)
@[simp] theorem Ctl.idleCycle_page (c : Ctl) : (c.idleCycle).page = c.page := (rfl)
@[simp] theorem Ctl.idleCycle_pos (c : Ctl) : (c.idleCycle).pos = c.pos := (rfl)
@[simp] theorem Ctl.idleCycle_fire (c : Ctl) : (c.idleCycle).fire = c.fire := (rfl)
@[simp] theorem Ctl.idleCycle_mem (c : Ctl) : (c.idleCycle).mem = c.mem := (rfl)
@[simp] theorem Ctl.idleCycle_loop (c : Ctl) : (c.idleCycle).loop = c.loop := (rfl)
@[simp] theorem Ctl.idleCycle_use (c : Ctl) : (c.idleCycle).use = c.use := (rfl)
@[simp] theorem Ctl.idleCycle_keys (c : Ctl) : (c.idleCycle).keys = c.keys := (rfl)
@[simp] theorem Ctl.idleCycle_attic (c : Ctl) : (c.idleCycle).attic = c.attic := (rfl)
@[simp] theorem Ctl.idleCycle_life (c : Ctl) : (c.idleCycle).life = c.life := (rfl)
@[simp] theorem Ctl.idleCycle_pwr (c : Ctl) : (c.idleCycle).pwr = c.pwr := (rfl)
@[simp] theorem Ctl.idleCycle_units (c : Ctl) : (c.idleCycle).units = c.units := (rfl)
@[simp] theorem Ctl.idleCycle_val_of (c : Ctl) (j : Nat) : (c.idleCycle).val j = c.val j := (rfl)
@[simp] theorem Ctl.idleCycle_int_of (c : Ctl) (j : Nat) : (c.idleCycle).int j = c.int j := (rfl)
@[simp] theorem Ctl.idleCycle_nat_of (c : Ctl) (j : Nat) : (c.idleCycle).nat j = c.nat j := (rfl)
@[simp] theorem Ctl.idleCycle_on_of (c : Ctl) (j : Nat) : (c.idleCycle).on j = c.on j := (rfl)
@[simp] theorem Ctl.idleCycle_oct_of (c : Ctl) (j : Nat) : (c.idleCycle).oct j = c.oct j := (rfl)
@[simp] theorem Ctl.idleCycle_sess (c : Ctl) (j : Nat) : (c.idleCycle).sess j = c.sess j := (rfl)

/-! ### setSess -/

@[simp] theorem Ctl.setSess_now (c : Ctl) (n : Nat) (v : Session) : (c.setSess n v).now = c.now := (rfl)
@[simp] theorem Ctl.setSess_free (c : Ctl) (n : Nat) (v : Session) : (c.setSess n v).free = c.free := (rfl)
@[simp] theorem Ctl.setSess_out (c : Ctl) (n : Nat) (v : Session) : (c.setSess n v).out = c.out := (rfl)
@[simp] theorem Ctl.setSess_dict (c : Ctl) (n : Nat) (v : Session) : (c.setSess n v).dict = c.dict := (rfl)
@[simp] theorem Ctl.setSess_bell (c : Ctl) (n : Nat) (v : Session) : (c.setSess n v).bell = c.bell := (rfl)
@[simp] theorem Ctl.setSess_flt (c : Ctl) (n : Nat) (v : Session) : (c.setSess n v).flt = c.flt := (rfl)
@[simp] theorem Ctl.setSess_clock (c : Ctl) (n : Nat) (v : Session) : (c.setSess n v).clock = c.clock := (rfl)
@[simp] theorem Ctl.setSess_host (c : Ctl) (n : Nat) (v : Session) : (c.setSess n v).host = c.host := (rfl)
@[simp] theorem Ctl.setSess_phase (c : Ctl) (n : Nat) (v : Session) : (c.setSess n v).phase = c.phase := (rfl)
@[simp] theorem Ctl.setSess_adm (c : Ctl) (n : Nat) (v : Session) : (c.setSess n v).adm = c.adm := (rfl)
@[simp] theorem Ctl.setSess_axs (c : Ctl) (n : Nat) (v : Session) : (c.setSess n v).axs = c.axs := (rfl)
@[simp] theorem Ctl.setSess_care (c : Ctl) (n : Nat) (v : Session) : (c.setSess n v).care = c.care := (rfl)
@[simp] theorem Ctl.setSess_chn (c : Ctl) (n : Nat) (v : Session) : (c.setSess n v).chn = c.chn := (rfl)
@[simp] theorem Ctl.setSess_page (c : Ctl) (n : Nat) (v : Session) : (c.setSess n v).page = c.page := (rfl)
@[simp] theorem Ctl.setSess_pos (c : Ctl) (n : Nat) (v : Session) : (c.setSess n v).pos = c.pos := (rfl)
@[simp] theorem Ctl.setSess_fire (c : Ctl) (n : Nat) (v : Session) : (c.setSess n v).fire = c.fire := (rfl)
@[simp] theorem Ctl.setSess_mem (c : Ctl) (n : Nat) (v : Session) : (c.setSess n v).mem = c.mem := (rfl)
@[simp] theorem Ctl.setSess_loop (c : Ctl) (n : Nat) (v : Session) : (c.setSess n v).loop = c.loop := (rfl)
@[simp] theorem Ctl.setSess_use (c : Ctl) (n : Nat) (v : Session) : (c.setSess n v).use = c.use := (rfl)
@[simp] theorem Ctl.setSess_keys (c : Ctl) (n : Nat) (v : Session) : (c.setSess n v).keys = c.keys := (rfl)
@[simp] theorem Ctl.setSess_attic (c : Ctl) (n : Nat) (v : Session) : (c.setSess n v).attic = c.attic := (rfl)
@[simp] theorem Ctl.setSess_life (c : Ctl) (n : Nat) (v : Session) : (c.setSess n v).life = c.life := (rfl)
@[simp] theorem Ctl.setSess_pwr (c : Ctl) (n : Nat) (v : Session) : (c.setSess n v).pwr = c.pwr := (rfl)
@[simp] theorem Ctl.setSess_units (c : Ctl) (n : Nat) (v : Session) : (c.setSess n v).units = c.units := (rfl)
@[simp] theorem Ctl.setSess_val_of (c : Ctl) (n : Nat) (v : Session) (j : Nat) : (c.setSess n v).val j = c.val j := (rfl)
@[simp] theorem Ctl.setSess_int_of (c : Ctl) (n : Nat) (v : Session) (j : Nat) : (c.setSess n v).int j = c.int j := (rfl)
@[simp] theorem Ctl.setSess_nat_of (c : Ctl) (n : Nat) (v : Session) (j : Nat) : (c.setSess n v).nat j = c.nat j := (rfl)
@[simp] theorem Ctl.setSess_on_of (c : Ctl) (n : Nat) (v : Session) (j : Nat) : (c.setSess n v).on j = c.on j := (rfl)
@[simp] theorem Ctl.setSess_oct_of (c : Ctl) (n : Nat) (v : Session) (j : Nat) : (c.setSess n v).oct j = c.oct j := (rfl)

/-! ### setNet -/

@[simp] theorem Ctl.setNet_now (c : Ctl) (n : Net) : (c.setNet n).now = c.now := (rfl)
@[simp] theorem Ctl.setNet_free (c : Ctl) (n : Net) : (c.setNet n).free = c.free := (rfl)
@[simp] theorem Ctl.setNet_out (c : Ctl) (n : Net) : (c.setNet n).out = c.out := (rfl)
@[simp] theorem Ctl.setNet_dict (c : Ctl) (n : Net) : (c.setNet n).dict = c.dict := (rfl)
@[simp] theorem Ctl.setNet_bell (c : Ctl) (n : Net) : (c.setNet n).bell = c.bell := (rfl)
@[simp] theorem Ctl.setNet_flt (c : Ctl) (n : Net) : (c.setNet n).flt = c.flt := (rfl)
@[simp] theorem Ctl.setNet_clock (c : Ctl) (n : Net) : (c.setNet n).clock = c.clock := (rfl)
@[simp] theorem Ctl.setNet_host (c : Ctl) (n : Net) : (c.setNet n).host = c.host := (rfl)
@[simp] theorem Ctl.setNet_phase (c : Ctl) (n : Net) : (c.setNet n).phase = c.phase := (rfl)
@[simp] theorem Ctl.setNet_adm (c : Ctl) (n : Net) : (c.setNet n).adm = c.adm := (rfl)
@[simp] theorem Ctl.setNet_axs (c : Ctl) (n : Net) : (c.setNet n).axs = c.axs := (rfl)
@[simp] theorem Ctl.setNet_care (c : Ctl) (n : Net) : (c.setNet n).care = c.care := (rfl)
@[simp] theorem Ctl.setNet_chn (c : Ctl) (n : Net) : (c.setNet n).chn = c.chn := (rfl)
@[simp] theorem Ctl.setNet_page (c : Ctl) (n : Net) : (c.setNet n).page = c.page := (rfl)
@[simp] theorem Ctl.setNet_pos (c : Ctl) (n : Net) : (c.setNet n).pos = c.pos := (rfl)
@[simp] theorem Ctl.setNet_fire (c : Ctl) (n : Net) : (c.setNet n).fire = c.fire := (rfl)
@[simp] theorem Ctl.setNet_mem (c : Ctl) (n : Net) : (c.setNet n).mem = c.mem := (rfl)
@[simp] theorem Ctl.setNet_loop (c : Ctl) (n : Net) : (c.setNet n).loop = c.loop := (rfl)
@[simp] theorem Ctl.setNet_use (c : Ctl) (n : Net) : (c.setNet n).use = c.use := (rfl)
@[simp] theorem Ctl.setNet_keys (c : Ctl) (n : Net) : (c.setNet n).keys = c.keys := (rfl)
@[simp] theorem Ctl.setNet_attic (c : Ctl) (n : Net) : (c.setNet n).attic = c.attic := (rfl)
@[simp] theorem Ctl.setNet_life (c : Ctl) (n : Net) : (c.setNet n).life = c.life := (rfl)
@[simp] theorem Ctl.setNet_pwr (c : Ctl) (n : Net) : (c.setNet n).pwr = c.pwr := (rfl)
@[simp] theorem Ctl.setNet_units (c : Ctl) (n : Net) : (c.setNet n).units = c.units := (rfl)
@[simp] theorem Ctl.setNet_val_of (c : Ctl) (n : Net) (j : Nat) : (c.setNet n).val j = c.val j := (rfl)
@[simp] theorem Ctl.setNet_int_of (c : Ctl) (n : Net) (j : Nat) : (c.setNet n).int j = c.int j := (rfl)
@[simp] theorem Ctl.setNet_nat_of (c : Ctl) (n : Net) (j : Nat) : (c.setNet n).nat j = c.nat j := (rfl)
@[simp] theorem Ctl.setNet_on_of (c : Ctl) (n : Net) (j : Nat) : (c.setNet n).on j = c.on j := (rfl)
@[simp] theorem Ctl.setNet_oct_of (c : Ctl) (n : Net) (j : Nat) : (c.setNet n).oct j = c.oct j := (rfl)

/-! ### setStaging -/

@[simp] theorem Ctl.setStaging_now (c : Ctl) (g : Option Staging) : (c.setStaging g).now = c.now := (rfl)
@[simp] theorem Ctl.setStaging_free (c : Ctl) (g : Option Staging) : (c.setStaging g).free = c.free := (rfl)
@[simp] theorem Ctl.setStaging_out (c : Ctl) (g : Option Staging) : (c.setStaging g).out = c.out := (rfl)
@[simp] theorem Ctl.setStaging_dict (c : Ctl) (g : Option Staging) : (c.setStaging g).dict = c.dict := (rfl)
@[simp] theorem Ctl.setStaging_bell (c : Ctl) (g : Option Staging) : (c.setStaging g).bell = c.bell := (rfl)
@[simp] theorem Ctl.setStaging_flt (c : Ctl) (g : Option Staging) : (c.setStaging g).flt = c.flt := (rfl)
@[simp] theorem Ctl.setStaging_clock (c : Ctl) (g : Option Staging) : (c.setStaging g).clock = c.clock := (rfl)
@[simp] theorem Ctl.setStaging_host (c : Ctl) (g : Option Staging) : (c.setStaging g).host = c.host := (rfl)
@[simp] theorem Ctl.setStaging_phase (c : Ctl) (g : Option Staging) : (c.setStaging g).phase = c.phase := (rfl)
@[simp] theorem Ctl.setStaging_adm (c : Ctl) (g : Option Staging) : (c.setStaging g).adm = c.adm := (rfl)
@[simp] theorem Ctl.setStaging_axs (c : Ctl) (g : Option Staging) : (c.setStaging g).axs = c.axs := (rfl)
@[simp] theorem Ctl.setStaging_care (c : Ctl) (g : Option Staging) : (c.setStaging g).care = c.care := (rfl)
@[simp] theorem Ctl.setStaging_chn (c : Ctl) (g : Option Staging) : (c.setStaging g).chn = c.chn := (rfl)
@[simp] theorem Ctl.setStaging_page (c : Ctl) (g : Option Staging) : (c.setStaging g).page = c.page := (rfl)
@[simp] theorem Ctl.setStaging_pos (c : Ctl) (g : Option Staging) : (c.setStaging g).pos = c.pos := (rfl)
@[simp] theorem Ctl.setStaging_fire (c : Ctl) (g : Option Staging) : (c.setStaging g).fire = c.fire := (rfl)
@[simp] theorem Ctl.setStaging_mem (c : Ctl) (g : Option Staging) : (c.setStaging g).mem = c.mem := (rfl)
@[simp] theorem Ctl.setStaging_loop (c : Ctl) (g : Option Staging) : (c.setStaging g).loop = c.loop := (rfl)
@[simp] theorem Ctl.setStaging_use (c : Ctl) (g : Option Staging) : (c.setStaging g).use = c.use := (rfl)
@[simp] theorem Ctl.setStaging_keys (c : Ctl) (g : Option Staging) : (c.setStaging g).keys = c.keys := (rfl)
@[simp] theorem Ctl.setStaging_attic (c : Ctl) (g : Option Staging) : (c.setStaging g).attic = c.attic := (rfl)
@[simp] theorem Ctl.setStaging_life (c : Ctl) (g : Option Staging) : (c.setStaging g).life = c.life := (rfl)
@[simp] theorem Ctl.setStaging_pwr (c : Ctl) (g : Option Staging) : (c.setStaging g).pwr = c.pwr := (rfl)
@[simp] theorem Ctl.setStaging_units (c : Ctl) (g : Option Staging) : (c.setStaging g).units = c.units := (rfl)
@[simp] theorem Ctl.setStaging_val_of (c : Ctl) (g : Option Staging) (j : Nat) : (c.setStaging g).val j = c.val j := (rfl)
@[simp] theorem Ctl.setStaging_int_of (c : Ctl) (g : Option Staging) (j : Nat) : (c.setStaging g).int j = c.int j := (rfl)
@[simp] theorem Ctl.setStaging_nat_of (c : Ctl) (g : Option Staging) (j : Nat) : (c.setStaging g).nat j = c.nat j := (rfl)
@[simp] theorem Ctl.setStaging_on_of (c : Ctl) (g : Option Staging) (j : Nat) : (c.setStaging g).on j = c.on j := (rfl)
@[simp] theorem Ctl.setStaging_oct_of (c : Ctl) (g : Option Staging) (j : Nat) : (c.setStaging g).oct j = c.oct j := (rfl)

/-! ### clearPend -/

@[simp] theorem Ctl.clearPend_now (c : Ctl) (n : Nat) : (c.clearPend n).now = c.now := (rfl)
@[simp] theorem Ctl.clearPend_free (c : Ctl) (n : Nat) : (c.clearPend n).free = c.free := (rfl)
@[simp] theorem Ctl.clearPend_out (c : Ctl) (n : Nat) : (c.clearPend n).out = c.out := (rfl)
@[simp] theorem Ctl.clearPend_dict (c : Ctl) (n : Nat) : (c.clearPend n).dict = c.dict := (rfl)
@[simp] theorem Ctl.clearPend_ydp (c : Ctl) (n : Nat) : (c.clearPend n).ydp = c.ydp := (rfl)
@[simp] theorem Ctl.clearPend_flt (c : Ctl) (n : Nat) : (c.clearPend n).flt = c.flt := (rfl)
@[simp] theorem Ctl.clearPend_clock (c : Ctl) (n : Nat) : (c.clearPend n).clock = c.clock := (rfl)
@[simp] theorem Ctl.clearPend_host (c : Ctl) (n : Nat) : (c.clearPend n).host = c.host := (rfl)
@[simp] theorem Ctl.clearPend_phase (c : Ctl) (n : Nat) : (c.clearPend n).phase = c.phase := (rfl)
@[simp] theorem Ctl.clearPend_adm (c : Ctl) (n : Nat) : (c.clearPend n).adm = c.adm := (rfl)
@[simp] theorem Ctl.clearPend_axs (c : Ctl) (n : Nat) : (c.clearPend n).axs = c.axs := (rfl)
@[simp] theorem Ctl.clearPend_care (c : Ctl) (n : Nat) : (c.clearPend n).care = c.care := (rfl)
@[simp] theorem Ctl.clearPend_chn (c : Ctl) (n : Nat) : (c.clearPend n).chn = c.chn := (rfl)
@[simp] theorem Ctl.clearPend_page (c : Ctl) (n : Nat) : (c.clearPend n).page = c.page := (rfl)
@[simp] theorem Ctl.clearPend_pos (c : Ctl) (n : Nat) : (c.clearPend n).pos = c.pos := (rfl)
@[simp] theorem Ctl.clearPend_fire (c : Ctl) (n : Nat) : (c.clearPend n).fire = c.fire := (rfl)
@[simp] theorem Ctl.clearPend_mem (c : Ctl) (n : Nat) : (c.clearPend n).mem = c.mem := (rfl)
@[simp] theorem Ctl.clearPend_loop (c : Ctl) (n : Nat) : (c.clearPend n).loop = c.loop := (rfl)
@[simp] theorem Ctl.clearPend_use (c : Ctl) (n : Nat) : (c.clearPend n).use = c.use := (rfl)
@[simp] theorem Ctl.clearPend_keys (c : Ctl) (n : Nat) : (c.clearPend n).keys = c.keys := (rfl)
@[simp] theorem Ctl.clearPend_attic (c : Ctl) (n : Nat) : (c.clearPend n).attic = c.attic := (rfl)
@[simp] theorem Ctl.clearPend_life (c : Ctl) (n : Nat) : (c.clearPend n).life = c.life := (rfl)
@[simp] theorem Ctl.clearPend_pwr (c : Ctl) (n : Nat) : (c.clearPend n).pwr = c.pwr := (rfl)
@[simp] theorem Ctl.clearPend_units (c : Ctl) (n : Nat) : (c.clearPend n).units = c.units := (rfl)
@[simp] theorem Ctl.clearPend_val_of (c : Ctl) (n : Nat) (j : Nat) : (c.clearPend n).val j = c.val j := (rfl)
@[simp] theorem Ctl.clearPend_int_of (c : Ctl) (n : Nat) (j : Nat) : (c.clearPend n).int j = c.int j := (rfl)
@[simp] theorem Ctl.clearPend_nat_of (c : Ctl) (n : Nat) (j : Nat) : (c.clearPend n).nat j = c.nat j := (rfl)
@[simp] theorem Ctl.clearPend_on_of (c : Ctl) (n : Nat) (j : Nat) : (c.clearPend n).on j = c.on j := (rfl)
@[simp] theorem Ctl.clearPend_oct_of (c : Ctl) (n : Nat) (j : Nat) : (c.clearPend n).oct j = c.oct j := (rfl)
@[simp] theorem Ctl.clearPend_sess (c : Ctl) (n : Nat) (j : Nat) : (c.clearPend n).sess j = c.sess j := (rfl)

/-! ### setFlt -/

@[simp] theorem Ctl.setFlt_now (c : Ctl) (x : Faults) : (c.setFlt x).now = c.now := (rfl)
@[simp] theorem Ctl.setFlt_free (c : Ctl) (x : Faults) : (c.setFlt x).free = c.free := (rfl)
@[simp] theorem Ctl.setFlt_out (c : Ctl) (x : Faults) : (c.setFlt x).out = c.out := (rfl)
@[simp] theorem Ctl.setFlt_dict (c : Ctl) (x : Faults) : (c.setFlt x).dict = c.dict := (rfl)
@[simp] theorem Ctl.setFlt_ydp (c : Ctl) (x : Faults) : (c.setFlt x).ydp = c.ydp := (rfl)
@[simp] theorem Ctl.setFlt_bell (c : Ctl) (x : Faults) : (c.setFlt x).bell = c.bell := (rfl)
@[simp] theorem Ctl.setFlt_clock (c : Ctl) (x : Faults) : (c.setFlt x).clock = c.clock := (rfl)
@[simp] theorem Ctl.setFlt_host (c : Ctl) (x : Faults) : (c.setFlt x).host = c.host := (rfl)
@[simp] theorem Ctl.setFlt_phase (c : Ctl) (x : Faults) : (c.setFlt x).phase = c.phase := (rfl)
@[simp] theorem Ctl.setFlt_adm (c : Ctl) (x : Faults) : (c.setFlt x).adm = c.adm := (rfl)
@[simp] theorem Ctl.setFlt_axs (c : Ctl) (x : Faults) : (c.setFlt x).axs = c.axs := (rfl)
@[simp] theorem Ctl.setFlt_care (c : Ctl) (x : Faults) : (c.setFlt x).care = c.care := (rfl)
@[simp] theorem Ctl.setFlt_chn (c : Ctl) (x : Faults) : (c.setFlt x).chn = c.chn := (rfl)
@[simp] theorem Ctl.setFlt_page (c : Ctl) (x : Faults) : (c.setFlt x).page = c.page := (rfl)
@[simp] theorem Ctl.setFlt_pos (c : Ctl) (x : Faults) : (c.setFlt x).pos = c.pos := (rfl)
@[simp] theorem Ctl.setFlt_fire (c : Ctl) (x : Faults) : (c.setFlt x).fire = c.fire := (rfl)
@[simp] theorem Ctl.setFlt_mem (c : Ctl) (x : Faults) : (c.setFlt x).mem = c.mem := (rfl)
@[simp] theorem Ctl.setFlt_loop (c : Ctl) (x : Faults) : (c.setFlt x).loop = c.loop := (rfl)
@[simp] theorem Ctl.setFlt_use (c : Ctl) (x : Faults) : (c.setFlt x).use = c.use := (rfl)
@[simp] theorem Ctl.setFlt_keys (c : Ctl) (x : Faults) : (c.setFlt x).keys = c.keys := (rfl)
@[simp] theorem Ctl.setFlt_attic (c : Ctl) (x : Faults) : (c.setFlt x).attic = c.attic := (rfl)
@[simp] theorem Ctl.setFlt_life (c : Ctl) (x : Faults) : (c.setFlt x).life = c.life := (rfl)
@[simp] theorem Ctl.setFlt_pwr (c : Ctl) (x : Faults) : (c.setFlt x).pwr = c.pwr := (rfl)
@[simp] theorem Ctl.setFlt_units (c : Ctl) (x : Faults) : (c.setFlt x).units = c.units := (rfl)
@[simp] theorem Ctl.setFlt_val_of (c : Ctl) (x : Faults) (j : Nat) : (c.setFlt x).val j = c.val j := (rfl)
@[simp] theorem Ctl.setFlt_int_of (c : Ctl) (x : Faults) (j : Nat) : (c.setFlt x).int j = c.int j := (rfl)
@[simp] theorem Ctl.setFlt_nat_of (c : Ctl) (x : Faults) (j : Nat) : (c.setFlt x).nat j = c.nat j := (rfl)
@[simp] theorem Ctl.setFlt_on_of (c : Ctl) (x : Faults) (j : Nat) : (c.setFlt x).on j = c.on j := (rfl)
@[simp] theorem Ctl.setFlt_oct_of (c : Ctl) (x : Faults) (j : Nat) : (c.setFlt x).oct j = c.oct j := (rfl)
@[simp] theorem Ctl.setFlt_sess (c : Ctl) (x : Faults) (j : Nat) : (c.setFlt x).sess j = c.sess j := (rfl)
@[simp] theorem Ctl.setFlt_flt (c : Ctl) (x : Faults) : (c.setFlt x).flt = x := (rfl)

/-! ### setClock -/

@[simp] theorem Ctl.setClock_now (c : Ctl) (k : Clock) : (c.setClock k).now = c.now := (rfl)
@[simp] theorem Ctl.setClock_free (c : Ctl) (k : Clock) : (c.setClock k).free = c.free := (rfl)
@[simp] theorem Ctl.setClock_out (c : Ctl) (k : Clock) : (c.setClock k).out = c.out := (rfl)
@[simp] theorem Ctl.setClock_dict (c : Ctl) (k : Clock) : (c.setClock k).dict = c.dict := (rfl)
@[simp] theorem Ctl.setClock_ydp (c : Ctl) (k : Clock) : (c.setClock k).ydp = c.ydp := (rfl)
@[simp] theorem Ctl.setClock_bell (c : Ctl) (k : Clock) : (c.setClock k).bell = c.bell := (rfl)
@[simp] theorem Ctl.setClock_flt (c : Ctl) (k : Clock) : (c.setClock k).flt = c.flt := (rfl)
@[simp] theorem Ctl.setClock_host (c : Ctl) (k : Clock) : (c.setClock k).host = c.host := (rfl)
@[simp] theorem Ctl.setClock_phase (c : Ctl) (k : Clock) : (c.setClock k).phase = c.phase := (rfl)
@[simp] theorem Ctl.setClock_adm (c : Ctl) (k : Clock) : (c.setClock k).adm = c.adm := (rfl)
@[simp] theorem Ctl.setClock_axs (c : Ctl) (k : Clock) : (c.setClock k).axs = c.axs := (rfl)
@[simp] theorem Ctl.setClock_care (c : Ctl) (k : Clock) : (c.setClock k).care = c.care := (rfl)
@[simp] theorem Ctl.setClock_chn (c : Ctl) (k : Clock) : (c.setClock k).chn = c.chn := (rfl)
@[simp] theorem Ctl.setClock_page (c : Ctl) (k : Clock) : (c.setClock k).page = c.page := (rfl)
@[simp] theorem Ctl.setClock_pos (c : Ctl) (k : Clock) : (c.setClock k).pos = c.pos := (rfl)
@[simp] theorem Ctl.setClock_fire (c : Ctl) (k : Clock) : (c.setClock k).fire = c.fire := (rfl)
@[simp] theorem Ctl.setClock_mem (c : Ctl) (k : Clock) : (c.setClock k).mem = c.mem := (rfl)
@[simp] theorem Ctl.setClock_loop (c : Ctl) (k : Clock) : (c.setClock k).loop = c.loop := (rfl)
@[simp] theorem Ctl.setClock_use (c : Ctl) (k : Clock) : (c.setClock k).use = c.use := (rfl)
@[simp] theorem Ctl.setClock_keys (c : Ctl) (k : Clock) : (c.setClock k).keys = c.keys := (rfl)
@[simp] theorem Ctl.setClock_attic (c : Ctl) (k : Clock) : (c.setClock k).attic = c.attic := (rfl)
@[simp] theorem Ctl.setClock_life (c : Ctl) (k : Clock) : (c.setClock k).life = c.life := (rfl)
@[simp] theorem Ctl.setClock_pwr (c : Ctl) (k : Clock) : (c.setClock k).pwr = c.pwr := (rfl)
@[simp] theorem Ctl.setClock_units (c : Ctl) (k : Clock) : (c.setClock k).units = c.units := (rfl)
@[simp] theorem Ctl.setClock_val_of (c : Ctl) (k : Clock) (j : Nat) : (c.setClock k).val j = c.val j := (rfl)
@[simp] theorem Ctl.setClock_int_of (c : Ctl) (k : Clock) (j : Nat) : (c.setClock k).int j = c.int j := (rfl)
@[simp] theorem Ctl.setClock_nat_of (c : Ctl) (k : Clock) (j : Nat) : (c.setClock k).nat j = c.nat j := (rfl)
@[simp] theorem Ctl.setClock_on_of (c : Ctl) (k : Clock) (j : Nat) : (c.setClock k).on j = c.on j := (rfl)
@[simp] theorem Ctl.setClock_oct_of (c : Ctl) (k : Clock) (j : Nat) : (c.setClock k).oct j = c.oct j := (rfl)
@[simp] theorem Ctl.setClock_sess (c : Ctl) (k : Clock) (j : Nat) : (c.setClock k).sess j = c.sess j := (rfl)
@[simp] theorem Ctl.setClock_clock (c : Ctl) (k : Clock) : (c.setClock k).clock = k := (rfl)

/-! ### setTickets -/

@[simp] theorem Ctl.setTickets_now (c : Ctl) (ts : List Ticket) : (c.setTickets ts).now = c.now := (rfl)
@[simp] theorem Ctl.setTickets_free (c : Ctl) (ts : List Ticket) : (c.setTickets ts).free = c.free := (rfl)
@[simp] theorem Ctl.setTickets_out (c : Ctl) (ts : List Ticket) : (c.setTickets ts).out = c.out := (rfl)
@[simp] theorem Ctl.setTickets_dict (c : Ctl) (ts : List Ticket) : (c.setTickets ts).dict = c.dict := (rfl)
@[simp] theorem Ctl.setTickets_ydp (c : Ctl) (ts : List Ticket) : (c.setTickets ts).ydp = c.ydp := (rfl)
@[simp] theorem Ctl.setTickets_bell (c : Ctl) (ts : List Ticket) : (c.setTickets ts).bell = c.bell := (rfl)
@[simp] theorem Ctl.setTickets_flt (c : Ctl) (ts : List Ticket) : (c.setTickets ts).flt = c.flt := (rfl)
@[simp] theorem Ctl.setTickets_clock (c : Ctl) (ts : List Ticket) : (c.setTickets ts).clock = c.clock := (rfl)
@[simp] theorem Ctl.setTickets_host (c : Ctl) (ts : List Ticket) : (c.setTickets ts).host = c.host := (rfl)
@[simp] theorem Ctl.setTickets_phase (c : Ctl) (ts : List Ticket) : (c.setTickets ts).phase = c.phase := (rfl)
@[simp] theorem Ctl.setTickets_axs (c : Ctl) (ts : List Ticket) : (c.setTickets ts).axs = c.axs := (rfl)
@[simp] theorem Ctl.setTickets_care (c : Ctl) (ts : List Ticket) : (c.setTickets ts).care = c.care := (rfl)
@[simp] theorem Ctl.setTickets_chn (c : Ctl) (ts : List Ticket) : (c.setTickets ts).chn = c.chn := (rfl)
@[simp] theorem Ctl.setTickets_page (c : Ctl) (ts : List Ticket) : (c.setTickets ts).page = c.page := (rfl)
@[simp] theorem Ctl.setTickets_pos (c : Ctl) (ts : List Ticket) : (c.setTickets ts).pos = c.pos := (rfl)
@[simp] theorem Ctl.setTickets_fire (c : Ctl) (ts : List Ticket) : (c.setTickets ts).fire = c.fire := (rfl)
@[simp] theorem Ctl.setTickets_mem (c : Ctl) (ts : List Ticket) : (c.setTickets ts).mem = c.mem := (rfl)
@[simp] theorem Ctl.setTickets_loop (c : Ctl) (ts : List Ticket) : (c.setTickets ts).loop = c.loop := (rfl)
@[simp] theorem Ctl.setTickets_use (c : Ctl) (ts : List Ticket) : (c.setTickets ts).use = c.use := (rfl)
@[simp] theorem Ctl.setTickets_keys (c : Ctl) (ts : List Ticket) : (c.setTickets ts).keys = c.keys := (rfl)
@[simp] theorem Ctl.setTickets_attic (c : Ctl) (ts : List Ticket) : (c.setTickets ts).attic = c.attic := (rfl)
@[simp] theorem Ctl.setTickets_life (c : Ctl) (ts : List Ticket) : (c.setTickets ts).life = c.life := (rfl)
@[simp] theorem Ctl.setTickets_pwr (c : Ctl) (ts : List Ticket) : (c.setTickets ts).pwr = c.pwr := (rfl)
@[simp] theorem Ctl.setTickets_units (c : Ctl) (ts : List Ticket) : (c.setTickets ts).units = c.units := (rfl)
@[simp] theorem Ctl.setTickets_val_of (c : Ctl) (ts : List Ticket) (j : Nat) : (c.setTickets ts).val j = c.val j := (rfl)
@[simp] theorem Ctl.setTickets_int_of (c : Ctl) (ts : List Ticket) (j : Nat) : (c.setTickets ts).int j = c.int j := (rfl)
@[simp] theorem Ctl.setTickets_nat_of (c : Ctl) (ts : List Ticket) (j : Nat) : (c.setTickets ts).nat j = c.nat j := (rfl)
@[simp] theorem Ctl.setTickets_on_of (c : Ctl) (ts : List Ticket) (j : Nat) : (c.setTickets ts).on j = c.on j := (rfl)
@[simp] theorem Ctl.setTickets_oct_of (c : Ctl) (ts : List Ticket) (j : Nat) : (c.setTickets ts).oct j = c.oct j := (rfl)
@[simp] theorem Ctl.setTickets_sess (c : Ctl) (ts : List Ticket) (j : Nat) : (c.setTickets ts).sess j = c.sess j := (rfl)

/-! ### setAxis -/

@[simp] theorem Ctl.setAxis_now (c : Ctl) (a : Nat) (x : Axis) : (c.setAxis a x).now = c.now := (rfl)
@[simp] theorem Ctl.setAxis_free (c : Ctl) (a : Nat) (x : Axis) : (c.setAxis a x).free = c.free := (rfl)
@[simp] theorem Ctl.setAxis_out (c : Ctl) (a : Nat) (x : Axis) : (c.setAxis a x).out = c.out := (rfl)
@[simp] theorem Ctl.setAxis_dict (c : Ctl) (a : Nat) (x : Axis) : (c.setAxis a x).dict = c.dict := (rfl)
@[simp] theorem Ctl.setAxis_ydp (c : Ctl) (a : Nat) (x : Axis) : (c.setAxis a x).ydp = c.ydp := (rfl)
@[simp] theorem Ctl.setAxis_bell (c : Ctl) (a : Nat) (x : Axis) : (c.setAxis a x).bell = c.bell := (rfl)
@[simp] theorem Ctl.setAxis_flt (c : Ctl) (a : Nat) (x : Axis) : (c.setAxis a x).flt = c.flt := (rfl)
@[simp] theorem Ctl.setAxis_clock (c : Ctl) (a : Nat) (x : Axis) : (c.setAxis a x).clock = c.clock := (rfl)
@[simp] theorem Ctl.setAxis_host (c : Ctl) (a : Nat) (x : Axis) : (c.setAxis a x).host = c.host := (rfl)
@[simp] theorem Ctl.setAxis_phase (c : Ctl) (a : Nat) (x : Axis) : (c.setAxis a x).phase = c.phase := (rfl)
@[simp] theorem Ctl.setAxis_adm (c : Ctl) (a : Nat) (x : Axis) : (c.setAxis a x).adm = c.adm := (rfl)
@[simp] theorem Ctl.setAxis_care (c : Ctl) (a : Nat) (x : Axis) : (c.setAxis a x).care = c.care := (rfl)
@[simp] theorem Ctl.setAxis_chn (c : Ctl) (a : Nat) (x : Axis) : (c.setAxis a x).chn = c.chn := (rfl)
@[simp] theorem Ctl.setAxis_page (c : Ctl) (a : Nat) (x : Axis) : (c.setAxis a x).page = c.page := (rfl)
@[simp] theorem Ctl.setAxis_pos (c : Ctl) (a : Nat) (x : Axis) : (c.setAxis a x).pos = c.pos := (rfl)
@[simp] theorem Ctl.setAxis_fire (c : Ctl) (a : Nat) (x : Axis) : (c.setAxis a x).fire = c.fire := (rfl)
@[simp] theorem Ctl.setAxis_mem (c : Ctl) (a : Nat) (x : Axis) : (c.setAxis a x).mem = c.mem := (rfl)
@[simp] theorem Ctl.setAxis_loop (c : Ctl) (a : Nat) (x : Axis) : (c.setAxis a x).loop = c.loop := (rfl)
@[simp] theorem Ctl.setAxis_use (c : Ctl) (a : Nat) (x : Axis) : (c.setAxis a x).use = c.use := (rfl)
@[simp] theorem Ctl.setAxis_keys (c : Ctl) (a : Nat) (x : Axis) : (c.setAxis a x).keys = c.keys := (rfl)
@[simp] theorem Ctl.setAxis_attic (c : Ctl) (a : Nat) (x : Axis) : (c.setAxis a x).attic = c.attic := (rfl)
@[simp] theorem Ctl.setAxis_life (c : Ctl) (a : Nat) (x : Axis) : (c.setAxis a x).life = c.life := (rfl)
@[simp] theorem Ctl.setAxis_pwr (c : Ctl) (a : Nat) (x : Axis) : (c.setAxis a x).pwr = c.pwr := (rfl)
@[simp] theorem Ctl.setAxis_units (c : Ctl) (a : Nat) (x : Axis) : (c.setAxis a x).units = c.units := (rfl)
@[simp] theorem Ctl.setAxis_val_of (c : Ctl) (a : Nat) (x : Axis) (j : Nat) : (c.setAxis a x).val j = c.val j := (rfl)
@[simp] theorem Ctl.setAxis_int_of (c : Ctl) (a : Nat) (x : Axis) (j : Nat) : (c.setAxis a x).int j = c.int j := (rfl)
@[simp] theorem Ctl.setAxis_nat_of (c : Ctl) (a : Nat) (x : Axis) (j : Nat) : (c.setAxis a x).nat j = c.nat j := (rfl)
@[simp] theorem Ctl.setAxis_on_of (c : Ctl) (a : Nat) (x : Axis) (j : Nat) : (c.setAxis a x).on j = c.on j := (rfl)
@[simp] theorem Ctl.setAxis_oct_of (c : Ctl) (a : Nat) (x : Axis) (j : Nat) : (c.setAxis a x).oct j = c.oct j := (rfl)
@[simp] theorem Ctl.setAxis_sess (c : Ctl) (a : Nat) (x : Axis) (j : Nat) : (c.setAxis a x).sess j = c.sess j := (rfl)

/-! ### setLim -/

@[simp] theorem Ctl.setLim_now (c : Ctl) (i : Nat) (x : Lim) : (c.setLim i x).now = c.now := (rfl)
@[simp] theorem Ctl.setLim_free (c : Ctl) (i : Nat) (x : Lim) : (c.setLim i x).free = c.free := (rfl)
@[simp] theorem Ctl.setLim_out (c : Ctl) (i : Nat) (x : Lim) : (c.setLim i x).out = c.out := (rfl)
@[simp] theorem Ctl.setLim_dict (c : Ctl) (i : Nat) (x : Lim) : (c.setLim i x).dict = c.dict := (rfl)
@[simp] theorem Ctl.setLim_ydp (c : Ctl) (i : Nat) (x : Lim) : (c.setLim i x).ydp = c.ydp := (rfl)
@[simp] theorem Ctl.setLim_bell (c : Ctl) (i : Nat) (x : Lim) : (c.setLim i x).bell = c.bell := (rfl)
@[simp] theorem Ctl.setLim_flt (c : Ctl) (i : Nat) (x : Lim) : (c.setLim i x).flt = c.flt := (rfl)
@[simp] theorem Ctl.setLim_clock (c : Ctl) (i : Nat) (x : Lim) : (c.setLim i x).clock = c.clock := (rfl)
@[simp] theorem Ctl.setLim_host (c : Ctl) (i : Nat) (x : Lim) : (c.setLim i x).host = c.host := (rfl)
@[simp] theorem Ctl.setLim_phase (c : Ctl) (i : Nat) (x : Lim) : (c.setLim i x).phase = c.phase := (rfl)
@[simp] theorem Ctl.setLim_adm (c : Ctl) (i : Nat) (x : Lim) : (c.setLim i x).adm = c.adm := (rfl)
@[simp] theorem Ctl.setLim_care (c : Ctl) (i : Nat) (x : Lim) : (c.setLim i x).care = c.care := (rfl)
@[simp] theorem Ctl.setLim_chn (c : Ctl) (i : Nat) (x : Lim) : (c.setLim i x).chn = c.chn := (rfl)
@[simp] theorem Ctl.setLim_page (c : Ctl) (i : Nat) (x : Lim) : (c.setLim i x).page = c.page := (rfl)
@[simp] theorem Ctl.setLim_pos (c : Ctl) (i : Nat) (x : Lim) : (c.setLim i x).pos = c.pos := (rfl)
@[simp] theorem Ctl.setLim_fire (c : Ctl) (i : Nat) (x : Lim) : (c.setLim i x).fire = c.fire := (rfl)
@[simp] theorem Ctl.setLim_mem (c : Ctl) (i : Nat) (x : Lim) : (c.setLim i x).mem = c.mem := (rfl)
@[simp] theorem Ctl.setLim_loop (c : Ctl) (i : Nat) (x : Lim) : (c.setLim i x).loop = c.loop := (rfl)
@[simp] theorem Ctl.setLim_use (c : Ctl) (i : Nat) (x : Lim) : (c.setLim i x).use = c.use := (rfl)
@[simp] theorem Ctl.setLim_keys (c : Ctl) (i : Nat) (x : Lim) : (c.setLim i x).keys = c.keys := (rfl)
@[simp] theorem Ctl.setLim_attic (c : Ctl) (i : Nat) (x : Lim) : (c.setLim i x).attic = c.attic := (rfl)
@[simp] theorem Ctl.setLim_life (c : Ctl) (i : Nat) (x : Lim) : (c.setLim i x).life = c.life := (rfl)
@[simp] theorem Ctl.setLim_pwr (c : Ctl) (i : Nat) (x : Lim) : (c.setLim i x).pwr = c.pwr := (rfl)
@[simp] theorem Ctl.setLim_units (c : Ctl) (i : Nat) (x : Lim) : (c.setLim i x).units = c.units := (rfl)
@[simp] theorem Ctl.setLim_val_of (c : Ctl) (i : Nat) (x : Lim) (j : Nat) : (c.setLim i x).val j = c.val j := (rfl)
@[simp] theorem Ctl.setLim_int_of (c : Ctl) (i : Nat) (x : Lim) (j : Nat) : (c.setLim i x).int j = c.int j := (rfl)
@[simp] theorem Ctl.setLim_nat_of (c : Ctl) (i : Nat) (x : Lim) (j : Nat) : (c.setLim i x).nat j = c.nat j := (rfl)
@[simp] theorem Ctl.setLim_on_of (c : Ctl) (i : Nat) (x : Lim) (j : Nat) : (c.setLim i x).on j = c.on j := (rfl)
@[simp] theorem Ctl.setLim_oct_of (c : Ctl) (i : Nat) (x : Lim) (j : Nat) : (c.setLim i x).oct j = c.oct j := (rfl)
@[simp] theorem Ctl.setLim_sess (c : Ctl) (i : Nat) (x : Lim) (j : Nat) : (c.setLim i x).sess j = c.sess j := (rfl)

/-! ### setCareBar -/

@[simp] theorem Ctl.setCareBar_now (c : Ctl) (b : Nat) (x : CareBar) : (c.setCareBar b x).now = c.now := (rfl)
@[simp] theorem Ctl.setCareBar_free (c : Ctl) (b : Nat) (x : CareBar) : (c.setCareBar b x).free = c.free := (rfl)
@[simp] theorem Ctl.setCareBar_out (c : Ctl) (b : Nat) (x : CareBar) : (c.setCareBar b x).out = c.out := (rfl)
@[simp] theorem Ctl.setCareBar_dict (c : Ctl) (b : Nat) (x : CareBar) : (c.setCareBar b x).dict = c.dict := (rfl)
@[simp] theorem Ctl.setCareBar_ydp (c : Ctl) (b : Nat) (x : CareBar) : (c.setCareBar b x).ydp = c.ydp := (rfl)
@[simp] theorem Ctl.setCareBar_bell (c : Ctl) (b : Nat) (x : CareBar) : (c.setCareBar b x).bell = c.bell := (rfl)
@[simp] theorem Ctl.setCareBar_flt (c : Ctl) (b : Nat) (x : CareBar) : (c.setCareBar b x).flt = c.flt := (rfl)
@[simp] theorem Ctl.setCareBar_clock (c : Ctl) (b : Nat) (x : CareBar) : (c.setCareBar b x).clock = c.clock := (rfl)
@[simp] theorem Ctl.setCareBar_host (c : Ctl) (b : Nat) (x : CareBar) : (c.setCareBar b x).host = c.host := (rfl)
@[simp] theorem Ctl.setCareBar_phase (c : Ctl) (b : Nat) (x : CareBar) : (c.setCareBar b x).phase = c.phase := (rfl)
@[simp] theorem Ctl.setCareBar_adm (c : Ctl) (b : Nat) (x : CareBar) : (c.setCareBar b x).adm = c.adm := (rfl)
@[simp] theorem Ctl.setCareBar_axs (c : Ctl) (b : Nat) (x : CareBar) : (c.setCareBar b x).axs = c.axs := (rfl)
@[simp] theorem Ctl.setCareBar_chn (c : Ctl) (b : Nat) (x : CareBar) : (c.setCareBar b x).chn = c.chn := (rfl)
@[simp] theorem Ctl.setCareBar_page (c : Ctl) (b : Nat) (x : CareBar) : (c.setCareBar b x).page = c.page := (rfl)
@[simp] theorem Ctl.setCareBar_pos (c : Ctl) (b : Nat) (x : CareBar) : (c.setCareBar b x).pos = c.pos := (rfl)
@[simp] theorem Ctl.setCareBar_fire (c : Ctl) (b : Nat) (x : CareBar) : (c.setCareBar b x).fire = c.fire := (rfl)
@[simp] theorem Ctl.setCareBar_mem (c : Ctl) (b : Nat) (x : CareBar) : (c.setCareBar b x).mem = c.mem := (rfl)
@[simp] theorem Ctl.setCareBar_loop (c : Ctl) (b : Nat) (x : CareBar) : (c.setCareBar b x).loop = c.loop := (rfl)
@[simp] theorem Ctl.setCareBar_use (c : Ctl) (b : Nat) (x : CareBar) : (c.setCareBar b x).use = c.use := (rfl)
@[simp] theorem Ctl.setCareBar_keys (c : Ctl) (b : Nat) (x : CareBar) : (c.setCareBar b x).keys = c.keys := (rfl)
@[simp] theorem Ctl.setCareBar_attic (c : Ctl) (b : Nat) (x : CareBar) : (c.setCareBar b x).attic = c.attic := (rfl)
@[simp] theorem Ctl.setCareBar_life (c : Ctl) (b : Nat) (x : CareBar) : (c.setCareBar b x).life = c.life := (rfl)
@[simp] theorem Ctl.setCareBar_pwr (c : Ctl) (b : Nat) (x : CareBar) : (c.setCareBar b x).pwr = c.pwr := (rfl)
@[simp] theorem Ctl.setCareBar_units (c : Ctl) (b : Nat) (x : CareBar) : (c.setCareBar b x).units = c.units := (rfl)
@[simp] theorem Ctl.setCareBar_val_of (c : Ctl) (b : Nat) (x : CareBar) (j : Nat) : (c.setCareBar b x).val j = c.val j := (rfl)
@[simp] theorem Ctl.setCareBar_int_of (c : Ctl) (b : Nat) (x : CareBar) (j : Nat) : (c.setCareBar b x).int j = c.int j := (rfl)
@[simp] theorem Ctl.setCareBar_nat_of (c : Ctl) (b : Nat) (x : CareBar) (j : Nat) : (c.setCareBar b x).nat j = c.nat j := (rfl)
@[simp] theorem Ctl.setCareBar_on_of (c : Ctl) (b : Nat) (x : CareBar) (j : Nat) : (c.setCareBar b x).on j = c.on j := (rfl)
@[simp] theorem Ctl.setCareBar_oct_of (c : Ctl) (b : Nat) (x : CareBar) (j : Nat) : (c.setCareBar b x).oct j = c.oct j := (rfl)
@[simp] theorem Ctl.setCareBar_sess (c : Ctl) (b : Nat) (x : CareBar) (j : Nat) : (c.setCareBar b x).sess j = c.sess j := (rfl)

/-! ### setShelf -/

@[simp] theorem Ctl.setShelf_now (c : Ctl) (ls : List ShelfLine) : (c.setShelf ls).now = c.now := (rfl)
@[simp] theorem Ctl.setShelf_free (c : Ctl) (ls : List ShelfLine) : (c.setShelf ls).free = c.free := (rfl)
@[simp] theorem Ctl.setShelf_out (c : Ctl) (ls : List ShelfLine) : (c.setShelf ls).out = c.out := (rfl)
@[simp] theorem Ctl.setShelf_dict (c : Ctl) (ls : List ShelfLine) : (c.setShelf ls).dict = c.dict := (rfl)
@[simp] theorem Ctl.setShelf_ydp (c : Ctl) (ls : List ShelfLine) : (c.setShelf ls).ydp = c.ydp := (rfl)
@[simp] theorem Ctl.setShelf_bell (c : Ctl) (ls : List ShelfLine) : (c.setShelf ls).bell = c.bell := (rfl)
@[simp] theorem Ctl.setShelf_flt (c : Ctl) (ls : List ShelfLine) : (c.setShelf ls).flt = c.flt := (rfl)
@[simp] theorem Ctl.setShelf_clock (c : Ctl) (ls : List ShelfLine) : (c.setShelf ls).clock = c.clock := (rfl)
@[simp] theorem Ctl.setShelf_host (c : Ctl) (ls : List ShelfLine) : (c.setShelf ls).host = c.host := (rfl)
@[simp] theorem Ctl.setShelf_phase (c : Ctl) (ls : List ShelfLine) : (c.setShelf ls).phase = c.phase := (rfl)
@[simp] theorem Ctl.setShelf_adm (c : Ctl) (ls : List ShelfLine) : (c.setShelf ls).adm = c.adm := (rfl)
@[simp] theorem Ctl.setShelf_axs (c : Ctl) (ls : List ShelfLine) : (c.setShelf ls).axs = c.axs := (rfl)
@[simp] theorem Ctl.setShelf_chn (c : Ctl) (ls : List ShelfLine) : (c.setShelf ls).chn = c.chn := (rfl)
@[simp] theorem Ctl.setShelf_page (c : Ctl) (ls : List ShelfLine) : (c.setShelf ls).page = c.page := (rfl)
@[simp] theorem Ctl.setShelf_pos (c : Ctl) (ls : List ShelfLine) : (c.setShelf ls).pos = c.pos := (rfl)
@[simp] theorem Ctl.setShelf_fire (c : Ctl) (ls : List ShelfLine) : (c.setShelf ls).fire = c.fire := (rfl)
@[simp] theorem Ctl.setShelf_mem (c : Ctl) (ls : List ShelfLine) : (c.setShelf ls).mem = c.mem := (rfl)
@[simp] theorem Ctl.setShelf_loop (c : Ctl) (ls : List ShelfLine) : (c.setShelf ls).loop = c.loop := (rfl)
@[simp] theorem Ctl.setShelf_use (c : Ctl) (ls : List ShelfLine) : (c.setShelf ls).use = c.use := (rfl)
@[simp] theorem Ctl.setShelf_keys (c : Ctl) (ls : List ShelfLine) : (c.setShelf ls).keys = c.keys := (rfl)
@[simp] theorem Ctl.setShelf_attic (c : Ctl) (ls : List ShelfLine) : (c.setShelf ls).attic = c.attic := (rfl)
@[simp] theorem Ctl.setShelf_life (c : Ctl) (ls : List ShelfLine) : (c.setShelf ls).life = c.life := (rfl)
@[simp] theorem Ctl.setShelf_pwr (c : Ctl) (ls : List ShelfLine) : (c.setShelf ls).pwr = c.pwr := (rfl)
@[simp] theorem Ctl.setShelf_units (c : Ctl) (ls : List ShelfLine) : (c.setShelf ls).units = c.units := (rfl)
@[simp] theorem Ctl.setShelf_val_of (c : Ctl) (ls : List ShelfLine) (j : Nat) : (c.setShelf ls).val j = c.val j := (rfl)
@[simp] theorem Ctl.setShelf_int_of (c : Ctl) (ls : List ShelfLine) (j : Nat) : (c.setShelf ls).int j = c.int j := (rfl)
@[simp] theorem Ctl.setShelf_nat_of (c : Ctl) (ls : List ShelfLine) (j : Nat) : (c.setShelf ls).nat j = c.nat j := (rfl)
@[simp] theorem Ctl.setShelf_on_of (c : Ctl) (ls : List ShelfLine) (j : Nat) : (c.setShelf ls).on j = c.on j := (rfl)
@[simp] theorem Ctl.setShelf_oct_of (c : Ctl) (ls : List ShelfLine) (j : Nat) : (c.setShelf ls).oct j = c.oct j := (rfl)
@[simp] theorem Ctl.setShelf_sess (c : Ctl) (ls : List ShelfLine) (j : Nat) : (c.setShelf ls).sess j = c.sess j := (rfl)

/-! ### setMgr -/

@[simp] theorem Ctl.setMgr_now (c : Ctl) (ch : Nat) (m : ChainMgr) : (c.setMgr ch m).now = c.now := (rfl)
@[simp] theorem Ctl.setMgr_free (c : Ctl) (ch : Nat) (m : ChainMgr) : (c.setMgr ch m).free = c.free := (rfl)
@[simp] theorem Ctl.setMgr_out (c : Ctl) (ch : Nat) (m : ChainMgr) : (c.setMgr ch m).out = c.out := (rfl)
@[simp] theorem Ctl.setMgr_dict (c : Ctl) (ch : Nat) (m : ChainMgr) : (c.setMgr ch m).dict = c.dict := (rfl)
@[simp] theorem Ctl.setMgr_ydp (c : Ctl) (ch : Nat) (m : ChainMgr) : (c.setMgr ch m).ydp = c.ydp := (rfl)
@[simp] theorem Ctl.setMgr_bell (c : Ctl) (ch : Nat) (m : ChainMgr) : (c.setMgr ch m).bell = c.bell := (rfl)
@[simp] theorem Ctl.setMgr_flt (c : Ctl) (ch : Nat) (m : ChainMgr) : (c.setMgr ch m).flt = c.flt := (rfl)
@[simp] theorem Ctl.setMgr_clock (c : Ctl) (ch : Nat) (m : ChainMgr) : (c.setMgr ch m).clock = c.clock := (rfl)
@[simp] theorem Ctl.setMgr_host (c : Ctl) (ch : Nat) (m : ChainMgr) : (c.setMgr ch m).host = c.host := (rfl)
@[simp] theorem Ctl.setMgr_phase (c : Ctl) (ch : Nat) (m : ChainMgr) : (c.setMgr ch m).phase = c.phase := (rfl)
@[simp] theorem Ctl.setMgr_adm (c : Ctl) (ch : Nat) (m : ChainMgr) : (c.setMgr ch m).adm = c.adm := (rfl)
@[simp] theorem Ctl.setMgr_axs (c : Ctl) (ch : Nat) (m : ChainMgr) : (c.setMgr ch m).axs = c.axs := (rfl)
@[simp] theorem Ctl.setMgr_care (c : Ctl) (ch : Nat) (m : ChainMgr) : (c.setMgr ch m).care = c.care := (rfl)
@[simp] theorem Ctl.setMgr_page (c : Ctl) (ch : Nat) (m : ChainMgr) : (c.setMgr ch m).page = c.page := (rfl)
@[simp] theorem Ctl.setMgr_pos (c : Ctl) (ch : Nat) (m : ChainMgr) : (c.setMgr ch m).pos = c.pos := (rfl)
@[simp] theorem Ctl.setMgr_fire (c : Ctl) (ch : Nat) (m : ChainMgr) : (c.setMgr ch m).fire = c.fire := (rfl)
@[simp] theorem Ctl.setMgr_mem (c : Ctl) (ch : Nat) (m : ChainMgr) : (c.setMgr ch m).mem = c.mem := (rfl)
@[simp] theorem Ctl.setMgr_loop (c : Ctl) (ch : Nat) (m : ChainMgr) : (c.setMgr ch m).loop = c.loop := (rfl)
@[simp] theorem Ctl.setMgr_use (c : Ctl) (ch : Nat) (m : ChainMgr) : (c.setMgr ch m).use = c.use := (rfl)
@[simp] theorem Ctl.setMgr_keys (c : Ctl) (ch : Nat) (m : ChainMgr) : (c.setMgr ch m).keys = c.keys := (rfl)
@[simp] theorem Ctl.setMgr_attic (c : Ctl) (ch : Nat) (m : ChainMgr) : (c.setMgr ch m).attic = c.attic := (rfl)
@[simp] theorem Ctl.setMgr_life (c : Ctl) (ch : Nat) (m : ChainMgr) : (c.setMgr ch m).life = c.life := (rfl)
@[simp] theorem Ctl.setMgr_pwr (c : Ctl) (ch : Nat) (m : ChainMgr) : (c.setMgr ch m).pwr = c.pwr := (rfl)
@[simp] theorem Ctl.setMgr_units (c : Ctl) (ch : Nat) (m : ChainMgr) : (c.setMgr ch m).units = c.units := (rfl)
@[simp] theorem Ctl.setMgr_val_of (c : Ctl) (ch : Nat) (m : ChainMgr) (j : Nat) : (c.setMgr ch m).val j = c.val j := (rfl)
@[simp] theorem Ctl.setMgr_int_of (c : Ctl) (ch : Nat) (m : ChainMgr) (j : Nat) : (c.setMgr ch m).int j = c.int j := (rfl)
@[simp] theorem Ctl.setMgr_nat_of (c : Ctl) (ch : Nat) (m : ChainMgr) (j : Nat) : (c.setMgr ch m).nat j = c.nat j := (rfl)
@[simp] theorem Ctl.setMgr_on_of (c : Ctl) (ch : Nat) (m : ChainMgr) (j : Nat) : (c.setMgr ch m).on j = c.on j := (rfl)
@[simp] theorem Ctl.setMgr_oct_of (c : Ctl) (ch : Nat) (m : ChainMgr) (j : Nat) : (c.setMgr ch m).oct j = c.oct j := (rfl)
@[simp] theorem Ctl.setMgr_sess (c : Ctl) (ch : Nat) (m : ChainMgr) (j : Nat) : (c.setMgr ch m).sess j = c.sess j := (rfl)

/-! ### setHeadMgr -/

@[simp] theorem Ctl.setHeadMgr_now (c : Ctl) (h : Nat) (m : HeadMgr) : (c.setHeadMgr h m).now = c.now := (rfl)
@[simp] theorem Ctl.setHeadMgr_free (c : Ctl) (h : Nat) (m : HeadMgr) : (c.setHeadMgr h m).free = c.free := (rfl)
@[simp] theorem Ctl.setHeadMgr_out (c : Ctl) (h : Nat) (m : HeadMgr) : (c.setHeadMgr h m).out = c.out := (rfl)
@[simp] theorem Ctl.setHeadMgr_dict (c : Ctl) (h : Nat) (m : HeadMgr) : (c.setHeadMgr h m).dict = c.dict := (rfl)
@[simp] theorem Ctl.setHeadMgr_ydp (c : Ctl) (h : Nat) (m : HeadMgr) : (c.setHeadMgr h m).ydp = c.ydp := (rfl)
@[simp] theorem Ctl.setHeadMgr_bell (c : Ctl) (h : Nat) (m : HeadMgr) : (c.setHeadMgr h m).bell = c.bell := (rfl)
@[simp] theorem Ctl.setHeadMgr_flt (c : Ctl) (h : Nat) (m : HeadMgr) : (c.setHeadMgr h m).flt = c.flt := (rfl)
@[simp] theorem Ctl.setHeadMgr_clock (c : Ctl) (h : Nat) (m : HeadMgr) : (c.setHeadMgr h m).clock = c.clock := (rfl)
@[simp] theorem Ctl.setHeadMgr_host (c : Ctl) (h : Nat) (m : HeadMgr) : (c.setHeadMgr h m).host = c.host := (rfl)
@[simp] theorem Ctl.setHeadMgr_phase (c : Ctl) (h : Nat) (m : HeadMgr) : (c.setHeadMgr h m).phase = c.phase := (rfl)
@[simp] theorem Ctl.setHeadMgr_adm (c : Ctl) (h : Nat) (m : HeadMgr) : (c.setHeadMgr h m).adm = c.adm := (rfl)
@[simp] theorem Ctl.setHeadMgr_axs (c : Ctl) (h : Nat) (m : HeadMgr) : (c.setHeadMgr h m).axs = c.axs := (rfl)
@[simp] theorem Ctl.setHeadMgr_care (c : Ctl) (h : Nat) (m : HeadMgr) : (c.setHeadMgr h m).care = c.care := (rfl)
@[simp] theorem Ctl.setHeadMgr_page (c : Ctl) (h : Nat) (m : HeadMgr) : (c.setHeadMgr h m).page = c.page := (rfl)
@[simp] theorem Ctl.setHeadMgr_pos (c : Ctl) (h : Nat) (m : HeadMgr) : (c.setHeadMgr h m).pos = c.pos := (rfl)
@[simp] theorem Ctl.setHeadMgr_fire (c : Ctl) (h : Nat) (m : HeadMgr) : (c.setHeadMgr h m).fire = c.fire := (rfl)
@[simp] theorem Ctl.setHeadMgr_mem (c : Ctl) (h : Nat) (m : HeadMgr) : (c.setHeadMgr h m).mem = c.mem := (rfl)
@[simp] theorem Ctl.setHeadMgr_loop (c : Ctl) (h : Nat) (m : HeadMgr) : (c.setHeadMgr h m).loop = c.loop := (rfl)
@[simp] theorem Ctl.setHeadMgr_use (c : Ctl) (h : Nat) (m : HeadMgr) : (c.setHeadMgr h m).use = c.use := (rfl)
@[simp] theorem Ctl.setHeadMgr_keys (c : Ctl) (h : Nat) (m : HeadMgr) : (c.setHeadMgr h m).keys = c.keys := (rfl)
@[simp] theorem Ctl.setHeadMgr_attic (c : Ctl) (h : Nat) (m : HeadMgr) : (c.setHeadMgr h m).attic = c.attic := (rfl)
@[simp] theorem Ctl.setHeadMgr_life (c : Ctl) (h : Nat) (m : HeadMgr) : (c.setHeadMgr h m).life = c.life := (rfl)
@[simp] theorem Ctl.setHeadMgr_pwr (c : Ctl) (h : Nat) (m : HeadMgr) : (c.setHeadMgr h m).pwr = c.pwr := (rfl)
@[simp] theorem Ctl.setHeadMgr_units (c : Ctl) (h : Nat) (m : HeadMgr) : (c.setHeadMgr h m).units = c.units := (rfl)
@[simp] theorem Ctl.setHeadMgr_val_of (c : Ctl) (h : Nat) (m : HeadMgr) (j : Nat) : (c.setHeadMgr h m).val j = c.val j := (rfl)
@[simp] theorem Ctl.setHeadMgr_int_of (c : Ctl) (h : Nat) (m : HeadMgr) (j : Nat) : (c.setHeadMgr h m).int j = c.int j := (rfl)
@[simp] theorem Ctl.setHeadMgr_nat_of (c : Ctl) (h : Nat) (m : HeadMgr) (j : Nat) : (c.setHeadMgr h m).nat j = c.nat j := (rfl)
@[simp] theorem Ctl.setHeadMgr_on_of (c : Ctl) (h : Nat) (m : HeadMgr) (j : Nat) : (c.setHeadMgr h m).on j = c.on j := (rfl)
@[simp] theorem Ctl.setHeadMgr_oct_of (c : Ctl) (h : Nat) (m : HeadMgr) (j : Nat) : (c.setHeadMgr h m).oct j = c.oct j := (rfl)
@[simp] theorem Ctl.setHeadMgr_sess (c : Ctl) (h : Nat) (m : HeadMgr) (j : Nat) : (c.setHeadMgr h m).sess j = c.sess j := (rfl)

/-! ### setPos -/

@[simp] theorem Ctl.setPos_now (c : Ctl) (p : Position) : (c.setPos p).now = c.now := (rfl)
@[simp] theorem Ctl.setPos_free (c : Ctl) (p : Position) : (c.setPos p).free = c.free := (rfl)
@[simp] theorem Ctl.setPos_out (c : Ctl) (p : Position) : (c.setPos p).out = c.out := (rfl)
@[simp] theorem Ctl.setPos_dict (c : Ctl) (p : Position) : (c.setPos p).dict = c.dict := (rfl)
@[simp] theorem Ctl.setPos_ydp (c : Ctl) (p : Position) : (c.setPos p).ydp = c.ydp := (rfl)
@[simp] theorem Ctl.setPos_bell (c : Ctl) (p : Position) : (c.setPos p).bell = c.bell := (rfl)
@[simp] theorem Ctl.setPos_flt (c : Ctl) (p : Position) : (c.setPos p).flt = c.flt := (rfl)
@[simp] theorem Ctl.setPos_clock (c : Ctl) (p : Position) : (c.setPos p).clock = c.clock := (rfl)
@[simp] theorem Ctl.setPos_host (c : Ctl) (p : Position) : (c.setPos p).host = c.host := (rfl)
@[simp] theorem Ctl.setPos_phase (c : Ctl) (p : Position) : (c.setPos p).phase = c.phase := (rfl)
@[simp] theorem Ctl.setPos_adm (c : Ctl) (p : Position) : (c.setPos p).adm = c.adm := (rfl)
@[simp] theorem Ctl.setPos_axs (c : Ctl) (p : Position) : (c.setPos p).axs = c.axs := (rfl)
@[simp] theorem Ctl.setPos_care (c : Ctl) (p : Position) : (c.setPos p).care = c.care := (rfl)
@[simp] theorem Ctl.setPos_chn (c : Ctl) (p : Position) : (c.setPos p).chn = c.chn := (rfl)
@[simp] theorem Ctl.setPos_page (c : Ctl) (p : Position) : (c.setPos p).page = c.page := (rfl)
@[simp] theorem Ctl.setPos_fire (c : Ctl) (p : Position) : (c.setPos p).fire = c.fire := (rfl)
@[simp] theorem Ctl.setPos_mem (c : Ctl) (p : Position) : (c.setPos p).mem = c.mem := (rfl)
@[simp] theorem Ctl.setPos_loop (c : Ctl) (p : Position) : (c.setPos p).loop = c.loop := (rfl)
@[simp] theorem Ctl.setPos_use (c : Ctl) (p : Position) : (c.setPos p).use = c.use := (rfl)
@[simp] theorem Ctl.setPos_keys (c : Ctl) (p : Position) : (c.setPos p).keys = c.keys := (rfl)
@[simp] theorem Ctl.setPos_attic (c : Ctl) (p : Position) : (c.setPos p).attic = c.attic := (rfl)
@[simp] theorem Ctl.setPos_life (c : Ctl) (p : Position) : (c.setPos p).life = c.life := (rfl)
@[simp] theorem Ctl.setPos_pwr (c : Ctl) (p : Position) : (c.setPos p).pwr = c.pwr := (rfl)
@[simp] theorem Ctl.setPos_units (c : Ctl) (p : Position) : (c.setPos p).units = c.units := (rfl)
@[simp] theorem Ctl.setPos_val_of (c : Ctl) (p : Position) (j : Nat) : (c.setPos p).val j = c.val j := (rfl)
@[simp] theorem Ctl.setPos_int_of (c : Ctl) (p : Position) (j : Nat) : (c.setPos p).int j = c.int j := (rfl)
@[simp] theorem Ctl.setPos_nat_of (c : Ctl) (p : Position) (j : Nat) : (c.setPos p).nat j = c.nat j := (rfl)
@[simp] theorem Ctl.setPos_on_of (c : Ctl) (p : Position) (j : Nat) : (c.setPos p).on j = c.on j := (rfl)
@[simp] theorem Ctl.setPos_oct_of (c : Ctl) (p : Position) (j : Nat) : (c.setPos p).oct j = c.oct j := (rfl)
@[simp] theorem Ctl.setPos_sess (c : Ctl) (p : Position) (j : Nat) : (c.setPos p).sess j = c.sess j := (rfl)
@[simp] theorem Ctl.setPos_pos (c : Ctl) (p : Position) : (c.setPos p).pos = p := (rfl)

/-! ### setFire -/

@[simp] theorem Ctl.setFire_now (c : Ctl) (f : Fire) : (c.setFire f).now = c.now := (rfl)
@[simp] theorem Ctl.setFire_free (c : Ctl) (f : Fire) : (c.setFire f).free = c.free := (rfl)
@[simp] theorem Ctl.setFire_out (c : Ctl) (f : Fire) : (c.setFire f).out = c.out := (rfl)
@[simp] theorem Ctl.setFire_dict (c : Ctl) (f : Fire) : (c.setFire f).dict = c.dict := (rfl)
@[simp] theorem Ctl.setFire_ydp (c : Ctl) (f : Fire) : (c.setFire f).ydp = c.ydp := (rfl)
@[simp] theorem Ctl.setFire_bell (c : Ctl) (f : Fire) : (c.setFire f).bell = c.bell := (rfl)
@[simp] theorem Ctl.setFire_flt (c : Ctl) (f : Fire) : (c.setFire f).flt = c.flt := (rfl)
@[simp] theorem Ctl.setFire_clock (c : Ctl) (f : Fire) : (c.setFire f).clock = c.clock := (rfl)
@[simp] theorem Ctl.setFire_host (c : Ctl) (f : Fire) : (c.setFire f).host = c.host := (rfl)
@[simp] theorem Ctl.setFire_phase (c : Ctl) (f : Fire) : (c.setFire f).phase = c.phase := (rfl)
@[simp] theorem Ctl.setFire_adm (c : Ctl) (f : Fire) : (c.setFire f).adm = c.adm := (rfl)
@[simp] theorem Ctl.setFire_axs (c : Ctl) (f : Fire) : (c.setFire f).axs = c.axs := (rfl)
@[simp] theorem Ctl.setFire_care (c : Ctl) (f : Fire) : (c.setFire f).care = c.care := (rfl)
@[simp] theorem Ctl.setFire_chn (c : Ctl) (f : Fire) : (c.setFire f).chn = c.chn := (rfl)
@[simp] theorem Ctl.setFire_page (c : Ctl) (f : Fire) : (c.setFire f).page = c.page := (rfl)
@[simp] theorem Ctl.setFire_pos (c : Ctl) (f : Fire) : (c.setFire f).pos = c.pos := (rfl)
@[simp] theorem Ctl.setFire_mem (c : Ctl) (f : Fire) : (c.setFire f).mem = c.mem := (rfl)
@[simp] theorem Ctl.setFire_loop (c : Ctl) (f : Fire) : (c.setFire f).loop = c.loop := (rfl)
@[simp] theorem Ctl.setFire_use (c : Ctl) (f : Fire) : (c.setFire f).use = c.use := (rfl)
@[simp] theorem Ctl.setFire_keys (c : Ctl) (f : Fire) : (c.setFire f).keys = c.keys := (rfl)
@[simp] theorem Ctl.setFire_attic (c : Ctl) (f : Fire) : (c.setFire f).attic = c.attic := (rfl)
@[simp] theorem Ctl.setFire_life (c : Ctl) (f : Fire) : (c.setFire f).life = c.life := (rfl)
@[simp] theorem Ctl.setFire_pwr (c : Ctl) (f : Fire) : (c.setFire f).pwr = c.pwr := (rfl)
@[simp] theorem Ctl.setFire_units (c : Ctl) (f : Fire) : (c.setFire f).units = c.units := (rfl)
@[simp] theorem Ctl.setFire_val_of (c : Ctl) (f : Fire) (j : Nat) : (c.setFire f).val j = c.val j := (rfl)
@[simp] theorem Ctl.setFire_int_of (c : Ctl) (f : Fire) (j : Nat) : (c.setFire f).int j = c.int j := (rfl)
@[simp] theorem Ctl.setFire_nat_of (c : Ctl) (f : Fire) (j : Nat) : (c.setFire f).nat j = c.nat j := (rfl)
@[simp] theorem Ctl.setFire_on_of (c : Ctl) (f : Fire) (j : Nat) : (c.setFire f).on j = c.on j := (rfl)
@[simp] theorem Ctl.setFire_oct_of (c : Ctl) (f : Fire) (j : Nat) : (c.setFire f).oct j = c.oct j := (rfl)
@[simp] theorem Ctl.setFire_sess (c : Ctl) (f : Fire) (j : Nat) : (c.setFire f).sess j = c.sess j := (rfl)
@[simp] theorem Ctl.setFire_fire (c : Ctl) (f : Fire) : (c.setFire f).fire = f := (rfl)

/-! ### setPair -/

@[simp] theorem Ctl.setPair_now (c : Ctl) (n : Nat) (p : PairState) : (c.setPair n p).now = c.now := (rfl)
@[simp] theorem Ctl.setPair_free (c : Ctl) (n : Nat) (p : PairState) : (c.setPair n p).free = c.free := (rfl)
@[simp] theorem Ctl.setPair_out (c : Ctl) (n : Nat) (p : PairState) : (c.setPair n p).out = c.out := (rfl)
@[simp] theorem Ctl.setPair_dict (c : Ctl) (n : Nat) (p : PairState) : (c.setPair n p).dict = c.dict := (rfl)
@[simp] theorem Ctl.setPair_ydp (c : Ctl) (n : Nat) (p : PairState) : (c.setPair n p).ydp = c.ydp := (rfl)
@[simp] theorem Ctl.setPair_bell (c : Ctl) (n : Nat) (p : PairState) : (c.setPair n p).bell = c.bell := (rfl)
@[simp] theorem Ctl.setPair_flt (c : Ctl) (n : Nat) (p : PairState) : (c.setPair n p).flt = c.flt := (rfl)
@[simp] theorem Ctl.setPair_clock (c : Ctl) (n : Nat) (p : PairState) : (c.setPair n p).clock = c.clock := (rfl)
@[simp] theorem Ctl.setPair_host (c : Ctl) (n : Nat) (p : PairState) : (c.setPair n p).host = c.host := (rfl)
@[simp] theorem Ctl.setPair_phase (c : Ctl) (n : Nat) (p : PairState) : (c.setPair n p).phase = c.phase := (rfl)
@[simp] theorem Ctl.setPair_adm (c : Ctl) (n : Nat) (p : PairState) : (c.setPair n p).adm = c.adm := (rfl)
@[simp] theorem Ctl.setPair_axs (c : Ctl) (n : Nat) (p : PairState) : (c.setPair n p).axs = c.axs := (rfl)
@[simp] theorem Ctl.setPair_care (c : Ctl) (n : Nat) (p : PairState) : (c.setPair n p).care = c.care := (rfl)
@[simp] theorem Ctl.setPair_chn (c : Ctl) (n : Nat) (p : PairState) : (c.setPair n p).chn = c.chn := (rfl)
@[simp] theorem Ctl.setPair_page (c : Ctl) (n : Nat) (p : PairState) : (c.setPair n p).page = c.page := (rfl)
@[simp] theorem Ctl.setPair_pos (c : Ctl) (n : Nat) (p : PairState) : (c.setPair n p).pos = c.pos := (rfl)
@[simp] theorem Ctl.setPair_mem (c : Ctl) (n : Nat) (p : PairState) : (c.setPair n p).mem = c.mem := (rfl)
@[simp] theorem Ctl.setPair_loop (c : Ctl) (n : Nat) (p : PairState) : (c.setPair n p).loop = c.loop := (rfl)
@[simp] theorem Ctl.setPair_use (c : Ctl) (n : Nat) (p : PairState) : (c.setPair n p).use = c.use := (rfl)
@[simp] theorem Ctl.setPair_keys (c : Ctl) (n : Nat) (p : PairState) : (c.setPair n p).keys = c.keys := (rfl)
@[simp] theorem Ctl.setPair_attic (c : Ctl) (n : Nat) (p : PairState) : (c.setPair n p).attic = c.attic := (rfl)
@[simp] theorem Ctl.setPair_life (c : Ctl) (n : Nat) (p : PairState) : (c.setPair n p).life = c.life := (rfl)
@[simp] theorem Ctl.setPair_pwr (c : Ctl) (n : Nat) (p : PairState) : (c.setPair n p).pwr = c.pwr := (rfl)
@[simp] theorem Ctl.setPair_units (c : Ctl) (n : Nat) (p : PairState) : (c.setPair n p).units = c.units := (rfl)
@[simp] theorem Ctl.setPair_val_of (c : Ctl) (n : Nat) (p : PairState) (j : Nat) : (c.setPair n p).val j = c.val j := (rfl)
@[simp] theorem Ctl.setPair_int_of (c : Ctl) (n : Nat) (p : PairState) (j : Nat) : (c.setPair n p).int j = c.int j := (rfl)
@[simp] theorem Ctl.setPair_nat_of (c : Ctl) (n : Nat) (p : PairState) (j : Nat) : (c.setPair n p).nat j = c.nat j := (rfl)
@[simp] theorem Ctl.setPair_on_of (c : Ctl) (n : Nat) (p : PairState) (j : Nat) : (c.setPair n p).on j = c.on j := (rfl)
@[simp] theorem Ctl.setPair_oct_of (c : Ctl) (n : Nat) (p : PairState) (j : Nat) : (c.setPair n p).oct j = c.oct j := (rfl)
@[simp] theorem Ctl.setPair_sess (c : Ctl) (n : Nat) (p : PairState) (j : Nat) : (c.setPair n p).sess j = c.sess j := (rfl)

/-! ### setMem -/

@[simp] theorem Ctl.setMem_now (c : Ctl) (x : CellarCtl) : (c.setMem x).now = c.now := (rfl)
@[simp] theorem Ctl.setMem_free (c : Ctl) (x : CellarCtl) : (c.setMem x).free = c.free := (rfl)
@[simp] theorem Ctl.setMem_out (c : Ctl) (x : CellarCtl) : (c.setMem x).out = c.out := (rfl)
@[simp] theorem Ctl.setMem_dict (c : Ctl) (x : CellarCtl) : (c.setMem x).dict = c.dict := (rfl)
@[simp] theorem Ctl.setMem_ydp (c : Ctl) (x : CellarCtl) : (c.setMem x).ydp = c.ydp := (rfl)
@[simp] theorem Ctl.setMem_bell (c : Ctl) (x : CellarCtl) : (c.setMem x).bell = c.bell := (rfl)
@[simp] theorem Ctl.setMem_flt (c : Ctl) (x : CellarCtl) : (c.setMem x).flt = c.flt := (rfl)
@[simp] theorem Ctl.setMem_clock (c : Ctl) (x : CellarCtl) : (c.setMem x).clock = c.clock := (rfl)
@[simp] theorem Ctl.setMem_host (c : Ctl) (x : CellarCtl) : (c.setMem x).host = c.host := (rfl)
@[simp] theorem Ctl.setMem_phase (c : Ctl) (x : CellarCtl) : (c.setMem x).phase = c.phase := (rfl)
@[simp] theorem Ctl.setMem_adm (c : Ctl) (x : CellarCtl) : (c.setMem x).adm = c.adm := (rfl)
@[simp] theorem Ctl.setMem_axs (c : Ctl) (x : CellarCtl) : (c.setMem x).axs = c.axs := (rfl)
@[simp] theorem Ctl.setMem_care (c : Ctl) (x : CellarCtl) : (c.setMem x).care = c.care := (rfl)
@[simp] theorem Ctl.setMem_chn (c : Ctl) (x : CellarCtl) : (c.setMem x).chn = c.chn := (rfl)
@[simp] theorem Ctl.setMem_page (c : Ctl) (x : CellarCtl) : (c.setMem x).page = c.page := (rfl)
@[simp] theorem Ctl.setMem_pos (c : Ctl) (x : CellarCtl) : (c.setMem x).pos = c.pos := (rfl)
@[simp] theorem Ctl.setMem_fire (c : Ctl) (x : CellarCtl) : (c.setMem x).fire = c.fire := (rfl)
@[simp] theorem Ctl.setMem_loop (c : Ctl) (x : CellarCtl) : (c.setMem x).loop = c.loop := (rfl)
@[simp] theorem Ctl.setMem_use (c : Ctl) (x : CellarCtl) : (c.setMem x).use = c.use := (rfl)
@[simp] theorem Ctl.setMem_keys (c : Ctl) (x : CellarCtl) : (c.setMem x).keys = c.keys := (rfl)
@[simp] theorem Ctl.setMem_attic (c : Ctl) (x : CellarCtl) : (c.setMem x).attic = c.attic := (rfl)
@[simp] theorem Ctl.setMem_life (c : Ctl) (x : CellarCtl) : (c.setMem x).life = c.life := (rfl)
@[simp] theorem Ctl.setMem_pwr (c : Ctl) (x : CellarCtl) : (c.setMem x).pwr = c.pwr := (rfl)
@[simp] theorem Ctl.setMem_units (c : Ctl) (x : CellarCtl) : (c.setMem x).units = c.units := (rfl)
@[simp] theorem Ctl.setMem_val_of (c : Ctl) (x : CellarCtl) (j : Nat) : (c.setMem x).val j = c.val j := (rfl)
@[simp] theorem Ctl.setMem_int_of (c : Ctl) (x : CellarCtl) (j : Nat) : (c.setMem x).int j = c.int j := (rfl)
@[simp] theorem Ctl.setMem_nat_of (c : Ctl) (x : CellarCtl) (j : Nat) : (c.setMem x).nat j = c.nat j := (rfl)
@[simp] theorem Ctl.setMem_on_of (c : Ctl) (x : CellarCtl) (j : Nat) : (c.setMem x).on j = c.on j := (rfl)
@[simp] theorem Ctl.setMem_oct_of (c : Ctl) (x : CellarCtl) (j : Nat) : (c.setMem x).oct j = c.oct j := (rfl)
@[simp] theorem Ctl.setMem_sess (c : Ctl) (x : CellarCtl) (j : Nat) : (c.setMem x).sess j = c.sess j := (rfl)
@[simp] theorem Ctl.setMem_mem (c : Ctl) (x : CellarCtl) : (c.setMem x).mem = x := (rfl)

/-! ### setLoop -/

@[simp] theorem Ctl.setLoop_now (c : Ctl) (l : Loop) : (c.setLoop l).now = c.now := (rfl)
@[simp] theorem Ctl.setLoop_free (c : Ctl) (l : Loop) : (c.setLoop l).free = c.free := (rfl)
@[simp] theorem Ctl.setLoop_out (c : Ctl) (l : Loop) : (c.setLoop l).out = c.out := (rfl)
@[simp] theorem Ctl.setLoop_dict (c : Ctl) (l : Loop) : (c.setLoop l).dict = c.dict := (rfl)
@[simp] theorem Ctl.setLoop_ydp (c : Ctl) (l : Loop) : (c.setLoop l).ydp = c.ydp := (rfl)
@[simp] theorem Ctl.setLoop_bell (c : Ctl) (l : Loop) : (c.setLoop l).bell = c.bell := (rfl)
@[simp] theorem Ctl.setLoop_flt (c : Ctl) (l : Loop) : (c.setLoop l).flt = c.flt := (rfl)
@[simp] theorem Ctl.setLoop_clock (c : Ctl) (l : Loop) : (c.setLoop l).clock = c.clock := (rfl)
@[simp] theorem Ctl.setLoop_host (c : Ctl) (l : Loop) : (c.setLoop l).host = c.host := (rfl)
@[simp] theorem Ctl.setLoop_phase (c : Ctl) (l : Loop) : (c.setLoop l).phase = c.phase := (rfl)
@[simp] theorem Ctl.setLoop_adm (c : Ctl) (l : Loop) : (c.setLoop l).adm = c.adm := (rfl)
@[simp] theorem Ctl.setLoop_axs (c : Ctl) (l : Loop) : (c.setLoop l).axs = c.axs := (rfl)
@[simp] theorem Ctl.setLoop_care (c : Ctl) (l : Loop) : (c.setLoop l).care = c.care := (rfl)
@[simp] theorem Ctl.setLoop_chn (c : Ctl) (l : Loop) : (c.setLoop l).chn = c.chn := (rfl)
@[simp] theorem Ctl.setLoop_page (c : Ctl) (l : Loop) : (c.setLoop l).page = c.page := (rfl)
@[simp] theorem Ctl.setLoop_pos (c : Ctl) (l : Loop) : (c.setLoop l).pos = c.pos := (rfl)
@[simp] theorem Ctl.setLoop_fire (c : Ctl) (l : Loop) : (c.setLoop l).fire = c.fire := (rfl)
@[simp] theorem Ctl.setLoop_mem (c : Ctl) (l : Loop) : (c.setLoop l).mem = c.mem := (rfl)
@[simp] theorem Ctl.setLoop_use (c : Ctl) (l : Loop) : (c.setLoop l).use = c.use := (rfl)
@[simp] theorem Ctl.setLoop_keys (c : Ctl) (l : Loop) : (c.setLoop l).keys = c.keys := (rfl)
@[simp] theorem Ctl.setLoop_attic (c : Ctl) (l : Loop) : (c.setLoop l).attic = c.attic := (rfl)
@[simp] theorem Ctl.setLoop_life (c : Ctl) (l : Loop) : (c.setLoop l).life = c.life := (rfl)
@[simp] theorem Ctl.setLoop_pwr (c : Ctl) (l : Loop) : (c.setLoop l).pwr = c.pwr := (rfl)
@[simp] theorem Ctl.setLoop_units (c : Ctl) (l : Loop) : (c.setLoop l).units = c.units := (rfl)
@[simp] theorem Ctl.setLoop_val_of (c : Ctl) (l : Loop) (j : Nat) : (c.setLoop l).val j = c.val j := (rfl)
@[simp] theorem Ctl.setLoop_int_of (c : Ctl) (l : Loop) (j : Nat) : (c.setLoop l).int j = c.int j := (rfl)
@[simp] theorem Ctl.setLoop_nat_of (c : Ctl) (l : Loop) (j : Nat) : (c.setLoop l).nat j = c.nat j := (rfl)
@[simp] theorem Ctl.setLoop_on_of (c : Ctl) (l : Loop) (j : Nat) : (c.setLoop l).on j = c.on j := (rfl)
@[simp] theorem Ctl.setLoop_oct_of (c : Ctl) (l : Loop) (j : Nat) : (c.setLoop l).oct j = c.oct j := (rfl)
@[simp] theorem Ctl.setLoop_sess (c : Ctl) (l : Loop) (j : Nat) : (c.setLoop l).sess j = c.sess j := (rfl)
@[simp] theorem Ctl.setLoop_loop (c : Ctl) (l : Loop) : (c.setLoop l).loop = l := (rfl)

/-! ### setUse -/

@[simp] theorem Ctl.setUse_now (c : Ctl) (u : Usage) : (c.setUse u).now = c.now := (rfl)
@[simp] theorem Ctl.setUse_free (c : Ctl) (u : Usage) : (c.setUse u).free = c.free := (rfl)
@[simp] theorem Ctl.setUse_out (c : Ctl) (u : Usage) : (c.setUse u).out = c.out := (rfl)
@[simp] theorem Ctl.setUse_dict (c : Ctl) (u : Usage) : (c.setUse u).dict = c.dict := (rfl)
@[simp] theorem Ctl.setUse_ydp (c : Ctl) (u : Usage) : (c.setUse u).ydp = c.ydp := (rfl)
@[simp] theorem Ctl.setUse_bell (c : Ctl) (u : Usage) : (c.setUse u).bell = c.bell := (rfl)
@[simp] theorem Ctl.setUse_flt (c : Ctl) (u : Usage) : (c.setUse u).flt = c.flt := (rfl)
@[simp] theorem Ctl.setUse_clock (c : Ctl) (u : Usage) : (c.setUse u).clock = c.clock := (rfl)
@[simp] theorem Ctl.setUse_host (c : Ctl) (u : Usage) : (c.setUse u).host = c.host := (rfl)
@[simp] theorem Ctl.setUse_phase (c : Ctl) (u : Usage) : (c.setUse u).phase = c.phase := (rfl)
@[simp] theorem Ctl.setUse_adm (c : Ctl) (u : Usage) : (c.setUse u).adm = c.adm := (rfl)
@[simp] theorem Ctl.setUse_axs (c : Ctl) (u : Usage) : (c.setUse u).axs = c.axs := (rfl)
@[simp] theorem Ctl.setUse_care (c : Ctl) (u : Usage) : (c.setUse u).care = c.care := (rfl)
@[simp] theorem Ctl.setUse_chn (c : Ctl) (u : Usage) : (c.setUse u).chn = c.chn := (rfl)
@[simp] theorem Ctl.setUse_page (c : Ctl) (u : Usage) : (c.setUse u).page = c.page := (rfl)
@[simp] theorem Ctl.setUse_pos (c : Ctl) (u : Usage) : (c.setUse u).pos = c.pos := (rfl)
@[simp] theorem Ctl.setUse_fire (c : Ctl) (u : Usage) : (c.setUse u).fire = c.fire := (rfl)
@[simp] theorem Ctl.setUse_mem (c : Ctl) (u : Usage) : (c.setUse u).mem = c.mem := (rfl)
@[simp] theorem Ctl.setUse_loop (c : Ctl) (u : Usage) : (c.setUse u).loop = c.loop := (rfl)
@[simp] theorem Ctl.setUse_keys (c : Ctl) (u : Usage) : (c.setUse u).keys = c.keys := (rfl)
@[simp] theorem Ctl.setUse_attic (c : Ctl) (u : Usage) : (c.setUse u).attic = c.attic := (rfl)
@[simp] theorem Ctl.setUse_life (c : Ctl) (u : Usage) : (c.setUse u).life = c.life := (rfl)
@[simp] theorem Ctl.setUse_pwr (c : Ctl) (u : Usage) : (c.setUse u).pwr = c.pwr := (rfl)
@[simp] theorem Ctl.setUse_units (c : Ctl) (u : Usage) : (c.setUse u).units = c.units := (rfl)
@[simp] theorem Ctl.setUse_val_of (c : Ctl) (u : Usage) (j : Nat) : (c.setUse u).val j = c.val j := (rfl)
@[simp] theorem Ctl.setUse_int_of (c : Ctl) (u : Usage) (j : Nat) : (c.setUse u).int j = c.int j := (rfl)
@[simp] theorem Ctl.setUse_nat_of (c : Ctl) (u : Usage) (j : Nat) : (c.setUse u).nat j = c.nat j := (rfl)
@[simp] theorem Ctl.setUse_on_of (c : Ctl) (u : Usage) (j : Nat) : (c.setUse u).on j = c.on j := (rfl)
@[simp] theorem Ctl.setUse_oct_of (c : Ctl) (u : Usage) (j : Nat) : (c.setUse u).oct j = c.oct j := (rfl)
@[simp] theorem Ctl.setUse_sess (c : Ctl) (u : Usage) (j : Nat) : (c.setUse u).sess j = c.sess j := (rfl)
@[simp] theorem Ctl.setUse_use (c : Ctl) (u : Usage) : (c.setUse u).use = u := (rfl)

/-! ### setSlot -/

@[simp] theorem Ctl.setSlot_now (c : Ctl) (base : Nat) (b : List Byte) : (c.setSlot base b).now = c.now := (rfl)
@[simp] theorem Ctl.setSlot_free (c : Ctl) (base : Nat) (b : List Byte) : (c.setSlot base b).free = c.free := (rfl)
@[simp] theorem Ctl.setSlot_out (c : Ctl) (base : Nat) (b : List Byte) : (c.setSlot base b).out = c.out := (rfl)
@[simp] theorem Ctl.setSlot_dict (c : Ctl) (base : Nat) (b : List Byte) : (c.setSlot base b).dict = c.dict := (rfl)
@[simp] theorem Ctl.setSlot_ydp (c : Ctl) (base : Nat) (b : List Byte) : (c.setSlot base b).ydp = c.ydp := (rfl)
@[simp] theorem Ctl.setSlot_bell (c : Ctl) (base : Nat) (b : List Byte) : (c.setSlot base b).bell = c.bell := (rfl)
@[simp] theorem Ctl.setSlot_flt (c : Ctl) (base : Nat) (b : List Byte) : (c.setSlot base b).flt = c.flt := (rfl)
@[simp] theorem Ctl.setSlot_clock (c : Ctl) (base : Nat) (b : List Byte) : (c.setSlot base b).clock = c.clock := (rfl)
@[simp] theorem Ctl.setSlot_host (c : Ctl) (base : Nat) (b : List Byte) : (c.setSlot base b).host = c.host := (rfl)
@[simp] theorem Ctl.setSlot_phase (c : Ctl) (base : Nat) (b : List Byte) : (c.setSlot base b).phase = c.phase := (rfl)
@[simp] theorem Ctl.setSlot_adm (c : Ctl) (base : Nat) (b : List Byte) : (c.setSlot base b).adm = c.adm := (rfl)
@[simp] theorem Ctl.setSlot_axs (c : Ctl) (base : Nat) (b : List Byte) : (c.setSlot base b).axs = c.axs := (rfl)
@[simp] theorem Ctl.setSlot_care (c : Ctl) (base : Nat) (b : List Byte) : (c.setSlot base b).care = c.care := (rfl)
@[simp] theorem Ctl.setSlot_chn (c : Ctl) (base : Nat) (b : List Byte) : (c.setSlot base b).chn = c.chn := (rfl)
@[simp] theorem Ctl.setSlot_page (c : Ctl) (base : Nat) (b : List Byte) : (c.setSlot base b).page = c.page := (rfl)
@[simp] theorem Ctl.setSlot_pos (c : Ctl) (base : Nat) (b : List Byte) : (c.setSlot base b).pos = c.pos := (rfl)
@[simp] theorem Ctl.setSlot_fire (c : Ctl) (base : Nat) (b : List Byte) : (c.setSlot base b).fire = c.fire := (rfl)
@[simp] theorem Ctl.setSlot_mem (c : Ctl) (base : Nat) (b : List Byte) : (c.setSlot base b).mem = c.mem := (rfl)
@[simp] theorem Ctl.setSlot_loop (c : Ctl) (base : Nat) (b : List Byte) : (c.setSlot base b).loop = c.loop := (rfl)
@[simp] theorem Ctl.setSlot_use (c : Ctl) (base : Nat) (b : List Byte) : (c.setSlot base b).use = c.use := (rfl)
@[simp] theorem Ctl.setSlot_keys (c : Ctl) (base : Nat) (b : List Byte) : (c.setSlot base b).keys = c.keys := (rfl)
@[simp] theorem Ctl.setSlot_life (c : Ctl) (base : Nat) (b : List Byte) : (c.setSlot base b).life = c.life := (rfl)
@[simp] theorem Ctl.setSlot_pwr (c : Ctl) (base : Nat) (b : List Byte) : (c.setSlot base b).pwr = c.pwr := (rfl)
@[simp] theorem Ctl.setSlot_units (c : Ctl) (base : Nat) (b : List Byte) : (c.setSlot base b).units = c.units := (rfl)
@[simp] theorem Ctl.setSlot_val_of (c : Ctl) (base : Nat) (b : List Byte) (j : Nat) : (c.setSlot base b).val j = c.val j := (rfl)
@[simp] theorem Ctl.setSlot_int_of (c : Ctl) (base : Nat) (b : List Byte) (j : Nat) : (c.setSlot base b).int j = c.int j := (rfl)
@[simp] theorem Ctl.setSlot_nat_of (c : Ctl) (base : Nat) (b : List Byte) (j : Nat) : (c.setSlot base b).nat j = c.nat j := (rfl)
@[simp] theorem Ctl.setSlot_on_of (c : Ctl) (base : Nat) (b : List Byte) (j : Nat) : (c.setSlot base b).on j = c.on j := (rfl)
@[simp] theorem Ctl.setSlot_oct_of (c : Ctl) (base : Nat) (b : List Byte) (j : Nat) : (c.setSlot base b).oct j = c.oct j := (rfl)
@[simp] theorem Ctl.setSlot_sess (c : Ctl) (base : Nat) (b : List Byte) (j : Nat) : (c.setSlot base b).sess j = c.sess j := (rfl)

/-! ### setJobs -/

@[simp] theorem Ctl.setJobs_now (c : Ctl) (js : List AtticJob) : (c.setJobs js).now = c.now := (rfl)
@[simp] theorem Ctl.setJobs_free (c : Ctl) (js : List AtticJob) : (c.setJobs js).free = c.free := (rfl)
@[simp] theorem Ctl.setJobs_out (c : Ctl) (js : List AtticJob) : (c.setJobs js).out = c.out := (rfl)
@[simp] theorem Ctl.setJobs_dict (c : Ctl) (js : List AtticJob) : (c.setJobs js).dict = c.dict := (rfl)
@[simp] theorem Ctl.setJobs_ydp (c : Ctl) (js : List AtticJob) : (c.setJobs js).ydp = c.ydp := (rfl)
@[simp] theorem Ctl.setJobs_bell (c : Ctl) (js : List AtticJob) : (c.setJobs js).bell = c.bell := (rfl)
@[simp] theorem Ctl.setJobs_flt (c : Ctl) (js : List AtticJob) : (c.setJobs js).flt = c.flt := (rfl)
@[simp] theorem Ctl.setJobs_clock (c : Ctl) (js : List AtticJob) : (c.setJobs js).clock = c.clock := (rfl)
@[simp] theorem Ctl.setJobs_host (c : Ctl) (js : List AtticJob) : (c.setJobs js).host = c.host := (rfl)
@[simp] theorem Ctl.setJobs_phase (c : Ctl) (js : List AtticJob) : (c.setJobs js).phase = c.phase := (rfl)
@[simp] theorem Ctl.setJobs_adm (c : Ctl) (js : List AtticJob) : (c.setJobs js).adm = c.adm := (rfl)
@[simp] theorem Ctl.setJobs_axs (c : Ctl) (js : List AtticJob) : (c.setJobs js).axs = c.axs := (rfl)
@[simp] theorem Ctl.setJobs_care (c : Ctl) (js : List AtticJob) : (c.setJobs js).care = c.care := (rfl)
@[simp] theorem Ctl.setJobs_chn (c : Ctl) (js : List AtticJob) : (c.setJobs js).chn = c.chn := (rfl)
@[simp] theorem Ctl.setJobs_page (c : Ctl) (js : List AtticJob) : (c.setJobs js).page = c.page := (rfl)
@[simp] theorem Ctl.setJobs_pos (c : Ctl) (js : List AtticJob) : (c.setJobs js).pos = c.pos := (rfl)
@[simp] theorem Ctl.setJobs_fire (c : Ctl) (js : List AtticJob) : (c.setJobs js).fire = c.fire := (rfl)
@[simp] theorem Ctl.setJobs_mem (c : Ctl) (js : List AtticJob) : (c.setJobs js).mem = c.mem := (rfl)
@[simp] theorem Ctl.setJobs_loop (c : Ctl) (js : List AtticJob) : (c.setJobs js).loop = c.loop := (rfl)
@[simp] theorem Ctl.setJobs_use (c : Ctl) (js : List AtticJob) : (c.setJobs js).use = c.use := (rfl)
@[simp] theorem Ctl.setJobs_keys (c : Ctl) (js : List AtticJob) : (c.setJobs js).keys = c.keys := (rfl)
@[simp] theorem Ctl.setJobs_life (c : Ctl) (js : List AtticJob) : (c.setJobs js).life = c.life := (rfl)
@[simp] theorem Ctl.setJobs_pwr (c : Ctl) (js : List AtticJob) : (c.setJobs js).pwr = c.pwr := (rfl)
@[simp] theorem Ctl.setJobs_units (c : Ctl) (js : List AtticJob) : (c.setJobs js).units = c.units := (rfl)
@[simp] theorem Ctl.setJobs_val_of (c : Ctl) (js : List AtticJob) (j : Nat) : (c.setJobs js).val j = c.val j := (rfl)
@[simp] theorem Ctl.setJobs_int_of (c : Ctl) (js : List AtticJob) (j : Nat) : (c.setJobs js).int j = c.int j := (rfl)
@[simp] theorem Ctl.setJobs_nat_of (c : Ctl) (js : List AtticJob) (j : Nat) : (c.setJobs js).nat j = c.nat j := (rfl)
@[simp] theorem Ctl.setJobs_on_of (c : Ctl) (js : List AtticJob) (j : Nat) : (c.setJobs js).on j = c.on j := (rfl)
@[simp] theorem Ctl.setJobs_oct_of (c : Ctl) (js : List AtticJob) (j : Nat) : (c.setJobs js).oct j = c.oct j := (rfl)
@[simp] theorem Ctl.setJobs_sess (c : Ctl) (js : List AtticJob) (j : Nat) : (c.setJobs js).sess j = c.sess j := (rfl)

/-! ### setLife -/

@[simp] theorem Ctl.setLife_now (c : Ctl) (x : Life) : (c.setLife x).now = c.now := (rfl)
@[simp] theorem Ctl.setLife_free (c : Ctl) (x : Life) : (c.setLife x).free = c.free := (rfl)
@[simp] theorem Ctl.setLife_out (c : Ctl) (x : Life) : (c.setLife x).out = c.out := (rfl)
@[simp] theorem Ctl.setLife_dict (c : Ctl) (x : Life) : (c.setLife x).dict = c.dict := (rfl)
@[simp] theorem Ctl.setLife_ydp (c : Ctl) (x : Life) : (c.setLife x).ydp = c.ydp := (rfl)
@[simp] theorem Ctl.setLife_bell (c : Ctl) (x : Life) : (c.setLife x).bell = c.bell := (rfl)
@[simp] theorem Ctl.setLife_flt (c : Ctl) (x : Life) : (c.setLife x).flt = c.flt := (rfl)
@[simp] theorem Ctl.setLife_clock (c : Ctl) (x : Life) : (c.setLife x).clock = c.clock := (rfl)
@[simp] theorem Ctl.setLife_host (c : Ctl) (x : Life) : (c.setLife x).host = c.host := (rfl)
@[simp] theorem Ctl.setLife_phase (c : Ctl) (x : Life) : (c.setLife x).phase = c.phase := (rfl)
@[simp] theorem Ctl.setLife_adm (c : Ctl) (x : Life) : (c.setLife x).adm = c.adm := (rfl)
@[simp] theorem Ctl.setLife_axs (c : Ctl) (x : Life) : (c.setLife x).axs = c.axs := (rfl)
@[simp] theorem Ctl.setLife_care (c : Ctl) (x : Life) : (c.setLife x).care = c.care := (rfl)
@[simp] theorem Ctl.setLife_chn (c : Ctl) (x : Life) : (c.setLife x).chn = c.chn := (rfl)
@[simp] theorem Ctl.setLife_page (c : Ctl) (x : Life) : (c.setLife x).page = c.page := (rfl)
@[simp] theorem Ctl.setLife_pos (c : Ctl) (x : Life) : (c.setLife x).pos = c.pos := (rfl)
@[simp] theorem Ctl.setLife_fire (c : Ctl) (x : Life) : (c.setLife x).fire = c.fire := (rfl)
@[simp] theorem Ctl.setLife_mem (c : Ctl) (x : Life) : (c.setLife x).mem = c.mem := (rfl)
@[simp] theorem Ctl.setLife_loop (c : Ctl) (x : Life) : (c.setLife x).loop = c.loop := (rfl)
@[simp] theorem Ctl.setLife_use (c : Ctl) (x : Life) : (c.setLife x).use = c.use := (rfl)
@[simp] theorem Ctl.setLife_keys (c : Ctl) (x : Life) : (c.setLife x).keys = c.keys := (rfl)
@[simp] theorem Ctl.setLife_attic (c : Ctl) (x : Life) : (c.setLife x).attic = c.attic := (rfl)
@[simp] theorem Ctl.setLife_pwr (c : Ctl) (x : Life) : (c.setLife x).pwr = c.pwr := (rfl)
@[simp] theorem Ctl.setLife_units (c : Ctl) (x : Life) : (c.setLife x).units = c.units := (rfl)
@[simp] theorem Ctl.setLife_val_of (c : Ctl) (x : Life) (j : Nat) : (c.setLife x).val j = c.val j := (rfl)
@[simp] theorem Ctl.setLife_int_of (c : Ctl) (x : Life) (j : Nat) : (c.setLife x).int j = c.int j := (rfl)
@[simp] theorem Ctl.setLife_nat_of (c : Ctl) (x : Life) (j : Nat) : (c.setLife x).nat j = c.nat j := (rfl)
@[simp] theorem Ctl.setLife_on_of (c : Ctl) (x : Life) (j : Nat) : (c.setLife x).on j = c.on j := (rfl)
@[simp] theorem Ctl.setLife_oct_of (c : Ctl) (x : Life) (j : Nat) : (c.setLife x).oct j = c.oct j := (rfl)
@[simp] theorem Ctl.setLife_sess (c : Ctl) (x : Life) (j : Nat) : (c.setLife x).sess j = c.sess j := (rfl)
@[simp] theorem Ctl.setLife_life (c : Ctl) (x : Life) : (c.setLife x).life = x := (rfl)

/-! ### setPwr -/

@[simp] theorem Ctl.setPwr_now (c : Ctl) (p : Power) : (c.setPwr p).now = c.now := (rfl)
@[simp] theorem Ctl.setPwr_free (c : Ctl) (p : Power) : (c.setPwr p).free = c.free := (rfl)
@[simp] theorem Ctl.setPwr_out (c : Ctl) (p : Power) : (c.setPwr p).out = c.out := (rfl)
@[simp] theorem Ctl.setPwr_dict (c : Ctl) (p : Power) : (c.setPwr p).dict = c.dict := (rfl)
@[simp] theorem Ctl.setPwr_ydp (c : Ctl) (p : Power) : (c.setPwr p).ydp = c.ydp := (rfl)
@[simp] theorem Ctl.setPwr_bell (c : Ctl) (p : Power) : (c.setPwr p).bell = c.bell := (rfl)
@[simp] theorem Ctl.setPwr_flt (c : Ctl) (p : Power) : (c.setPwr p).flt = c.flt := (rfl)
@[simp] theorem Ctl.setPwr_clock (c : Ctl) (p : Power) : (c.setPwr p).clock = c.clock := (rfl)
@[simp] theorem Ctl.setPwr_host (c : Ctl) (p : Power) : (c.setPwr p).host = c.host := (rfl)
@[simp] theorem Ctl.setPwr_phase (c : Ctl) (p : Power) : (c.setPwr p).phase = c.phase := (rfl)
@[simp] theorem Ctl.setPwr_adm (c : Ctl) (p : Power) : (c.setPwr p).adm = c.adm := (rfl)
@[simp] theorem Ctl.setPwr_axs (c : Ctl) (p : Power) : (c.setPwr p).axs = c.axs := (rfl)
@[simp] theorem Ctl.setPwr_care (c : Ctl) (p : Power) : (c.setPwr p).care = c.care := (rfl)
@[simp] theorem Ctl.setPwr_chn (c : Ctl) (p : Power) : (c.setPwr p).chn = c.chn := (rfl)
@[simp] theorem Ctl.setPwr_page (c : Ctl) (p : Power) : (c.setPwr p).page = c.page := (rfl)
@[simp] theorem Ctl.setPwr_pos (c : Ctl) (p : Power) : (c.setPwr p).pos = c.pos := (rfl)
@[simp] theorem Ctl.setPwr_fire (c : Ctl) (p : Power) : (c.setPwr p).fire = c.fire := (rfl)
@[simp] theorem Ctl.setPwr_mem (c : Ctl) (p : Power) : (c.setPwr p).mem = c.mem := (rfl)
@[simp] theorem Ctl.setPwr_loop (c : Ctl) (p : Power) : (c.setPwr p).loop = c.loop := (rfl)
@[simp] theorem Ctl.setPwr_use (c : Ctl) (p : Power) : (c.setPwr p).use = c.use := (rfl)
@[simp] theorem Ctl.setPwr_keys (c : Ctl) (p : Power) : (c.setPwr p).keys = c.keys := (rfl)
@[simp] theorem Ctl.setPwr_attic (c : Ctl) (p : Power) : (c.setPwr p).attic = c.attic := (rfl)
@[simp] theorem Ctl.setPwr_life (c : Ctl) (p : Power) : (c.setPwr p).life = c.life := (rfl)
@[simp] theorem Ctl.setPwr_units (c : Ctl) (p : Power) : (c.setPwr p).units = c.units := (rfl)
@[simp] theorem Ctl.setPwr_val_of (c : Ctl) (p : Power) (j : Nat) : (c.setPwr p).val j = c.val j := (rfl)
@[simp] theorem Ctl.setPwr_int_of (c : Ctl) (p : Power) (j : Nat) : (c.setPwr p).int j = c.int j := (rfl)
@[simp] theorem Ctl.setPwr_nat_of (c : Ctl) (p : Power) (j : Nat) : (c.setPwr p).nat j = c.nat j := (rfl)
@[simp] theorem Ctl.setPwr_on_of (c : Ctl) (p : Power) (j : Nat) : (c.setPwr p).on j = c.on j := (rfl)
@[simp] theorem Ctl.setPwr_oct_of (c : Ctl) (p : Power) (j : Nat) : (c.setPwr p).oct j = c.oct j := (rfl)
@[simp] theorem Ctl.setPwr_sess (c : Ctl) (p : Power) (j : Nat) : (c.setPwr p).sess j = c.sess j := (rfl)
@[simp] theorem Ctl.setPwr_pwr (c : Ctl) (p : Power) : (c.setPwr p).pwr = p := (rfl)

/-! ### setCam -/

@[simp] theorem Ctl.setCam_now (c : Ctl) (k : Nat) (x : Camera) : (c.setCam k x).now = c.now := (rfl)
@[simp] theorem Ctl.setCam_free (c : Ctl) (k : Nat) (x : Camera) : (c.setCam k x).free = c.free := (rfl)
@[simp] theorem Ctl.setCam_out (c : Ctl) (k : Nat) (x : Camera) : (c.setCam k x).out = c.out := (rfl)
@[simp] theorem Ctl.setCam_dict (c : Ctl) (k : Nat) (x : Camera) : (c.setCam k x).dict = c.dict := (rfl)
@[simp] theorem Ctl.setCam_ydp (c : Ctl) (k : Nat) (x : Camera) : (c.setCam k x).ydp = c.ydp := (rfl)
@[simp] theorem Ctl.setCam_bell (c : Ctl) (k : Nat) (x : Camera) : (c.setCam k x).bell = c.bell := (rfl)
@[simp] theorem Ctl.setCam_flt (c : Ctl) (k : Nat) (x : Camera) : (c.setCam k x).flt = c.flt := (rfl)
@[simp] theorem Ctl.setCam_clock (c : Ctl) (k : Nat) (x : Camera) : (c.setCam k x).clock = c.clock := (rfl)
@[simp] theorem Ctl.setCam_host (c : Ctl) (k : Nat) (x : Camera) : (c.setCam k x).host = c.host := (rfl)
@[simp] theorem Ctl.setCam_phase (c : Ctl) (k : Nat) (x : Camera) : (c.setCam k x).phase = c.phase := (rfl)
@[simp] theorem Ctl.setCam_adm (c : Ctl) (k : Nat) (x : Camera) : (c.setCam k x).adm = c.adm := (rfl)
@[simp] theorem Ctl.setCam_axs (c : Ctl) (k : Nat) (x : Camera) : (c.setCam k x).axs = c.axs := (rfl)
@[simp] theorem Ctl.setCam_care (c : Ctl) (k : Nat) (x : Camera) : (c.setCam k x).care = c.care := (rfl)
@[simp] theorem Ctl.setCam_chn (c : Ctl) (k : Nat) (x : Camera) : (c.setCam k x).chn = c.chn := (rfl)
@[simp] theorem Ctl.setCam_page (c : Ctl) (k : Nat) (x : Camera) : (c.setCam k x).page = c.page := (rfl)
@[simp] theorem Ctl.setCam_pos (c : Ctl) (k : Nat) (x : Camera) : (c.setCam k x).pos = c.pos := (rfl)
@[simp] theorem Ctl.setCam_fire (c : Ctl) (k : Nat) (x : Camera) : (c.setCam k x).fire = c.fire := (rfl)
@[simp] theorem Ctl.setCam_mem (c : Ctl) (k : Nat) (x : Camera) : (c.setCam k x).mem = c.mem := (rfl)
@[simp] theorem Ctl.setCam_loop (c : Ctl) (k : Nat) (x : Camera) : (c.setCam k x).loop = c.loop := (rfl)
@[simp] theorem Ctl.setCam_use (c : Ctl) (k : Nat) (x : Camera) : (c.setCam k x).use = c.use := (rfl)
@[simp] theorem Ctl.setCam_keys (c : Ctl) (k : Nat) (x : Camera) : (c.setCam k x).keys = c.keys := (rfl)
@[simp] theorem Ctl.setCam_attic (c : Ctl) (k : Nat) (x : Camera) : (c.setCam k x).attic = c.attic := (rfl)
@[simp] theorem Ctl.setCam_life (c : Ctl) (k : Nat) (x : Camera) : (c.setCam k x).life = c.life := (rfl)
@[simp] theorem Ctl.setCam_pwr (c : Ctl) (k : Nat) (x : Camera) : (c.setCam k x).pwr = c.pwr := (rfl)
@[simp] theorem Ctl.setCam_val_of (c : Ctl) (k : Nat) (x : Camera) (j : Nat) : (c.setCam k x).val j = c.val j := (rfl)
@[simp] theorem Ctl.setCam_int_of (c : Ctl) (k : Nat) (x : Camera) (j : Nat) : (c.setCam k x).int j = c.int j := (rfl)
@[simp] theorem Ctl.setCam_nat_of (c : Ctl) (k : Nat) (x : Camera) (j : Nat) : (c.setCam k x).nat j = c.nat j := (rfl)
@[simp] theorem Ctl.setCam_on_of (c : Ctl) (k : Nat) (x : Camera) (j : Nat) : (c.setCam k x).on j = c.on j := (rfl)
@[simp] theorem Ctl.setCam_oct_of (c : Ctl) (k : Nat) (x : Camera) (j : Nat) : (c.setCam k x).oct j = c.oct j := (rfl)
@[simp] theorem Ctl.setCam_sess (c : Ctl) (k : Nat) (x : Camera) (j : Nat) : (c.setCam k x).sess j = c.sess j := (rfl)

/-! ### setLane -/

@[simp] theorem Ctl.setLane_now (c : Ctl) (l : Nat) (x : Lane) : (c.setLane l x).now = c.now := (rfl)
@[simp] theorem Ctl.setLane_free (c : Ctl) (l : Nat) (x : Lane) : (c.setLane l x).free = c.free := (rfl)
@[simp] theorem Ctl.setLane_out (c : Ctl) (l : Nat) (x : Lane) : (c.setLane l x).out = c.out := (rfl)
@[simp] theorem Ctl.setLane_dict (c : Ctl) (l : Nat) (x : Lane) : (c.setLane l x).dict = c.dict := (rfl)
@[simp] theorem Ctl.setLane_ydp (c : Ctl) (l : Nat) (x : Lane) : (c.setLane l x).ydp = c.ydp := (rfl)
@[simp] theorem Ctl.setLane_bell (c : Ctl) (l : Nat) (x : Lane) : (c.setLane l x).bell = c.bell := (rfl)
@[simp] theorem Ctl.setLane_flt (c : Ctl) (l : Nat) (x : Lane) : (c.setLane l x).flt = c.flt := (rfl)
@[simp] theorem Ctl.setLane_clock (c : Ctl) (l : Nat) (x : Lane) : (c.setLane l x).clock = c.clock := (rfl)
@[simp] theorem Ctl.setLane_host (c : Ctl) (l : Nat) (x : Lane) : (c.setLane l x).host = c.host := (rfl)
@[simp] theorem Ctl.setLane_phase (c : Ctl) (l : Nat) (x : Lane) : (c.setLane l x).phase = c.phase := (rfl)
@[simp] theorem Ctl.setLane_adm (c : Ctl) (l : Nat) (x : Lane) : (c.setLane l x).adm = c.adm := (rfl)
@[simp] theorem Ctl.setLane_axs (c : Ctl) (l : Nat) (x : Lane) : (c.setLane l x).axs = c.axs := (rfl)
@[simp] theorem Ctl.setLane_care (c : Ctl) (l : Nat) (x : Lane) : (c.setLane l x).care = c.care := (rfl)
@[simp] theorem Ctl.setLane_chn (c : Ctl) (l : Nat) (x : Lane) : (c.setLane l x).chn = c.chn := (rfl)
@[simp] theorem Ctl.setLane_page (c : Ctl) (l : Nat) (x : Lane) : (c.setLane l x).page = c.page := (rfl)
@[simp] theorem Ctl.setLane_pos (c : Ctl) (l : Nat) (x : Lane) : (c.setLane l x).pos = c.pos := (rfl)
@[simp] theorem Ctl.setLane_fire (c : Ctl) (l : Nat) (x : Lane) : (c.setLane l x).fire = c.fire := (rfl)
@[simp] theorem Ctl.setLane_mem (c : Ctl) (l : Nat) (x : Lane) : (c.setLane l x).mem = c.mem := (rfl)
@[simp] theorem Ctl.setLane_loop (c : Ctl) (l : Nat) (x : Lane) : (c.setLane l x).loop = c.loop := (rfl)
@[simp] theorem Ctl.setLane_use (c : Ctl) (l : Nat) (x : Lane) : (c.setLane l x).use = c.use := (rfl)
@[simp] theorem Ctl.setLane_keys (c : Ctl) (l : Nat) (x : Lane) : (c.setLane l x).keys = c.keys := (rfl)
@[simp] theorem Ctl.setLane_attic (c : Ctl) (l : Nat) (x : Lane) : (c.setLane l x).attic = c.attic := (rfl)
@[simp] theorem Ctl.setLane_life (c : Ctl) (l : Nat) (x : Lane) : (c.setLane l x).life = c.life := (rfl)
@[simp] theorem Ctl.setLane_pwr (c : Ctl) (l : Nat) (x : Lane) : (c.setLane l x).pwr = c.pwr := (rfl)
@[simp] theorem Ctl.setLane_val_of (c : Ctl) (l : Nat) (x : Lane) (j : Nat) : (c.setLane l x).val j = c.val j := (rfl)
@[simp] theorem Ctl.setLane_int_of (c : Ctl) (l : Nat) (x : Lane) (j : Nat) : (c.setLane l x).int j = c.int j := (rfl)
@[simp] theorem Ctl.setLane_nat_of (c : Ctl) (l : Nat) (x : Lane) (j : Nat) : (c.setLane l x).nat j = c.nat j := (rfl)
@[simp] theorem Ctl.setLane_on_of (c : Ctl) (l : Nat) (x : Lane) (j : Nat) : (c.setLane l x).on j = c.on j := (rfl)
@[simp] theorem Ctl.setLane_oct_of (c : Ctl) (l : Nat) (x : Lane) (j : Nat) : (c.setLane l x).oct j = c.oct j := (rfl)
@[simp] theorem Ctl.setLane_sess (c : Ctl) (l : Nat) (x : Lane) (j : Nat) : (c.setLane l x).sess j = c.sess j := (rfl)

/-! ### setRec -/

@[simp] theorem Ctl.setRec_now (c : Ctl) (r : Recorder) : (c.setRec r).now = c.now := (rfl)
@[simp] theorem Ctl.setRec_free (c : Ctl) (r : Recorder) : (c.setRec r).free = c.free := (rfl)
@[simp] theorem Ctl.setRec_out (c : Ctl) (r : Recorder) : (c.setRec r).out = c.out := (rfl)
@[simp] theorem Ctl.setRec_dict (c : Ctl) (r : Recorder) : (c.setRec r).dict = c.dict := (rfl)
@[simp] theorem Ctl.setRec_ydp (c : Ctl) (r : Recorder) : (c.setRec r).ydp = c.ydp := (rfl)
@[simp] theorem Ctl.setRec_bell (c : Ctl) (r : Recorder) : (c.setRec r).bell = c.bell := (rfl)
@[simp] theorem Ctl.setRec_flt (c : Ctl) (r : Recorder) : (c.setRec r).flt = c.flt := (rfl)
@[simp] theorem Ctl.setRec_clock (c : Ctl) (r : Recorder) : (c.setRec r).clock = c.clock := (rfl)
@[simp] theorem Ctl.setRec_host (c : Ctl) (r : Recorder) : (c.setRec r).host = c.host := (rfl)
@[simp] theorem Ctl.setRec_phase (c : Ctl) (r : Recorder) : (c.setRec r).phase = c.phase := (rfl)
@[simp] theorem Ctl.setRec_adm (c : Ctl) (r : Recorder) : (c.setRec r).adm = c.adm := (rfl)
@[simp] theorem Ctl.setRec_axs (c : Ctl) (r : Recorder) : (c.setRec r).axs = c.axs := (rfl)
@[simp] theorem Ctl.setRec_care (c : Ctl) (r : Recorder) : (c.setRec r).care = c.care := (rfl)
@[simp] theorem Ctl.setRec_chn (c : Ctl) (r : Recorder) : (c.setRec r).chn = c.chn := (rfl)
@[simp] theorem Ctl.setRec_page (c : Ctl) (r : Recorder) : (c.setRec r).page = c.page := (rfl)
@[simp] theorem Ctl.setRec_pos (c : Ctl) (r : Recorder) : (c.setRec r).pos = c.pos := (rfl)
@[simp] theorem Ctl.setRec_fire (c : Ctl) (r : Recorder) : (c.setRec r).fire = c.fire := (rfl)
@[simp] theorem Ctl.setRec_mem (c : Ctl) (r : Recorder) : (c.setRec r).mem = c.mem := (rfl)
@[simp] theorem Ctl.setRec_loop (c : Ctl) (r : Recorder) : (c.setRec r).loop = c.loop := (rfl)
@[simp] theorem Ctl.setRec_use (c : Ctl) (r : Recorder) : (c.setRec r).use = c.use := (rfl)
@[simp] theorem Ctl.setRec_keys (c : Ctl) (r : Recorder) : (c.setRec r).keys = c.keys := (rfl)
@[simp] theorem Ctl.setRec_attic (c : Ctl) (r : Recorder) : (c.setRec r).attic = c.attic := (rfl)
@[simp] theorem Ctl.setRec_life (c : Ctl) (r : Recorder) : (c.setRec r).life = c.life := (rfl)
@[simp] theorem Ctl.setRec_pwr (c : Ctl) (r : Recorder) : (c.setRec r).pwr = c.pwr := (rfl)
@[simp] theorem Ctl.setRec_val_of (c : Ctl) (r : Recorder) (j : Nat) : (c.setRec r).val j = c.val j := (rfl)
@[simp] theorem Ctl.setRec_int_of (c : Ctl) (r : Recorder) (j : Nat) : (c.setRec r).int j = c.int j := (rfl)
@[simp] theorem Ctl.setRec_nat_of (c : Ctl) (r : Recorder) (j : Nat) : (c.setRec r).nat j = c.nat j := (rfl)
@[simp] theorem Ctl.setRec_on_of (c : Ctl) (r : Recorder) (j : Nat) : (c.setRec r).on j = c.on j := (rfl)
@[simp] theorem Ctl.setRec_oct_of (c : Ctl) (r : Recorder) (j : Nat) : (c.setRec r).oct j = c.oct j := (rfl)
@[simp] theorem Ctl.setRec_sess (c : Ctl) (r : Recorder) (j : Nat) : (c.setRec r).sess j = c.sess j := (rfl)

/-! ### setAdm -/

@[simp] theorem Ctl.setAdm_now (c : Ctl) (x : Admission) : (c.setAdm x).now = c.now := (rfl)
@[simp] theorem Ctl.setAdm_free (c : Ctl) (x : Admission) : (c.setAdm x).free = c.free := (rfl)
@[simp] theorem Ctl.setAdm_out (c : Ctl) (x : Admission) : (c.setAdm x).out = c.out := (rfl)
@[simp] theorem Ctl.setAdm_dict (c : Ctl) (x : Admission) : (c.setAdm x).dict = c.dict := (rfl)
@[simp] theorem Ctl.setAdm_ydp (c : Ctl) (x : Admission) : (c.setAdm x).ydp = c.ydp := (rfl)
@[simp] theorem Ctl.setAdm_bell (c : Ctl) (x : Admission) : (c.setAdm x).bell = c.bell := (rfl)
@[simp] theorem Ctl.setAdm_flt (c : Ctl) (x : Admission) : (c.setAdm x).flt = c.flt := (rfl)
@[simp] theorem Ctl.setAdm_clock (c : Ctl) (x : Admission) : (c.setAdm x).clock = c.clock := (rfl)
@[simp] theorem Ctl.setAdm_host (c : Ctl) (x : Admission) : (c.setAdm x).host = c.host := (rfl)
@[simp] theorem Ctl.setAdm_phase (c : Ctl) (x : Admission) : (c.setAdm x).phase = c.phase := (rfl)
@[simp] theorem Ctl.setAdm_axs (c : Ctl) (x : Admission) : (c.setAdm x).axs = c.axs := (rfl)
@[simp] theorem Ctl.setAdm_care (c : Ctl) (x : Admission) : (c.setAdm x).care = c.care := (rfl)
@[simp] theorem Ctl.setAdm_chn (c : Ctl) (x : Admission) : (c.setAdm x).chn = c.chn := (rfl)
@[simp] theorem Ctl.setAdm_page (c : Ctl) (x : Admission) : (c.setAdm x).page = c.page := (rfl)
@[simp] theorem Ctl.setAdm_pos (c : Ctl) (x : Admission) : (c.setAdm x).pos = c.pos := (rfl)
@[simp] theorem Ctl.setAdm_fire (c : Ctl) (x : Admission) : (c.setAdm x).fire = c.fire := (rfl)
@[simp] theorem Ctl.setAdm_mem (c : Ctl) (x : Admission) : (c.setAdm x).mem = c.mem := (rfl)
@[simp] theorem Ctl.setAdm_loop (c : Ctl) (x : Admission) : (c.setAdm x).loop = c.loop := (rfl)
@[simp] theorem Ctl.setAdm_use (c : Ctl) (x : Admission) : (c.setAdm x).use = c.use := (rfl)
@[simp] theorem Ctl.setAdm_keys (c : Ctl) (x : Admission) : (c.setAdm x).keys = c.keys := (rfl)
@[simp] theorem Ctl.setAdm_attic (c : Ctl) (x : Admission) : (c.setAdm x).attic = c.attic := (rfl)
@[simp] theorem Ctl.setAdm_life (c : Ctl) (x : Admission) : (c.setAdm x).life = c.life := (rfl)
@[simp] theorem Ctl.setAdm_pwr (c : Ctl) (x : Admission) : (c.setAdm x).pwr = c.pwr := (rfl)
@[simp] theorem Ctl.setAdm_units (c : Ctl) (x : Admission) : (c.setAdm x).units = c.units := (rfl)
@[simp] theorem Ctl.setAdm_val_of (c : Ctl) (x : Admission) (j : Nat) : (c.setAdm x).val j = c.val j := (rfl)
@[simp] theorem Ctl.setAdm_int_of (c : Ctl) (x : Admission) (j : Nat) : (c.setAdm x).int j = c.int j := (rfl)
@[simp] theorem Ctl.setAdm_nat_of (c : Ctl) (x : Admission) (j : Nat) : (c.setAdm x).nat j = c.nat j := (rfl)
@[simp] theorem Ctl.setAdm_on_of (c : Ctl) (x : Admission) (j : Nat) : (c.setAdm x).on j = c.on j := (rfl)
@[simp] theorem Ctl.setAdm_oct_of (c : Ctl) (x : Admission) (j : Nat) : (c.setAdm x).oct j = c.oct j := (rfl)
@[simp] theorem Ctl.setAdm_sess (c : Ctl) (x : Admission) (j : Nat) : (c.setAdm x).sess j = c.sess j := (rfl)
@[simp] theorem Ctl.setAdm_adm (c : Ctl) (x : Admission) : (c.setAdm x).adm = x := (rfl)

/-! ### setAxs -/

@[simp] theorem Ctl.setAxs_now (c : Ctl) (x : Axes) : (c.setAxs x).now = c.now := (rfl)
@[simp] theorem Ctl.setAxs_free (c : Ctl) (x : Axes) : (c.setAxs x).free = c.free := (rfl)
@[simp] theorem Ctl.setAxs_out (c : Ctl) (x : Axes) : (c.setAxs x).out = c.out := (rfl)
@[simp] theorem Ctl.setAxs_dict (c : Ctl) (x : Axes) : (c.setAxs x).dict = c.dict := (rfl)
@[simp] theorem Ctl.setAxs_ydp (c : Ctl) (x : Axes) : (c.setAxs x).ydp = c.ydp := (rfl)
@[simp] theorem Ctl.setAxs_bell (c : Ctl) (x : Axes) : (c.setAxs x).bell = c.bell := (rfl)
@[simp] theorem Ctl.setAxs_flt (c : Ctl) (x : Axes) : (c.setAxs x).flt = c.flt := (rfl)
@[simp] theorem Ctl.setAxs_clock (c : Ctl) (x : Axes) : (c.setAxs x).clock = c.clock := (rfl)
@[simp] theorem Ctl.setAxs_host (c : Ctl) (x : Axes) : (c.setAxs x).host = c.host := (rfl)
@[simp] theorem Ctl.setAxs_phase (c : Ctl) (x : Axes) : (c.setAxs x).phase = c.phase := (rfl)
@[simp] theorem Ctl.setAxs_adm (c : Ctl) (x : Axes) : (c.setAxs x).adm = c.adm := (rfl)
@[simp] theorem Ctl.setAxs_care (c : Ctl) (x : Axes) : (c.setAxs x).care = c.care := (rfl)
@[simp] theorem Ctl.setAxs_chn (c : Ctl) (x : Axes) : (c.setAxs x).chn = c.chn := (rfl)
@[simp] theorem Ctl.setAxs_page (c : Ctl) (x : Axes) : (c.setAxs x).page = c.page := (rfl)
@[simp] theorem Ctl.setAxs_pos (c : Ctl) (x : Axes) : (c.setAxs x).pos = c.pos := (rfl)
@[simp] theorem Ctl.setAxs_fire (c : Ctl) (x : Axes) : (c.setAxs x).fire = c.fire := (rfl)
@[simp] theorem Ctl.setAxs_mem (c : Ctl) (x : Axes) : (c.setAxs x).mem = c.mem := (rfl)
@[simp] theorem Ctl.setAxs_loop (c : Ctl) (x : Axes) : (c.setAxs x).loop = c.loop := (rfl)
@[simp] theorem Ctl.setAxs_use (c : Ctl) (x : Axes) : (c.setAxs x).use = c.use := (rfl)
@[simp] theorem Ctl.setAxs_keys (c : Ctl) (x : Axes) : (c.setAxs x).keys = c.keys := (rfl)
@[simp] theorem Ctl.setAxs_attic (c : Ctl) (x : Axes) : (c.setAxs x).attic = c.attic := (rfl)
@[simp] theorem Ctl.setAxs_life (c : Ctl) (x : Axes) : (c.setAxs x).life = c.life := (rfl)
@[simp] theorem Ctl.setAxs_pwr (c : Ctl) (x : Axes) : (c.setAxs x).pwr = c.pwr := (rfl)
@[simp] theorem Ctl.setAxs_units (c : Ctl) (x : Axes) : (c.setAxs x).units = c.units := (rfl)
@[simp] theorem Ctl.setAxs_val_of (c : Ctl) (x : Axes) (j : Nat) : (c.setAxs x).val j = c.val j := (rfl)
@[simp] theorem Ctl.setAxs_int_of (c : Ctl) (x : Axes) (j : Nat) : (c.setAxs x).int j = c.int j := (rfl)
@[simp] theorem Ctl.setAxs_nat_of (c : Ctl) (x : Axes) (j : Nat) : (c.setAxs x).nat j = c.nat j := (rfl)
@[simp] theorem Ctl.setAxs_on_of (c : Ctl) (x : Axes) (j : Nat) : (c.setAxs x).on j = c.on j := (rfl)
@[simp] theorem Ctl.setAxs_oct_of (c : Ctl) (x : Axes) (j : Nat) : (c.setAxs x).oct j = c.oct j := (rfl)
@[simp] theorem Ctl.setAxs_sess (c : Ctl) (x : Axes) (j : Nat) : (c.setAxs x).sess j = c.sess j := (rfl)
@[simp] theorem Ctl.setAxs_axs (c : Ctl) (x : Axes) : (c.setAxs x).axs = x := (rfl)

/-! ### setCare -/

@[simp] theorem Ctl.setCare_now (c : Ctl) (x : Care) : (c.setCare x).now = c.now := (rfl)
@[simp] theorem Ctl.setCare_free (c : Ctl) (x : Care) : (c.setCare x).free = c.free := (rfl)
@[simp] theorem Ctl.setCare_out (c : Ctl) (x : Care) : (c.setCare x).out = c.out := (rfl)
@[simp] theorem Ctl.setCare_dict (c : Ctl) (x : Care) : (c.setCare x).dict = c.dict := (rfl)
@[simp] theorem Ctl.setCare_ydp (c : Ctl) (x : Care) : (c.setCare x).ydp = c.ydp := (rfl)
@[simp] theorem Ctl.setCare_bell (c : Ctl) (x : Care) : (c.setCare x).bell = c.bell := (rfl)
@[simp] theorem Ctl.setCare_flt (c : Ctl) (x : Care) : (c.setCare x).flt = c.flt := (rfl)
@[simp] theorem Ctl.setCare_clock (c : Ctl) (x : Care) : (c.setCare x).clock = c.clock := (rfl)
@[simp] theorem Ctl.setCare_host (c : Ctl) (x : Care) : (c.setCare x).host = c.host := (rfl)
@[simp] theorem Ctl.setCare_phase (c : Ctl) (x : Care) : (c.setCare x).phase = c.phase := (rfl)
@[simp] theorem Ctl.setCare_adm (c : Ctl) (x : Care) : (c.setCare x).adm = c.adm := (rfl)
@[simp] theorem Ctl.setCare_axs (c : Ctl) (x : Care) : (c.setCare x).axs = c.axs := (rfl)
@[simp] theorem Ctl.setCare_chn (c : Ctl) (x : Care) : (c.setCare x).chn = c.chn := (rfl)
@[simp] theorem Ctl.setCare_page (c : Ctl) (x : Care) : (c.setCare x).page = c.page := (rfl)
@[simp] theorem Ctl.setCare_pos (c : Ctl) (x : Care) : (c.setCare x).pos = c.pos := (rfl)
@[simp] theorem Ctl.setCare_fire (c : Ctl) (x : Care) : (c.setCare x).fire = c.fire := (rfl)
@[simp] theorem Ctl.setCare_mem (c : Ctl) (x : Care) : (c.setCare x).mem = c.mem := (rfl)
@[simp] theorem Ctl.setCare_loop (c : Ctl) (x : Care) : (c.setCare x).loop = c.loop := (rfl)
@[simp] theorem Ctl.setCare_use (c : Ctl) (x : Care) : (c.setCare x).use = c.use := (rfl)
@[simp] theorem Ctl.setCare_keys (c : Ctl) (x : Care) : (c.setCare x).keys = c.keys := (rfl)
@[simp] theorem Ctl.setCare_attic (c : Ctl) (x : Care) : (c.setCare x).attic = c.attic := (rfl)
@[simp] theorem Ctl.setCare_life (c : Ctl) (x : Care) : (c.setCare x).life = c.life := (rfl)
@[simp] theorem Ctl.setCare_pwr (c : Ctl) (x : Care) : (c.setCare x).pwr = c.pwr := (rfl)
@[simp] theorem Ctl.setCare_units (c : Ctl) (x : Care) : (c.setCare x).units = c.units := (rfl)
@[simp] theorem Ctl.setCare_val_of (c : Ctl) (x : Care) (j : Nat) : (c.setCare x).val j = c.val j := (rfl)
@[simp] theorem Ctl.setCare_int_of (c : Ctl) (x : Care) (j : Nat) : (c.setCare x).int j = c.int j := (rfl)
@[simp] theorem Ctl.setCare_nat_of (c : Ctl) (x : Care) (j : Nat) : (c.setCare x).nat j = c.nat j := (rfl)
@[simp] theorem Ctl.setCare_on_of (c : Ctl) (x : Care) (j : Nat) : (c.setCare x).on j = c.on j := (rfl)
@[simp] theorem Ctl.setCare_oct_of (c : Ctl) (x : Care) (j : Nat) : (c.setCare x).oct j = c.oct j := (rfl)
@[simp] theorem Ctl.setCare_sess (c : Ctl) (x : Care) (j : Nat) : (c.setCare x).sess j = c.sess j := (rfl)
@[simp] theorem Ctl.setCare_care (c : Ctl) (x : Care) : (c.setCare x).care = x := (rfl)

/-! ### setChn -/

@[simp] theorem Ctl.setChn_now (c : Ctl) (x : Chains) : (c.setChn x).now = c.now := (rfl)
@[simp] theorem Ctl.setChn_free (c : Ctl) (x : Chains) : (c.setChn x).free = c.free := (rfl)
@[simp] theorem Ctl.setChn_out (c : Ctl) (x : Chains) : (c.setChn x).out = c.out := (rfl)
@[simp] theorem Ctl.setChn_dict (c : Ctl) (x : Chains) : (c.setChn x).dict = c.dict := (rfl)
@[simp] theorem Ctl.setChn_ydp (c : Ctl) (x : Chains) : (c.setChn x).ydp = c.ydp := (rfl)
@[simp] theorem Ctl.setChn_bell (c : Ctl) (x : Chains) : (c.setChn x).bell = c.bell := (rfl)
@[simp] theorem Ctl.setChn_flt (c : Ctl) (x : Chains) : (c.setChn x).flt = c.flt := (rfl)
@[simp] theorem Ctl.setChn_clock (c : Ctl) (x : Chains) : (c.setChn x).clock = c.clock := (rfl)
@[simp] theorem Ctl.setChn_host (c : Ctl) (x : Chains) : (c.setChn x).host = c.host := (rfl)
@[simp] theorem Ctl.setChn_phase (c : Ctl) (x : Chains) : (c.setChn x).phase = c.phase := (rfl)
@[simp] theorem Ctl.setChn_adm (c : Ctl) (x : Chains) : (c.setChn x).adm = c.adm := (rfl)
@[simp] theorem Ctl.setChn_axs (c : Ctl) (x : Chains) : (c.setChn x).axs = c.axs := (rfl)
@[simp] theorem Ctl.setChn_care (c : Ctl) (x : Chains) : (c.setChn x).care = c.care := (rfl)
@[simp] theorem Ctl.setChn_page (c : Ctl) (x : Chains) : (c.setChn x).page = c.page := (rfl)
@[simp] theorem Ctl.setChn_pos (c : Ctl) (x : Chains) : (c.setChn x).pos = c.pos := (rfl)
@[simp] theorem Ctl.setChn_fire (c : Ctl) (x : Chains) : (c.setChn x).fire = c.fire := (rfl)
@[simp] theorem Ctl.setChn_mem (c : Ctl) (x : Chains) : (c.setChn x).mem = c.mem := (rfl)
@[simp] theorem Ctl.setChn_loop (c : Ctl) (x : Chains) : (c.setChn x).loop = c.loop := (rfl)
@[simp] theorem Ctl.setChn_use (c : Ctl) (x : Chains) : (c.setChn x).use = c.use := (rfl)
@[simp] theorem Ctl.setChn_keys (c : Ctl) (x : Chains) : (c.setChn x).keys = c.keys := (rfl)
@[simp] theorem Ctl.setChn_attic (c : Ctl) (x : Chains) : (c.setChn x).attic = c.attic := (rfl)
@[simp] theorem Ctl.setChn_life (c : Ctl) (x : Chains) : (c.setChn x).life = c.life := (rfl)
@[simp] theorem Ctl.setChn_pwr (c : Ctl) (x : Chains) : (c.setChn x).pwr = c.pwr := (rfl)
@[simp] theorem Ctl.setChn_units (c : Ctl) (x : Chains) : (c.setChn x).units = c.units := (rfl)
@[simp] theorem Ctl.setChn_val_of (c : Ctl) (x : Chains) (j : Nat) : (c.setChn x).val j = c.val j := (rfl)
@[simp] theorem Ctl.setChn_int_of (c : Ctl) (x : Chains) (j : Nat) : (c.setChn x).int j = c.int j := (rfl)
@[simp] theorem Ctl.setChn_nat_of (c : Ctl) (x : Chains) (j : Nat) : (c.setChn x).nat j = c.nat j := (rfl)
@[simp] theorem Ctl.setChn_on_of (c : Ctl) (x : Chains) (j : Nat) : (c.setChn x).on j = c.on j := (rfl)
@[simp] theorem Ctl.setChn_oct_of (c : Ctl) (x : Chains) (j : Nat) : (c.setChn x).oct j = c.oct j := (rfl)
@[simp] theorem Ctl.setChn_sess (c : Ctl) (x : Chains) (j : Nat) : (c.setChn x).sess j = c.sess j := (rfl)
@[simp] theorem Ctl.setChn_chn (c : Ctl) (x : Chains) : (c.setChn x).chn = x := (rfl)

/-! ### setPage -/

@[simp] theorem Ctl.setPage_now (c : Ctl) (x : PageData) : (c.setPage x).now = c.now := (rfl)
@[simp] theorem Ctl.setPage_free (c : Ctl) (x : PageData) : (c.setPage x).free = c.free := (rfl)
@[simp] theorem Ctl.setPage_out (c : Ctl) (x : PageData) : (c.setPage x).out = c.out := (rfl)
@[simp] theorem Ctl.setPage_dict (c : Ctl) (x : PageData) : (c.setPage x).dict = c.dict := (rfl)
@[simp] theorem Ctl.setPage_ydp (c : Ctl) (x : PageData) : (c.setPage x).ydp = c.ydp := (rfl)
@[simp] theorem Ctl.setPage_bell (c : Ctl) (x : PageData) : (c.setPage x).bell = c.bell := (rfl)
@[simp] theorem Ctl.setPage_flt (c : Ctl) (x : PageData) : (c.setPage x).flt = c.flt := (rfl)
@[simp] theorem Ctl.setPage_clock (c : Ctl) (x : PageData) : (c.setPage x).clock = c.clock := (rfl)
@[simp] theorem Ctl.setPage_host (c : Ctl) (x : PageData) : (c.setPage x).host = c.host := (rfl)
@[simp] theorem Ctl.setPage_phase (c : Ctl) (x : PageData) : (c.setPage x).phase = c.phase := (rfl)
@[simp] theorem Ctl.setPage_adm (c : Ctl) (x : PageData) : (c.setPage x).adm = c.adm := (rfl)
@[simp] theorem Ctl.setPage_axs (c : Ctl) (x : PageData) : (c.setPage x).axs = c.axs := (rfl)
@[simp] theorem Ctl.setPage_care (c : Ctl) (x : PageData) : (c.setPage x).care = c.care := (rfl)
@[simp] theorem Ctl.setPage_chn (c : Ctl) (x : PageData) : (c.setPage x).chn = c.chn := (rfl)
@[simp] theorem Ctl.setPage_pos (c : Ctl) (x : PageData) : (c.setPage x).pos = c.pos := (rfl)
@[simp] theorem Ctl.setPage_fire (c : Ctl) (x : PageData) : (c.setPage x).fire = c.fire := (rfl)
@[simp] theorem Ctl.setPage_mem (c : Ctl) (x : PageData) : (c.setPage x).mem = c.mem := (rfl)
@[simp] theorem Ctl.setPage_loop (c : Ctl) (x : PageData) : (c.setPage x).loop = c.loop := (rfl)
@[simp] theorem Ctl.setPage_use (c : Ctl) (x : PageData) : (c.setPage x).use = c.use := (rfl)
@[simp] theorem Ctl.setPage_keys (c : Ctl) (x : PageData) : (c.setPage x).keys = c.keys := (rfl)
@[simp] theorem Ctl.setPage_attic (c : Ctl) (x : PageData) : (c.setPage x).attic = c.attic := (rfl)
@[simp] theorem Ctl.setPage_life (c : Ctl) (x : PageData) : (c.setPage x).life = c.life := (rfl)
@[simp] theorem Ctl.setPage_pwr (c : Ctl) (x : PageData) : (c.setPage x).pwr = c.pwr := (rfl)
@[simp] theorem Ctl.setPage_units (c : Ctl) (x : PageData) : (c.setPage x).units = c.units := (rfl)
@[simp] theorem Ctl.setPage_val_of (c : Ctl) (x : PageData) (j : Nat) : (c.setPage x).val j = c.val j := (rfl)
@[simp] theorem Ctl.setPage_int_of (c : Ctl) (x : PageData) (j : Nat) : (c.setPage x).int j = c.int j := (rfl)
@[simp] theorem Ctl.setPage_nat_of (c : Ctl) (x : PageData) (j : Nat) : (c.setPage x).nat j = c.nat j := (rfl)
@[simp] theorem Ctl.setPage_on_of (c : Ctl) (x : PageData) (j : Nat) : (c.setPage x).on j = c.on j := (rfl)
@[simp] theorem Ctl.setPage_oct_of (c : Ctl) (x : PageData) (j : Nat) : (c.setPage x).oct j = c.oct j := (rfl)
@[simp] theorem Ctl.setPage_sess (c : Ctl) (x : PageData) (j : Nat) : (c.setPage x).sess j = c.sess j := (rfl)
@[simp] theorem Ctl.setPage_page (c : Ctl) (x : PageData) : (c.setPage x).page = x := (rfl)

/-! ### setKeys -/

@[simp] theorem Ctl.setKeys_now (c : Ctl) (x : Keys) : (c.setKeys x).now = c.now := (rfl)
@[simp] theorem Ctl.setKeys_free (c : Ctl) (x : Keys) : (c.setKeys x).free = c.free := (rfl)
@[simp] theorem Ctl.setKeys_out (c : Ctl) (x : Keys) : (c.setKeys x).out = c.out := (rfl)
@[simp] theorem Ctl.setKeys_dict (c : Ctl) (x : Keys) : (c.setKeys x).dict = c.dict := (rfl)
@[simp] theorem Ctl.setKeys_ydp (c : Ctl) (x : Keys) : (c.setKeys x).ydp = c.ydp := (rfl)
@[simp] theorem Ctl.setKeys_bell (c : Ctl) (x : Keys) : (c.setKeys x).bell = c.bell := (rfl)
@[simp] theorem Ctl.setKeys_flt (c : Ctl) (x : Keys) : (c.setKeys x).flt = c.flt := (rfl)
@[simp] theorem Ctl.setKeys_clock (c : Ctl) (x : Keys) : (c.setKeys x).clock = c.clock := (rfl)
@[simp] theorem Ctl.setKeys_host (c : Ctl) (x : Keys) : (c.setKeys x).host = c.host := (rfl)
@[simp] theorem Ctl.setKeys_phase (c : Ctl) (x : Keys) : (c.setKeys x).phase = c.phase := (rfl)
@[simp] theorem Ctl.setKeys_adm (c : Ctl) (x : Keys) : (c.setKeys x).adm = c.adm := (rfl)
@[simp] theorem Ctl.setKeys_axs (c : Ctl) (x : Keys) : (c.setKeys x).axs = c.axs := (rfl)
@[simp] theorem Ctl.setKeys_care (c : Ctl) (x : Keys) : (c.setKeys x).care = c.care := (rfl)
@[simp] theorem Ctl.setKeys_chn (c : Ctl) (x : Keys) : (c.setKeys x).chn = c.chn := (rfl)
@[simp] theorem Ctl.setKeys_page (c : Ctl) (x : Keys) : (c.setKeys x).page = c.page := (rfl)
@[simp] theorem Ctl.setKeys_pos (c : Ctl) (x : Keys) : (c.setKeys x).pos = c.pos := (rfl)
@[simp] theorem Ctl.setKeys_fire (c : Ctl) (x : Keys) : (c.setKeys x).fire = c.fire := (rfl)
@[simp] theorem Ctl.setKeys_mem (c : Ctl) (x : Keys) : (c.setKeys x).mem = c.mem := (rfl)
@[simp] theorem Ctl.setKeys_loop (c : Ctl) (x : Keys) : (c.setKeys x).loop = c.loop := (rfl)
@[simp] theorem Ctl.setKeys_use (c : Ctl) (x : Keys) : (c.setKeys x).use = c.use := (rfl)
@[simp] theorem Ctl.setKeys_attic (c : Ctl) (x : Keys) : (c.setKeys x).attic = c.attic := (rfl)
@[simp] theorem Ctl.setKeys_life (c : Ctl) (x : Keys) : (c.setKeys x).life = c.life := (rfl)
@[simp] theorem Ctl.setKeys_pwr (c : Ctl) (x : Keys) : (c.setKeys x).pwr = c.pwr := (rfl)
@[simp] theorem Ctl.setKeys_units (c : Ctl) (x : Keys) : (c.setKeys x).units = c.units := (rfl)
@[simp] theorem Ctl.setKeys_val_of (c : Ctl) (x : Keys) (j : Nat) : (c.setKeys x).val j = c.val j := (rfl)
@[simp] theorem Ctl.setKeys_int_of (c : Ctl) (x : Keys) (j : Nat) : (c.setKeys x).int j = c.int j := (rfl)
@[simp] theorem Ctl.setKeys_nat_of (c : Ctl) (x : Keys) (j : Nat) : (c.setKeys x).nat j = c.nat j := (rfl)
@[simp] theorem Ctl.setKeys_on_of (c : Ctl) (x : Keys) (j : Nat) : (c.setKeys x).on j = c.on j := (rfl)
@[simp] theorem Ctl.setKeys_oct_of (c : Ctl) (x : Keys) (j : Nat) : (c.setKeys x).oct j = c.oct j := (rfl)
@[simp] theorem Ctl.setKeys_sess (c : Ctl) (x : Keys) (j : Nat) : (c.setKeys x).sess j = c.sess j := (rfl)
@[simp] theorem Ctl.setKeys_keys (c : Ctl) (x : Keys) : (c.setKeys x).keys = x := (rfl)

/-! ### setAttics -/

@[simp] theorem Ctl.setAttics_now (c : Ctl) (x : Attic) : (c.setAttics x).now = c.now := (rfl)
@[simp] theorem Ctl.setAttics_free (c : Ctl) (x : Attic) : (c.setAttics x).free = c.free := (rfl)
@[simp] theorem Ctl.setAttics_out (c : Ctl) (x : Attic) : (c.setAttics x).out = c.out := (rfl)
@[simp] theorem Ctl.setAttics_dict (c : Ctl) (x : Attic) : (c.setAttics x).dict = c.dict := (rfl)
@[simp] theorem Ctl.setAttics_ydp (c : Ctl) (x : Attic) : (c.setAttics x).ydp = c.ydp := (rfl)
@[simp] theorem Ctl.setAttics_bell (c : Ctl) (x : Attic) : (c.setAttics x).bell = c.bell := (rfl)
@[simp] theorem Ctl.setAttics_flt (c : Ctl) (x : Attic) : (c.setAttics x).flt = c.flt := (rfl)
@[simp] theorem Ctl.setAttics_clock (c : Ctl) (x : Attic) : (c.setAttics x).clock = c.clock := (rfl)
@[simp] theorem Ctl.setAttics_host (c : Ctl) (x : Attic) : (c.setAttics x).host = c.host := (rfl)
@[simp] theorem Ctl.setAttics_phase (c : Ctl) (x : Attic) : (c.setAttics x).phase = c.phase := (rfl)
@[simp] theorem Ctl.setAttics_adm (c : Ctl) (x : Attic) : (c.setAttics x).adm = c.adm := (rfl)
@[simp] theorem Ctl.setAttics_axs (c : Ctl) (x : Attic) : (c.setAttics x).axs = c.axs := (rfl)
@[simp] theorem Ctl.setAttics_care (c : Ctl) (x : Attic) : (c.setAttics x).care = c.care := (rfl)
@[simp] theorem Ctl.setAttics_chn (c : Ctl) (x : Attic) : (c.setAttics x).chn = c.chn := (rfl)
@[simp] theorem Ctl.setAttics_page (c : Ctl) (x : Attic) : (c.setAttics x).page = c.page := (rfl)
@[simp] theorem Ctl.setAttics_pos (c : Ctl) (x : Attic) : (c.setAttics x).pos = c.pos := (rfl)
@[simp] theorem Ctl.setAttics_fire (c : Ctl) (x : Attic) : (c.setAttics x).fire = c.fire := (rfl)
@[simp] theorem Ctl.setAttics_mem (c : Ctl) (x : Attic) : (c.setAttics x).mem = c.mem := (rfl)
@[simp] theorem Ctl.setAttics_loop (c : Ctl) (x : Attic) : (c.setAttics x).loop = c.loop := (rfl)
@[simp] theorem Ctl.setAttics_use (c : Ctl) (x : Attic) : (c.setAttics x).use = c.use := (rfl)
@[simp] theorem Ctl.setAttics_keys (c : Ctl) (x : Attic) : (c.setAttics x).keys = c.keys := (rfl)
@[simp] theorem Ctl.setAttics_life (c : Ctl) (x : Attic) : (c.setAttics x).life = c.life := (rfl)
@[simp] theorem Ctl.setAttics_pwr (c : Ctl) (x : Attic) : (c.setAttics x).pwr = c.pwr := (rfl)
@[simp] theorem Ctl.setAttics_units (c : Ctl) (x : Attic) : (c.setAttics x).units = c.units := (rfl)
@[simp] theorem Ctl.setAttics_val_of (c : Ctl) (x : Attic) (j : Nat) : (c.setAttics x).val j = c.val j := (rfl)
@[simp] theorem Ctl.setAttics_int_of (c : Ctl) (x : Attic) (j : Nat) : (c.setAttics x).int j = c.int j := (rfl)
@[simp] theorem Ctl.setAttics_nat_of (c : Ctl) (x : Attic) (j : Nat) : (c.setAttics x).nat j = c.nat j := (rfl)
@[simp] theorem Ctl.setAttics_on_of (c : Ctl) (x : Attic) (j : Nat) : (c.setAttics x).on j = c.on j := (rfl)
@[simp] theorem Ctl.setAttics_oct_of (c : Ctl) (x : Attic) (j : Nat) : (c.setAttics x).oct j = c.oct j := (rfl)
@[simp] theorem Ctl.setAttics_sess (c : Ctl) (x : Attic) (j : Nat) : (c.setAttics x).sess j = c.sess j := (rfl)
@[simp] theorem Ctl.setAttics_attic (c : Ctl) (x : Attic) : (c.setAttics x).attic = x := (rfl)

/-! ### setUnits -/

@[simp] theorem Ctl.setUnits_now (c : Ctl) (x : Units) : (c.setUnits x).now = c.now := (rfl)
@[simp] theorem Ctl.setUnits_free (c : Ctl) (x : Units) : (c.setUnits x).free = c.free := (rfl)
@[simp] theorem Ctl.setUnits_out (c : Ctl) (x : Units) : (c.setUnits x).out = c.out := (rfl)
@[simp] theorem Ctl.setUnits_dict (c : Ctl) (x : Units) : (c.setUnits x).dict = c.dict := (rfl)
@[simp] theorem Ctl.setUnits_ydp (c : Ctl) (x : Units) : (c.setUnits x).ydp = c.ydp := (rfl)
@[simp] theorem Ctl.setUnits_bell (c : Ctl) (x : Units) : (c.setUnits x).bell = c.bell := (rfl)
@[simp] theorem Ctl.setUnits_flt (c : Ctl) (x : Units) : (c.setUnits x).flt = c.flt := (rfl)
@[simp] theorem Ctl.setUnits_clock (c : Ctl) (x : Units) : (c.setUnits x).clock = c.clock := (rfl)
@[simp] theorem Ctl.setUnits_host (c : Ctl) (x : Units) : (c.setUnits x).host = c.host := (rfl)
@[simp] theorem Ctl.setUnits_phase (c : Ctl) (x : Units) : (c.setUnits x).phase = c.phase := (rfl)
@[simp] theorem Ctl.setUnits_adm (c : Ctl) (x : Units) : (c.setUnits x).adm = c.adm := (rfl)
@[simp] theorem Ctl.setUnits_axs (c : Ctl) (x : Units) : (c.setUnits x).axs = c.axs := (rfl)
@[simp] theorem Ctl.setUnits_care (c : Ctl) (x : Units) : (c.setUnits x).care = c.care := (rfl)
@[simp] theorem Ctl.setUnits_chn (c : Ctl) (x : Units) : (c.setUnits x).chn = c.chn := (rfl)
@[simp] theorem Ctl.setUnits_page (c : Ctl) (x : Units) : (c.setUnits x).page = c.page := (rfl)
@[simp] theorem Ctl.setUnits_pos (c : Ctl) (x : Units) : (c.setUnits x).pos = c.pos := (rfl)
@[simp] theorem Ctl.setUnits_fire (c : Ctl) (x : Units) : (c.setUnits x).fire = c.fire := (rfl)
@[simp] theorem Ctl.setUnits_mem (c : Ctl) (x : Units) : (c.setUnits x).mem = c.mem := (rfl)
@[simp] theorem Ctl.setUnits_loop (c : Ctl) (x : Units) : (c.setUnits x).loop = c.loop := (rfl)
@[simp] theorem Ctl.setUnits_use (c : Ctl) (x : Units) : (c.setUnits x).use = c.use := (rfl)
@[simp] theorem Ctl.setUnits_keys (c : Ctl) (x : Units) : (c.setUnits x).keys = c.keys := (rfl)
@[simp] theorem Ctl.setUnits_attic (c : Ctl) (x : Units) : (c.setUnits x).attic = c.attic := (rfl)
@[simp] theorem Ctl.setUnits_life (c : Ctl) (x : Units) : (c.setUnits x).life = c.life := (rfl)
@[simp] theorem Ctl.setUnits_pwr (c : Ctl) (x : Units) : (c.setUnits x).pwr = c.pwr := (rfl)
@[simp] theorem Ctl.setUnits_val_of (c : Ctl) (x : Units) (j : Nat) : (c.setUnits x).val j = c.val j := (rfl)
@[simp] theorem Ctl.setUnits_int_of (c : Ctl) (x : Units) (j : Nat) : (c.setUnits x).int j = c.int j := (rfl)
@[simp] theorem Ctl.setUnits_nat_of (c : Ctl) (x : Units) (j : Nat) : (c.setUnits x).nat j = c.nat j := (rfl)
@[simp] theorem Ctl.setUnits_on_of (c : Ctl) (x : Units) (j : Nat) : (c.setUnits x).on j = c.on j := (rfl)
@[simp] theorem Ctl.setUnits_oct_of (c : Ctl) (x : Units) (j : Nat) : (c.setUnits x).oct j = c.oct j := (rfl)
@[simp] theorem Ctl.setUnits_sess (c : Ctl) (x : Units) (j : Nat) : (c.setUnits x).sess j = c.sess j := (rfl)
@[simp] theorem Ctl.setUnits_units (c : Ctl) (x : Units) : (c.setUnits x).units = x := (rfl)

/-! ### setHost -/

@[simp] theorem Ctl.setHost_now (c : Ctl) (x : HostPort) : (c.setHost x).now = c.now := (rfl)
@[simp] theorem Ctl.setHost_free (c : Ctl) (x : HostPort) : (c.setHost x).free = c.free := (rfl)
@[simp] theorem Ctl.setHost_out (c : Ctl) (x : HostPort) : (c.setHost x).out = c.out := (rfl)
@[simp] theorem Ctl.setHost_dict (c : Ctl) (x : HostPort) : (c.setHost x).dict = c.dict := (rfl)
@[simp] theorem Ctl.setHost_ydp (c : Ctl) (x : HostPort) : (c.setHost x).ydp = c.ydp := (rfl)
@[simp] theorem Ctl.setHost_bell (c : Ctl) (x : HostPort) : (c.setHost x).bell = c.bell := (rfl)
@[simp] theorem Ctl.setHost_flt (c : Ctl) (x : HostPort) : (c.setHost x).flt = c.flt := (rfl)
@[simp] theorem Ctl.setHost_clock (c : Ctl) (x : HostPort) : (c.setHost x).clock = c.clock := (rfl)
@[simp] theorem Ctl.setHost_phase (c : Ctl) (x : HostPort) : (c.setHost x).phase = c.phase := (rfl)
@[simp] theorem Ctl.setHost_adm (c : Ctl) (x : HostPort) : (c.setHost x).adm = c.adm := (rfl)
@[simp] theorem Ctl.setHost_axs (c : Ctl) (x : HostPort) : (c.setHost x).axs = c.axs := (rfl)
@[simp] theorem Ctl.setHost_care (c : Ctl) (x : HostPort) : (c.setHost x).care = c.care := (rfl)
@[simp] theorem Ctl.setHost_chn (c : Ctl) (x : HostPort) : (c.setHost x).chn = c.chn := (rfl)
@[simp] theorem Ctl.setHost_page (c : Ctl) (x : HostPort) : (c.setHost x).page = c.page := (rfl)
@[simp] theorem Ctl.setHost_pos (c : Ctl) (x : HostPort) : (c.setHost x).pos = c.pos := (rfl)
@[simp] theorem Ctl.setHost_fire (c : Ctl) (x : HostPort) : (c.setHost x).fire = c.fire := (rfl)
@[simp] theorem Ctl.setHost_mem (c : Ctl) (x : HostPort) : (c.setHost x).mem = c.mem := (rfl)
@[simp] theorem Ctl.setHost_loop (c : Ctl) (x : HostPort) : (c.setHost x).loop = c.loop := (rfl)
@[simp] theorem Ctl.setHost_use (c : Ctl) (x : HostPort) : (c.setHost x).use = c.use := (rfl)
@[simp] theorem Ctl.setHost_keys (c : Ctl) (x : HostPort) : (c.setHost x).keys = c.keys := (rfl)
@[simp] theorem Ctl.setHost_attic (c : Ctl) (x : HostPort) : (c.setHost x).attic = c.attic := (rfl)
@[simp] theorem Ctl.setHost_life (c : Ctl) (x : HostPort) : (c.setHost x).life = c.life := (rfl)
@[simp] theorem Ctl.setHost_pwr (c : Ctl) (x : HostPort) : (c.setHost x).pwr = c.pwr := (rfl)
@[simp] theorem Ctl.setHost_units (c : Ctl) (x : HostPort) : (c.setHost x).units = c.units := (rfl)
@[simp] theorem Ctl.setHost_val_of (c : Ctl) (x : HostPort) (j : Nat) : (c.setHost x).val j = c.val j := (rfl)
@[simp] theorem Ctl.setHost_int_of (c : Ctl) (x : HostPort) (j : Nat) : (c.setHost x).int j = c.int j := (rfl)
@[simp] theorem Ctl.setHost_nat_of (c : Ctl) (x : HostPort) (j : Nat) : (c.setHost x).nat j = c.nat j := (rfl)
@[simp] theorem Ctl.setHost_on_of (c : Ctl) (x : HostPort) (j : Nat) : (c.setHost x).on j = c.on j := (rfl)
@[simp] theorem Ctl.setHost_oct_of (c : Ctl) (x : HostPort) (j : Nat) : (c.setHost x).oct j = c.oct j := (rfl)
@[simp] theorem Ctl.setHost_sess (c : Ctl) (x : HostPort) (j : Nat) : (c.setHost x).sess j = c.sess j := (rfl)
@[simp] theorem Ctl.setHost_host (c : Ctl) (x : HostPort) : (c.setHost x).host = x := (rfl)

/-! ### setBell -/

@[simp] theorem Ctl.setBell_now (c : Ctl) (x : Bell) : (c.setBell x).now = c.now := (rfl)
@[simp] theorem Ctl.setBell_free (c : Ctl) (x : Bell) : (c.setBell x).free = c.free := (rfl)
@[simp] theorem Ctl.setBell_out (c : Ctl) (x : Bell) : (c.setBell x).out = c.out := (rfl)
@[simp] theorem Ctl.setBell_dict (c : Ctl) (x : Bell) : (c.setBell x).dict = c.dict := (rfl)
@[simp] theorem Ctl.setBell_ydp (c : Ctl) (x : Bell) : (c.setBell x).ydp = c.ydp := (rfl)
@[simp] theorem Ctl.setBell_flt (c : Ctl) (x : Bell) : (c.setBell x).flt = c.flt := (rfl)
@[simp] theorem Ctl.setBell_clock (c : Ctl) (x : Bell) : (c.setBell x).clock = c.clock := (rfl)
@[simp] theorem Ctl.setBell_host (c : Ctl) (x : Bell) : (c.setBell x).host = c.host := (rfl)
@[simp] theorem Ctl.setBell_phase (c : Ctl) (x : Bell) : (c.setBell x).phase = c.phase := (rfl)
@[simp] theorem Ctl.setBell_adm (c : Ctl) (x : Bell) : (c.setBell x).adm = c.adm := (rfl)
@[simp] theorem Ctl.setBell_axs (c : Ctl) (x : Bell) : (c.setBell x).axs = c.axs := (rfl)
@[simp] theorem Ctl.setBell_care (c : Ctl) (x : Bell) : (c.setBell x).care = c.care := (rfl)
@[simp] theorem Ctl.setBell_chn (c : Ctl) (x : Bell) : (c.setBell x).chn = c.chn := (rfl)
@[simp] theorem Ctl.setBell_page (c : Ctl) (x : Bell) : (c.setBell x).page = c.page := (rfl)
@[simp] theorem Ctl.setBell_pos (c : Ctl) (x : Bell) : (c.setBell x).pos = c.pos := (rfl)
@[simp] theorem Ctl.setBell_fire (c : Ctl) (x : Bell) : (c.setBell x).fire = c.fire := (rfl)
@[simp] theorem Ctl.setBell_mem (c : Ctl) (x : Bell) : (c.setBell x).mem = c.mem := (rfl)
@[simp] theorem Ctl.setBell_loop (c : Ctl) (x : Bell) : (c.setBell x).loop = c.loop := (rfl)
@[simp] theorem Ctl.setBell_use (c : Ctl) (x : Bell) : (c.setBell x).use = c.use := (rfl)
@[simp] theorem Ctl.setBell_keys (c : Ctl) (x : Bell) : (c.setBell x).keys = c.keys := (rfl)
@[simp] theorem Ctl.setBell_attic (c : Ctl) (x : Bell) : (c.setBell x).attic = c.attic := (rfl)
@[simp] theorem Ctl.setBell_life (c : Ctl) (x : Bell) : (c.setBell x).life = c.life := (rfl)
@[simp] theorem Ctl.setBell_pwr (c : Ctl) (x : Bell) : (c.setBell x).pwr = c.pwr := (rfl)
@[simp] theorem Ctl.setBell_units (c : Ctl) (x : Bell) : (c.setBell x).units = c.units := (rfl)
@[simp] theorem Ctl.setBell_val_of (c : Ctl) (x : Bell) (j : Nat) : (c.setBell x).val j = c.val j := (rfl)
@[simp] theorem Ctl.setBell_int_of (c : Ctl) (x : Bell) (j : Nat) : (c.setBell x).int j = c.int j := (rfl)
@[simp] theorem Ctl.setBell_nat_of (c : Ctl) (x : Bell) (j : Nat) : (c.setBell x).nat j = c.nat j := (rfl)
@[simp] theorem Ctl.setBell_on_of (c : Ctl) (x : Bell) (j : Nat) : (c.setBell x).on j = c.on j := (rfl)
@[simp] theorem Ctl.setBell_oct_of (c : Ctl) (x : Bell) (j : Nat) : (c.setBell x).oct j = c.oct j := (rfl)
@[simp] theorem Ctl.setBell_sess (c : Ctl) (x : Bell) (j : Nat) : (c.setBell x).sess j = c.sess j := (rfl)
@[simp] theorem Ctl.setBell_bell (c : Ctl) (x : Bell) : (c.setBell x).bell = x := (rfl)

/-! ### setYdp -/

@[simp] theorem Ctl.setYdp_now (c : Ctl) (x : Ydp) : (c.setYdp x).now = c.now := (rfl)
@[simp] theorem Ctl.setYdp_free (c : Ctl) (x : Ydp) : (c.setYdp x).free = c.free := (rfl)
@[simp] theorem Ctl.setYdp_out (c : Ctl) (x : Ydp) : (c.setYdp x).out = c.out := (rfl)
@[simp] theorem Ctl.setYdp_dict (c : Ctl) (x : Ydp) : (c.setYdp x).dict = c.dict := (rfl)
@[simp] theorem Ctl.setYdp_bell (c : Ctl) (x : Ydp) : (c.setYdp x).bell = c.bell := (rfl)
@[simp] theorem Ctl.setYdp_flt (c : Ctl) (x : Ydp) : (c.setYdp x).flt = c.flt := (rfl)
@[simp] theorem Ctl.setYdp_clock (c : Ctl) (x : Ydp) : (c.setYdp x).clock = c.clock := (rfl)
@[simp] theorem Ctl.setYdp_host (c : Ctl) (x : Ydp) : (c.setYdp x).host = c.host := (rfl)
@[simp] theorem Ctl.setYdp_phase (c : Ctl) (x : Ydp) : (c.setYdp x).phase = c.phase := (rfl)
@[simp] theorem Ctl.setYdp_adm (c : Ctl) (x : Ydp) : (c.setYdp x).adm = c.adm := (rfl)
@[simp] theorem Ctl.setYdp_axs (c : Ctl) (x : Ydp) : (c.setYdp x).axs = c.axs := (rfl)
@[simp] theorem Ctl.setYdp_care (c : Ctl) (x : Ydp) : (c.setYdp x).care = c.care := (rfl)
@[simp] theorem Ctl.setYdp_chn (c : Ctl) (x : Ydp) : (c.setYdp x).chn = c.chn := (rfl)
@[simp] theorem Ctl.setYdp_page (c : Ctl) (x : Ydp) : (c.setYdp x).page = c.page := (rfl)
@[simp] theorem Ctl.setYdp_pos (c : Ctl) (x : Ydp) : (c.setYdp x).pos = c.pos := (rfl)
@[simp] theorem Ctl.setYdp_fire (c : Ctl) (x : Ydp) : (c.setYdp x).fire = c.fire := (rfl)
@[simp] theorem Ctl.setYdp_mem (c : Ctl) (x : Ydp) : (c.setYdp x).mem = c.mem := (rfl)
@[simp] theorem Ctl.setYdp_loop (c : Ctl) (x : Ydp) : (c.setYdp x).loop = c.loop := (rfl)
@[simp] theorem Ctl.setYdp_use (c : Ctl) (x : Ydp) : (c.setYdp x).use = c.use := (rfl)
@[simp] theorem Ctl.setYdp_keys (c : Ctl) (x : Ydp) : (c.setYdp x).keys = c.keys := (rfl)
@[simp] theorem Ctl.setYdp_attic (c : Ctl) (x : Ydp) : (c.setYdp x).attic = c.attic := (rfl)
@[simp] theorem Ctl.setYdp_life (c : Ctl) (x : Ydp) : (c.setYdp x).life = c.life := (rfl)
@[simp] theorem Ctl.setYdp_pwr (c : Ctl) (x : Ydp) : (c.setYdp x).pwr = c.pwr := (rfl)
@[simp] theorem Ctl.setYdp_units (c : Ctl) (x : Ydp) : (c.setYdp x).units = c.units := (rfl)
@[simp] theorem Ctl.setYdp_val_of (c : Ctl) (x : Ydp) (j : Nat) : (c.setYdp x).val j = c.val j := (rfl)
@[simp] theorem Ctl.setYdp_int_of (c : Ctl) (x : Ydp) (j : Nat) : (c.setYdp x).int j = c.int j := (rfl)
@[simp] theorem Ctl.setYdp_nat_of (c : Ctl) (x : Ydp) (j : Nat) : (c.setYdp x).nat j = c.nat j := (rfl)
@[simp] theorem Ctl.setYdp_on_of (c : Ctl) (x : Ydp) (j : Nat) : (c.setYdp x).on j = c.on j := (rfl)
@[simp] theorem Ctl.setYdp_oct_of (c : Ctl) (x : Ydp) (j : Nat) : (c.setYdp x).oct j = c.oct j := (rfl)
@[simp] theorem Ctl.setYdp_ydp (c : Ctl) (x : Ydp) : (c.setYdp x).ydp = x := (rfl)

/-! ### setPhase -/

@[simp] theorem Ctl.setPhase_now (c : Ctl) (x : Phase) : (c.setPhase x).now = c.now := (rfl)
@[simp] theorem Ctl.setPhase_free (c : Ctl) (x : Phase) : (c.setPhase x).free = c.free := (rfl)
@[simp] theorem Ctl.setPhase_out (c : Ctl) (x : Phase) : (c.setPhase x).out = c.out := (rfl)
@[simp] theorem Ctl.setPhase_dict (c : Ctl) (x : Phase) : (c.setPhase x).dict = c.dict := (rfl)
@[simp] theorem Ctl.setPhase_ydp (c : Ctl) (x : Phase) : (c.setPhase x).ydp = c.ydp := (rfl)
@[simp] theorem Ctl.setPhase_bell (c : Ctl) (x : Phase) : (c.setPhase x).bell = c.bell := (rfl)
@[simp] theorem Ctl.setPhase_flt (c : Ctl) (x : Phase) : (c.setPhase x).flt = c.flt := (rfl)
@[simp] theorem Ctl.setPhase_clock (c : Ctl) (x : Phase) : (c.setPhase x).clock = c.clock := (rfl)
@[simp] theorem Ctl.setPhase_host (c : Ctl) (x : Phase) : (c.setPhase x).host = c.host := (rfl)
@[simp] theorem Ctl.setPhase_adm (c : Ctl) (x : Phase) : (c.setPhase x).adm = c.adm := (rfl)
@[simp] theorem Ctl.setPhase_axs (c : Ctl) (x : Phase) : (c.setPhase x).axs = c.axs := (rfl)
@[simp] theorem Ctl.setPhase_care (c : Ctl) (x : Phase) : (c.setPhase x).care = c.care := (rfl)
@[simp] theorem Ctl.setPhase_chn (c : Ctl) (x : Phase) : (c.setPhase x).chn = c.chn := (rfl)
@[simp] theorem Ctl.setPhase_page (c : Ctl) (x : Phase) : (c.setPhase x).page = c.page := (rfl)
@[simp] theorem Ctl.setPhase_pos (c : Ctl) (x : Phase) : (c.setPhase x).pos = c.pos := (rfl)
@[simp] theorem Ctl.setPhase_fire (c : Ctl) (x : Phase) : (c.setPhase x).fire = c.fire := (rfl)
@[simp] theorem Ctl.setPhase_mem (c : Ctl) (x : Phase) : (c.setPhase x).mem = c.mem := (rfl)
@[simp] theorem Ctl.setPhase_loop (c : Ctl) (x : Phase) : (c.setPhase x).loop = c.loop := (rfl)
@[simp] theorem Ctl.setPhase_use (c : Ctl) (x : Phase) : (c.setPhase x).use = c.use := (rfl)
@[simp] theorem Ctl.setPhase_keys (c : Ctl) (x : Phase) : (c.setPhase x).keys = c.keys := (rfl)
@[simp] theorem Ctl.setPhase_attic (c : Ctl) (x : Phase) : (c.setPhase x).attic = c.attic := (rfl)
@[simp] theorem Ctl.setPhase_life (c : Ctl) (x : Phase) : (c.setPhase x).life = c.life := (rfl)
@[simp] theorem Ctl.setPhase_pwr (c : Ctl) (x : Phase) : (c.setPhase x).pwr = c.pwr := (rfl)
@[simp] theorem Ctl.setPhase_units (c : Ctl) (x : Phase) : (c.setPhase x).units = c.units := (rfl)
@[simp] theorem Ctl.setPhase_val_of (c : Ctl) (x : Phase) (j : Nat) : (c.setPhase x).val j = c.val j := (rfl)
@[simp] theorem Ctl.setPhase_int_of (c : Ctl) (x : Phase) (j : Nat) : (c.setPhase x).int j = c.int j := (rfl)
@[simp] theorem Ctl.setPhase_nat_of (c : Ctl) (x : Phase) (j : Nat) : (c.setPhase x).nat j = c.nat j := (rfl)
@[simp] theorem Ctl.setPhase_on_of (c : Ctl) (x : Phase) (j : Nat) : (c.setPhase x).on j = c.on j := (rfl)
@[simp] theorem Ctl.setPhase_oct_of (c : Ctl) (x : Phase) (j : Nat) : (c.setPhase x).oct j = c.oct j := (rfl)
@[simp] theorem Ctl.setPhase_sess (c : Ctl) (x : Phase) (j : Nat) : (c.setPhase x).sess j = c.sess j := (rfl)
@[simp] theorem Ctl.setPhase_phase (c : Ctl) (x : Phase) : (c.setPhase x).phase = x := (rfl)

end Sys2Proof.Machine
end

