-- ==== Sys2Proof/Laws/Bell.lean ====
section
/-! SUPPORT. Everything a ring can do (R378, R383, R385, R386): it changes the bell, the host port's pending vectors and its wake
pin, what leaves the balls, queued event records and two kinds of counter, and nothing else. -/

namespace Sys2Proof.Laws

open Sys2Proof.Machine Sys2Proof.Safety

/-- What two controllers share when the second came from the first by rings alone. -/
structure Rung (c d : Ctl) : Prop where
  rest : d = { c with free := d.free, out := d.out, dict := d.dict,
                      bell := { c.bell with pending := d.bell.pending, eventSeq := d.bell.eventSeq },
                      host := { c.host with waiting := d.host.waiting, wakeLow := d.host.wakeLow },
                      ydp := { c.ydp with sessions := d.ydp.sessions } }
  val : ∀ k, bellObject k = false → d.val k = c.val k
  sess : ∀ n, d.sess n = { c.sess n with queue := (d.sess n).queue, pendingLost := (d.sess n).pendingLost }

theorem Rung.refl (c : Ctl) : Rung c c := ⟨rfl, fun _ _ => rfl, fun _ => rfl⟩

theorem Rung.trans {c d e : Ctl} (h : Rung c d) (g : Rung d e) : Rung c e := by
  refine ⟨?_, fun k hk => (g.val k hk).trans (h.val k hk), fun n => ?_⟩
  · rw [g.rest]
    conv => lhs; rw [h.rest]
  · rw [g.sess n]
    conv => lhs; rw [h.sess n]

theorem bumpBy_cases (c : Ctl) (k n : Nat) :
    c.bumpBy k n = c ∨ (∃ v, c.bumpBy k n = c.put k v) ∨ ∃ v, c.bumpBy k n = (c.put k v).took := by
  unfold Ctl.bumpBy
  split
  · split
    · exact .inr (.inl ⟨_, rfl⟩)
    · exact .inr (.inr ⟨_, rfl⟩)
  · exact .inl rfl

theorem bump_rung (c : Ctl) {k : Nat} (n : Nat) (hk : bellObject k = true) : Rung c (c.bumpBy k n) := by
  have other : ∀ j, bellObject j = false → k ≠ j := fun j hj h => by subst h; simp [hk] at hj
  rcases bumpBy_cases c k n with h | ⟨v, h⟩ | ⟨v, h⟩ <;> rw [h]
  · exact Rung.refl c
  · exact ⟨rfl, fun j hj => Ctl.val_put_other c v (other j hj), fun _ => rfl⟩
  · exact ⟨rfl, fun j hj => by simpa using Ctl.val_put_other c v (other j hj), fun _ => rfl⟩

theorem bellObject_lost (n : Nat) (h : n ≤ 8) (h0 : 1 ≤ n) : bellObject (Obj.events_lost n) = true := by
  simp only [bellObject, Bool.or_eq_true, decide_eq_true_eq, Obj.events_lost]; right; omega

theorem setSess_rung (c : Ctl) (n : Nat) (q : List EvRec) (l : Nat) :
    Rung c (c.setSess n { c.sess n with queue := q, pendingLost := l }) := by
  refine ⟨rfl, fun k _ => rfl, fun m => ?_⟩
  rw [Ctl.sess_setSess]
  split
  · rename_i h; subst h; rfl
  · rfl

theorem handRecord_rung (c : Ctl) (r : EvRec) {n : Nat} (h0 : 1 ≤ n) (h : n ≤ 8) : Rung c (c.handRecord r n) := by
  unfold Ctl.handRecord
  dsimp only
  split
  · split
    · exact setSess_rung c n _ _
    · have lost : Rung c ((c.setSess n { c.sess n with pendingLost := (c.sess n).pendingLost + 1 }).bump
          (Obj.events_lost n)) :=
        (setSess_rung c n (c.sess n).queue _).trans (bump_rung _ 1 (bellObject_lost n h h0))
      split <;> split
      · exact setSess_rung c n _ _
      · exact lost
      · exact setSess_rung c n _ _
      · exact lost
  · exact Rung.refl c

theorem forEach_rung {α : Type} (f : Ctl → α → Ctl) (xs : List α) (h : ∀ c, ∀ x ∈ xs, Rung c (f c x)) (c : Ctl) :
    Rung c (forEach xs f c) := by
  unfold forEach
  induction xs generalizing c with
  | nil => exact Rung.refl c
  | cons x r ih =>
    exact (h c x (List.mem_cons_self ..)).trans (ih (fun c y hy => h c y (List.mem_cons_of_mem _ hy)) (f c x))

theorem msixRaise_rung (c : Ctl) (v : Nat) : Rung c (c.msixRaise v) := by
  unfold Ctl.msixRaise
  dsimp only
  split
  · exact ⟨rfl, fun _ _ => rfl, fun _ => rfl⟩
  · unfold Ctl.pmeAsserts
    split <;> exact ⟨rfl, fun _ _ => rfl, fun _ => rfl⟩

theorem msixRises_rung (b c : Ctl) : Rung c (msixRises b c) :=
  forEach_rung _ _ (fun c l _ => by
    split
    · exact msixRaise_rung c l
    · exact Rung.refl c) c

theorem rebell_rung (c : Ctl) (b : Bell) : Rung { c with bell := b } (c.rebell b) := msixRises_rung _ _

theorem msixAgain_rung (c : Ctl) : Rung c c.msixAgain := by
  unfold Ctl.msixAgain
  split
  · exact msixRaise_rung _ _
  · exact Rung.refl c

theorem ring_rung (c : Ctl) (n u o : Nat) : Rung c (c.ring n u o) := by
  unfold Ctl.ring
  split
  · exact Rung.refl c
  · dsimp only
    have h1 : Rung c (c.bump Obj.rings_total) := bump_rung c 1 (by decide)
    have h2 : Rung c { c.bump Obj.rings_total with
        bell := { (c.bump Obj.rings_total).bell with pending := kvSet false (c.bump Obj.rings_total).bell.pending n true } } :=
      h1.trans ⟨rfl, fun _ _ => rfl, fun _ => rfl⟩
    split
    · refine (h2.trans ?_).trans (forEach_rung _ _ (fun d i hi => ?_) _)
      · exact ⟨rfl, fun _ _ => rfl, fun _ => rfl⟩
      · have := List.mem_range.1 hi
        exact handRecord_rung d _ (by omega) (by omega)
    · exact h2.trans (msixRises_rung _ _)

/-! ### A ring, component by component -/

variable (c : Ctl) (n u o : Nat)

@[simp] theorem ring_now : (c.ring n u o).now = c.now := by rw [(ring_rung c n u o).rest]
@[simp] theorem ring_flt : (c.ring n u o).flt = c.flt := by rw [(ring_rung c n u o).rest]
@[simp] theorem ring_clock : (c.ring n u o).clock = c.clock := by rw [(ring_rung c n u o).rest]
@[simp] theorem ring_phase : (c.ring n u o).phase = c.phase := by rw [(ring_rung c n u o).rest]
@[simp] theorem ring_adm : (c.ring n u o).adm = c.adm := by rw [(ring_rung c n u o).rest]
@[simp] theorem ring_axs : (c.ring n u o).axs = c.axs := by rw [(ring_rung c n u o).rest]
@[simp] theorem ring_care : (c.ring n u o).care = c.care := by rw [(ring_rung c n u o).rest]
@[simp] theorem ring_chn : (c.ring n u o).chn = c.chn := by rw [(ring_rung c n u o).rest]
@[simp] theorem ring_page : (c.ring n u o).page = c.page := by rw [(ring_rung c n u o).rest]
@[simp] theorem ring_pos : (c.ring n u o).pos = c.pos := by rw [(ring_rung c n u o).rest]
@[simp] theorem ring_fire : (c.ring n u o).fire = c.fire := by rw [(ring_rung c n u o).rest]
@[simp] theorem ring_mem : (c.ring n u o).mem = c.mem := by rw [(ring_rung c n u o).rest]
@[simp] theorem ring_loop : (c.ring n u o).loop = c.loop := by rw [(ring_rung c n u o).rest]
@[simp] theorem ring_use : (c.ring n u o).use = c.use := by rw [(ring_rung c n u o).rest]
@[simp] theorem ring_keys : (c.ring n u o).keys = c.keys := by rw [(ring_rung c n u o).rest]
@[simp] theorem ring_attic : (c.ring n u o).attic = c.attic := by rw [(ring_rung c n u o).rest]
@[simp] theorem ring_life : (c.ring n u o).life = c.life := by rw [(ring_rung c n u o).rest]
@[simp] theorem ring_pwr : (c.ring n u o).pwr = c.pwr := by rw [(ring_rung c n u o).rest]
@[simp] theorem ring_units : (c.ring n u o).units = c.units := by rw [(ring_rung c n u o).rest]
theorem ring_bell : (c.ring n u o).bell =
    { c.bell with pending := (c.ring n u o).bell.pending, eventSeq := (c.ring n u o).bell.eventSeq } := by
  conv => lhs; rw [(ring_rung c n u o).rest]
@[simp] theorem ring_net : (c.ring n u o).ydp.net = c.ydp.net := by rw [(ring_rung c n u o).rest]
@[simp] theorem ring_staging : (c.ring n u o).ydp.staging = c.ydp.staging := by rw [(ring_rung c n u o).rest]
@[simp] theorem ring_lockout : (c.ring n u o).ydp.lockoutEnd = c.ydp.lockoutEnd := by rw [(ring_rung c n u o).rest]
@[simp] theorem ring_mbxBusy : (c.ring n u o).ydp.mbxBusy = c.ydp.mbxBusy := by rw [(ring_rung c n u o).rest]

/-- Every object but the ring counters reads as before. -/
theorem ring_val {k : Nat} (h : bellObject k = false) : (c.ring n u o).val k = c.val k := (ring_rung c n u o).val k h

@[simp] theorem ring_isOpen (m : Nat) : ((c.ring n u o).sess m).isOpen = (c.sess m).isOpen := by rw [(ring_rung c n u o).sess m]
@[simp] theorem ring_role (m : Nat) : ((c.ring n u o).sess m).role = (c.sess m).role := by rw [(ring_rung c n u o).sess m]
@[simp] theorem ring_tag (m : Nat) : ((c.ring n u o).sess m).tag = (c.sess m).tag := by rw [(ring_rung c n u o).sess m]
@[simp] theorem ring_path (m : Nat) : ((c.ring n u o).sess m).path = (c.sess m).path := by rw [(ring_rung c n u o).sess m]
@[simp] theorem ring_peer (m : Nat) : ((c.ring n u o).sess m).peer = (c.sess m).peer := by rw [(ring_rung c n u o).sess m]
@[simp] theorem ring_lastSeq (m : Nat) : ((c.ring n u o).sess m).lastSeq = (c.sess m).lastSeq := by
  rw [(ring_rung c n u o).sess m]
@[simp] theorem ring_stored (m : Nat) : ((c.ring n u o).sess m).stored = (c.sess m).stored := by
  rw [(ring_rung c n u o).sess m]
@[simp] theorem ring_nonce (m : Nat) : ((c.ring n u o).sess m).nonce = (c.sess m).nonce := by rw [(ring_rung c n u o).sess m]
@[simp] theorem ring_sets (m : Nat) : ((c.ring n u o).sess m).sets = (c.sess m).sets := by rw [(ring_rung c n u o).sess m]
@[simp] theorem ring_flight (m : Nat) : ((c.ring n u o).sess m).flight = (c.sess m).flight := by
  rw [(ring_rung c n u o).sess m]

@[simp] theorem ring_knows (m tag : Nat) : (c.ring n u o).knows m tag = c.knows m tag := by simp [Ctl.knows]

/-! ### A counter raised -/

theorem bumpBy_val_other (k j m : Nat) (h : k ≠ j) : (c.bumpBy k m).val j = c.val j := by
  rcases bumpBy_cases c k m with e | ⟨v, e⟩ | ⟨v, e⟩ <;> rw [e]
  · exact Ctl.val_put_other c v h
  · simpa using Ctl.val_put_other c v h

theorem bump_val_other (k j : Nat) (h : k ≠ j) : (c.bump k).val j = c.val j := bumpBy_val_other c k j 1 h

/-- A counter that its type still has room for counts. -/
theorem bump_nat {k : Nat} {r : ObjRow} (hr : objOf k = some r) (h : c.nat k + 1 < r.ty.span) :
    (c.bump k).nat k = c.nat k + 1 := by
  unfold Ctl.bump Ctl.bumpBy
  simp only [hr, h, if_true, Ctl.putN_put]
  rw [Ctl.nat_val, Ctl.val_put_same, Val.int_num, Int.toNat_natCast]

/-- A bump changes the object, and may take a free value. -/
theorem bumpBy_rest (k m : Nat) : c.bumpBy k m = { c with dict := (c.bumpBy k m).dict, free := (c.bumpBy k m).free } := by
  rcases bumpBy_cases c k m with e | ⟨v, e⟩ | ⟨v, e⟩ <;> rw [e] <;> rfl

end Sys2Proof.Laws
end

