-- ==== Sys2Proof/Laws/Request.lean ====
section
/-! SUPPORT. Everything the serving of a request does besides its owner's effect (R33, R41, R43, R44, R46, R47, R51, R358), and the
one lemma a command row's statements rest on: its write reaches the owner, and the answer is kept. -/

namespace Sys2Proof.Laws

open Sys2Proof.Machine Sys2Proof.Safety

/-- What two controllers share when the second came from the first by serving a request, its owner's effect left out. -/
structure Wired (c d : Ctl) : Prop where
  rest : d = { c with free := d.free, out := d.out, dict := d.dict,
                      bell := { c.bell with pending := d.bell.pending, eventSeq := d.bell.eventSeq },
                      host := { c.host with waiting := d.host.waiting, wakeLow := d.host.wakeLow },
                      ydp := { c.ydp with sessions := d.ydp.sessions,
                                          net := { c.ydp.net with busyTo := d.ydp.net.busyTo, rx := d.ydp.net.rx },
                                          mbxResponse := d.ydp.mbxResponse, mbxBusy := d.ydp.mbxBusy, mbxReady := d.ydp.mbxReady } }
  val : ∀ k, wireObject k = false → d.val k = c.val k
  sess : ∀ n, d.sess n = { c.sess n with path := (d.sess n).path, peer := (d.sess n).peer, heardAt := (d.sess n).heardAt,
                                         lastSeq := (d.sess n).lastSeq, stored := (d.sess n).stored,
                                         queue := (d.sess n).queue, pendingLost := (d.sess n).pendingLost }

theorem Wired.refl (c : Ctl) : Wired c c := ⟨rfl, fun _ _ => rfl, fun _ => rfl⟩

theorem Wired.trans {c d e : Ctl} (h : Wired c d) (g : Wired d e) : Wired c e := by
  refine ⟨?_, fun k hk => (g.val k hk).trans (h.val k hk), fun n => ?_⟩
  · rw [g.rest]
    conv => lhs; rw [h.rest]
  · rw [g.sess n]
    conv => lhs; rw [h.sess n]

theorem bellObject_wire {k : Nat} (h : wireObject k = false) : bellObject k = false := by
  cases hb : bellObject k
  · rfl
  · simp [wireObject, hb] at h

theorem Rung.wired {c d : Ctl} (h : Rung c d) : Wired c d := by
  refine ⟨?_, fun k hk => h.val k (bellObject_wire hk), fun n => ?_⟩
  · conv => lhs; rw [h.rest]
    rw [h.rest]
  · conv => lhs; rw [h.sess n]
    rw [h.sess n]

theorem put_wired (c : Ctl) {k : Nat} (v : Val) (h : wireObject k = true) : Wired c (c.put k v) :=
  ⟨rfl, fun j hj => Ctl.val_put_other c v (fun e => by subst e; simp [h] at hj), fun _ => rfl⟩

theorem bump_wired (c : Ctl) {k : Nat} (h : wireObject k = true) : Wired c (c.bump k) := by
  unfold Ctl.bump
  rcases bumpBy_cases c k 1 with e | ⟨v, e⟩ | ⟨v, e⟩ <;> rw [e]
  · exact Wired.refl c
  · exact put_wired c v h
  · exact (put_wired c v h).trans ⟨rfl, fun _ _ => rfl, fun _ => rfl⟩

theorem wire_path (n : Nat) (h0 : 1 ≤ n) (h : n ≤ 8) : wireObject (Obj.session_path n) = true := by
  simp only [wireObject, Bool.or_eq_true, decide_eq_true_eq, Obj.session_path]; omega

theorem wire_peer (n : Nat) (h0 : 1 ≤ n) (h : n ≤ 8) : wireObject (Obj.session_peer n) = true := by
  simp only [wireObject, Bool.or_eq_true, decide_eq_true_eq, Obj.session_peer]; omega

theorem wire_sent (p : Nat) (h : p ≤ 1) : wireObject (Obj.frames_sent p) = true := by
  simp only [wireObject, Bool.or_eq_true, decide_eq_true_eq, Obj.frames_sent]; omega

theorem wire_received (p : Nat) (h : p ≤ 1) : wireObject (Obj.frames_received p) = true := by
  simp only [wireObject, Bool.or_eq_true, decide_eq_true_eq, Obj.frames_received]; omega

theorem wire_dropped (p : Nat) (h : p ≤ 1) : wireObject (Obj.fp_frames_dropped p) = true := by
  simp only [wireObject, Bool.or_eq_true, decide_eq_true_eq, Obj.fp_frames_dropped]; omega

theorem heard_wired (c : Ctl) (n path : Nat) (peer : List Byte) (h0 : 1 ≤ n) (h : n ≤ 8) :
    Wired c (c.heard n path peer) := by
  unfold Ctl.heard
  refine Wired.trans (Wired.trans (d := c.setSess n { c.sess n with heardAt := c.now, path := path, peer := peer })
    ⟨rfl, fun _ _ => rfl, fun m => ?_⟩ (put_wired _ _ (wire_path n h0 h))) (put_wired _ _ (wire_peer n h0 h))
  rw [Ctl.sess_setSess]
  split
  · rename_i e; subst e; rfl
  · rfl

theorem keep_wired (c : Ctl) (n seq tag : Nat) (f : Sent) : Wired c (c.keep n seq tag f) := by
  unfold Ctl.keep
  split
  · refine ⟨rfl, fun _ _ => rfl, fun m => ?_⟩
    rw [Ctl.sess_setSess]
    split
    · rename_i e; subst e; rfl
    · rfl
  · exact Wired.refl c

theorem setNet_wired (c : Ctl) (x : Kv Nat) : Wired c (c.setNet { c.ydp.net with busyTo := x }) :=
  ⟨rfl, fun _ _ => rfl, fun _ => rfl⟩

theorem arrived_wired (c : Ctl) (path seq : Nat) : Wired c (c.arrived path seq) := by
  have h1 : Wired c (c.receivedOn path) := by
    unfold Ctl.receivedOn
    split
    · rename_i h; exact bump_wired c (wire_received path (by omega))
    · exact Wired.refl c
  refine h1.trans ?_
  unfold Ctl.arrived Ctl.queueRx
  split <;> exact ⟨rfl, fun _ _ => rfl, fun _ => rfl⟩

theorem emit_wired (c : Ctl) (o : Out) : Wired c (c.emit o) := ⟨rfl, fun _ _ => rfl, fun _ => rfl⟩

theorem sendOut_wired (c : Ctl) {p : Nat} (len : Nat) (o : Out) (h : p ≤ 1) : Wired c (c.sendOut p len o) := by
  unfold Ctl.sendOut
  split
  · exact ((setNet_wired c _).trans (bump_wired _ (wire_sent p h))).trans (emit_wired _ _)
  · exact bump_wired c (wire_dropped p h)

theorem reply_wired (c : Ctl) {path : Nat} (peer : List Byte) (f : Sent) (h : path ≤ 2) : Wired c (c.reply path peer f) := by
  unfold Ctl.reply
  split
  · exact Wired.trans (d := { c with ydp := { c.ydp with mbxResponse := f.bytes, mbxBusy := false, mbxReady := true } })
      ⟨rfl, fun _ _ => rfl, fun _ => rfl⟩ (ring_rung _ _ _ _).wired
  · unfold Ctl.sendYdp
    split
    · exact ⟨rfl, fun _ _ => rfl, fun _ => rfl⟩
    · exact sendOut_wired c _ _ (by omega)

/-! ### What a response leaves of a session -/

theorem bump_sess (c : Ctl) (k n : Nat) : (c.bump k).sess n = c.sess n := by
  unfold Ctl.bump
  rcases bumpBy_cases c k 1 with e | ⟨v, e⟩ | ⟨v, e⟩ <;> rw [e] <;> rfl

@[simp] theorem reply_stored (c : Ctl) (path : Nat) (peer : List Byte) (f : Sent) (n : Nat) :
    ((c.reply path peer f).sess n).stored = (c.sess n).stored := by
  unfold Ctl.reply
  split
  · rw [ring_stored]; rfl
  · unfold Ctl.sendYdp
    split
    · rfl
    · unfold Ctl.sendOut
      split
      · rw [Ctl.emit_sess, bump_sess]; rfl
      · rw [bump_sess]

theorem keep_stored {c : Ctl} {n seq tag : Nat} (f : Sent) (h : c.knows n tag = true) :
    ((c.keep n seq tag f).sess n).stored = some f := by
  unfold Ctl.keep
  simp [h]

theorem Wired.knows {c d : Ctl} (h : Wired c d) (n tag : Nat) : d.knows n tag = c.knows n tag := by
  unfold Ctl.knows
  rw [h.sess n]

theorem Wired.awake {c d : Ctl} (h : Wired c d) : d.awake = c.awake := by
  unfold Ctl.awake
  rw [h.rest]

/-! ### The parts that serving a request leaves -/

section parts
variable {c d : Ctl}

theorem Wired.now (h : Wired c d) : d.now = c.now := by rw [h.rest]
theorem Wired.flt (h : Wired c d) : d.flt = c.flt := by rw [h.rest]
theorem Wired.clock (h : Wired c d) : d.clock = c.clock := by rw [h.rest]
theorem Wired.phase (h : Wired c d) : d.phase = c.phase := by rw [h.rest]
theorem Wired.adm (h : Wired c d) : d.adm = c.adm := by rw [h.rest]
theorem Wired.axs (h : Wired c d) : d.axs = c.axs := by rw [h.rest]
theorem Wired.care (h : Wired c d) : d.care = c.care := by rw [h.rest]
theorem Wired.chn (h : Wired c d) : d.chn = c.chn := by rw [h.rest]
theorem Wired.page (h : Wired c d) : d.page = c.page := by rw [h.rest]
theorem Wired.pos (h : Wired c d) : d.pos = c.pos := by rw [h.rest]
theorem Wired.fire (h : Wired c d) : d.fire = c.fire := by rw [h.rest]
theorem Wired.mem (h : Wired c d) : d.mem = c.mem := by rw [h.rest]
theorem Wired.loop (h : Wired c d) : d.loop = c.loop := by rw [h.rest]
theorem Wired.use (h : Wired c d) : d.use = c.use := by rw [h.rest]
theorem Wired.keys (h : Wired c d) : d.keys = c.keys := by rw [h.rest]
theorem Wired.attic (h : Wired c d) : d.attic = c.attic := by rw [h.rest]
theorem Wired.life (h : Wired c d) : d.life = c.life := by rw [h.rest]
theorem Wired.pwr (h : Wired c d) : d.pwr = c.pwr := by rw [h.rest]
theorem Wired.units (h : Wired c d) : d.units = c.units := by rw [h.rest]
theorem Wired.staging (h : Wired c d) : d.ydp.staging = c.ydp.staging := by rw [h.rest]
theorem Wired.lockout (h : Wired c d) : d.ydp.lockoutEnd = c.ydp.lockoutEnd := by rw [h.rest]
theorem Wired.nat (h : Wired c d) {k : Nat} (hk : wireObject k = false) : d.nat k = c.nat k := by
  rw [Ctl.nat_val, Ctl.nat_val, h.val k hk]
theorem Wired.int (h : Wired c d) {k : Nat} (hk : wireObject k = false) : d.int k = c.int k := by
  rw [Ctl.int_val, Ctl.int_val, h.val k hk]
theorem Wired.on (h : Wired c d) {k : Nat} (hk : wireObject k = false) : d.on k = c.on k := by
  rw [Ctl.on_val, Ctl.on_val, h.val k hk]
theorem Wired.oct (h : Wired c d) {k : Nat} (hk : wireObject k = false) : d.oct k = c.oct k := by
  rw [Ctl.oct_val, Ctl.oct_val, h.val k hk]
theorem Wired.isOpen (h : Wired c d) (n : Nat) : (d.sess n).isOpen = (c.sess n).isOpen := by rw [h.sess n]
theorem Wired.role (h : Wired c d) (n : Nat) : (d.sess n).role = (c.sess n).role := by rw [h.sess n]
theorem Wired.tag (h : Wired c d) (n : Nat) : (d.sess n).tag = (c.sess n).tag := by rw [h.sess n]
theorem Wired.nonce (h : Wired c d) (n : Nat) : (d.sess n).nonce = (c.sess n).nonce := by rw [h.sess n]
theorem Wired.sets (h : Wired c d) (n : Nat) : (d.sess n).sets = (c.sess n).sets := by rw [h.sess n]
theorem Wired.flight (h : Wired c d) (n : Nat) : (d.sess n).flight = (c.sess n).flight := by rw [h.sess n]
theorem Wired.evSeq (h : Wired c d) (n : Nat) : (d.sess n).evSeq = (c.sess n).evSeq := by rw [h.sess n]
theorem Wired.nozzleWindow (h : Wired c d) (n : Nat) : (d.sess n).nozzleWindow = (c.sess n).nozzleWindow := by rw [h.sess n]
theorem Wired.bellWindow (h : Wired c d) (n : Nat) : (d.sess n).bellWindow = (c.sess n).bellWindow := by rw [h.sess n]

end parts

/-! ### A command row -/

/-- The controller as the owner finds it. -/
abbrev Ctl.at_ (c : Ctl) (r : Req) : Ctl := (c.arrived r.path r.seq).heard r.session r.path r.peer

theorem arrived_sess (c : Ctl) (path seq n : Nat) : (c.arrived path seq).sess n = c.sess n := by
  have h : (c.receivedOn path).sess n = c.sess n := by
    unfold Ctl.receivedOn
    split
    · exact bump_sess c _ n
    · rfl
  unfold Ctl.arrived Ctl.queueRx
  split <;> exact h

theorem reaches_wired {c : Ctl} {r : Req} {key : Nat} {b : List Byte} (h : c.reaches r key b) : Wired c (Ctl.at_ c r) := by
  have hk := h.2.1
  simp only [Ctl.knows, Bool.and_eq_true, decide_eq_true_eq] at hk
  exact (arrived_wired c _ _).trans (heard_wired _ _ _ _ hk.1.1.1 hk.1.1.2)

/-- A row's write under `reaches` runs the owner once, keeps its answer and sends it: everything else is as the owner left
it, but for what serving a request may change. -/
theorem writeRow_served {m : Mach} {r : Req} {key : Nat} {b : List Byte} (own : Nat → Mach → Nat × Mach)
    (h : m.ctl.reaches r key b) :
    ∃ d, m.writeRow r key b own = ⟨d, (own r.session (m.onCtl fun _ => Ctl.at_ m.ctl r)).2.cellar⟩ ∧
      Wired (own r.session (m.onCtl fun _ => Ctl.at_ m.ctl r)).2.ctl d ∧
      ((own r.session (m.onCtl fun _ => Ctl.at_ m.ctl r)).2.ctl.knows r.session r.tag = true →
        (d.sess r.session).stored = some ⟨0x11, r.session, r.seq, r.tag, St.OK,
          writePayload [(key, (own r.session (m.onCtl fun _ => Ctl.at_ m.ctl r)).1)]⟩) := by
  obtain ⟨ha, hk, hp, hf, hs, hw⟩ := h
  have hsl : m.ctl.phase ≠ .asleep := fun e => by simp [Ctl.awake, e] at ha
  have hka : (m.ctl.arrived r.path r.seq).knows r.session r.tag = true := by
    rw [(arrived_wired m.ctl r.path r.seq).knows]; exact hk
  have hseq : r.seq = (((m.ctl.arrived r.path r.seq).sess r.session).lastSeq + 1) % 65536 := by rw [arrived_sess]; exact hs
  have hne : r.seq ≠ ((m.ctl.arrived r.path r.seq).sess r.session).lastSeq := by omega
  unfold Mach.writeRow Mach.rowFrame Mach.arrive
  simp only [if_neg hsl, ha, hf, Bool.not_true, Bool.false_eq_true, if_false]
  unfold Mach.request
  have hctl : (m.onCtl (·.arrived r.path r.seq)).ctl = m.ctl.arrived r.path r.seq := rfl
  simp only [hctl, hka, Bool.not_true, Bool.false_eq_true, if_false, hne, and_false, ← hseq, ne_eq, not_true]
  have hserve : serveWrite r.session (fun n _ _ m => own n m) [(key, b)] (m.onCtl fun _ => Ctl.at_ m.ctl r) =
      (St.OK, writePayload [(key, (own r.session (m.onCtl fun _ => Ctl.at_ m.ctl r)).1)],
        (own r.session (m.onCtl fun _ => Ctl.at_ m.ctl r)).2) := by
    have hw' : (Ctl.at_ m.ctl r).checkWrite r.session key b = St.OK := hw
    simp [serveWrite, applyEntries, hw']
  have honc : (m.onCtl (·.arrived r.path r.seq)).onCtl (·.heard r.session r.path r.peer) =
      m.onCtl fun _ => Ctl.at_ m.ctl r := rfl
  rw [honc, hserve]
  refine ⟨_, rfl, ?_, fun hkn => ?_⟩
  · exact (keep_wired _ _ _ _ _).trans (reply_wired _ _ _ hp)
  · simp only [reply_stored, keep_stored _ hkn]

/-- The same for an owner that acts on the controller alone: the cellar is untouched. -/
theorem ctlRow_served {m : Mach} {r : Req} {key : Nat} {b : List Byte} (own : Nat → Ctl → Nat × Ctl)
    (h : m.ctl.reaches r key b) :
    ∃ d, m.ctlRow r key b own = ⟨d, m.cellar⟩ ∧ Wired (own r.session (Ctl.at_ m.ctl r)).2 d ∧
      ((own r.session (Ctl.at_ m.ctl r)).2.knows r.session r.tag = true →
        (d.sess r.session).stored = some ⟨0x11, r.session, r.seq, r.tag, St.OK,
          writePayload [(key, (own r.session (Ctl.at_ m.ctl r)).1)]⟩) := by
  obtain ⟨d, h1, h2, h3⟩ := writeRow_served (m := m) (onCtlOwner own) h
  exact ⟨d, h1, h2, h3⟩

end Sys2Proof.Laws
end

