-- ==== Sys2Proof/Laws/Frame.lean ====
section
/-! SUPPORT. Frames: what is unchanged is an equivalence, each update leaves all but its own part and object, and serving a
request leaves everything. -/

namespace Sys2Proof.Laws

open Sys2Proof.Machine Sys2Proof.Safety

theorem kept_refl (a : Mach) (p : Part) : kept a a p := by cases p <;> simp [kept]

theorem kept_symm {a b : Mach} {p : Part} (h : kept a b p) : kept b a p := by
  cases p <;> simp only [kept] at h ⊢ <;> first
    | exact h.symm
    | exact ⟨h.1.symm, h.2.1.symm, h.2.2.symm⟩
    | (intro n; rw [h n])
    | (rw [h])

theorem kept_trans {a b c : Mach} {p : Part} (h : kept a b p) (g : kept b c p) : kept a c p := by
  cases p <;> simp only [kept] at h g ⊢ <;> first
    | exact g.trans h
    | exact ⟨g.1.trans h.1, g.2.1.trans h.2.1, g.2.2.trans h.2.2⟩
    | (intro n; rw [g n]; conv => lhs; rw [h n])
    | (rw [g]; conv => lhs; rw [h])

variable {ps : List Part} {ks is_ : List Nat}

theorem unchanged_refl (a : Mach) : unchangedBut ps ks is_ a a := ⟨fun p _ => kept_refl a p, fun _ _ _ _ => rfl⟩

theorem unchanged_symm {a b : Mach} (h : unchangedBut ps ks is_ a b) : unchangedBut ps ks is_ b a :=
  ⟨fun p hp => kept_symm (h.1 p hp), fun k h1 h2 h3 => (h.2 k h1 h2 h3).symm⟩

theorem unchanged_trans {a b c : Mach} (h : unchangedBut ps ks is_ a b) (g : unchangedBut ps ks is_ b c) :
    unchangedBut ps ks is_ a c :=
  ⟨fun p hp => kept_trans (h.1 p hp) (g.1 p hp), fun k h1 h2 h3 => (g.2 k h1 h2 h3).trans (h.2 k h1 h2 h3)⟩

/-- A step that leaves all but the named does not matter to what is unchanged. -/
theorem unchanged_iff {b c : Mach} (h : unchangedBut ps ks is_ b c) (a : Mach) :
    unchangedBut ps ks is_ a c ↔ unchangedBut ps ks is_ a b :=
  ⟨fun g => unchanged_trans g (unchanged_symm h), fun g => unchanged_trans g h⟩

/-- Naming more leaves less to show. -/
theorem unchanged_mono {ps' : List Part} {ks' is' : List Nat} {a b : Mach} (h : unchangedBut ps ks is_ a b)
    (h1 : ∀ p ∈ ps, p ∈ ps') (h2 : ∀ k ∈ ks, k ∈ ks') (h3 : ∀ i ∈ is_, i ∈ is') : unchangedBut ps' ks' is' a b :=
  ⟨fun p hp => h.1 p (fun q => hp (h1 p q)), fun k hw hk hi => h.2 k hw (fun q => hk (h2 k q)) (fun q => hi (h3 _ q))⟩

/-! ### Serving a request -/

theorem wired_unchanged {c d : Ctl} (h : Wired c d) (x : Kv Byte) : unchangedBut ps ks is_ ⟨c, x⟩ ⟨d, x⟩ := by
  refine ⟨fun p _ => ?_, fun k hk _ _ => h.val k hk⟩
  cases p <;> simp only [kept] <;> first
    | exact h.sess
    | rfl
    | exact ⟨by rw [h.rest], by rw [h.rest], by rw [h.rest]⟩
    | (rw [h.rest])

/-! ### Each update, peeled off a frame -/

section peel
variable (a : Mach) (c : Ctl) (x : Kv Byte)

theorem un_put {k : Nat} (v : Val) (hk : k ∈ ks ∨ k / 256 ∈ is_ ∨ wireObject k = true) :
    unchangedBut ps ks is_ a ⟨c.put k v, x⟩ ↔ unchangedBut ps ks is_ a ⟨c, x⟩ := by
  refine unchanged_iff ⟨fun p _ => ?_, fun j hw hj hi => ?_⟩ a
  · cases p <;> simp [kept]
  · refine Ctl.val_put_other c v (fun e => ?_)
    subst e
    rcases hk with h | h | h
    · exact hj h
    · exact hi h
    · simp [h] at hw

@[simp] theorem un_put_key {k : Nat} (v : Val) (hk : k ∈ ks) :
    unchangedBut ps ks is_ a ⟨c.put k v, x⟩ ↔ unchangedBut ps ks is_ a ⟨c, x⟩ := un_put a c x v (.inl hk)

@[simp] theorem un_put_index {k : Nat} (v : Val) (hk : k / 256 ∈ is_) :
    unchangedBut ps ks is_ a ⟨c.put k v, x⟩ ↔ unchangedBut ps ks is_ a ⟨c, x⟩ := un_put a c x v (.inr (.inl hk))

@[simp] theorem un_ring (n u o : Nat) :
    unchangedBut ps ks is_ a ⟨c.ring n u o, x⟩ ↔ unchangedBut ps ks is_ a ⟨c, x⟩ :=
  unchanged_iff (wired_unchanged (ring_rung c n u o).wired x) a

@[simp] theorem un_reply {path : Nat} (peer : List Byte) (f : Sent) (h : path ≤ 2) :
    unchangedBut ps ks is_ a ⟨c.reply path peer f, x⟩ ↔ unchangedBut ps ks is_ a ⟨c, x⟩ :=
  unchanged_iff (wired_unchanged (reply_wired c peer f h) x) a

@[simp] theorem un_keep (n seq tag : Nat) (f : Sent) :
    unchangedBut ps ks is_ a ⟨c.keep n seq tag f, x⟩ ↔ unchangedBut ps ks is_ a ⟨c, x⟩ :=
  unchanged_iff (wired_unchanged (keep_wired c n seq tag f) x) a

@[simp] theorem un_emit (o : Out) :
    unchangedBut ps ks is_ a ⟨c.emit o, x⟩ ↔ unchangedBut ps ks is_ a ⟨c, x⟩ :=
  unchanged_iff (wired_unchanged (emit_wired c o) x) a

@[simp] theorem un_took : unchangedBut ps ks is_ a ⟨c.took, x⟩ ↔ unchangedBut ps ks is_ a ⟨c, x⟩ :=
  unchanged_iff (wired_unchanged (⟨rfl, fun _ _ => rfl, fun _ => rfl⟩ : Wired c c.took) x) a

theorem un_bumpBy {k : Nat} (n : Nat) (hk : k ∈ ks ∨ k / 256 ∈ is_ ∨ wireObject k = true) :
    unchangedBut ps ks is_ a ⟨c.bumpBy k n, x⟩ ↔ unchangedBut ps ks is_ a ⟨c, x⟩ := by
  rcases bumpBy_cases c k n with e | ⟨v, e⟩ | ⟨v, e⟩ <;> rw [e]
  · exact un_put a c x v hk
  · rw [un_took]; exact un_put a c x v hk

@[simp] theorem un_bump {k : Nat} (hk : k ∈ ks) :
    unchangedBut ps ks is_ a ⟨c.bump k, x⟩ ↔ unchangedBut ps ks is_ a ⟨c, x⟩ := un_bumpBy a c x 1 (.inl hk)

@[simp] theorem un_cmdDone {k : Nat} (src u : Nat) (hk : k ∈ ks) :
    unchangedBut ps ks is_ a ⟨c.cmdDone k src u, x⟩ ↔ unchangedBut ps ks is_ a ⟨c, x⟩ := by
  unfold Ctl.cmdDone; simp [hk]

@[simp] theorem un_cmdFail {k : Nat} (code src u : Nat) (hk : k ∈ ks) :
    unchangedBut ps ks is_ a ⟨c.cmdFail k code src u, x⟩ ↔ unchangedBut ps ks is_ a ⟨c, x⟩ := by
  unfold Ctl.cmdFail; simp [hk]

@[simp] theorem un_cmdRun {k : Nat} (n : Nat) (hk : k ∈ ks) :
    unchangedBut ps ks is_ a ⟨c.cmdRun k n, x⟩ ↔ unchangedBut ps ks is_ a ⟨c, x⟩ := by
  unfold Ctl.cmdRun; simp [hk]

@[simp] theorem un_cmdNow {k : Nat} (n src u : Nat) (hk : k ∈ ks) :
    unchangedBut ps ks is_ a ⟨c.cmdNow k n src u, x⟩ ↔ unchangedBut ps ks is_ a ⟨c, x⟩ := by
  unfold Ctl.cmdNow; simp [hk]

@[simp] theorem un_cmdNowFail {k : Nat} (n code src u : Nat) (hk : k ∈ ks) :
    unchangedBut ps ks is_ a ⟨c.cmdNowFail k n code src u, x⟩ ↔ unchangedBut ps ks is_ a ⟨c, x⟩ := by
  unfold Ctl.cmdNowFail; simp [hk]

/-- A part that the frame names may be replaced. -/
theorem un_part {d : Ctl} (q : Part) (h : q ∈ ps) (hv : ∀ k, d.val k = c.val k)
    (hk : ∀ p, p ≠ q → kept ⟨c, x⟩ ⟨d, x⟩ p) :
    unchangedBut ps ks is_ a ⟨d, x⟩ ↔ unchangedBut ps ks is_ a ⟨c, x⟩ :=
  unchanged_iff ⟨fun p hp => hk p (fun e => by subst e; exact hp h), fun k _ _ _ => hv k⟩ a

@[simp] theorem un_setSess (n : Nat) (v : Session) (h : Part.sessions ∈ ps) :
    unchangedBut ps ks is_ a ⟨c.setSess n v, x⟩ ↔ unchangedBut ps ks is_ a ⟨c, x⟩ :=
  un_part a c x .sessions h (fun _ => rfl) (fun p hp => by cases p <;> simp_all [kept, Ctl.setSess])

@[simp] theorem un_setStaging (g : Option Staging) (h : Part.staging ∈ ps) :
    unchangedBut ps ks is_ a ⟨c.setStaging g, x⟩ ↔ unchangedBut ps ks is_ a ⟨c, x⟩ :=
  un_part a c x .staging h (fun _ => rfl) (fun p hp => by cases p <;> simp_all [kept, Ctl.setStaging, Ctl.sess])

@[simp] theorem un_clearPend (n : Nat) :
    unchangedBut ps ks is_ a ⟨c.clearPend n, x⟩ ↔ unchangedBut ps ks is_ a ⟨c, x⟩ :=
  unchanged_iff (wired_unchanged (⟨rfl, fun _ _ => rfl, fun _ => rfl⟩ : Wired c (c.clearPend n)) x) a

@[simp] theorem un_setFlt (y : Faults) (h : Part.faults ∈ ps) :
    unchangedBut ps ks is_ a ⟨c.setFlt y, x⟩ ↔ unchangedBut ps ks is_ a ⟨c, x⟩ :=
  un_part a c x .faults h (fun _ => rfl) (fun p hp => by cases p <;> simp_all [kept])

@[simp] theorem un_setClock (y : Clock) (h : Part.clock ∈ ps) :
    unchangedBut ps ks is_ a ⟨c.setClock y, x⟩ ↔ unchangedBut ps ks is_ a ⟨c, x⟩ :=
  un_part a c x .clock h (fun _ => rfl) (fun p hp => by cases p <;> simp_all [kept])

@[simp] theorem un_setTickets (y : List Ticket) (h : Part.admission ∈ ps) :
    unchangedBut ps ks is_ a ⟨c.setTickets y, x⟩ ↔ unchangedBut ps ks is_ a ⟨c, x⟩ :=
  un_part a c x .admission h (fun _ => rfl) (fun p hp => by cases p <;> simp_all [kept])

@[simp] theorem un_setAxis (n : Nat) (y : Axis) (h : Part.axes ∈ ps) :
    unchangedBut ps ks is_ a ⟨c.setAxis n y, x⟩ ↔ unchangedBut ps ks is_ a ⟨c, x⟩ :=
  un_part a c x .axes h (fun _ => rfl) (fun p hp => by cases p <;> simp_all [kept])

@[simp] theorem un_setLim (n : Nat) (y : Lim) (h : Part.axes ∈ ps) :
    unchangedBut ps ks is_ a ⟨c.setLim n y, x⟩ ↔ unchangedBut ps ks is_ a ⟨c, x⟩ :=
  un_part a c x .axes h (fun _ => rfl) (fun p hp => by cases p <;> simp_all [kept])

@[simp] theorem un_setCareBar (n : Nat) (y : CareBar) (h : Part.care ∈ ps) :
    unchangedBut ps ks is_ a ⟨c.setCareBar n y, x⟩ ↔ unchangedBut ps ks is_ a ⟨c, x⟩ :=
  un_part a c x .care h (fun _ => rfl) (fun p hp => by cases p <;> simp_all [kept])

@[simp] theorem un_setShelf (y : List ShelfLine) (h : Part.care ∈ ps) :
    unchangedBut ps ks is_ a ⟨c.setShelf y, x⟩ ↔ unchangedBut ps ks is_ a ⟨c, x⟩ :=
  un_part a c x .care h (fun _ => rfl) (fun p hp => by cases p <;> simp_all [kept])

@[simp] theorem un_setMgr (n : Nat) (y : ChainMgr) (h : Part.chains ∈ ps) :
    unchangedBut ps ks is_ a ⟨c.setMgr n y, x⟩ ↔ unchangedBut ps ks is_ a ⟨c, x⟩ :=
  un_part a c x .chains h (fun _ => rfl) (fun p hp => by cases p <;> simp_all [kept])

@[simp] theorem un_setHeadMgr (n : Nat) (y : HeadMgr) (h : Part.chains ∈ ps) :
    unchangedBut ps ks is_ a ⟨c.setHeadMgr n y, x⟩ ↔ unchangedBut ps ks is_ a ⟨c, x⟩ :=
  un_part a c x .chains h (fun _ => rfl) (fun p hp => by cases p <;> simp_all [kept])

@[simp] theorem un_setPos (y : Position) (h : Part.position ∈ ps) :
    unchangedBut ps ks is_ a ⟨c.setPos y, x⟩ ↔ unchangedBut ps ks is_ a ⟨c, x⟩ :=
  un_part a c x .position h (fun _ => rfl) (fun p hp => by cases p <;> simp_all [kept])

@[simp] theorem un_setFire (y : Fire) (h : Part.fire ∈ ps) :
    unchangedBut ps ks is_ a ⟨c.setFire y, x⟩ ↔ unchangedBut ps ks is_ a ⟨c, x⟩ :=
  un_part a c x .fire h (fun _ => rfl) (fun p hp => by cases p <;> simp_all [kept])

@[simp] theorem un_setPair (n : Nat) (y : PairState) (h : Part.fire ∈ ps) :
    unchangedBut ps ks is_ a ⟨c.setPair n y, x⟩ ↔ unchangedBut ps ks is_ a ⟨c, x⟩ :=
  un_part a c x .fire h (fun _ => rfl) (fun p hp => by cases p <;> simp_all [kept])

@[simp] theorem un_setMem (y : CellarCtl) (h : Part.cellarCtl ∈ ps) :
    unchangedBut ps ks is_ a ⟨c.setMem y, x⟩ ↔ unchangedBut ps ks is_ a ⟨c, x⟩ :=
  un_part a c x .cellarCtl h (fun _ => rfl) (fun p hp => by cases p <;> simp_all [kept])

@[simp] theorem un_setLoop (y : Loop) (h : Part.loop ∈ ps) :
    unchangedBut ps ks is_ a ⟨c.setLoop y, x⟩ ↔ unchangedBut ps ks is_ a ⟨c, x⟩ :=
  un_part a c x .loop h (fun _ => rfl) (fun p hp => by cases p <;> simp_all [kept])

@[simp] theorem un_setUse (y : Usage) (h : Part.usage ∈ ps) :
    unchangedBut ps ks is_ a ⟨c.setUse y, x⟩ ↔ unchangedBut ps ks is_ a ⟨c, x⟩ :=
  un_part a c x .usage h (fun _ => rfl) (fun p hp => by cases p <;> simp_all [kept])

@[simp] theorem un_setSlot (n : Nat) (y : List Byte) (h : Part.attic ∈ ps) :
    unchangedBut ps ks is_ a ⟨c.setSlot n y, x⟩ ↔ unchangedBut ps ks is_ a ⟨c, x⟩ :=
  un_part a c x .attic h (fun _ => rfl) (fun p hp => by cases p <;> simp_all [kept])

@[simp] theorem un_setJobs (y : List AtticJob) (h : Part.attic ∈ ps) :
    unchangedBut ps ks is_ a ⟨c.setJobs y, x⟩ ↔ unchangedBut ps ks is_ a ⟨c, x⟩ :=
  un_part a c x .attic h (fun _ => rfl) (fun p hp => by cases p <;> simp_all [kept])

@[simp] theorem un_setLife (y : Life) (h : Part.life ∈ ps) :
    unchangedBut ps ks is_ a ⟨c.setLife y, x⟩ ↔ unchangedBut ps ks is_ a ⟨c, x⟩ :=
  un_part a c x .life h (fun _ => rfl) (fun p hp => by cases p <;> simp_all [kept])

@[simp] theorem un_setPwr (y : Power) (h : Part.power ∈ ps) :
    unchangedBut ps ks is_ a ⟨c.setPwr y, x⟩ ↔ unchangedBut ps ks is_ a ⟨c, x⟩ :=
  un_part a c x .power h (fun _ => rfl) (fun p hp => by cases p <;> simp_all [kept])

@[simp] theorem un_setCam (n : Nat) (y : Camera) (h : Part.units ∈ ps) :
    unchangedBut ps ks is_ a ⟨c.setCam n y, x⟩ ↔ unchangedBut ps ks is_ a ⟨c, x⟩ :=
  un_part a c x .units h (fun _ => rfl) (fun p hp => by cases p <;> simp_all [kept])

@[simp] theorem un_setLane (n : Nat) (y : Lane) (h : Part.units ∈ ps) :
    unchangedBut ps ks is_ a ⟨c.setLane n y, x⟩ ↔ unchangedBut ps ks is_ a ⟨c, x⟩ :=
  un_part a c x .units h (fun _ => rfl) (fun p hp => by cases p <;> simp_all [kept])

@[simp] theorem un_setRec (y : Recorder) (h : Part.units ∈ ps) :
    unchangedBut ps ks is_ a ⟨c.setRec y, x⟩ ↔ unchangedBut ps ks is_ a ⟨c, x⟩ :=
  un_part a c x .units h (fun _ => rfl) (fun p hp => by cases p <;> simp_all [kept])

@[simp] theorem un_setAdm (y : Admission) (h : Part.admission ∈ ps) :
    unchangedBut ps ks is_ a ⟨c.setAdm y, x⟩ ↔ unchangedBut ps ks is_ a ⟨c, x⟩ :=
  un_part a c x .admission h (fun _ => rfl) (fun p hp => by cases p <;> simp_all [kept])

@[simp] theorem un_setAxs (y : Axes) (h : Part.axes ∈ ps) :
    unchangedBut ps ks is_ a ⟨c.setAxs y, x⟩ ↔ unchangedBut ps ks is_ a ⟨c, x⟩ :=
  un_part a c x .axes h (fun _ => rfl) (fun p hp => by cases p <;> simp_all [kept])

@[simp] theorem un_setCare (y : Care) (h : Part.care ∈ ps) :
    unchangedBut ps ks is_ a ⟨c.setCare y, x⟩ ↔ unchangedBut ps ks is_ a ⟨c, x⟩ :=
  un_part a c x .care h (fun _ => rfl) (fun p hp => by cases p <;> simp_all [kept])

@[simp] theorem un_setChn (y : Chains) (h : Part.chains ∈ ps) :
    unchangedBut ps ks is_ a ⟨c.setChn y, x⟩ ↔ unchangedBut ps ks is_ a ⟨c, x⟩ :=
  un_part a c x .chains h (fun _ => rfl) (fun p hp => by cases p <;> simp_all [kept])

@[simp] theorem un_setPage (y : PageData) (h : Part.pages ∈ ps) :
    unchangedBut ps ks is_ a ⟨c.setPage y, x⟩ ↔ unchangedBut ps ks is_ a ⟨c, x⟩ :=
  un_part a c x .pages h (fun _ => rfl) (fun p hp => by cases p <;> simp_all [kept])

@[simp] theorem un_setKeys (y : Keys) (h : Part.keys ∈ ps) :
    unchangedBut ps ks is_ a ⟨c.setKeys y, x⟩ ↔ unchangedBut ps ks is_ a ⟨c, x⟩ :=
  un_part a c x .keys h (fun _ => rfl) (fun p hp => by cases p <;> simp_all [kept])

@[simp] theorem un_setAttics (y : Attic) (h : Part.attic ∈ ps) :
    unchangedBut ps ks is_ a ⟨c.setAttics y, x⟩ ↔ unchangedBut ps ks is_ a ⟨c, x⟩ :=
  un_part a c x .attic h (fun _ => rfl) (fun p hp => by cases p <;> simp_all [kept])

@[simp] theorem un_setUnits (y : Units) (h : Part.units ∈ ps) :
    unchangedBut ps ks is_ a ⟨c.setUnits y, x⟩ ↔ unchangedBut ps ks is_ a ⟨c, x⟩ :=
  un_part a c x .units h (fun _ => rfl) (fun p hp => by cases p <;> simp_all [kept])

@[simp] theorem un_setHost (y : HostPort) (h : Part.host ∈ ps) :
    unchangedBut ps ks is_ a ⟨c.setHost y, x⟩ ↔ unchangedBut ps ks is_ a ⟨c, x⟩ :=
  un_part a c x .host h (fun _ => rfl) (fun p hp => by cases p <;> simp_all [kept])

@[simp] theorem un_setBell (y : Bell) (h : Part.bell ∈ ps) :
    unchangedBut ps ks is_ a ⟨c.setBell y, x⟩ ↔ unchangedBut ps ks is_ a ⟨c, x⟩ :=
  un_part a c x .bell h (fun _ => rfl) (fun p hp => by cases p <;> simp_all [kept])

@[simp] theorem un_setPhase (y : Phase) (h : Part.phase ∈ ps) :
    unchangedBut ps ks is_ a ⟨c.setPhase y, x⟩ ↔ unchangedBut ps ks is_ a ⟨c, x⟩ :=
  un_part a c x .phase h (fun _ => rfl) (fun p hp => by cases p <;> simp_all [kept])

/-- A repeated update peels off once each of its rounds does. -/
theorem un_forEach {α : Type} (f : Ctl → α → Ctl) (xs : List α)
    (h : ∀ d, ∀ e ∈ xs, unchangedBut ps ks is_ ⟨d, x⟩ ⟨f d e, x⟩) :
    unchangedBut ps ks is_ a ⟨forEach xs f c, x⟩ ↔ unchangedBut ps ks is_ a ⟨c, x⟩ := by
  refine unchanged_iff ?_ a
  unfold forEach
  induction xs generalizing c with
  | nil => exact unchanged_refl _
  | cons e r ih => exact unchanged_trans (h c e (List.mem_cons_self ..)) (ih (f c e) fun d y hy => h d y (List.mem_cons_of_mem _ hy))

end peel

/-- An object outside a frame reads as before. -/
theorem unchanged_val {a b : Mach} (h : unchangedBut ps ks is_ a b) {k : Nat} (hw : wireObject k = false) (hk : k ∉ ks)
    (hi : k / 256 ∉ is_) : b.ctl.val k = a.ctl.val k := h.2 k hw hk hi

/-! ### Values through updates -/

theorem nat_put (c : Ctl) (k j : Nat) (v : Val) : (c.put k v).nat j = if k = j then v.int.toNat else c.nat j := by
  simp only [Ctl.nat_val, Ctl.val_put]; split <;> rfl

theorem on_put (c : Ctl) (k j : Nat) (v : Val) : (c.put k v).on j = if k = j then v.int != 0 else c.on j := by
  simp only [Ctl.on_val, Ctl.val_put]; split <;> rfl

theorem oct_put (c : Ctl) (k j : Nat) (v : Val) : (c.put k v).oct j = if k = j then v.octets else c.oct j := by
  simp only [Ctl.oct_val, Ctl.val_put]; split <;> rfl

theorem nat_put_ne (c : Ctl) {k j : Nat} (v : Val) (h : k ≠ j) : (c.put k v).nat j = c.nat j := by rw [nat_put, if_neg h]
theorem on_put_ne (c : Ctl) {k j : Nat} (v : Val) (h : k ≠ j) : (c.put k v).on j = c.on j := by rw [on_put, if_neg h]
theorem oct_put_ne (c : Ctl) {k j : Nat} (v : Val) (h : k ≠ j) : (c.put k v).oct j = c.oct j := by rw [oct_put, if_neg h]
theorem nat_put_eq (c : Ctl) (k : Nat) (v : Val) : (c.put k v).nat k = v.int.toNat := by rw [nat_put, if_pos rfl]
theorem on_put_eq (c : Ctl) (k : Nat) (v : Val) : (c.put k v).on k = (v.int != 0) := by rw [on_put, if_pos rfl]
theorem oct_put_eq (c : Ctl) (k : Nat) (v : Val) : (c.put k v).oct k = v.octets := by rw [oct_put, if_pos rfl]

theorem nat_ring (c : Ctl) (n u o : Nat) {k : Nat} (h : bellObject k = false) : (c.ring n u o).nat k = c.nat k := by
  rw [Ctl.nat_val, Ctl.nat_val, ring_val c n u o h]

theorem on_ring (c : Ctl) (n u o : Nat) {k : Nat} (h : bellObject k = false) : (c.ring n u o).on k = c.on k := by
  rw [Ctl.on_val, Ctl.on_val, ring_val c n u o h]

theorem oct_ring (c : Ctl) (n u o : Nat) {k : Nat} (h : bellObject k = false) : (c.ring n u o).oct k = c.oct k := by
  rw [Ctl.oct_val, Ctl.oct_val, ring_val c n u o h]

theorem int_ring (c : Ctl) (n u o : Nat) {k : Nat} (h : bellObject k = false) : (c.ring n u o).int k = c.int k := by
  rw [Ctl.int_val, Ctl.int_val, ring_val c n u o h]

theorem starter_word (st n code : Nat) (hn : n < 16) (hc : code < 2 ^ 20) : cmdWord st n code / 2 ^ 20 % 16 = n := by
  have e : cmdWord st n code = code + 2 ^ 20 * (st * 16 + n) := by
    have h : (2 : Nat) ^ 24 = 2 ^ 20 * 16 := rfl
    unfold cmdWord
    rw [h]
    generalize (2 : Nat) ^ 20 = q
    rw [Nat.mul_add, Nat.mul_comm st, Nat.mul_comm n, Nat.mul_assoc, Nat.mul_comm 16 st]
    omega
  rw [e, Nat.add_mul_div_left _ _ (by decide), Nat.div_eq_of_lt hc]
  omega

theorem state_word (st n code : Nat) (hn : n < 16) (hc : code < 2 ^ 20) : cmdWord st n code / 2 ^ 24 = st := by
  have h : (2 : Nat) ^ 24 = 2 ^ 20 * 16 := rfl
  have e : cmdWord st n code = code + 2 ^ 20 * (st * 16 + n) := by
    unfold cmdWord
    rw [h]
    generalize (2 : Nat) ^ 20 = q
    rw [Nat.mul_add, Nat.mul_comm st, Nat.mul_comm n, Nat.mul_assoc, Nat.mul_comm 16 st]
    omega
  rw [e, h, ← Nat.div_div_eq_div_mul, Nat.add_mul_div_left _ _ (by decide), Nat.div_eq_of_lt hc]
  omega

/-- A command that ends at once shows DONE and its starter. -/
theorem nat_cmdNow (c : Ctl) (k n src u : Nat) (h : bellObject k = false) (hn : n < 16) :
    (c.cmdNow k n src u).nat k = cmdWord 2 n 0 := by
  unfold Ctl.cmdNow Ctl.cmdDone Ctl.cmdRun Ctl.cmdStarter
  rw [nat_ring _ _ _ _ h]
  simp only [Ctl.putN_put, nat_put, if_true, Val.int_num, Int.toNat_natCast]
  rw [starter_word _ _ _ hn (by decide)]

/-- A command that fails at once shows FAILED, its starter and the code. -/
theorem nat_cmdNowFail (c : Ctl) (k n code src u : Nat) (h : bellObject k = false) (hn : n < 16) :
    (c.cmdNowFail k n code src u).nat k = cmdWord 3 n code := by
  unfold Ctl.cmdNowFail Ctl.cmdFail Ctl.cmdRun Ctl.cmdStarter
  rw [nat_ring _ _ _ _ h]
  simp only [Ctl.putN_put, nat_put, if_true, Val.int_num, Int.toNat_natCast]
  rw [starter_word _ _ _ hn (by decide)]

/-! ### Commands that complete -/

/-- A session that is known has a number below 16. -/
theorem reaches_num {c : Ctl} {r : Req} {k : Nat} {b : List Byte} (h : c.reaches r k b) : r.session < 16 := by
  have := h.2.1
  simp only [Ctl.knows, Bool.and_eq_true, decide_eq_true_eq] at this
  omega

/-- A frame that does not name the sessions leaves them known. -/
theorem unchanged_knows {ps : List Part} {ks is_ : List Nat} {a b : Mach} (h : unchangedBut ps ks is_ a b)
    (hs : Part.sessions ∉ ps) (n tag : Nat) : b.ctl.knows n tag = a.ctl.knows n tag := by
  have := h.1 _ hs n
  unfold Ctl.knows
  rw [this]

/-- A command row whose owner may change the cellar: what is left to show of its completion is the owner's own effect, on any
controller that serving the request may have made of the present one. -/
theorem writeRow_completes {ps : List Part} {ks is_ : List Nat} {i : Instr} {s : State} {r : Req} {key : Nat} {b : List Byte}
    (own : Nat → Mach → Nat × Mach) (st : Nat) {P : State → Prop}
    (hi : exec i s = nextMach s (s.mach.writeRow r key b own))
    (h : s.mach.ctl.reaches r key b)
    (H : ∀ c, Wired s.mach.ctl c → c.knows r.session r.tag = true → r.session < 16 →
      (own r.session ⟨c, s.mach.cellar⟩).1 = st ∧
      ((own r.session ⟨c, s.mach.cellar⟩).2.ctl.knows r.session r.tag = true ∨ Part.sessions ∉ ps) ∧
      unchangedBut ps ks is_ ⟨c, s.mach.cellar⟩ (own r.session ⟨c, s.mach.cellar⟩).2 ∧
      ∀ d, Wired (own r.session ⟨c, s.mach.cellar⟩).2.ctl d →
        P ⟨s.pending, ⟨d, (own r.session ⟨c, s.mach.cellar⟩).2.cellar⟩⟩) :
    completes i s ps ks (fun t => answered t r key st ∧ P t) is_ := by
  have w := reaches_wired h
  have hkn : (Ctl.at_ s.mach.ctl r).knows r.session r.tag = true := by rw [w.knows]; exact h.2.1
  obtain ⟨h1, h2, h3, h4⟩ := H _ w hkn (reaches_num h)
  obtain ⟨d, e, w', k⟩ := writeRow_served own h
  have h2' : (own r.session ⟨Ctl.at_ s.mach.ctl r, s.mach.cellar⟩).2.ctl.knows r.session r.tag = true := by
    rcases h2 with h2 | h2
    · exact h2
    · rw [unchanged_knows h3 h2]; exact hkn
  refine ⟨⟨s.pending, ⟨d, _⟩⟩, by rw [hi, e]; rfl, rfl, ⟨?_, h4 d w'⟩, ?_⟩
  · unfold answered; rw [← h1]; exact k h2'
  · exact unchanged_trans (unchanged_trans (wired_unchanged w _) h3) (wired_unchanged w' _)

/-- The same for an owner that acts on the controller alone. -/
theorem ctlRow_completes {ps : List Part} {ks is_ : List Nat} {i : Instr} {s : State} {r : Req} {key : Nat} {b : List Byte}
    (own : Nat → Ctl → Nat × Ctl) (st : Nat) {P : State → Prop}
    (hi : exec i s = nextMach s (s.mach.ctlRow r key b own))
    (h : s.mach.ctl.reaches r key b)
    (H : ∀ c, Wired s.mach.ctl c → c.knows r.session r.tag = true → r.session < 16 →
      (own r.session c).1 = st ∧ ((own r.session c).2.knows r.session r.tag = true ∨ Part.sessions ∉ ps) ∧
      unchangedBut ps ks is_ ⟨c, s.mach.cellar⟩ ⟨(own r.session c).2, s.mach.cellar⟩ ∧
      ∀ d, Wired (own r.session c).2 d → P ⟨s.pending, ⟨d, s.mach.cellar⟩⟩) :
    completes i s ps ks (fun t => answered t r key st ∧ P t) is_ :=
  writeRow_completes (onCtlOwner own) st hi h H

/-- A number outside a frame reads as before. -/
theorem unchanged_nat {ps : List Part} {ks is_ : List Nat} {c d : Ctl} {x : Kv Byte}
   (h : unchangedBut ps ks is_ ⟨c, x⟩ ⟨d, x⟩) {k : Nat} (hw : wireObject k = false) (hk : k ∉ ks) (hi : k / 256 ∉ is_) :
   d.nat k = c.nat k := by rw [Ctl.nat_val, Ctl.nat_val]; exact congrArg (fun v => v.int.toNat) (h.2 k hw hk hi)

/-- An event that changes the controller alone. -/
theorem event_completes {ps : List Part} {ks is_ : List Nat} {i : Instr} {s : State} {d : Ctl} {P : State → Prop}
    (hi : exec i s = nextCtl s d) (hP : P ⟨s.pending, ⟨d, s.mach.cellar⟩⟩)
    (hu : unchangedBut ps ks is_ ⟨s.mach.ctl, s.mach.cellar⟩ ⟨d, s.mach.cellar⟩) :
    completes i s ps ks P is_ := ⟨_, hi, rfl, hP, hu⟩

end Sys2Proof.Laws
end

