-- ==== Sys2Proof/Machine/Package.lean ====
section
/-! DEFINITION. The ball map of the package (R491 to R495). -/

namespace Sys2Proof.Machine

/-- The supplies that have balls of their own. -/
inductive Supply
  | core | sram | phy | phyh | aux | ddr | booth | boothIo
  deriving DecidableEq, Repr

/-- What a ball carries: a signal by its name and, where the name is an array's, its place. -/
inductive Ball
  | supply (s : Supply)
  | vss
  | nc
  | signal (name : String) (place : Nat)
  deriving DecidableEq, Repr

/-- Signals of one name at places `0` to `n - 1`. -/
def balls (name : String) (n : Nat) : List Ball := (List.range n).map (Ball.signal name)

/-- Single balls by name. -/
def ballsNamed (names : List String) : List Ball := names.map fun s => .signal s 0

/-- A row of pairs: of each three columns the P ball, the N ball and VSS, up to `n` pairs. -/
def pairAt (p n : String) (first count column : Nat) : Ball :=
  let k := (column - 1) / 3
  if count ≤ k then .vss
  else if (column - 1) % 3 = 0 then .signal p (first + k)
  else if (column - 1) % 3 = 1 then .signal n (first + k) else .vss

/-- The north region (R492). -/
def northBall (row column : Nat) : Ball :=
  if row = 2 then pairAt "AL_TXP" "AL_TXN" 0 16 column
  else if row = 4 then pairAt "AL_TXP" "AL_TXN" 16 16 column
  else if row = 6 then pairAt "AL_RXP" "AL_RXN" 0 16 column
  else if row = 8 then pairAt "AL_RXP" "AL_RXN" 16 16 column
  else if row = 10 then (ballsNamed ["ALREF0_P", "ALREF0_N", "ALREF1_P", "ALREF1_N", "AL_RREF"]).getD (column - 1) .vss
  else if row = 11 then .supply .phy
  else if row = 12 ∧ column ≤ 40 then .supply .phyh
  else .vss

/-- A cell of a channel's block: a signal, VSS, VDDQ_DDR, or the cell marked * of R493. -/
inductive DdrCell
  | s (name : String) | g | q | star
  deriving DecidableEq, Repr

/-- The rows of a channel's block (R493). -/
def ddrCells : List (List DdrCell) :=
  let o := DdrCell.g
  let d := DdrCell.q
  [[.s "DQ0", .s "DQ1", o, .s "DQ2", .s "DQ3", o, .s "DQ4", .s "DQ5", o, .s "DQ6", .s "DQ7", d],
   [.s "DMI0", o, .s "RDQS0_T", .s "RDQS0_C", o, .s "WCK0_T", .s "WCK0_C", o, d, o, o, o],
   [.s "CA0", .s "CA1", o, .s "CA2", .s "CA3", o, .s "CK_T", .s "CK_C", o, d, o, o],
   [.s "CA4", .s "CA5", o, .s "CA6", .s "CS0", o, .s "CS1", .star, o, d, o, o],
   [.s "DMI1", o, .s "RDQS1_T", .s "RDQS1_C", o, .s "WCK1_T", .s "WCK1_C", o, d, o, o, o],
   [.s "DQ8", .s "DQ9", o, .s "DQ10", .s "DQ11", o, .s "DQ12", .s "DQ13", o, .s "DQ14", .s "DQ15", d]]

/-- Channel `c` of controller `m` at a local row and column: the place of a signal is 4 `m` + `c` (R493). -/
def ddrBall (m c v u : Nat) : Ball :=
  match (ddrCells.getD (v - 1) []).getD (u - 1) .g with
  | .s name => .signal ("DDR_CH_" ++ name) (4 * m + c)
  | .g => .vss
  | .q => .supply .ddr
  | .star => if c = 0 then .signal "DDR_RESET_N" m else if c = 3 then .signal "DDR_ZQ" m else .vss

/-- The single-ended sequence of rows 39 and 40 (R494). -/
def singleEnded : List Ball :=
  [.supply .boothIo, .supply .boothIo] ++
  ballsNamed ["XTAL32K_IN", "XTAL32K_OUT", "RESET_N", "WAKE_N", "CAROUSEL", "PCIE_PERST_N", "PCIE_WAKE_N"] ++
  ballsNamed ["EN_AUX", "EN_CORE", "EN_SRAM", "EN_PHY", "EN_PHYH", "EN_DRAM1", "EN_DRAM2", "EN_DRAMQ"] ++
  ballsNamed ["PG_AUX", "PG_CORE", "PG_SRAM", "PG_PHY", "PG_PHYH", "PG_DRAM1", "PG_DRAM2", "PG_DRAMQ"] ++
  ballsNamed ["ENC0_A", "ENC0_B", "ENC0_Z", "ENC1_A", "ENC1_B", "ENC1_Z"] ++
  balls "CUE" 2 ++ balls "SSI_CLK" 4 ++ balls "SSI_DAT" 4 ++ balls "LIM" 16 ++
  ballsNamed ["REF25A", "REF25B", "INT0_N", "INT1_N"] ++ balls "PULSE" 4 ++ ballsNamed ["AXB_CLK", "AXB_MOSI"] ++
  ballsNamed ["AXB_MISO", "AXB_SYNC", "PMB_CLK", "PMB_DAT", "PMB_ALERT_N", "QSPI_CLK", "QSPI_CS_N"] ++ balls "QSPI_IO" 4 ++
  ballsNamed ["TCK", "TMS", "TDI", "TDO", "TRST_N", "VSENSE_CORE_P", "VSENSE_CORE_N"]

/-- Row 42: the transmitters of the host and field ports, and the reference of the host port (R494). -/
def row42 (column : Nat) : Ball :=
  if column ≤ 24 then pairAt "PCIE_TXP" "PCIE_TXN" 0 8 column
  else if column ≤ 27 then pairAt "FP_TXP" "FP_TXN" 0 1 (column - 24)
  else if column ≤ 30 then pairAt "FP_RXP" "FP_RXN" 0 1 (column - 27)
  else if column ≤ 33 then pairAt "FP_TXP" "FP_TXN" 1 1 (column - 30)
  else if column ≤ 36 then pairAt "FP_RXP" "FP_RXN" 1 1 (column - 33)
  else if column ≤ 39 then pairAt "PCIE_REFCLK_P" "PCIE_REFCLK_N" 0 1 (column - 36)
  else if column = 40 then .nc else .vss

/-- The south region (R494). -/
def southBall (row column : Nat) : Ball :=
  if row = 37 then .supply .sram
  else if row = 38 then if column ≤ 40 then .supply .aux else if column ≤ 46 then .supply .booth else .supply .boothIo
  else if row = 39 then singleEnded.getD (column - 1) .nc
  else if row = 40 then singleEnded.getD (column + 47) .nc
  else if row = 42 then row42 column
  else if row = 44 then pairAt "PCIE_RXP" "PCIE_RXN" 0 8 column
  else if row = 46 then pairAt "FIRE_P" "FIRE_N" 0 16 column
  else if row = 48 then pairAt "FIRE_P" "FIRE_N" 16 16 column
  else .vss

/-- Ball (row, column), both from 1 to 48 (R491). -/
def ballAt (row column : Nat) : Ball :=
  if row ≤ 12 then northBall row column
  else if 37 ≤ row then southBall row column
  else if column ≤ 12 then ddrBall 1 ((row - 13) / 6) ((row - 13) % 6 + 1) column
  else if 37 ≤ column then ddrBall 0 ((row - 13) / 6) ((row - 13) % 6 + 1) (49 - column)
  else if (row + column) % 2 = 0 then .supply .core else .vss

/-- Every ball of the array. -/
def allBalls : List Ball := ((List.range 48).map fun i => (List.range 48).map fun j => ballAt (i + 1) (j + 1)).flatten

/-- Balls of the array that satisfy a test. -/
def ballCount (p : Ball → Bool) : Nat := (allBalls.filter p).length

/-- A ball that carries a signal. -/
def Ball.isSignal : Ball → Bool
  | .signal _ _ => true
  | _ => false

/-- A ball of a supply. -/
def Ball.isSupply (s : Supply) : Ball → Bool
  | .supply t => t == s
  | _ => false

end Sys2Proof.Machine
end

