-- ==== Sys2Proof/Tests/Slice0.lean ====
section
/-! SUPPORT. Tests of the model against words and figures of the spec, and for each clause of a statement with hypotheses a witness:
a concrete state and operands that meet them all. -/

set_option Elab.async false

namespace Sys2Proof.Tests

open Sys2Proof Machine Safety

/-! ### The form of commands -/

/-- A frame whose fields all fit. -/
def okFrame : Frame := ⟨2, [], 0x5944, 1, 0, 0, 0, 0, 0, 0, []⟩

/-- A head frame whose fields all fit. -/
def okHeadFrame : HeadFrame := ⟨0, []⟩

/-- A camera frame whose fields all fit. -/
def okCamFrame : CamFrame := ⟨0, 0, [0], [[]]⟩

/-- A request whose fields all fit. -/
def okReq : Req := ⟨1, 1, 7, 2, []⟩

theorem test_wellFormed_refuses_1 : ((
  [.discover { okFrame with path := 3 }, .openSession { okFrame with path := 3 }, .close { okFrame with path := 3 },
   .keepalive { okFrame with path := 3 }, .challenge { okFrame with path := 3 }, .prove { okFrame with path := 3 },
   .read { okFrame with path := 3 }, .write { okFrame with path := 3 }, .describe { okFrame with path := 3 },
   .segWrite { okFrame with path := 3 }, .segRead { okFrame with path := 3 }, .subscribe { okFrame with path := 3 },
   .eventAck { okFrame with path := 3 }, .publish 9 0, .publish 1 4, .event 9, .eventResend 9, .sessionSilent 9,
   .nonceExpire 9, .mbxEvtTailWrite 4294967296, .takeControl { okReq with session := 256 } 0, .takeControl okReq 4294967296,
   .releaseControl { okReq with session := 256 } 0, .releaseControl okReq 4294967296, .handOver { okReq with session := 256 } 0] : List Instr).all fun i => !i.wellFormed) = true := by
  decide +kernel

theorem test_wellFormed_refuses_2 : ((
  [.handOver okReq 4294967296, .closeSession { okReq with session := 256 } 0, .closeSession okReq 4294967296,
   .savePersistent { okReq with session := 256 } 0, .savePersistent okReq 4294967296,
   .restoreDefaults { okReq with session := 256 } 0, .restoreDefaults okReq 4294967296,
   .formatAttic { okReq with session := 256 } 0, .formatAttic okReq 4294967296, .sealSlot { okReq with session := 256 } 0 0,
   .sealSlot okReq 256 0, .sealSlot okReq 0 4294967296, .unsealSlot { okReq with session := 256 } 0 0, .unsealSlot okReq 256 0,
   .unsealSlot okReq 0 4294967296, .clearSlot { okReq with session := 256 } 0 0, .clearSlot okReq 256 0,
   .clearSlot okReq 0 4294967296, .openAdmission { okReq with session := 256 } 0, .openAdmission okReq 4294967296,
   .closeAdmission { okReq with session := 256 } 0, .closeAdmission okReq 4294967296,
   .withdrawFrom { okReq with session := 256 } 0, .withdrawFrom okReq 4294967296, .pageDoorbell (.reg (2 ^ 32))] : List Instr).all fun i => !i.wellFormed) = true := by
  decide +kernel

theorem test_wellFormed_refuses_3 : ((
  [.consumerTailWrite 8 (.reg 0), .consumerTailWrite 0 (.reg (2 ^ 32)), .cueEdge 2 true 0, .cueMarkQualified 2,
   .cueWindowClose 4294967296, .printFetchBand 4294967296 0 0, .printFetchBand 1 8 0, .printFetchBand 1 0 65536,
   .fetchDeadlineMiss 4294967296 0 0, .fetchDeadlineMiss 1 8 0, .fetchDeadlineMiss 1 0 4294967296,
   .inspectFetch 4294967296 0 0 0, .inspectFetch 1 8 0 0, .inspectFetch 1 0 4294967296 0, .inspectFetch 1 0 0 4,
   .screenLine 8, .nozzleEntryWrite { okReq with session := 256 } [], .toneCurveWrite { okReq with session := 256 } 0 [],
   .toneCurveWrite okReq 128 [], .arrayLoad { okReq with session := 256 } [], .arrayClear { okReq with session := 256 } 0,
   .arrayClear okReq 4294967296, .curveClear { okReq with session := 256 } 0, .curveClear okReq 4294967296,
   .loadTable { okReq with session := 256 } []] : List Instr).all fun i => !i.wellFormed) = true := by
  decide +kernel

theorem test_wellFormed_refuses_4 : ((
  [.exportTable { okReq with session := 256 } [], .saveCare { okReq with session := 256 } 0, .saveCare okReq 4294967296,
   .discoverChain { okReq with session := 256 } 0 0, .discoverChain okReq 16 0, .discoverChain okReq 0 4294967296,
   .headsIn { okReq with session := 256 } 0 0, .headsIn okReq 16 0, .headsIn okReq 0 4294967296,
   .headIn { okReq with session := 256 } 0 0, .headIn okReq 256 0, .headIn okReq 0 4294967296,
   .headOut { okReq with session := 256 } 0 0, .headOut okReq 256 0, .headOut okReq 0 4294967296, .headOutComplete 256,
   .challengeUsage { okReq with session := 256 } 0 0, .challengeUsage okReq 256 0, .challengeUsage okReq 0 4294967296,
   .dispatchLine 16 0 0, .dispatchLine 0 4294967296 0, .dispatchLine 0 0 4, .status { okHeadFrame with lane := 32 },
   .lineReport { okHeadFrame with lane := 32 }, .discoverReply { okHeadFrame with lane := 32 }] : List Instr).all fun i => !i.wellFormed) = true := by
  decide +kernel

theorem test_wellFormed_refuses_5 : ((
  [.capability { okHeadFrame with lane := 32 }, .configAck { okHeadFrame with lane := 32 },
   .usageRecord { okHeadFrame with lane := 32 }, .headReplyTimeout 256, .headTimeout 256, .tick 16, .chainHeal 16,
   .hotDiscovery 16, .quadPllLocked 8, .rxAligned 32 [], .rxAligned 0 [4], .alignLoss 32 [], .alignLoss 0 [4],
   .trainReq 32 0 0, .trainReq 0 256 0, .trainReq 0 0 256, .trainRsp 32 0 0, .trainRsp 0 256 0, .trainRsp 0 0 4,
   .trainTimeout 32, .laneLoss 32 true, .laneRecover 32 [], .laneRecover 0 [4], .skipSend 32, .skipReceived 32 0] : List Instr).all fun i => !i.wellFormed) = true := by
  decide +kernel

theorem test_wellFormed_refuses_6 : ((
  [.skipReceived 0 65, .sleepReceived 32, .laneWake 32 [], .laneWake 0 [4], .wakeAlignTimeout 32,
   .txSleepWrite { okReq with session := 256 } 0 0, .txSleepWrite okReq 32 0, .txSleepWrite okReq 0 4294967296,
   .laneRoleWrite { okReq with session := 256 } 0 0, .laneRoleWrite okReq 32 0, .laneRoleWrite okReq 0 4294967296,
   .quadRateWrite { okReq with session := 256 } 0 0, .quadRateWrite okReq 8 0, .quadRateWrite okReq 0 4294967296,
   .retrain { okReq with session := 256 } 0 0, .retrain okReq 32 0, .retrain okReq 0 4294967296,
   .calibrateSlicer { okReq with session := 256 } 0 0, .calibrateSlicer okReq 32 0, .calibrateSlicer okReq 0 4294967296,
   .calSwitchToSpare 32,
   .calHistogramsDone 32 (List.replicate 4 (List.replicate 256 0)) (List.replicate 4 (List.replicate 256 0, List.replicate 256 0)),
   .calHistogramsDone 0 [] (List.replicate 4 (List.replicate 256 0, List.replicate 256 0)),
   .calHistogramsDone 0 (List.replicate 4 (List.replicate 256 0)) [], .calSwitchBack 32] : List Instr).all fun i => !i.wellFormed) = true := by
  decide +kernel

theorem test_wellFormed_refuses_7 : ((
  [.calDivergeTimeout 32, .calSpareLost 32 0, .calSpareLost 0 4294967296, .clearCounters { okReq with session := 256 } 0 0,
   .clearCounters okReq 32 0, .clearCounters okReq 0 4294967296, .validatePosition { okReq with session := 256 } 0,
   .validatePosition okReq 4294967296, .strobeArm 32, .strobeFire 32, .rmSelfCheck 256 0, .rmSelfCheck 0 256, .rmSyncStart 2,
   .rmSyncDone 2, .requestSwitch { okReq with session := 256 } 0, .requestSwitch okReq 4294967296, .ssiRead 4 0 true,
   .cameraEnable { okReq with session := 256 } 0 0, .cameraEnable okReq 4 0, .cameraEnable okReq 0 4294967296,
   .outputViewWrite { okReq with session := 256 } 0 1 [], .outputViewWrite okReq 4 1 [], .outputViewWrite okReq 0 5 [],
   .flatFieldWrite { okReq with session := 256 } 0 [], .flatFieldWrite okReq 16 []] : List Instr).all fun i => !i.wellFormed) = true := by
  decide +kernel

theorem test_wellFormed_refuses_8 : ((
  [.exposureTrigger 4, .exposureTag 4 0, .exposureTag 0 4294967296, .csi { okCamFrame with camera := 4 }, .frameTimeout 4 0,
   .frameTimeout 0 4, .bridgeStatus { okCamFrame with camera := 4 }, .bridgeStatusTimeout 4, .cameraLostClear 4,
   .cciTransfer { okReq with session := 256 } 0 [], .cciTransfer okReq 4 [], .cciReply { okCamFrame with camera := 4 },
   .cciTimeout 4, .cameraIdleSleep 4, .monitorFrame 4, .recordFrame 4, .loopBandMeasure 4,
   .appearanceLoad { okReq with session := 256 } [], .appearanceClear { okReq with session := 256 } 0,
   .appearanceClear okReq 4294967296, .calFlatField { okReq with session := 256 } [],
   .calRegistration { okReq with session := 256 } [], .clearCalRecords { okReq with session := 256 } 0,
   .clearCalRecords okReq 4294967296, .streamEnable { okReq with session := 256 } 0 0] : List Instr).all fun i => !i.wellFormed) = true := by
  decide +kernel

theorem test_wellFormed_refuses_9 : ((
  [.streamEnable okReq 4 0, .streamEnable okReq 0 4294967296, .encodePicture 4, .markLongTerm { okReq with session := 256 } 0 0,
   .markLongTerm okReq 4 0, .markLongTerm okReq 0 4294967296, .releaseLongTerm { okReq with session := 256 } 0 0,
   .releaseLongTerm okReq 4 0, .releaseLongTerm okReq 0 4294967296, .forceIdr { okReq with session := 256 } 0 0,
   .forceIdr okReq 4 0, .forceIdr okReq 0 4294967296, .decode { okReq with session := 256 } [], .decodePicture 65536,
   .decodeStop { okReq with session := 256 } 0, .decodeStop okReq 4294967296, .capture { okReq with session := 256 } [],
   .cellarTrain ⟨1, 16, true, 7, 0⟩, .cellarRetrain { okReq with session := 256 } 0, .cellarRetrain okReq 4294967296,
   .cellarFreeze 2 (.ue .printFetch 0 1 1), .cellarFreeze 0 (.ue .printFetch 0 0 1),
   .cellarResume { okReq with session := 256 } 0 0, .cellarResume okReq 2 0, .cellarResume okReq 0 4294967296] : List Instr).all fun i => !i.wellFormed) = true := by
  decide +kernel

theorem test_wellFormed_refuses_10 : ((
  [.wipeRange { okReq with session := 256 } [], .rateSelect { okReq with session := 256 } 0, .rateSelect okReq 4294967296,
   .bar2Access (.read 0 0 none), .ethernetFrame 2 [], .fpLinkChange 2 true 0, .fpLinkChange 0 true 6,
   .ptpAnnounce ⟨2, 1, 1, 1, 1, 1, 1, 0, 1, 1, 37⟩, .setTime { okReq with session := 256 } [],
   .stepTime { okReq with session := 256 } [], .acceptStep { okReq with session := 256 } 0, .acceptStep okReq 4294967296,
   .pulseArm { okReq with session := 256 } 0 0, .pulseArm okReq 4 0, .pulseArm okReq 0 4294967296, .pulseEdge 4,
   .hostPortReset 4 0 0, .msixSend 16 .nothing, .bellRing 4294967296, .ringSoftware { okReq with session := 256 } 0,
   .ringSoftware okReq 4294967296, .claim (.dict { okReq with seq := 65536 }) 0, .claim .bar0 3,
   .complete (.dict { okReq with seq := 65536 }) 0 0, .complete .bar0 3 0] : List Instr).all fun i => !i.wellFormed) = true := by
  decide +kernel

theorem test_wellFormed_refuses_11 : ((
  [.complete .bar0 0 1024, .resetTarget { okReq with session := 256 } 0 0, .resetTarget okReq 3 0,
   .resetTarget okReq 0 4294967296, .clearPending { okReq with session := 256 } 0, .clearPending okReq 4294967296,
   .pendingW1c 32 0, .pendingW1c 0 4294967296, .sourceConfigWrite { okReq with session := 256 } 0 0,
   .sourceConfigWrite okReq 1024 0, .sourceConfigWrite okReq 0 4294967296, .clockWindow 20 0, .refLost 4, .refRestored 2,
   .selectReference { okReq with session := 256 } 0, .selectReference okReq 4294967296, .rideStarted 15 0, .rideIdleStop 15,
   .powerStateRequest { okReq with session := 256 } 0, .powerStateRequest okReq 4294967296, .pgFail 9,
   .pmbusTelemetry [⟨8, 0, 0, 0, 0, 0⟩], .resetController { okReq with session := 256 } 0, .resetController okReq 4294967296,
   .lifecycleTransition { okReq with session := 256 } []] : List Instr).all fun i => !i.wellFormed) = true := by
  decide +kernel

theorem test_wellFormed_refuses_12 : ((
  [.axisReply 8 0, .axisReply 0 18446744073709551616, .stageTimeout 8, .axisEnable { okReq with session := 256 } 0 0,
   .axisEnable okReq 8 0, .axisEnable okReq 0 4294967296, .axisTarget { okReq with session := 256 } 0 0, .axisTarget okReq 8 0,
   .stop { okReq with session := 256 } 0 0, .stop okReq 8 0, .stop okReq 0 4294967296, .home { okReq with session := 256 } 0 0,
   .home okReq 8 0, .home okReq 0 4294967296, .clearError { okReq with session := 256 } 0 0, .clearError okReq 8 0,
   .clearError okReq 0 4294967296, .standstillDelay 8, .limitSwitchInput 16 true, .limFilterExpiry 16, .limReleaseExpiry 16,
   .faultLatch [⟨192, true, true, true, true⟩], .clearFaults { okReq with session := 256 } 0, .clearFaults okReq 4294967296,
   .forceWrite { okReq with session := 256 } 0 0] : List Instr).all fun i => !i.wellFormed) = true := by
  decide +kernel

theorem test_wellFormed_refuses_13 : ((
  [.forceWrite okReq 3 0, .forceWrite okReq 0 18446744073709551616, .closePeriod { okReq with session := 256 } 0,
   .closePeriod okReq 4294967296, .usageTailWrite { okReq with session := 256 } 0, .usageTailWrite okReq 4294967296,
   .stageServiceKey { okReq with session := 256 } [], .setFamilyKey { okReq with session := 256 } [],
   .clearFamilyKey { okReq with session := 256 } 0, .clearFamilyKey okReq 4294967296, .clockRecoveryLock 32] : List Instr).all fun i => !i.wellFormed) = true := by
  decide +kernel

theorem test_wellFormed_accepts_1 : ((
  [.discover okFrame, .openSession okFrame, .close okFrame, .keepalive okFrame, .challenge okFrame, .prove okFrame,
   .read okFrame, .write okFrame, .describe okFrame, .segWrite okFrame, .segRead okFrame, .subscribe okFrame,
   .eventAck okFrame, .publish 1 0, .event 1, .eventResend 1, .sessionSilent 1, .segmentAbandon, .nonceExpire 1,
   .serviceLockoutEnd, .post [], .mbxEvtTailWrite 0, .takeControl okReq 0, .releaseControl okReq 0, .handOver okReq 0,
   .closeSession okReq 0, .savePersistent okReq 0, .restoreDefaults okReq 0, .atticWriteDone true, .formatAttic okReq 0,
   .sealSlot okReq 0 0, .unsealSlot okReq 0 0, .clearSlot okReq 0 0, .openAdmission okReq 0, .closeAdmission okReq 0,
   .withdrawFrom okReq 0, .pageDoorbell (.reg 0), .consumerTailWrite 0 (.reg 0), .admitDescriptor, .admissionWaitEnd,
   .arrayPlaceLoad] : List Instr).all Instr.wellFormed) = true := by
  decide +kernel

theorem test_wellFormed_accepts_2 : ((
  [.ceilingRecompute, .cueEdge 0 true 0, .cueMarkQualified 0, .cueWindowClose 1, .ticketEndPost, .printFetchBand 1 0 0,
   .fetchDeadlineMiss 1 0 0, .inspectFetch 1 0 0 0, .screenLine 0, .nozzleEntryWrite okReq [], .toneCurveWrite okReq 0 [],
   .arrayLoad okReq [], .arrayClear okReq 0, .curveClear okReq 0, .loadTable okReq [], .exportTable okReq [], .saveCare okReq 0,
   .discoverChain okReq 0 0, .headsIn okReq 0 0, .headIn okReq 0 0, .headOut okReq 0 0, .headOutComplete 0, .challengeUsage okReq 0 0,
   .dispatchLine 0 0 0, .status okHeadFrame, .lineReport okHeadFrame, .discoverReply okHeadFrame, .capability okHeadFrame,
   .configAck okHeadFrame, .usageRecord okHeadFrame, .headReplyTimeout 0, .headTimeout 0, .tick 0, .chainHeal 0,
   .hotDiscovery 0, .quadPllLocked 0, .rxAligned 0 [], .alignLoss 0 [], .trainReq 0 0 0, .trainRsp 0 0 0, .trainTimeout 0] : List Instr).all Instr.wellFormed) = true := by
  decide +kernel

theorem test_wellFormed_accepts_3 : ((
  [.laneLoss 0 true, .laneRecover 0 [], .skipSend 0, .skipReceived 0 0, .sleepReceived 0, .laneWake 0 [],
   .wakeAlignTimeout 0, .txSleepWrite okReq 0 0, .laneRoleWrite okReq 0 0, .quadRateWrite okReq 0 0, .retrain okReq 0 0,
   .calibrateSlicer okReq 0 0, .calSwitchToSpare 0,
   .calHistogramsDone 0 (List.replicate 4 (List.replicate 256 0)) (List.replicate 4 (List.replicate 256 0, List.replicate 256 0)),
   .calSwitchBack 0, .calDivergeTimeout 0, .calSpareLost 0 0, .clearCounters okReq 0 0, .encoderCount [] 0, .enc1Count [],
   .indexPulse [], .validatePosition okReq 0, .observerUpdate, .strobeArm 0, .strobeFire 0, .overspeedEpisodeEnd,
   .overspeedHold, .holdEnd, .rmSelfCheck 0 0, .rmSyncStart 0, .rmSyncDone 0, .rmRetake, .retakeWaitExpiry,
   .requestSwitch okReq 0, .ssiRead 0 0 true, .cameraEnable okReq 0 0, .outputViewWrite okReq 0 1 [], .flatFieldWrite okReq 0 [],
   .exposureTrigger 0, .exposureTag 0 0, .csi okCamFrame] : List Instr).all Instr.wellFormed) = true := by
  decide +kernel

theorem test_wellFormed_accepts_4 : ((
  [.frameTimeout 0 0, .bridgeStatus okCamFrame, .bridgeStatusTimeout 0, .cameraLostClear 0, .cciTransfer okReq 0 [],
   .cciReply okCamFrame, .cciTimeout 0, .cameraIdleSleep 0, .monitorFrame 0, .recordFrame 0, .loopBandMeasure 0,
   .loopActionEntry, .appearanceLoad okReq [], .appearanceClear okReq 0, .calFlatField okReq [], .calFlatDone,
   .calRegistration okReq [], .calMarkZone, .calWaitExpiry, .clearCalRecords okReq 0, .streamEnable okReq 0 0, .encodePicture 0,
   .markLongTerm okReq 0 0, .releaseLongTerm okReq 0 0, .forceIdr okReq 0 0, .decode okReq [], .decodePicture 0, .decodeStop okReq 0,
   .capture okReq [], .capturePack, .captureTimeout, .cropCut, .packCrateCheck, .crateUnchecked, .fireRecordComplete,
   .cellarTrain ⟨1, 16, true, 0, 0⟩, .cellarWipe, .cellarRetrain okReq 0, .dqsOscillatorRead, .patrolScrub none,
   .cellarFreeze 0 (.ue .printFetch 0 1 1)] : List Instr).all Instr.wellFormed) = true := by
  decide +kernel

theorem test_wellFormed_accepts_5 : ((
  [.cellarResume okReq 0 0, .wipeRange okReq [], .rateSelect okReq 0, .rateSwitch, .selfRefreshEntry,
   .bar2Access (.read 0 4 none), .ethernetFrame 0 [], .fpLinkChange 0 true 0, .ptpSync 0 0,
   .ptpAnnounce ⟨0, 1, 1, 1, 1, 1, 1, 0, 1, 1, 37⟩, .ptpDelayReq, .announceTimeout, .setTime okReq [], .stepTime okReq [],
   .acceptStep okReq 0, .pulseArm okReq 0 0, .pulseEdge 0, .hostPortReset 0 0 0, .timeNsRead (.bar0 0 []), .msixSend 0 .nothing,
   .bellRing 0, .ringSoftware okReq 0, .claim .bar0 0, .complete .bar0 0 0, .resetTarget okReq 0 0, .clearPending okReq 0,
   .pendingW1c 0 0, .sourceConfigWrite okReq 0 0, .clockWindow 0 0, .refDeviationWindow 0 0 0, .refLost 0, .refRestored 0,
   .refRevert, .selectReference okReq 0, .boothCalibrate 0 0, .xtalJudgement 0, .rideStarted 0 0, .rideIdleStop 0,
   .powerStateRequest okReq 0, .wake .alarm, .railEnable 0] : List Instr).all Instr.wellFormed) = true := by
  decide +kernel

theorem test_wellFormed_accepts_6 : ((
  [.pgFail 1, .pmbusTelemetry [], .vcoreScaleTimeout, .powerOn, .resetN, .startup ⟨true, 64, true, [], none⟩ true true [],
   .atticBackgroundErase, .resetController okReq 0, .lifecycleTransition okReq [], .axisBusCycle, .axisReply 0 0,
   .stageTimeout 0, .axisEnable okReq 0 0, .axisTarget okReq 0 0, .stop okReq 0 0, .home okReq 0 0, .clearError okReq 0 0,
   .standstillDelay 0, .limitSwitchInput 0 true, .limFilterExpiry 0, .limReleaseExpiry 0, .faultLatch [],
   .clearFaults okReq 0, .forceWrite okReq 0 0, .heartbeatLoss, .carouselToggle, .dieTempRead 0 0, .periodClose,
   .closePeriod okReq 0, .usageTailWrite okReq 0, .stageServiceKey okReq [], .setFamilyKey okReq [], .clearFamilyKey okReq 0,
   .vddBoothioSag, .ptpMasterSync, .ptpMasterAnnounce, .clockRecoveryLock 0] : List Instr).all Instr.wellFormed) = true := by
  decide +kernel

/-- Every field of a frame, a request and the other records is checked. -/
theorem test_wellFormed_records :
    ([{ okFrame with path := 3 }, { okFrame with peer := [1] }, { okFrame with magic := 65536 }, { okFrame with version := 256 },
      { okFrame with session := 256 }, { okFrame with flags := 256 }, { okFrame with seq := 65536 }, { okFrame with tag := 2 ^ 32 },
      { okFrame with length := 65536 }, { okFrame with status := 65536 }].all fun f => !f.wellFormed) = true ∧
    ([{ okReq with session := 256 }, { okReq with seq := 65536 }, { okReq with tag := 2 ^ 32 },
      { okReq with path := 3 }, { okReq with peer := [1] }].all fun r => !r.wellFormed) = true ∧
    ([{ okHeadFrame with lane := 32 }, { okHeadFrame with bytes := List.replicate 1037 0 }].all fun m => !m.wellFormed) = true ∧
    ({ okHeadFrame with bytes := [0x86] } : HeadFrame).fits 0x81 = false ∧
    ([{ okCamFrame with camera := 4 }, { okCamFrame with skews := [] }, { okCamFrame with parts := [] },
      { okCamFrame with parts := [List.replicate 1037 0] }].all fun m => !m.wellFormed) = true ∧
    ({ okCamFrame with parts := [[0xC2]] } : CamFrame).fits 0xC1 = false := by
  decide +kernel

/-! ### Witnesses: for each clause of a statement, a state and operands that meet its hypotheses -/

/-- The controller after reset, awake, with session 1 open in the highest role and holding control. -/
def awake : Ctl :=
  ((({ Ctl.reset with phase := .up } : Ctl).setSess 1 { Session.closed with isOpen := true, role := 3, tag := 7 }).putN
    Obj.controlling_session 1)

/-- Numbers put into objects. -/
def puts (c : Ctl) (l : List (Nat × Int)) : Ctl := l.foldl (fun c e => c.put e.1 (.num e.2)) c

/-- A state of a controller, with an empty cellar and an empty queue. -/
def stateOf (c : Ctl) : State := { State.reset with mach := ⟨c, []⟩ }

/-- The state of `awake` with numbers put into objects. -/
def having (l : List (Nat × Int)) : State := stateOf (puts awake l)

/-- The next request of session 1. -/
def req : Req := ⟨1, 1, 7, 0, []⟩

/-- A live ticket of slot 3 over bar 0: its number, and 6000:03 before it. -/
def ticket (n before : Nat) : Ticket :=
  ⟨n, 0, 3, 1, 100, 64, 0, 0, some 1000, 1000, 0, before, 0, true, false, 0, 1200, 0, 0, 0, [], [], [], [], [], 0, [], false,
    ⟨[], [], [], [], [], [], false, 0, before, [], [], [], [], []⟩⟩

/-- What lets admission open (R71). -/
def openable : List (Nat × Int) :=
  [(Obj.submit_ring_base, 4096), (Obj.completion_ring_base, 8192), (Obj.store_state, 1),
   (Obj.position_valid, 1), (Obj.ride_state ridePrint, 2)]

/-- A cellar holding one page: its descriptor at 4096, its crate table at 65536 and its one crate at 131072: one line, one crate
column, bar 0, slot 3. -/
def pageCellar : Kv Byte :=
  memWrite (memWrite (memWrite (memWrite [] 4096
      (le 8 9 ++ le 8 65536 ++ le 4 1 ++ le 4 0 ++ le 2 1 ++ le 1 3 ++ le 1 1 ++ le 4 0))
    65536 (le 2 0x5443 ++ le 1 1 ++ le 1 1 ++ le 2 1 ++ le 2 1 ++ le 4 1)) 65600 (le 4 4096))
    65664 (le 8 (131072 / 64 + 288 * 2 ^ 32)) |> fun m =>
  memWrite m 131072 (le 2 0x5243 ++ le 1 1 ++ le 1 0 ++ le 2 1 ++ le 2 0 ++ le 4 256 ++ le 4 3094524304)

/-- A controller whose admission is open before that page, 10 m of web ahead of nothing. -/
def pageCtl : Ctl :=
  (puts awake (openable ++ [(Obj.admission_state, 1), (Obj.usable_bytes, 2 ^ 31), (Obj.ride_state 6, 2), (Obj.submit_tail, 1),
    (Obj.crate_base, 65536), (Obj.crate_bytes, 2 ^ 20), (Obj.slot_state 3, 1), (Obj.validation 3, 0), (Obj.bar_mask 3, 1),
    (Obj.bar_columns 0, 1024)])).putO Obj.resident_arrays (zeros 10)

/-- The state before that page. -/
def pageState : State := { State.reset with mach := ⟨pageCtl, pageCellar⟩ }

/-- A descriptor waits before that page, its array in no place. -/
def waitState : State :=
  { State.reset with mach :=
      ⟨{ pageCtl.putO Obj.resident_arrays (List.replicate 10 0xFF) with
          adm := { pageCtl.adm with waiting := some ⟨pageState.mach.headDesc, false, 0, 0, 0, none, none⟩ } }, pageCellar⟩ }

/-- A live ticket that waits for its cue, in a window of 5000 ticks from 70000. -/
def cueTicket : Ticket := { ticket 4 0 with pos := none, earliest := 70000, window := 5000 }

/-- A controller with that ticket, the cue mark of input 0 on the way. -/
def cueCtl (l : List (Nat × Int)) (edge : Option CueEdge) : Ctl :=
  { puts awake ([(Obj.cue_mode 3, 1), (Obj.cue0_distance, 0)] ++ l) with
      adm := { awake.adm with tickets := [cueTicket], cueEdge := [(0, edge)] } }

/-- A controller with one axis given. -/
def axisCtl (a : Nat) (x : Axis) (l : List (Nat × Int)) : Ctl := (puts awake l).setAxis a x

/-- A stage's reply to slot 0 of cycle 3: flags 0, amplitude 5. -/
def slotReply : Nat := beVal ((be 6 (5 * 2 ^ 22)) ++ be 2 (crc16 (be 6 (5 * 2 ^ 22))))

/-- A bell: configuration words, pending and active sources, and the stack of target 1. -/
def bellOf (config : List (Nat × Nat)) (pending active : List Nat) (stack1 : List (Nat × Nat)) : Bell :=
  { awake.bell with config := config, pending := pending.map fun n => (n, true), active := active.map fun n => (n, true),
                    serving := if stack1.isEmpty then [] else [(1, stack1)] }

/-- A controller with that bell. -/
def bellCtl (config : List (Nat × Nat)) (pending active : List Nat) (stack1 : List (Nat × Nat)) : Ctl :=
  { awake with bell := bellOf config pending active stack1 }

/-- A frame of 60 bytes and its check sequence for the station 02:00:00:00:00:05. -/
def stationFrame : List Byte := sealFrame ([2, 0, 0, 0, 0, 5] ++ zeros 54)

/-- A controller whose MAC address is 02:00:00:00:00:01. -/
def withMac (c : Ctl) : Ctl := { c with ydp := { c.ydp with net := { c.ydp.net with mac := some [2, 0, 0, 0, 0, 1] } } }

/-- A controller whose cellar is trained and whose crate region lies at 65536. -/
def cellarCtl : Ctl :=
  puts awake [(Obj.usable_bytes, 2 ^ 31), (Obj.ride_state 6, 2), (Obj.crate_base, 65536), (Obj.crate_bytes, 2 ^ 20),
    (Obj.mc_state 0, 2), (Obj.mc_state 1, 2)]

/-- The bytes of an array that reads as zeros from an empty cellar. -/
def arrayZeros : List Byte := memRead [] 65536 458752

/-- The argument of array_load for it, into place 3 of the library. -/
def arrayArg : List Byte := le 8 65536 ++ le 4 (crc32c arrayZeros) ++ le 1 3 ++ zeros 3

/-- A registration calibration of bar 0 that has no mark zone yet. -/
def markCal : RegCal := ⟨1, 0, 2, false, 0, none, 0, [], [], [], [], []⟩

/-- A controller whose rails are up. -/
def railsUp (l : List (Nat × Int)) : Ctl := { puts awake l with pwr := { awake.pwr with rails := 8 } }

/-- The ticket of the page of `pageCellar`, placed at 1000. -/
def pageTicket : Ticket := { ticket 4 0 with table := 65536, length := 1, width := 1 }

/-- Its band is due. -/
def fetchState : State :=
  { State.reset with mach := ⟨{ pageCtl with adm := { pageCtl.adm with tickets := [pageTicket] } }, pageCellar⟩ }

/-- A ticket whose line 1 of bar 0 is the next to screen. -/
def screenTicket : Ticket := { ticket 4 0 with width := 1, screened := [(0, 1)] }

/-- That line waits in the store. -/
def screenState : State :=
  stateOf { pageCtl with adm := { pageCtl.adm with tickets := [screenTicket] }, page := { pageCtl.page with lines := [⟨4, 0, 1, zeros 256⟩] } }

/-- A page whose line 0 has been screened on bar 0, at position 1000. -/
def strobeTicket : Ticket := { ticket 4 0 with screened := [(0, 1)] }

/-- A controller that may fire it. -/
def strobeCtl : Ctl :=
  { puts awake [(Obj.position_valid, 1), (Obj.active_ringmaster, 0), (Obj.print_position, 900), (Obj.high_water, 900)] with
      adm := { awake.adm with tickets := [strobeTicket] },
      pos := { awake.pos with pair := some ⟨⟨900, 1⟩, 0, 0⟩, ticks := ⟨900, 1⟩, v := ⟨10 ^ 12, 1⟩ } }

/-- A change of the loop: its kind, target and new value. -/
def changeTo (kind target : Nat) (new : Int) : LoopChange := ⟨kind, target, 0, new, 0, 0, 0, 0, 0, 0, 0, 0, 1⟩

/-- A controller whose loop waits with requests. -/
def loopCtl (l : List (Nat × Int)) (rs : List LoopRequest) : Ctl :=
  { puts awake l with loop := { awake.loop with requests := rs } }

/-- A row of a strip of one measured pixel. -/
def stripRow (i : Nat) : StripRow := ⟨i * 256, 0, 0, none, [some ⟨50, 0, 0⟩], [some (1, 2, 3)], [some (1, 2, 3)]⟩

/-- A camera that has recorded its first band. -/
def bandCtl : Ctl :=
  { puts awake [(Obj.align_state 1, 1)] with
      units := { awake.units with cams := [(1, { Camera.reset with strip := (List.range 512).map stripRow, rows := 512 })] } }

/-- A cellar that holds the head of an appearance table at 65536: no axis used, zeros after it. -/
def tableCellar : Kv Byte := memWrite [] 65536 [0x41, 0x54, 1, 0, 0xFF, 0xFF, 0xFF, 0xFF]

/-- The argument of appearance_load for it, with a check sequence, into place 3. -/
def tableArg (w : Nat) : List Byte := le 8 65536 ++ le 4 w ++ le 1 3 ++ zeros 3

/-- A controller whose packer has a store and a ring, with a recorder. -/
def packCtl (r : Recorder) : Ctl :=
  { puts cellarCtl [(Obj.store_base, 2 ^ 21), (Obj.store_bytes, 2 ^ 21), (Obj.item_ring_base, 2 ^ 23), (Obj.item_entries, 1024)] with
      units := { awake.units with record := r } }

/-- A packer's controller whose camera 1 has recorded four rows, held in its crop ring. -/
def cutCtl (r : Recorder) : Ctl :=
  { puts (packCtl r) [(Obj.crop_ring_rows 1, 64), (Obj.crop_rows_written 1, 4)] with
      units := { (packCtl r).units with cams := [(1, { Camera.reset with rows := 4, strip := (List.range 4).reverse.map fun i => { stripRow i with ring := some i } })] } }

/-- A crate that waits for its check. -/
def heldCrate (entry band : Nat) : HeldCrate := ⟨false, 0, entry, band, [zeros 256], [1, 2, 3]⟩

/-- A fire record of a ticket that is over, of one bar and no line. -/
def fireOf (n : Nat) : FireRec := ⟨n, 1, 8, 8, [], [], [], [], [], [], false, false⟩

/-- A record view that feeds stream 2: 640 x 480 at 30 frames a second. -/
def recordView : List Byte :=
  [1, 0, 0, 2] ++ le 4 0 ++ le 4 640 ++ le 2 640 ++ le 2 480 ++ le 2 30 ++ le 1 2 ++ le 1 4 ++ zeros 12

/-- A controller whose stream 2 is fed by camera 1. -/
def streamCtl (l : List (Nat × Int)) (x : Stream) : Ctl :=
  { (puts cellarCtl ([(Obj.out_ring_bytes 2, 2 ^ 28), (Obj.index_entries 2, 4096), (Obj.ride_state 5, 2), (Obj.iso_limit, 2 ^ 31),
      (Obj.pool_area_bytes, 2 ^ 31), (Obj.profile 2, 1), (Obj.cap 2, 20000), (Obj.refs 2, 1)] ++ l)).putO (Obj.record_view 1) recordView with
      units := { awake.units with record := { awake.units.record with streams := [(2, x)] } } }

/-- A controller that replays from 65536 into a ring at 2^24. -/
def replayCtl (l : List (Nat × Int)) (x : Replay) : Ctl :=
  { puts cellarCtl ([(Obj.ride_state 5, 2), (Obj.decode, 2 ^ 24), (Obj.decoder_state, 1)] ++ l) with
      units := { awake.units with record := { awake.units.record with replay := some x } } }

/-- Parameter sets of 16 x 16 pictures of 8 bits. -/
def spsOf : Sps := ⟨1, 93, 1, 16, 16, 8, 8, 16, 8, 0, 0, 1, [], none⟩
def ppsOf : Pps := ⟨0, false, 0⟩

/-- A replay of 64 bytes, of 16 x 16 pictures, with its parameter sets read. -/
def replayOf : Replay :=
  ⟨65536, 64, 16, 16, 2 ^ 24, 2, 30, 0, [(0, spsOf)], [(0, ppsOf)], none, true, true, false, true, 0, [], [], 0, 0, 0, none⟩

/-- A picture that is due. -/
def decPic : DecPic := ⟨0, true, true, 0, false, 16, 16, 8, 16, 0, false, [], 0⟩

/-- An IDR picture at 65536. -/
def idrCellar : Kv Byte := memWrite [] 65536 [0, 0, 1, 0x26, 1, 0xAC]

/-- A controller whose camera 1 has one tile of 8 x 64 raw 8-bit pixels and lane 4. -/
def camCtl (l : List (Nat × Int)) (x : Camera) : Ctl :=
  { (puts cellarCtl ([(Obj.tile_enable 4, 1), (Obj.tile_width 4, 8), (Obj.sensor_rows 4, 64), (Obj.data_type 4, 0x2A), (Obj.lane_role 4, 2),
      (Obj.advance_rows 1, 32), (Obj.image_pitch_y 1, 50000), (Obj.image_pitch_x 1, 50000), (Obj.column_pitch, 21167), (Obj.design_speed 1, 1000),
      (Obj.quad_rate 1, 25), (Obj.lane_net_rate 1, 4000), (Obj.iso_limit, 10000), (Obj.min_exposure_period 1, 1000000), (Obj.bayer 4, 0), (Obj.tx_state 4, 2)] ++ l)).putO
      (Obj.camera_lanes 1) ([4] ++ List.replicate 7 0xFF) with
      units := { awake.units with cams := [(1, x)] } }

/-- An exposure of camera 1 that waits for its frames. -/
def exposure (fs : List SensorFrame) : Exposure := ⟨9, 1, 100, 400, none, none, [], fs, 0, false, false, false, []⟩

/-- A camera with that exposure. -/
def shot (e : Exposure) : Camera := { Camera.reset with exposures := [e], number := 9 }

/-- The header of a CSI-2 packet with its ECC. -/
def csiHead (h : Nat) : List Byte := le 3 h ++ le 1 (csiEcc h)

/-- A row of eight raw 8-bit pixels, its packet and footer. -/
def csiRow : List Byte := csiHead (8 * 256 + 0x2A) ++ [1, 2, 3, 4, 5, 6, 7, 8] ++ le 2 (csiChecksum [1, 2, 3, 4, 5, 6, 7, 8])

/-- A monitor view of 64 x 64 pixels of the strip, RGB8, 30 frames a second into two slots at 2^24. -/
def monitorView : List Byte :=
  [1, 1, 0, 0] ++ le 4 0 ++ le 4 64 ++ le 2 64 ++ le 2 64 ++ le 2 30 ++ [0, 2] ++ le 8 (2 ^ 24) ++ zeros 4

/-- The page of `pageTicket` under camera 1, which inspects it. -/
def inspectCtl : Ctl :=
  { puts pageCtl [(Obj.inspect 3, 1), (Obj.tile_enable 4, 1), (Obj.tile_width 4, 512), (Obj.image_pitch_x 1, 50000),
      (Obj.column_pitch, 21167), (Obj.camera_state 1, 3), (Obj.measurement 1, 1), (Obj.print_position, 10 ^ 6), (Obj.mc_state 0, 2),
      (Obj.mc_state 1, 2)] with
      adm := { pageCtl.adm with tickets := [pageTicket] },
      units := { pageCtl.units with cams := [(1, { Camera.reset with measure := 1, outOn := true })] } }

/-- A controller whose chain 3 hangs at lane 6 and serves bar 2. -/
def chainCtl (l : List (Nat × Int)) (h : Kv HeadMgr) (m : ChainMgr) : Ctl :=
  { puts awake ([(Obj.primary_lane 3, 6), (Obj.secondary_lane 3, 0xFF), (Obj.chain_bar 3, 2), (Obj.tx_state 6, 2)] ++ l) with
      chn := { awake.chn with heads := h, mgrs := [(3, m)] } }

/-- A frame of head 0x34, position 4 of that chain. -/
def headFrame (type tag aux : Nat) (b : List Byte) : HeadFrame := ⟨6, frameBytes type 4 tag aux b⟩

/-- A capability record: 64 nozzles in one row, 3 levels, 20 kHz, signing. -/
def capRecord : List Byte :=
  [1, 1] ++ le 2 7 ++ le 8 77 ++ le 2 64 ++ le 1 1 ++ le 1 3 ++ le 4 20000 ++ le 4 0 ++ le 2 64 ++ le 2 0 ++ [2, 0, 0, 0] ++ zeros 96

/-- A line of that chain's bar on the shelf. -/
def shelfLine : ShelfLine := ⟨2, 5, 4, 1, 1, [0x34], [(2048 * 0x34, 2)], []⟩

/-- Lane 6 under chain 3 and lane 9 alone, quads at rate 160. -/
def laneCtl (l : List (Nat × Int)) (ls : Kv Lane) : Ctl :=
  { chainCtl ([(Obj.quad_state 1, 2), (Obj.quad_state 2, 2), (Obj.quad_rate 1, 160), (Obj.quad_rate 2, 160), (Obj.lane_role 6, 1),
      (Obj.lane_role 9, 2)] ++ l) [] ChainMgr.reset with
      units := { awake.units with lanes := ls } }

/-- IDLE words as symbols, from a coder that has sent nothing. -/
def idles (hop n : Nat) : List Nat := TxCode.reset.symbols (runChars [.idle hop] n)

/-- A frame of camera 1 on its one lane. -/
def camFrameOf (type tag aux : Nat) (b : List Byte) : CamFrame := ⟨1, 0, [0], [frameBytes type 0 tag aux b]⟩

/-- A slicer calibration over lane 11. -/
def laneCal (stage : Nat) : LaneCal := ⟨11, stage, 0, [1, 0, 2, 0, 3, 0], 4⟩

/-- A frame of session 1 over a path, its next one. -/
def frame (path flags : Nat) (b : List Byte) : Frame := ⟨path, [], 0x4459, 1, 1, flags, 1, 7, b.length, 0, b⟩

/-- A frame outside any session. -/
def openFrame (path : Nat) (b : List Byte) : Frame := ⟨path, [], 0x4459, 1, 0, 0, 1, 0, b.length, 0, b⟩

/-- `awake` with session 1 as given. -/
def sessCtl (l : List (Nat × Int)) (f : Session → Session) : Ctl := (puts awake l).setSess 1 (f (awake.sess 1))

/-- `awake` with a service key of 32 ones staged and fused. -/
def keyCtl (l : List (Nat × Int)) (f : Session → Session) : Ctl :=
  let c := sessCtl ([(Obj.service_key_state, 2), (Obj.fuse_integrity, 1), (Obj.lifecycle_state, 1)] ++ l) f
  { c with keys := { c.keys with fused := true, staged := List.replicate 32 1 } }

/-- A nonce of session 1, and its proof. -/
def nonce : List Byte := List.replicate 16 2
def proof : List Byte := (hmac (List.replicate 32 1) (nonce ++ le 1 1 ++ le 4 7)).take 16

/-- Session 1 with that nonce. -/
def challenged (x : Session) : Session := { x with nonce := some ⟨nonce, 0⟩ }

/-- A flight of one event record. -/
def flight (resends : Nat) : Flight := ⟨5, [⟨1, 2, 0, 3, 4, 1, 0xFFFF, 0x110005, 6, 4⟩], 2, resends, 0⟩

/-- `awake` with the staging buffer in use. -/
def stagingCtl (g : Staging) : Ctl := { awake with ydp := { awake.ydp with staging := some g } }

/-- A part of a SEG_WRITE: its object, offset, total, bytes. -/
def segPart (key off total : Nat) (b : List Byte) : List Byte :=
  le 2 (key / 256) ++ le 1 (key % 256) ++ [0] ++ le 4 off ++ le 4 total ++ le 2 b.length ++ [0, 0] ++ b

/-! ### Figures that the spec prints, and single steps -/

/-- "123456789" in ASCII. -/
def digits : List Byte := [0x31, 0x32, 0x33, 0x34, 0x35, 0x36, 0x37, 0x38, 0x39]

/-- The check value of a crate's sequence (04_page_data, R97). -/
theorem test_crc32c : crc32c digits = 0xE3069283 := by decide +kernel

/-- The check value of a slot's sequence (R440). -/
theorem test_crc16 : crc16 digits = 0x29B1 := by decide +kernel

/-- The line example of 05_screening_nozzles: shares of an uncovered column, and of one beside another. -/
theorem test_shares :
    [1, 3, 0, 4].map (share #[⟨some 0, 2000, false⟩, ⟨some 1, 2000, false⟩, ⟨none, 2000, false⟩, ⟨some 3, 2000, false⟩,
      ⟨some 4, 2000, false⟩] 80 48 2) = [625, 625, 375, 375] ∧
    [1, 0, 4].map (share #[⟨some 0, 2000, false⟩, ⟨some 1, 2000, false⟩, ⟨none, 2000, false⟩, ⟨none, 2000, false⟩,
      ⟨some 4, 2000, false⟩] 80 48 2) = [909, 545, 545] := by decide +kernel

/-- The same example: the corrected tone and its level under both limits (R132). -/
theorem test_level :
    corrected 2625 15 = 2664 ∧ levelOf #[20, 45, 70, 100, 130, 165, 200] 2664 0 0 7 = 6 ∧
      levelOf #[20, 45, 70, 100, 130, 165, 200] 2664 0 0 5 = 5 := by decide +kernel

/-- The ceiling example of 03_jobs_pages: the speeds from which the press can stop in a distance (R85). -/
theorem test_brakeSpeed :
    [2500000, 1000000, 200000, 15000].map (fun um => (having [(Obj.drive_deceleration, 2000000)]).mach.ctl.brakeSpeed 0
      (Frac.ofInt (um * 1000))) = [3152776, 1984943, 860232, 0] := by decide +kernel

/-- The bar offset example of 03_jobs_pages, and the group example of 08_position_fire, at 1,200 lpi. -/
theorem test_ticks : nmTicks ⟨1200000000, 1⟩ 1200 = 3628346 ∧ nmTicks ⟨601524000, 1⟩ 1200 = 1818781 := by decide +kernel

/-- The symbols of K28.5 with negative running disparity, and back (07_link_phy). -/
theorem test_precode :
    let bits := [false, false, true, true, true, true, true, false, true, false]
    precode 0 (bitPairs bits) = [0, 2, 0, 3, 0] ∧ unprecode 0 [0, 2, 0, 3, 0] = [0, 2, 2, 3, 3] := by decide +kernel

/-- The READ of session 3 that 02_dictionary prints, over the mailbox. -/
def readExample : Frame :=
  ⟨2, [], 0x4459, 1, 3, 0, 0x2A, 0x5C1E0B77, 12, 0, [2, 0, 0, 0, 0, 0x60, 1, 0, 0, 0x60, 2, 0]⟩

/-- The session and the objects of that example. -/
def readState : State :=
  stateOf ((puts Ctl.reset [(Obj.speed_ceiling, 3200000), (Obj.print_position, 5000000000), (Obj.controlling_session, 3)]).setSess 3
    { Session.closed with isOpen := true, role := 2, tag := 0x5C1E0B77, lastSeq := 0x29 })

/-- The answer to a frame over the mailbox. -/
def mailed : Host.Outcome State Fault Refusal → List Byte
  | .next t => t.mach.ctl.ydp.mbxResponse
  | _ => []

/-- The bytes of the answer are those that 02_dictionary prints. -/
theorem test_read_example :
    mailed (exec (.read readExample) { readState with mach := { readState.mach with ctl := { readState.mach.ctl with phase := .up } } }) =
      [0x59, 0x44, 0x01, 0x10, 0x03, 0x01, 0x2A, 0x00, 0x77, 0x0B, 0x1E, 0x5C, 0x20, 0x00, 0x00, 0x00, 0x02, 0x00, 0x00, 0x00,
        0x00, 0x60, 0x01, 0x00, 0x00, 0x00, 0x04, 0x00, 0x00, 0xD4, 0x30, 0x00,
        0x00, 0x60, 0x02, 0x00, 0x00, 0x00, 0x08, 0x00, 0x00, 0xF2, 0x05, 0x2A, 0x01, 0x00, 0x00, 0x00] := by decide +kernel

/-- An idle step lets 4 ns pass, and a queued command leaves the queue (log entry 1). -/
theorem test_step_idle : step State.reset = .next { State.reset with mach :=
    { State.reset.mach with ctl := { State.reset.mach.ctl with now := 4 } } } := by rfl

/-- ENABLE, TARGET and LEVEL stand at bits 12, 9 to 8 and 3 to 0 of a configuration word (R377). -/
theorem test_config_word :
    cfgEnable 0x1304 = true ∧ cfgTarget 0x1304 = 3 ∧ cfgLevel 0x1304 = 4 ∧ cfgEnable 0xEFFF = false := by decide +kernel


/-- The balls total as R495 says. -/
theorem test_ball_counts :
    allBalls.length = 2304 ∧ ballCount Ball.isSignal = 622 ∧ ballCount (· == .vss) = 1148 ∧ ballCount (· == .nc) = 12 ∧
      [Supply.core, .sram, .phy, .phyh, .aux, .ddr, .booth, .boothIo].map (fun s => ballCount (Ball.isSupply s)) =
        [288, 48, 48, 40, 40, 48, 6, 4] := by decide +kernel

/-- The IDCODE of R498, and in any state but MANUFACTURE BYPASS in place of an instruction that drives balls. -/
theorem test_tap : tapIdcode = 0x19450B47 ∧ (having [(Obj.lifecycle_state, 1)]).mach.ctl.tapTakes .extest = .bypass ∧
    (having [(Obj.lifecycle_state, 0)]).mach.ctl.tapTakes .extest = .extest ∧
    (having [(Obj.lifecycle_state, 1)]).mach.ctl.tapTakes .idcode = .idcode := by decide +kernel

/-- K28.5 with negative running disparity is 001111 1010 (07_link_phy), and a decoder gives every character back that an encoder
of the same disparity sends, with the disparity after it (R184). -/
theorem test_code_groups : encode10 false comma = (0b0011111010, true) ∧
    allChars.all (fun ch => [false, true].all fun rd => decode10 rd (encode10 rd ch).1 == (some ch, (encode10 rd ch).2)) = true := by
  decide +kernel

theorem leVal_le (n v : Nat) (h : v < 256 ^ n) : leVal (le n v) = v := by
  induction n generalizing v with
  | zero => simp at h; simp [le, leVal, h]
  | succ n ih =>
    have : v / 256 < 256 ^ n := Nat.div_lt_of_lt_mul (by rw [Nat.pow_succ] at h; omega)
    simp only [le, leVal, ih _ this, BitVec.toNat_ofNat]
    omega

theorem crc32cBits_lt (n r : Nat) (h : r < 2 ^ 32) : crc32cBits n r < 2 ^ 32 := by
  induction n generalizing r with
  | zero => exact h
  | succ n ih =>
    unfold crc32cBits
    split
    · exact ih _ (Nat.xor_lt_two_pow (by omega) (by decide))
    · exact ih _ (by omega)

theorem crc32cFrom_lt (b : List Byte) (r : Nat) (h : r < 2 ^ 32) : crc32cFrom r b < 2 ^ 32 := by
  induction b generalizing r with
  | nil => exact h
  | cons x t ih =>
    exact ih _ (crc32cBits_lt _ _ (Nat.xor_lt_two_pow h (Nat.lt_of_lt_of_le x.isLt (by decide))))

theorem crc32c_lt (b : List Byte) : crc32c b < 2 ^ 32 :=
  Nat.xor_lt_two_pow (crc32cFrom_lt b _ (by decide)) (by decide)

theorem orderBreak_zeros (f o : Nat) (b : List Byte) (h : ∀ x ∈ b, x = 0) : orderBreak f o b = none := by
  induction f generalizing o b with
  | zero => rfl
  | succ f ih =>
    have g : ∀ p, b.getD p 0 = 0 := by
      intro p
      rw [List.getD_eq_getElem?_getD]
      cases e : b[p]? with
      | none => rfl
      | some v => exact h v (List.mem_of_getElem? e)
    unfold orderBreak
    rw [List.find?_eq_none.2 (by intro p _; rw [g, g]; decide)]
    exact ih _ _ fun x hx => h x (List.mem_of_mem_drop hx)

theorem arrayZeros_zero : ∀ x ∈ arrayZeros, x = 0 := by
  have : ∀ n a, ∀ x ∈ memWalk [] a n, x = (0 : Byte) := by
    intro n
    induction n with
    | zero => intro a x h; simp [memWalk] at h
    | succ n ih =>
      intro a x h
      simp only [memWalk, List.mem_cons] at h
      rcases h with h | h
      · exact h
      · exact ih _ _ h
  exact this _ _

/-- The argument of array_load with a check sequence. -/
def arrayArgOf (w : Nat) : List Byte := le 8 65536 ++ le 4 w ++ le 1 3 ++ zeros 3

theorem arrayArgOf_fields (w : Nat) : fld (arrayArgOf w) 12 1 = 3 ∧ fld (arrayArgOf w) 0 8 = 65536 ∧
    fld (arrayArgOf w) 8 4 = leVal (le 4 w) := by
  refine ⟨?_, ?_, ?_⟩ <;> simp [arrayArgOf, fld, slice, zeros, le, leVal]

theorem arrayArgOf_reaches (w : Nat) : (stateOf cellarCtl).mach.ctl.reaches req Obj.array_load (arrayArgOf w) := by
  refine ⟨by decide, by decide, by decide, by decide, by decide, ?_⟩
  rfl

theorem witness_LibraryCommandsComplete_3 : ∃ (s : State) (r : Req) (value b : List Byte) (k : Nat),
    fld value 12 1 = k ∧ s.mach.ctl.reaches r Obj.array_load value ∧ memRead s.mach.cellar (fld value 0 8) 458752 = b ∧
    s.mach.ctl.loadOk (fld value 0 8) 458752 = true ∧ s.mach.ctl.nat (Obj.array_state k) ≠ 2 ∧
    s.mach.ctl.rangeFrozen (fld value 0 8) 458752 = false ∧ s.mach.ctl.rangeFrozen (s.mach.ctl.libraryAt k) 458752 = false ∧
    crc32c b = fld value 8 4 ∧ orderBreak 65536 0 b = none ∧ s.mach.ctl.adm.waiting = none ∧ s.mach.ctl.cellarUp = true := by
  obtain ⟨e1, e2, e3⟩ := arrayArgOf_fields (crc32c arrayZeros)
  refine ⟨stateOf cellarCtl, req, arrayArgOf (crc32c arrayZeros), arrayZeros, 3, e1, arrayArgOf_reaches _, ?_⟩
  rw [e2, e3, leVal_le 4 _ (crc32c_lt _)]
  exact ⟨congrArg (fun m => memRead m 65536 458752) (rfl : (stateOf cellarCtl).mach.cellar = []), by decide, by decide,
    by decide, by decide, rfl, orderBreak_zeros _ _ _ arrayZeros_zero, by decide, by decide⟩
theorem fld_le_id (d : Nat) : fld ([3, 0, 0, 0] ++ le 4 d) 4 4 = d % 2 ^ 32 := by
  simp [fld, slice, le, leVal, BitVec.toNat_ofNat]
  omega

/-- A controller whose lifecycle state is 2, its attic ready. -/
def lifeCtl : State := having [(Obj.attic_state, 2), (Obj.lifecycle_state, 2)]

theorem lifeCode_of (c : Ctl) (v : List Byte) (h4 : fld v 4 4 = Config.deviceId % 2 ^ 32)
    (h1 : lifeStep (c.nat Obj.lifecycle_state) (fld v 0 1) = true) (h2 : fld v 1 3 = 0) (h3 : c.lifeActive = false)
    (h5 : c.atticReady = true) (h6 : fld v 0 1 = 3) (h7 : (wiped (c.nat Obj.lifecycle_state) 3) = []) : c.lifeCode v = St.OK := by
  rw [h6] at h1
  simp [Ctl.lifeCode, h1, h2, h4, h3, h5, h6, h7]

theorem witness_AtticCommandsComplete_5 : ∃ (s : State) (r : Req) (v : List Byte),
    s.mach.ctl.reaches r Obj.lifecycle_transition v ∧ s.mach.ctl.lifeCode v = St.OK :=
  ⟨lifeCtl, req, [3, 0, 0, 0] ++ le 4 Config.deviceId, by unfold Ctl.reaches; decide +kernel,
    lifeCode_of _ _ (fld_le_id _) (by decide +kernel) (by decide +kernel) (by decide +kernel) (by decide +kernel) (by decide +kernel)
      (by decide +kernel)⟩

/-- An announcement of another clock, heard at port 1. -/
def masterHeard : Announce :=
  ⟨1, 1, 6, 33, 5, 128, (Config.ptpOwn 2 + 1) % 2 ^ 64, 1, (Config.ptpOwn 2 + 1) % 2 ^ 64, 1, 37⟩

theorem witness_PtpStepsComplete_1 : ∃ (s : State) (a : Announce), s.mach.ctl.awake = true ∧ s.mach.ctl.on Obj.ptp_enable = true ∧
    s.mach.ctl.on Obj.slave_only = true ∧ a.port < 2 ∧ a.sender ≠ s.mach.ctl.ownData.sender ∧
    s.mach.ctl.clock.ptp.best = none ∧ s.mach.ctl.nat Obj.ptp_port_state = 4 :=
  ⟨having [(Obj.ptp_enable, 1), (Obj.slave_only, 1), (Obj.ptp_port_state, 4)], masterHeard, by decide +kernel, by decide +kernel,
    by decide +kernel, by decide +kernel, by simp only [masterHeard, Ctl.ownData]; omega, by decide +kernel, by decide +kernel⟩

theorem memWalk_nil (a n : Nat) : memWalk [] a n = List.replicate n 0 := by
  induction n generalizing a with
  | zero => rfl
  | succ n ih => simp only [memWalk, ih, List.replicate_succ]

/-- The head of that table and zeros after it. -/
def tableWith (n : Nat) : List Byte := [0x41, 0x54, 1, 0, 0xFF, 0xFF, 0xFF, 0xFF] ++ List.replicate n 0

/-- The bytes of that table. -/
def tableOf : List Byte := tableWith 513528

theorem tableCellar_walk (n : Nat) :
    memWalk [(65536, 0x41), (65537, 0x54), (65538, 1), (65540, 0xFF), (65541, 0xFF), (65542, 0xFF), (65543, 0xFF)] 65536 (n + 8) =
      tableWith n := by
  rw [tableWith, ← memWalk_nil 65544]
  rfl

theorem tableCellar_reads : memRead tableCellar 65536 tableBytes = tableOf := by
  have : (tableCellar.filter fun e => decide (65536 ≤ e.1 ∧ e.1 < 65536 + tableBytes)) =
      [(65536, 0x41), (65537, 0x54), (65538, 1), (65540, 0xFF), (65541, 0xFF), (65542, 0xFF), (65543, 0xFF)] := by decide +kernel
  rw [memRead, this]
  exact tableCellar_walk 513528

theorem tableWith_slice (n o k : Nat) (h : 8 ≤ o) (g : o + k ≤ n + 8) : slice (tableWith n) o k = List.replicate k 0 := by
  unfold slice tableWith
  rw [List.drop_append, List.drop_replicate, List.drop_eq_nil_of_le (by simpa using h), List.nil_append, List.take_replicate]
  congr 1
  simp
  omega

theorem tableWith_ok (n : Nat) (h : 501240 ≤ n) : tableFormatOk (tableWith n) = true := by
  have h0 : slice (tableWith n) 0 2 = [0x41, 0x54] := by simp [slice, tableWith]
  have h1 : slice (tableWith n) 2 1 = [1] := by simp [slice, tableWith]
  have h2 : slice (tableWith n) 4 4 = [0xFF, 0xFF, 0xFF, 0xFF] := by simp [slice, tableWith]
  unfold tableFormatOk fld
  rw [h0, h1, h2, tableWith_slice n 8 56 (by decide) (by omega), tableWith_slice n 501190 58 (by decide) (by omega)]
  decide

theorem tableOf_ok : tableFormatOk tableOf = true := tableWith_ok _ (by decide)

theorem tableArg_fields (w : Nat) : fld (tableArg w) 12 1 = 3 ∧ fld (tableArg w) 0 8 = 65536 ∧
    fld (tableArg w) 8 4 = leVal (le 4 w) := by
  refine ⟨?_, ?_, ?_⟩ <;> simp [tableArg, fld, slice, zeros, le, leVal]

theorem tableArg_reaches (w : Nat) :
    ({ State.reset with mach := ⟨cellarCtl, tableCellar⟩ } : State).mach.ctl.reaches req Obj.appearance_load (tableArg w) := by
  refine ⟨by decide, by decide, by decide, by decide, by decide, ?_⟩
  rfl

theorem witness_LoopCommandsComplete_5 : ∃ (s : State) (r : Req) (v b : List Byte), s.mach.ctl.reaches r Obj.appearance_load v ∧
    memRead s.mach.cellar (fld v 0 8) tableBytes = b ∧ s.mach.ctl.loadOk (fld v 0 8) tableBytes = true ∧
    fld (s.mach.ctl.oct Obj.appearance_state) (fld v 12 1) 1 ≠ 2 ∧ s.mach.ctl.rangeFrozen (fld v 0 8) tableBytes = false ∧
    crc32c b = fld v 8 4 ∧ tableFormatOk b = true ∧ s.mach.ctl.adm.waiting = none ∧ s.mach.ctl.cellarUp = true := by
  obtain ⟨e1, e2, e3⟩ := tableArg_fields (crc32c tableOf)
  refine ⟨{ State.reset with mach := ⟨cellarCtl, tableCellar⟩ }, req, tableArg (crc32c tableOf), tableOf, tableArg_reaches _, ?_⟩
  rw [e1, e2, e3, leVal_le 4 _ (crc32c_lt _)]
  exact ⟨tableCellar_reads, by decide, by decide, by decide, rfl, tableOf_ok, by decide, by decide⟩

theorem witness_StepKeepsCellarCanonical_1 : ∃ s t : State, cellarCanonical s ∧ step s = .next t :=
  ⟨State.reset, State.reset.idle, by decide, rfl⟩

theorem witness_StepKeepsClaimStacks_1 : ∃ s t : State, claimsDescend s ∧ step s = .next t :=
  ⟨State.reset, State.reset.idle, by unfold claimsDescend; decide, rfl⟩

theorem witness_StepKeepsGrant_1 : ∃ s t : State, holderOpen s ∧ step s = .next t :=
  ⟨stateOf awake, (stateOf awake).idle, by unfold holderOpen; decide, rfl⟩

theorem witness_HardLatchesStay_1 : ∃ (i : Instr) (s t : State) (f : Nat), f < 192 ∧ hardLatched f = true ∧ boothStarts i = false ∧
    s.mach.ctl.isLatched f = true ∧ exec i s = .next t :=
  ⟨.skipSend 32, having [(Obj.source_cause 1, 3)], having [(Obj.source_cause 1, 3)], 1, by decide, by decide, by decide,
    by decide, rfl⟩

theorem witness_OthersLeaveTheCellar_1 : ∃ (i : Instr) (s t : State), mayStore i = false ∧ exec i s = .next t :=
  ⟨.skipSend 32, stateOf awake, stateOf awake, rfl, rfl⟩

theorem witness_StepRunsFrontCommand_1 : ∃ (s : State) (c : Instr) (rest : List Instr),
    s.pending = c :: rest :=
  ⟨{ State.reset with pending := [.clockRecoveryLock 3, .resetN] }, .clockRecoveryLock 3, [.resetN], by decide +kernel⟩

theorem witness_IdleStepPassesOneCycle_1 : ∃ s : State,
    s.pending = [] :=
  ⟨State.reset, by decide +kernel⟩

theorem witness_DeliveredSource_1 : ∃ (s : State) (t n : Nat),
    t < 3 :=
  ⟨stateOf awake, 0, 5, by decide +kernel⟩

theorem witness_DeliveredSource_2 : ∃ (s : State) (t n : Nat),
    t < 3 :=
  ⟨stateOf awake, 0, 5, by decide +kernel⟩

theorem witness_DeliveredSource_3 : ∃ (s : State) (target n : Nat),
    claimsDescend s ∧
    target < 3 ∧
    s.c.awake = true ∧
    s.c.delivered target = some n :=
  ⟨stateOf (bellCtl [(962, 4096 + 5), (961, 4096 + 5)] [962, 961] [] []), 0, 961, by unfold claimsDescend; decide +kernel⟩

theorem witness_OnlyEventSourcesClear_1 : ∃ (s : State) (r : Req) (arg : Nat),
    s.c.reaches r Obj.clear_pending (le 2 arg) ∧
    cfgTarget (s.c.bellCfg arg) ≠ 3 :=
  ⟨stateOf (bellCtl [(962, 4096 + 256 + 5)] [962] [] []), req, 962, by unfold Ctl.reaches; decide +kernel⟩

theorem witness_OnlyEventSourcesClear_2 : ∃ (s : State) (word value : Nat),
    word < 32 ∧
    s.c.awake = true :=
  ⟨stateOf (bellCtl [(962, 4096 + 256 + 5), (963, 4096 + 768)] [962, 963] [] []), 30, 12, by decide +kernel⟩

theorem witness_SlotCrcIsOfItsBits_4 : ∃ (s : State) (axis reply : Nat),
    axis < 8 ∧
    crc16 ((be 8 reply).take 6) ≠ beVal ((be 8 reply).drop 6) ∧
    s.c.nat (Obj.bus_errors axis) < 2 ^ 32 - 1 :=
  ⟨stateOf awake, 2, 12345, by decide +kernel⟩

theorem witness_FrameChecksAnswer_1 : ∃ (s : State) (f : Frame),
    s.c.phase = .asleep ∧
    f.path = 2 ∧
    steady s.c :=
  ⟨stateOf { puts awake [] with phase := .asleep }, frame 2 0 [1, 2], by unfold steady; decide +kernel⟩

theorem witness_FrameChecksAnswer_2 : ∃ (s : State) (f : Frame),
    s.c.awake = true ∧
    f.path = 2 ∧
    steady s.c ∧
    ((headerOk 0x11 f = false ∨ writeList f.payload = none)) :=
  ⟨stateOf awake, frame 2 0 [1, 2], by unfold steady; decide +kernel⟩

theorem witness_FrameChecksAnswer_3 : ∃ (s : State) (f : Frame) (es : List Entry),
    s.c.awake = true ∧
    f.path = 2 ∧
    steady s.c ∧
    headerOk 0x11 f = true ∧
    writeList f.payload = some es ∧
    s.c.knows f.session f.tag = false :=
  ⟨stateOf awake, { frame 2 0 ([1, 0, 0, 0] ++ [0, 0x11, 2, 0, 4, 0, 0, 0] ++ le 4 500) with tag := 8 }, [(Obj.session_timeout, le 4 500)], by unfold steady; decide +kernel⟩

theorem witness_FrameChecksAnswer_4 : ∃ (s : State) (f : Frame) (es : List Entry) (x : Sent),
    s.c.awake = true ∧
    f.path = 2 ∧
    steady s.c ∧
    headerOk 0x11 f = true ∧
    writeList f.payload = some es ∧
    s.c.knows f.session f.tag = true ∧
    (s.c.sess f.session).stored = some x ∧
    f.seq = (s.c.sess f.session).lastSeq :=
  ⟨stateOf (sessCtl [] fun x => { x with lastSeq := 1, stored := some ⟨0x11, 1, 1, 7, 0, [1]⟩ }), frame 2 0 ([1, 0, 0, 0] ++ [0, 0x11, 2, 0, 4, 0, 0, 0] ++ le 4 500), [(Obj.session_timeout, le 4 500)], ⟨0x11, 1, 1, 7, 0, [1]⟩, by unfold steady; decide +kernel⟩

theorem witness_FrameChecksAnswer_5 : ∃ (s : State) (f : Frame) (es : List Entry),
    s.c.awake = true ∧
    f.path = 2 ∧
    steady s.c ∧
    headerOk 0x11 f = true ∧
    writeList f.payload = some es ∧
    s.c.knows f.session f.tag = true ∧
    (((s.c.sess f.session).stored = none ∨ f.seq ≠ (s.c.sess f.session).lastSeq)) ∧
    f.seq ≠ ((s.c.sess f.session).lastSeq + 1) % 65536 :=
  ⟨stateOf (sessCtl [] fun x => { x with lastSeq := 1 }), frame 2 0 ([1, 0, 0, 0] ++ [0, 0x11, 2, 0, 4, 0, 0, 0] ++ le 4 500), [(Obj.session_timeout, le 4 500)], by unfold steady; decide +kernel⟩

theorem witness_SlotCommandsComplete_1 : ∃ (s : State) (r : Req) (slot arg : Nat),
    slot < 256 ∧
    s.c.reaches r (Obj.seal_slot slot) (arg1 arg) ∧
    s.c.nat (Obj.slot_state slot) = 1 ∧
    s.c.nat (Obj.validation slot) = 0 :=
  ⟨having [(Obj.slot_state 3, 1), (Obj.validation 3, 0)], req, 3, 0, by unfold Ctl.reaches; decide +kernel⟩

theorem witness_FurtherControlCases_1 : ∃ (s : State) (r : Req) (slot arg : Nat),
    slot < 256 ∧
    s.c.reaches r (Obj.seal_slot slot) (arg1 arg) ∧
    s.c.nat (Obj.validation slot) ≠ 0 :=
  ⟨having [(Obj.validation 3, 7)], req, 3, 0, by unfold Ctl.reaches; decide +kernel⟩

theorem witness_SlotCommandsComplete_2 : ∃ (s : State) (r : Req) (slot arg : Nat),
    slot < 256 ∧
    s.c.reaches r (Obj.unseal_slot slot) (arg1 arg) ∧
    s.c.nat (Obj.slot_state slot) = 2 ∧
    s.c.nat (Obj.tickets_outstanding slot) = 0 :=
  ⟨having [(Obj.slot_state 3, 2)], req, 3, 0, by unfold Ctl.reaches; decide +kernel⟩

theorem witness_SlotCommandsComplete_3 : ∃ (s : State) (r : Req) (slot arg : Nat),
    slot < 256 ∧
    s.c.reaches r (Obj.clear_slot slot) (arg1 arg) ∧
    s.c.nat (Obj.slot_state slot) ≠ 2 ∧
    s.c.adm.waiting = none :=
  ⟨having [(Obj.slot_state 3, 1)], req, 3, 0, by unfold Ctl.reaches; decide +kernel⟩

theorem witness_AdmissionCommandsComplete_1 : ∃ (s : State) (r : Req) (arg : Nat),
    s.c.reaches r Obj.open_admission (arg1 arg) ∧
    s.c.nat Obj.admission_state = 0 ∧
    s.c.openCode = 0 ∧
    s.c.rideRuns ridePrint = true :=
  ⟨having openable, req, 0, by unfold Ctl.reaches; decide +kernel⟩

theorem witness_AdmissionCommandsComplete_2 : ∃ (s : State) (r : Req) (arg : Nat),
    s.c.reaches r Obj.close_admission (arg1 arg) ∧
    s.c.nat Obj.admission_state = 1 :=
  ⟨having [(Obj.admission_state, 1)], req, 0, by unfold Ctl.reaches; decide +kernel⟩

theorem witness_AdmissionCommandsComplete_3 : ∃ (s : State) (r : Req) (ts : List Ticket) (x : Ticket),
    s.c.reaches r Obj.withdraw_from (le 4 x.number) ∧
    s.c.adm.tickets = ts ++ [x] ∧
    ((∀ y ∈ ts, y.number < x.number)) ∧
    x.ended = false ∧
    x.begun = false ∧
    s.c.stopPoint ≤ x.work.before :=
  ⟨stateOf { awake with adm := { awake.adm with tickets := [ticket 4 1, ticket 5 9000000] } }, req, [ticket 4 1], ticket 5 9000000, by unfold Ctl.reaches; decide +kernel⟩

theorem witness_AdmissionCommandsComplete_4 : ∃ (s : State) (v : Nat),
    s.c.awake = true ∧
    s.c.tailOk (v % 8192) = true :=
  ⟨having [], 3, by decide +kernel⟩

theorem witness_AdmissionCommandsComplete_5 : ∃ (s : State) (r : Req) (v : Nat),
    s.c.reaches r Obj.submit_tail (le 2 v) ∧
    s.c.tailOk v = true :=
  ⟨having [], req, 3, by unfold Ctl.reaches; decide +kernel⟩

theorem witness_AdmissionCommandsComplete_6 : ∃ s : State,
    s.c.adm.ceilingAt + 50000 ≤ s.c.now :=
  ⟨stateOf { awake with now := 60000 }, by decide +kernel⟩

theorem witness_SequencerStepsComplete_1 : ∃ s : State,
    s.c.nat Obj.admission_state = 1 ∧
    s.c.nat Obj.submit_head ≠ s.c.nat Obj.submit_tail ∧
    s.c.adm.waiting = none ∧
    s.c.cellarUp = true ∧
    s.c.bulkMay = true ∧
    ((s.mach.onCtl (·.useCellar)).eightSteps (descOf s.mach.headDesc)).1 = 0 ∧
    (descOf s.mach.headDesc).verify = false ∧
    s.c.on (Obj.verify (descOf s.mach.headDesc).slot) = false ∧
    admissible (s.mach.onCtl (·.useCellar)) (descOf s.mach.headDesc) :=
  ⟨pageState, by unfold admissible; decide +kernel⟩

theorem witness_SequencerStepsComplete_2 : ∃ (s : State) (w : Waiting),
    s.c.adm.waiting = some w ∧
    w.failed = none ∧
    w.verify = false ∧
    s.c.nat Obj.admission_state = 1 ∧
    s.c.cellarUp = true ∧
    admissible (s.mach.onCtl (·.useCellar)) (descOf w.bytes) :=
  ⟨{ State.reset with mach := ⟨{ pageCtl with adm := { pageCtl.adm with waiting := some ⟨pageState.mach.headDesc, false, 0, 0, 0, none, none⟩ } }, pageCellar⟩ }, ⟨pageState.mach.headDesc, false, 0, 0, 0, none, none⟩, by unfold admissible; decide +kernel⟩

theorem witness_SequencerStepsComplete_3 : ∃ (s : State) (w : Waiting) (a p : Nat),
    s.c.adm.waiting = some w ∧
    s.c.cellarUp = true ∧
    s.c.rangeFrozen (s.c.usable - libraryBytes) libraryBytes = false ∧
    s.c.missingArray (descOf w.bytes).slot (descOf w.bytes).bars = some a ∧
    s.c.loadPlace (descOf w.bytes).slot (descOf w.bytes).bars = some p :=
  ⟨waitState, ⟨pageState.mach.headDesc, false, 0, 0, 0, none, none⟩, 0, 0, by decide +kernel⟩

theorem witness_SequencerStepsComplete_4 : ∃ (s : State) (input x at250 : Nat) (y : Ticket),
    input < 2 ∧
    kvGet none s.c.adm.cueEdge input = some ⟨at250, some x⟩ ∧
    (Frac.ofInt (s.c.nat Obj.cue_min_width * 1000)).le (s.c.nmBetween x s.c.pp) = true ∧
    s.c.cueTicket input = some y ∧
    (y.earliest : Int) ≤ s.c.underCue input x + s.c.int (Obj.cue_offset y.slot) ∧
    s.c.underCue input x + s.c.int (Obj.cue_offset y.slot) ≤ y.earliest + y.window :=
  ⟨stateOf (cueCtl [(Obj.cue_min_width, 0), (Obj.print_position, 73000)] (some ⟨5, some 72000⟩)), 0, 72000, 5, cueTicket, by decide +kernel⟩

theorem witness_SequencerStepsComplete_5 : ∃ (s : State) (n : Nat) (y : Ticket),
    s.c.ticket n = some y ∧
    y.ended = false ∧
    y.pos = none ∧
    ((y.earliest + y.window : Nat) : Int) < s.c.underCue (s.c.nat (Obj.cue_mode y.slot) - 1) s.c.pp +
      s.c.int (Obj.cue_offset y.slot) :=
  ⟨stateOf (cueCtl [(Obj.print_position, 80000)] none), 4, cueTicket, by decide +kernel⟩

theorem witness_AxisCommandsComplete_1 : ∃ (s : State) (r : Req) (axis k : Nat),
    axis < 8 ∧
    s.c.reaches r (Obj.axis_enable axis) (le 1 1) ∧
    s.c.on (Obj.axis_enable axis) = false ∧
    (s.c.axis axis).reply = some k ∧
    s.c.nat Obj.bus_cycles ≤ k + 4 :=
  ⟨stateOf (axisCtl 2 { Axis.reset with reply := some 7 } [(Obj.bus_cycles, 10)]), req, 2, 7, by unfold Ctl.reaches; decide +kernel⟩

theorem witness_AxisCommandsComplete_2 : ∃ (s : State) (r : Req) (axis : Nat),
    axis < 8 ∧
    s.c.reaches r (Obj.axis_enable axis) (le 1 0) :=
  ⟨stateOf (axisCtl 2 { Axis.reset with v := 5 } [(Obj.axis_enable 2, 1), (Obj.axis_state 2, 2)]), req, 2, by unfold Ctl.reaches; decide +kernel⟩

theorem witness_AxisCommandsComplete_3 : ∃ (s : State) (r : Req) (axis : Nat) (value : Int),
    axis < 8 ∧
    s.c.reaches r (Obj.target axis) (le 4 (uns 32 value)) ∧
    s.c.targetCode axis value = St.OK :=
  ⟨having [(Obj.axis_enable 2, 1), (Obj.axis_state 2, 1), (Obj.homed 2, 1)], req, 2, 5, by unfold Ctl.reaches; decide +kernel⟩

theorem witness_AxisCommandsComplete_4 : ∃ (s : State) (r : Req) (axis arg : Nat),
    axis < 8 ∧
    s.c.reaches r (Obj.stop axis) (le 1 arg) ∧
    s.c.axisState axis = 2 :=
  ⟨having [(Obj.axis_enable 2, 1), (Obj.axis_state 2, 2)], req, 2, 0, by unfold Ctl.reaches; decide +kernel⟩

theorem witness_AxisCommandsComplete_5 : ∃ (s : State) (r : Req) (axis arg : Nat),
    axis < 8 ∧
    s.c.reaches r (Obj.home axis) (le 1 arg) ∧
    s.c.homeCode axis = St.OK :=
  ⟨having [(Obj.axis_enable 2, 1), (Obj.axis_state 2, 1), (Obj.home_mode 2, 1), (Obj.home_input 2, 3)], req, 2, 0, by unfold Ctl.reaches; decide +kernel⟩

theorem witness_AxisCommandsComplete_6 : ∃ (s : State) (r : Req) (axis arg : Nat),
    axis < 8 ∧
    s.c.reaches r (Obj.clear_error axis) (le 1 arg) ∧
    s.c.axisState axis = 5 ∧
    s.c.nat (Obj.stage_flags axis) < 16 :=
  ⟨having [(Obj.axis_enable 2, 1), (Obj.axis_state 2, 5), (Obj.axis_error 2, 1)], req, 2, 0, by unfold Ctl.reaches; decide +kernel⟩

theorem witness_StageBusCompletes_1 : ∃ s : State,
    s.c.awake = true ∧
    s.c.on Obj.bus_enable = true ∧
    ((∀ x ∈ s.c.axs.cycleAt, x + 50000 ≤ s.c.now)) ∧
    ((∀ a ∈ List.range 8, s.c.axisState a ≠ 3)) :=
  ⟨having [(Obj.bus_enable, 1), (Obj.axis_state 1, 2)], by decide +kernel⟩

theorem witness_StageBusCompletes_2 : ∃ (s : State) (axis reply : Nat),
    axis < 8 ∧
    crc16 ((be 8 reply).take 6) = beVal ((be 8 reply).drop 6) ∧
    bits reply 55 48 = (s.c.nat Obj.bus_cycles + 253) % 256 ∧
    bits reply 63 60 = 0 ∧
    s.c.axisState axis = 0 :=
  ⟨having [(Obj.bus_cycles, 3)], 2, slotReply, by decide +kernel⟩

theorem witness_StageBusCompletes_3 : ∃ (s : State) (axis : Nat),
    axis < 8 ∧
    s.c.on (Obj.axis_enable axis) = true ∧
    ((s.c.axis axis).reply.getD 0) + s.c.nat Obj.stage_timeout ≤ s.c.nat Obj.bus_cycles ∧
    s.c.axisState axis ≠ 0 ∧
    s.c.axisState axis ≠ 5 ∧
    s.c.axisState axis ≠ 6 :=
  ⟨having [(Obj.bus_cycles, 900000), (Obj.axis_enable 2, 1), (Obj.axis_state 2, 2)], 2, by decide +kernel⟩

theorem witness_StageBusCompletes_4 : ∃ (s : State) (axis : Nat),
    axis < 8 ∧
    s.c.axisState axis = 1 ∧
    (s.c.axis axis).goalAt = none ∧
    (s.c.axis axis).standSince + s.c.nat (Obj.standstill_delay axis) * 1000000 ≤ s.c.now :=
  ⟨stateOf { puts awake [(Obj.axis_state 2, 1)] with now := 2 ^ 50 }, 2, by decide +kernel⟩

theorem witness_LimitInputsComplete_1 : ∃ (s : State) (input : Nat) (level : Bool),
    input < 16 ∧
    (s.c.lim input).active ≠ (level == (s.c.nat (Obj.lim_active_level input) == 1)) ∧
    s.c.nat (Obj.lim_chatter_count input) = 0 :=
  ⟨having [(Obj.lim_chatter_count 4, 0), (Obj.lim_active_level 4, 1)], 4, true, by decide +kernel⟩

theorem witness_LimitInputsComplete_2 : ∃ (s : State) (input : Nat),
    input < 16 ∧
    (s.c.lim input).active = true ∧
    (s.c.lim input).since + s.c.nat (Obj.lim_filter input) * 1000 ≤ s.c.now ∧
    ((∀ a ∈ List.range 8, s.c.nat (Obj.lim_negative a) ≠ input ∧ s.c.nat (Obj.lim_positive a) ≠ input)) :=
  ⟨stateOf { awake.setLim 4 { Lim.reset with active := true } with now := 2 ^ 50 }, 4, by decide +kernel⟩

theorem witness_FurtherControlCases_2 : ∃ (s : State) (input a : Nat),
    input < 16 ∧
    (s.c.lim input).active = true ∧
    (s.c.lim input).since + s.c.nat (Obj.lim_filter input) * 1000 ≤ s.c.now ∧
    s.c.nat (Obj.lim_state input) ≠ 1 ∧
    a < 8 ∧
    s.c.axisState a = 2 ∧
    0 < (s.c.axis a).v ∧
    s.c.nat (Obj.lim_positive a) = input ∧
    s.c.faulted = true :=
  ⟨stateOf { (axisCtl 2 { Axis.reset with v := 5 } [(Obj.axis_enable 2, 1), (Obj.axis_state 2, 2), (Obj.lim_positive 2, 4), (Obj.faults_latched, 1)]).setLim 4 { Lim.reset with active := true } with now := 2 ^ 50 }, 4, 2, by decide +kernel⟩

theorem witness_LimitInputsComplete_3 : ∃ (s : State) (input : Nat),
    input < 16 ∧
    (s.c.lim input).active = false ∧
    s.c.nat (Obj.lim_state input) = 2 ∧
    (s.c.lim input).since + s.c.nat (Obj.lim_release input) * 1000000 ≤ s.c.now :=
  ⟨stateOf { puts awake [(Obj.lim_state 4, 2)] with now := 2 ^ 50 }, 4, by decide +kernel⟩

theorem witness_BellCommandsComplete_1 : ∃ (s : State) (value : Nat),
    s.c.awake = true ∧
    960 ≤ value ∧
    value ≤ 1023 :=
  ⟨having [], 970, by decide +kernel⟩

theorem witness_BellCommandsComplete_2 : ∃ (s : State) (r : Req) (arg : Nat),
    s.c.reaches r Obj.ring_software (le 2 arg) ∧
    960 ≤ arg ∧
    arg ≤ 1023 :=
  ⟨having [], req, 970, by unfold Ctl.reaches; decide +kernel⟩

theorem witness_BellCommandsComplete_3 : ∃ (s : State) (target n : Nat),
    target < 3 ∧
    s.c.awake = true ∧
    s.c.delivered target = some n :=
  ⟨stateOf (bellCtl [(970, 0x1105)] [970] [] []), 1, 970, by decide +kernel⟩

theorem witness_FurtherControlCases_3 : ∃ (s : State) (r : Req) (target n : Nat),
    target < 3 ∧
    s.c.awake = true ∧
    s.c.knows r.session r.tag = true ∧
    r.path ≤ 2 ∧
    s.c.rxFull r.path = false ∧
    r.seq = ((s.c.sess r.session).lastSeq + 1) % 65536 ∧
    s.c.nat Obj.controlling_session = r.session ∧
    s.c.delivered target = some n :=
  ⟨stateOf (bellCtl [(970, 0x1105)] [970] [] []), req, 1, 970, by decide +kernel⟩

theorem witness_BellCommandsComplete_4 : ∃ (s : State) (target n l : Nat) (rest : List (Nat × Nat)),
    target < 3 ∧
    s.c.awake = true ∧
    n < 1024 ∧
    s.c.stack target = (n, l) :: rest :=
  ⟨stateOf (bellCtl [] [] [970] [(970, 5)]), 1, 970, 5, [], by decide +kernel⟩

theorem witness_FurtherControlCases_4 : ∃ (s : State) (r : Req) (target n l : Nat) (rest : List (Nat × Nat)),
    target < 3 ∧
    s.c.reaches r (Obj.complete target) (le 2 n) ∧
    s.c.stack target = (n, l) :: rest :=
  ⟨stateOf (bellCtl [] [] [970] [(970, 5)]), req, 1, 970, 5, [], by unfold Ctl.reaches; decide +kernel⟩

theorem witness_BellCommandsComplete_5 : ∃ (s : State) (r : Req) (target arg : Nat),
    target < 3 ∧
    s.c.reaches r (Obj.reset_target target) (le 1 arg) :=
  ⟨stateOf (bellCtl [] [] [970] [(970, 5)]), req, 1, 0, by unfold Ctl.reaches; decide +kernel⟩

theorem witness_BellCommandsComplete_6 : ∃ (s : State) (r : Req) (arg : Nat),
    s.c.reaches r Obj.clear_pending (le 2 arg) ∧
    cfgTarget (s.c.bellCfg arg) = 3 :=
  ⟨stateOf (bellCtl [(970, 0x1305)] [970] [] []), req, 970, by unfold Ctl.reaches; decide +kernel⟩

theorem witness_BellCommandsComplete_7 : ∃ (s : State) (word value : Nat),
    word < 32 ∧
    s.c.awake = true :=
  ⟨stateOf (bellCtl [(970, 0x1305)] [970] [] []), 30, 0xFFFFFFFF, by decide +kernel⟩

theorem witness_BellCommandsComplete_8 : ∃ (s : State) (r : Req) (x value : Nat),
    (s.c.sess r.session).bellWindow ≤ x ∧
    x < (s.c.sess r.session).bellWindow + 128 ∧
    s.c.reaches r (Obj.source_config (x - (s.c.sess r.session).bellWindow)) (le 4 value) ∧
    bellReserved x = false ∧
    s.c.isActive x = false :=
  ⟨having [], req, 100, 0x130F, by unfold Ctl.reaches; decide +kernel⟩

theorem witness_FaultCommandsComplete_1 : ∃ (s : State) (x : RailSample) (k : Nat),
    x.wellFormed = true ∧
    s.c.collects = true ∧
    railCause (s.c.railsOf x.source) x = some k ∧
    s.c.isLatched x.source = false ∧
    s.c.forced x.source = false ∧
    0 < k :=
  ⟨having [], ⟨2, true, false, true, false⟩, 1, by decide +kernel⟩

theorem witness_FaultCommandsComplete_2 : ∃ (s : State) (r : Req) (arg : Nat),
    s.c.reaches r Obj.clear_faults (le 2 arg) ∧
    arg < 192 ∧
    s.c.isLatched arg = true ∧
    hardLatched arg = false ∧
    s.c.causePresent arg = false :=
  ⟨having [(Obj.source_cause 9, 1), (Obj.faults_latched, 1)], req, 9, by unfold Ctl.reaches; decide +kernel⟩

theorem witness_FaultCommandsComplete_3 : ∃ (s : State) (r : Req) (word value : Nat),
    word < 3 ∧
    s.c.reaches r (Obj.force word) (le 8 value) :=
  ⟨having [], req, 1, 5, by unfold Ctl.reaches; decide +kernel⟩

theorem witness_FaultCommandsComplete_5 : ∃ s : State,
    s.c.carouselHealthy = true ∧
    ((s.c.nat Obj.carousel_state = 0 ∨ s.c.flt.toggledAt + 490000 ≤ s.c.now)) :=
  ⟨having [(Obj.power_state, 1)], by decide +kernel⟩

theorem witness_FaultCommandsComplete_6 : ∃ (s : State) (a b : Int),
    s.c.collects = true ∧
    a ≤ 10 * (s.c.nat Obj.temp_limit : Int) ∧
    b ≤ 10 * (s.c.nat Obj.temp_limit : Int) ∧
    (a - b).natAbs ≤ 80 :=
  ⟨having [], 300, 310, by decide +kernel⟩

theorem witness_FurtherControlCases_5 : ∃ (s : State) (a b : Int),
    s.c.collects = true ∧
    10 * (s.c.nat Obj.temp_limit : Int) < a ∧
    (a - b).natAbs ≤ 80 ∧
    s.c.isLatched 11 = false :=
  ⟨having [], 5000, 5010, by decide +kernel⟩

theorem witness_FurtherControlCases_6 : ∃ (c : Ctl) (i : TapInstr),
    c.nat Obj.lifecycle_state ≠ 0 ∧
    i.drives = true :=
  ⟨(having [(Obj.lifecycle_state, 1)]).mach.ctl, .extest, by decide +kernel⟩

theorem witness_FurtherControlCases_7 : ∃ (c : Ctl) (i : TapInstr),
    ((c.nat Obj.lifecycle_state = 0 ∨ i.drives = false)) :=
  ⟨(having [(Obj.lifecycle_state, 0)]).mach.ctl, .extest, by decide +kernel⟩

theorem witness_EndPostAndPortsComplete_1 : ∃ (s : State) (x : Ticket) (ts : List Ticket),
    s.c.adm.tickets = x :: ts ∧
    s.c.endDue x = true ∧
    s.c.cellarUp = true :=
  ⟨{ State.reset with mach := ⟨{ pageCtl with adm := { pageCtl.adm with tickets := [{ ticket 4 1 with ended := true }] } }, pageCellar⟩ }, { ticket 4 1 with ended := true }, [], by decide +kernel⟩

theorem witness_EndPostAndPortsComplete_2 : ∃ (s : State) (port : Nat) (bytes : List Byte),
    port < 2 ∧
    s.c.awake = true ∧
    s.c.portUp port = true ∧
    frameGood bytes = true ∧
    s.c.on Obj.bridge = true ∧
    (dstOf bytes == s.c.macNow) = false ∧
    toGroup bytes = false ∧
    s.c.portUp (1 - port) = true ∧
    residenceAt bytes = none ∧
    s.c.queuedAt (1 - port) + bytes.length ≤ 65536 :=
  ⟨stateOf (withMac (puts awake [(Obj.fp_link_state 0, 1), (Obj.fp_link_state 1, 1), (Obj.bridge, 1)])), 0, stationFrame, by decide +kernel⟩

theorem witness_FurtherControlCases_8 : ∃ (s : State) (port : Nat) (bytes : List Byte),
    port < 2 ∧
    s.c.awake = true ∧
    s.c.portUp port = true ∧
    frameGood bytes = false ∧
    s.c.nat (Obj.fp_frames_bad port) < 2 ^ 64 - 1 :=
  ⟨having [(Obj.fp_link_state 0, 1)], 0, zeros 60, by decide +kernel⟩

theorem witness_EndPostAndPortsComplete_3 : ∃ (s : State) (port : Nat),
    port < 2 ∧
    s.c.awake = true ∧
    s.c.nat (Obj.port_mode port) ≠ 0 ∧
    s.c.portUp port = false :=
  ⟨having [(Obj.port_mode 0, 1)], 0, by decide +kernel⟩

theorem witness_FurtherControlCases_9 : ∃ (s : State) (port reason : Nat),
    port < 2 ∧
    s.c.awake = true ∧
    s.c.nat (Obj.port_mode port) ≠ 0 ∧
    1 ≤ reason ∧
    reason ≤ 5 :=
  ⟨having [(Obj.port_mode 0, 1), (Obj.fp_link_state 0, 1)], 0, 2, by decide +kernel⟩

theorem witness_LibraryCommandsComplete_1 : ∃ (s : State) (r : Req) (curve : Nat) (value : List Byte),
    curve < 256 ∧
    s.c.reaches r (Obj.tone_curve curve) value ∧
    s.c.nat (Obj.curve_state curve) ≠ 2 ∧
    s.c.adm.waiting = none :=
  ⟨having [], req, 3, zeros 512, by unfold Ctl.reaches; decide +kernel⟩

theorem witness_LibraryCommandsComplete_2 : ∃ (s : State) (r : Req) (arg : Nat),
    arg < 256 ∧
    s.c.reaches r Obj.curve_clear (arg1 arg) ∧
    s.c.nat (Obj.curve_state arg) ≠ 2 ∧
    s.c.adm.waiting = none :=
  ⟨having [(Obj.curve_state 3, 1)], req, 3, by unfold Ctl.reaches; decide +kernel⟩

theorem witness_LibraryCommandsComplete_4 : ∃ (s : State) (r : Req) (arg : Nat),
    arg < 64 ∧
    s.c.reaches r Obj.array_clear (arg1 arg) ∧
    s.c.nat (Obj.array_state arg) ≠ 2 ∧
    s.c.adm.waiting = none :=
  ⟨having [(Obj.array_state 3, 1)], req, 3, by unfold Ctl.reaches; decide +kernel⟩

theorem witness_CareTableCommandsComplete_1 : ∃ (s : State) (r : Req) (i v z : Nat),
    i < 32 ∧
    v < 2 ^ 32 ∧
    s.c.reaches r (0x350001 + i) (le 4 v) ∧
    (s.c.sess r.session).nozzleWindow + i = z ∧
    s.c.retiredLocked (s.c.sess r.session).role z v = false ∧
    z < 2 ^ 19 ∧
    s.c.admissible s.c.care.written 2 [(z, v)] = [(z, v)] ∧
    ((∀ b ∈ s.c.barOfNozzle z, s.c.stageFull b 1 = false)) :=
  ⟨having [], req, 4, 0, 4, by unfold Ctl.reaches; decide +kernel⟩

theorem witness_CareTableCommandsComplete_2 : ∃ (s : State) (r : Req) (value : List Byte) (a first count : Nat) (es : List CareEntry),
    fld value 0 8 = a ∧
    fld value 8 4 = first ∧
    fld value 12 4 = count ∧
    s.c.reaches r Obj.load_table value ∧
    1 ≤ count ∧
    count ≤ 262144 ∧
    first + count ≤ 524288 ∧
    s.c.loadOk a (4 * count) = true ∧
    s.c.rangeFrozen a (4 * count) = false ∧
    count ≤ s.c.nat Obj.staging_free ∧
    loadEntries s.c (memRead s.mach.cellar a (4 * count)) first count = es ∧
    s.c.loadCode (s.c.sess r.session).role es = 0 ∧
    ((∀ b ∈ List.range 8, loadOf es b = [] ∨ s.c.commitsOf b < 16)) ∧
    s.c.cellarUp = true :=
  ⟨stateOf cellarCtl, req, le 8 65536 ++ le 4 4 ++ le 4 2, 65536, 4, 2, loadEntries cellarCtl (zeros 8) 4 2, by unfold Ctl.reaches; decide +kernel⟩

theorem witness_CareTableCommandsComplete_3 : ∃ (s : State) (r : Req) (value : List Byte) (a first count : Nat),
    fld value 0 8 = a ∧
    fld value 8 4 = first ∧
    fld value 12 4 = count ∧
    s.c.reaches r Obj.export_table value ∧
    1 ≤ count ∧
    count ≤ 262144 ∧
    first + count ≤ 524288 ∧
    s.c.loadOk a (4 * count) = true ∧
    s.c.rangeFrozen a (4 * count) = false ∧
    s.c.cellarUp = true :=
  ⟨stateOf cellarCtl, req, le 8 65536 ++ le 4 4 ++ le 4 2, 65536, 4, 2, by unfold Ctl.reaches; decide +kernel⟩

theorem witness_CalibrationsComplete_1 : ∃ (s : State) (r : Req) (value : List Byte),
    s.c.reaches r Obj.cal_flat_field value ∧
    s.c.camState (fld value 0 1) = 2 ∧
    ((∀ k ∈ List.range 4, bit (fld value 1 1) k = true → k ∈ s.c.tiles (fld value 0 1))) :=
  ⟨having [(Obj.camera_state 1, 2), (Obj.tile_enable 4, 1)], req, [1, 1, 16, 0], by unfold Ctl.reaches; decide +kernel⟩

theorem witness_CalibrationsComplete_2 : ∃ (s : State) (g : FlatCal),
    s.c.loop.flat = some g ∧
    s.c.flatFull g = true ∧
    g.camera < 4 ∧
    ((∀ k ∈ (List.range 4).filter (bit g.mask), (s.c.flatGains g k).isSome = true)) :=
  ⟨stateOf ((puts awake [(Obj.sensor_rows 4, 0), (Obj.tile_width 4, 0)]).setLoop { awake.loop with flat := some ⟨1, 1, 16, 0, [], []⟩ }), ⟨1, 1, 16, 0, [], []⟩, by decide +kernel⟩

theorem witness_CalibrationsComplete_3 : ∃ (s : State) (r : Req) (value : List Byte) (b : Nat),
    s.c.reaches r Obj.cal_registration value ∧
    b ∈ barsOf (fld value 0 1) ∧
    s.c.barSeen b = true ∧
    s.c.rideRuns ridePrint = true :=
  ⟨stateOf (let c := puts awake [(Obj.camera_state 0, 3), (Obj.tile_enable 0, 1), (Obj.tile_width 0, 4096), (Obj.image_pitch_x 0, 25400), (Obj.column_pitch, 1200), (Obj.image_origin 0, 0), (Obj.ride_state ridePrint, 2)]; { c with units := { c.units with cams := [(0, { Camera.reset with measure := 1, outOn := true })] } }), req, [1, 0, 2, 0], 0, by unfold Ctl.reaches; decide +kernel⟩

theorem witness_CalibrationsComplete_4 : ∃ (s : State) (g : RegCal) (x : Ticket),
    s.c.loop.reg = some g ∧
    g.zone = none ∧
    s.c.rideRuns ridePrint = true ∧
    s.c.markGap s.c.live = some x :=
  ⟨stateOf { (puts awake [(Obj.ride_state ridePrint, 2)]).setLoop { awake.loop with reg := some markCal } with adm := { awake.adm with tickets := [{ ticket 4 0 with pos := some 70000 }, { ticket 5 0 with pos := some 700000 }] } }, markCal, { ticket 4 0 with pos := some 70000 }, by decide +kernel⟩

theorem witness_CalibrationsComplete_5 : ∃ (s : State) (g : FlatCal),
    s.c.loop.flat = some g ∧
    s.c.loop.reg = none ∧
    s.c.cmdBusy Obj.cal_flat_field = true ∧
    g.since + s.c.nat Obj.cal_wait_limit * 1000000 ≤ s.c.now :=
  ⟨stateOf { (puts awake [(Obj.cal_flat_field, 2 ^ 24)]).setLoop { awake.loop with flat := some ⟨1, 0, 8, 0, [], []⟩ } with now := 2 ^ 50 }, ⟨1, 0, 8, 0, [], []⟩, by decide +kernel⟩

theorem witness_CalibrationsComplete_6 : ∃ (s : State) (r : Req) (arg : Nat),
    s.c.reaches r Obj.clear_cal_records (arg1 arg) ∧
    s.c.atticReady = true :=
  ⟨having [(Obj.attic_state, 2)], req, 0, by unfold Ctl.reaches; decide +kernel⟩

theorem witness_CellarStepsComplete_1 : ∃ (s : State) (x : CellarFound),
    s.c.untrained 0 = true ∧
    s.c.untrained 1 = true ∧
    s.c.nat (Obj.ride_state 6) ≠ 0 ∧
    s.c.trainFault x 0 = 0 ∧
    s.c.trainFault x 1 = 0 :=
  ⟨having [(Obj.ride_state 6, 2), (Obj.capacity_expected, 0)], ⟨1, 16, true, 0, 0⟩, by decide +kernel⟩

theorem witness_CellarStepsComplete_2 : ∃ s : State,
    s.c.mem.wiping = true ∧
    s.c.phase = .up ∧
    s.c.adm.waiting = none :=
  ⟨stateOf (awake.setMem { awake.mem with wiping := true }), by decide +kernel⟩

theorem witness_CellarStepsComplete_3 : ∃ (s : State) (r : Req) (arg : Nat),
    s.c.reaches r Obj.cellar_retrain (le 1 arg) ∧
    s.c.cellarInUse = false ∧
    s.c.rideRuns 6 = true :=
  ⟨having [(Obj.ride_state 6, 2), (Obj.mc_state 0, 2), (Obj.mc_state 1, 2), (Obj.usable_bytes, 2 ^ 31)], req, 0, by unfold Ctl.reaches; decide +kernel⟩

theorem witness_CellarStepsComplete_4 : ∃ s : State,
    s.c.serves 0 = true ∧
    s.c.serves 1 = true ∧
    s.c.mem.oscAt + s.c.nat Obj.oscillator_period * 1000000 ≤ s.c.now :=
  ⟨stateOf { cellarCtl with now := 2 ^ 60 }, by decide +kernel⟩

theorem witness_CellarStepsComplete_5 : ∃ (s : State) (i : Nat),
    s.c.mem.scrubAt + 1 < s.c.groups ∧
    i < 31 ∧
    s.c.serves (s.c.mem.scrubAt % 8 / 4) = true ∧
    s.c.scrubDue = true ∧
    s.c.bulkMay = true :=
  ⟨stateOf { cellarCtl with now := 2 ^ 60 }, 4, by decide +kernel⟩

theorem witness_CellarStepsComplete_6 : ∃ (s : State) (m : Nat) (e : FreezeEvent),
    m < 2 ∧
    s.c.serves m = true ∧
    freezeOn e m = true ∧
    s.c.recorder.replay = none ∧
    s.c.recorder.capture = none ∧
    s.c.recorder.jobs = [] :=
  ⟨stateOf cellarCtl, 0, .ue .verify 128 5 0, by decide +kernel⟩

theorem witness_CellarStepsComplete_7 : ∃ (s : State) (r : Req) (m arg a : Nat),
    m < 2 ∧
    s.c.reaches r (Obj.cellar_resume m) (le 1 arg) ∧
    s.c.frozen m = true ∧
    kvGet none s.c.mem.badBlock m = some a :=
  ⟨stateOf (cellarCtl.putN (Obj.mc_state 0) 4 |>.setMem { cellarCtl.mem with badBlock := [(0, some 128)] }), req, 0, 0, 128, by unfold Ctl.reaches; decide +kernel⟩

theorem witness_CellarStepsComplete_8 : ∃ (s : State) (r : Req) (value : List Byte) (a n : Nat),
    fld value 0 8 = a ∧
    fld value 8 8 = n ∧
    s.c.reaches r Obj.wipe_range value ∧
    a % 64 = 0 ∧
    n % 64 = 0 ∧
    64 ≤ n ∧
    a + n ≤ s.c.generalEnd ∧
    s.c.cellarUnready = false ∧
    s.c.rangeFrozen a n = false ∧
    s.c.cellarUp = true :=
  ⟨stateOf cellarCtl, req, le 8 4096 ++ le 8 128, 4096, 128, by unfold Ctl.reaches; decide +kernel⟩

theorem witness_CellarAccessCompletes_1 : ∃ (s : State) (r : Req) (arg : Nat),
    s.c.reaches r Obj.rate_select (le 1 arg) ∧
    s.c.nat Obj.data_rate ≠ 0 ∧
    arg ≠ s.c.nat Obj.rate_select ∧
    s.c.frozen 0 = false ∧
    s.c.frozen 1 = false ∧
    s.c.nat Obj.data_rate ≤ s.c.rateFor arg :=
  ⟨stateOf ((puts cellarCtl [(Obj.data_rate, 6400)]).setMem { cellarCtl.mem with rateA := 6400, rateB := 9600 }), req, 1, by unfold Ctl.reaches; decide +kernel⟩

theorem witness_CellarAccessCompletes_2 : ∃ (s : State),
    s.c.mem.switchAt.isSome = true ∧
    s.c.panicLevel = 0 ∧
    s.c.serves 0 = true ∧
    s.c.serves 1 = true :=
  ⟨stateOf (cellarCtl.setMem { cellarCtl.mem with rateA := 6400, rateB := 9600, switchAt := some 0 }), by decide +kernel⟩

theorem witness_CellarAccessCompletes_3 : ∃ (s : State),
    s.c.nat (Obj.mc_state 0) = 2 ∧
    s.c.nat (Obj.mc_state 1) = 2 ∧
    s.c.cellarActive = false ∧
    s.c.mem.usedAt + s.c.nat Obj.cellar_idle_time * 1000 ≤ s.c.now :=
  ⟨stateOf { cellarCtl with now := 2 ^ 50 }, by decide +kernel⟩

theorem witness_CellarAccessCompletes_4 : ∃ (s : State) (a n : Nat),
    s.c.phase ≠ .asleep ∧
    a + n ≤ s.c.usable ∧
    0 < n ∧
    a < s.c.host.bar2 * 2 ^ 30 ∧
    s.c.bulkMay = true ∧
    s.c.rangeFrozen a n = false ∧
    s.c.cellarUp = true :=
  ⟨{ State.reset with mach := ⟨cellarCtl, memWrite [] 4096 [1, 2, 3]⟩ }, 4096, 8, by decide +kernel⟩

theorem witness_CellarAccessCompletes_5 : ∃ (s : State) (a : Nat) (b : List Byte),
    s.c.phase ≠ .asleep ∧
    s.c.panicLevel ≠ 3 ∧
    a < s.c.host.bar2 * 2 ^ 30 ∧
    a + b.length ≤ s.c.generalEnd ∧
    s.c.frozen 0 = false ∧
    s.c.frozen 1 = false ∧
    s.c.cellarUp = true :=
  ⟨stateOf cellarCtl, 4096, [1, 0, 3], by decide +kernel⟩

theorem witness_FurtherControlCases_10 : ∃ (s : State) (a n : Nat),
    s.c.phase ≠ .asleep ∧
    a < s.c.usable ∧
    a + n ≤ s.c.usable ∧
    0 < n ∧
    a % 64 + n ≤ 64 ∧
    a < s.c.host.bar2 * 2 ^ 30 ∧
    s.c.bulkMay = false ∧
    s.c.rangeFrozen a n = false ∧
    s.c.heldBy 0 = [] ∧
    s.c.heldBy 1 = [] :=
  ⟨stateOf { cellarCtl with adm := { cellarCtl.adm with tickets := [pageTicket] } }, 4096, 8, by decide +kernel⟩

theorem witness_FurtherControlCases_11 : ∃ (s : State) (a n : Nat),
    s.c.phase ≠ .asleep ∧
    a < s.c.usable ∧
    a + n ≤ s.c.usable ∧
    a < s.c.host.bar2 * 2 ^ 30 ∧
    s.c.rangeFrozen a n = true ∧
    s.c.heldBy 0 = [] ∧
    s.c.heldBy 1 = [] :=
  ⟨stateOf (cellarCtl.putN (Obj.mc_state 0) 4), 0, 8, by decide +kernel⟩

theorem witness_FurtherControlCases_12 : ∃ (s : State) (a : Nat) (b : List Byte),
    s.c.phase ≠ .asleep ∧
    s.c.panicLevel ≠ 3 ∧
    a < s.c.host.bar2 * 2 ^ 30 ∧
    s.c.generalEnd ≤ a ∧
    b ≠ [] ∧
    s.c.heldBy 0 = [] ∧
    s.c.heldBy 1 = [] ∧
    s.c.nat Obj.bar2_discarded < 2 ^ 32 - 1 :=
  ⟨stateOf cellarCtl, 2 ^ 31, [1, 2], by decide +kernel⟩

theorem witness_ClockStepsComplete_1 : ∃ (s : State) (i : Nat),
    i < 2 ∧
    0 < s.c.pwr.rails ∧
    1 ≤ s.c.refState i ∧
    s.c.refState i ≤ 4 ∧
    s.c.nat Obj.ref_selected = i ∧
    s.c.refRuns (1 - i) = true :=
  ⟨stateOf (railsUp [(Obj.input_state 0, 2), (Obj.input_state 1, 2), (Obj.ref_selected, 0)]), 0, by decide +kernel⟩

theorem witness_ClockStepsComplete_2 : ∃ (s : State) (clock : Nat) (dev : Int),
    s.c.pwr.rails ≠ 0 ∧
    clock < 4 ∧
    s.c.refState clock = 1 ∧
    dev.natAbs ≤ 10000000 ∧
    s.c.goodRun clock = 7 :=
  ⟨stateOf { railsUp [(Obj.input_state 2, 1)] with pwr := { awake.pwr with rails := 8, runs := [(2, 7)] } }, 2, 5, by decide +kernel⟩

theorem witness_FurtherControlCases_13 : ∃ (s : State) (clock : Nat) (dev : Int),
    s.c.pwr.rails ≠ 0 ∧
    4 ≤ clock ∧
    clock < 12 ∧
    s.c.nat Obj.ref_selected < 2 ∧
    s.c.nat (Obj.pll_state (clock - 4)) = 1 ∧
    dev.natAbs ≤ 500000 ∧
    s.c.goodRun clock = 15 :=
  ⟨stateOf { railsUp [(Obj.pll_state 2, 1), (Obj.ref_selected, 0)] with pwr := { awake.pwr with rails := 8, runs := [(6, 15)] } }, 6, 5, by decide +kernel⟩

theorem witness_ClockStepsComplete_3 : ∃ (s : State) (i : Nat),
    i < 2 ∧
    s.c.nat Obj.ref_selected = 2 ∧
    s.c.refState i = 2 ∧
    kvGet 0 s.c.pwr.validAt i + 1000000000 ≤ s.c.now :=
  ⟨stateOf { railsUp [(Obj.input_state 1, 2), (Obj.ref_selected, 2)] with now := 2 ^ 50 }, 1, by decide +kernel⟩

theorem witness_ClockStepsComplete_4 : ∃ (s : State) (other a0 a1 : Int),
    s.c.nat Obj.ref_selected < 2 ∧
    ((∀ i ∈ List.range 4, s.c.refState i ≠ 4 ∧ s.c.nat (Obj.windows_out i) < 7)) ∧
    ((∀ i ∈ List.range 2, ∀ v ∈ [other, a0, a1, (s.c.refDeviations (s.c.standard a0 a1) other a0 a1).2] ++
      (s.c.refDeviations (s.c.standard a0 a1) other a0 a1).1.toList, v.natAbs ≤ s.c.nat Obj.ref_tolerance)) ∧
    s.c.nat Obj.ref_tolerance ≤ 300000 ∧
    (s.c.int (Obj.deviation (s.c.nat Obj.ref_selected))).natAbs ≤ 300000 :=
  ⟨stateOf (railsUp [(Obj.input_state 0, 2), (Obj.input_state 1, 2), (Obj.input_state 2, 2), (Obj.input_state 3, 2), (Obj.ref_selected, 0)]), 5, 6, 7, by decide +kernel⟩

theorem witness_ClockStepsComplete_5 : ∃ s : State,
    s.c.on Obj.ref_revertive = true ∧
    s.c.nat Obj.ref_selected < 2 ∧
    s.c.nat Obj.ref_selected ≠ s.c.nat Obj.ref_preferred ∧
    s.c.refGood (s.c.nat Obj.ref_preferred) = true ∧
    60 ≤ s.c.nat (Obj.held_time (s.c.nat Obj.ref_preferred)) :=
  ⟨stateOf (railsUp [(Obj.input_state 0, 2), (Obj.ref_selected, 1), (Obj.ref_revertive, 1), (Obj.ref_preferred, 0), (Obj.held_time 0, 60)]), by decide +kernel⟩

theorem witness_ClockStepsComplete_6 : ∃ (s : State) (r : Req) (arg : Nat),
    s.c.reaches r Obj.select_reference (le 1 arg) ∧
    s.c.refGood arg = true ∧
    60 ≤ s.c.nat (Obj.held_time arg) :=
  ⟨stateOf (railsUp [(Obj.input_state 0, 2), (Obj.ref_selected, 1), (Obj.held_time 0, 60)]), req, 0, by unfold Ctl.reaches; decide +kernel⟩

theorem witness_ClockStepsComplete_7 : ∃ (s : State) (rc xtal : Int),
    s.c.awake = true ∧
    s.c.nat Obj.ref_selected < 2 ∧
    s.c.nat Obj.booth_clock = 0 :=
  ⟨having [(Obj.ref_selected, 0), (Obj.booth_clock, 0)], 100000, 5, by decide +kernel⟩

theorem witness_ClockStepsComplete_8 : ∃ (s : State) (rcCycles : Nat),
    s.c.nat Obj.booth_clock = 0 ∧
    s.c.awake = true ∧
    s.c.pwr.xtalGood = true ∧
    xtalAgrees rcCycles = false :=
  ⟨stateOf { puts awake [(Obj.booth_clock, 0)] with pwr := { awake.pwr with xtalGood := true } }, 0, by decide +kernel⟩

theorem witness_FurtherControlCases_14 : ∃ (s : State) (rcCycles : Nat),
    s.c.nat Obj.booth_clock = 0 ∧
    s.c.pwr.xtalGood = false ∧
    xtalAgrees rcCycles = true ∧
    s.c.goodRun 20 = 7 :=
  ⟨stateOf { puts awake [(Obj.booth_clock, 0)] with pwr := { awake.pwr with xtalGood := false, runs := [(20, 7)] } }, 39062, by decide +kernel⟩

set_option maxRecDepth 100000 in
theorem witness_FetchAndScreenComplete_1 : ∃ (s : State) (x : Ticket) (b k : Nat),
    s.c.ticket x.number = some x ∧
    x.ended = false ∧
    x.pos.isSome = true ∧
    b < 8 ∧
    bit x.bars b = true ∧
    k < x.map.bands ∧
    kvGet 0 x.printDone b = k ∧
    s.c.barAt (x.place + 64 * 256 * k) b ≤ s.c.pp + 208 * 64 ∧
    s.c.rideRuns ridePrint = true ∧
    s.c.rideRuns 6 = true ∧
    s.mach.bandStalls x.map b k = false ∧
    (x.map.bandCrates s.mach.cellar b k).all (fun c => c.2.err.isNone) = true :=
  ⟨fetchState, pageTicket, 0, 0, by decide +kernel⟩

theorem witness_FetchAndScreenComplete_2 : ∃ (s : State) (x : Ticket) (b n : Nat),
    s.c.nextScreen b = some (x, n) ∧
    b < 8 ∧
    (s.c.contone x.number b n).isNone = true ∧
    s.c.barAt (x.place + 64 * n) b ≤ s.c.pp + 32 * 64 ∧
    s.c.overCap = false :=
  ⟨stateOf { pageCtl with adm := { pageCtl.adm with tickets := [{ ticket 4 0 with printDone := [(0, 1)] }] } }, { ticket 4 0 with printDone := [(0, 1)] }, 0, 0, by decide +kernel⟩

theorem witness_FetchAndScreenComplete_3 : ∃ (s : State) (x : Ticket) (b n : Nat) (l : ContoneLine),
    s.c.nextScreen b = some (x, n) ∧
    b < 8 ∧
    0 < n ∧
    s.c.contone x.number b n = some l ∧
    s.c.barAt (x.place + 64 * n) b ≤ s.c.pp + 48 * 64 ∧
    s.c.rideRuns ridePrint = true ∧
    (s.c.careBar b).pending = [] ∧
    (s.c.careBar b).outs = [] ∧
    s.c.loop.outbox = [] :=
  ⟨screenState, screenTicket, 0, 1, ⟨4, 0, 1, zeros 256⟩, by decide +kernel⟩

theorem witness_HostCommandsComplete_1 : ∃ (s : State) (kind speed width : Nat),
    kind < 3 ∧
    1 ≤ speed ∧
    speed ≤ 5 ∧
    [1, 2, 4, 8].contains width = true ∧
    s.c.phase ≠ .asleep ∧
    s.c.nat Obj.host_resets < 2 ^ 32 - 1 ∧
    ((∀ n ∈ List.range 9, (s.c.sess n).isOpen = false ∨ (s.c.sess n).path ≠ 2)) :=
  ⟨having [], 1, 3, 4, by decide +kernel⟩

theorem witness_HostCommandsComplete_2 : ∃ s : State,
    s.c.awake = true :=
  ⟨having [], by decide +kernel⟩

theorem witness_FurtherControlCases_15 : ∃ (s : State) (o v : Nat),
    s.c.awake = true ∧
    s.c.configDword (o / 4 * 4) = some v :=
  ⟨having [], 2, awake.configDword 0 |>.getD 0, by decide +kernel⟩

theorem witness_HostCommandsComplete_3 : ∃ (s : State) (v x : Nat),
    s.c.awake = true ∧
    kvGet false s.c.host.waiting v = false :=
  ⟨having [], 3, 6, by decide +kernel⟩

theorem witness_FurtherControlCases_16 : ∃ (s : State) (v : Nat),
    s.c.awake = true ∧
    v < 16 ∧
    kvGet false s.c.host.waiting v = true ∧
    s.c.msixFree v = true :=
  ⟨stateOf { awake with host := { awake.host with waiting := [(3, true)], table := [(3, ⟨4096, 7, false⟩)], enable := true, busMaster := true } }, 3, by decide +kernel⟩

theorem witness_HostCommandsComplete_4 : ∃ (s : State) (ring v : Nat),
    ring < 8 ∧
    s.c.awake = true ∧
    s.c.tailTakes ring (v % 2 ^ tailBits ring) = true :=
  ⟨having [(Obj.completion_head, 5)], 0, 4, by decide +kernel⟩

theorem witness_FurtherControlCases_17 : ∃ (s : State) (r : Req) (ring v : Nat),
    ring < 8 ∧
    s.c.reaches r (tailObject ring) (le (tailBytes ring) v) ∧
    s.c.tailTakes ring v = true :=
  ⟨having [(Obj.completion_head, 5)], req, 0, 4, by unfold Ctl.reaches; decide +kernel⟩

theorem witness_PositionStepsComplete_1 : ∃ (s : State) (a b qa qb : Bool) (e : Encoder) (at250 : Nat),
    s.c.pos.enc0.sample (s.c.nat Obj.enc_filter) a b = (e, qa, qb) ∧
    Ctl.enc0Count (s.c.setPos { s.c.pos with enc0 := e }) qa qb = .forward ∧
    s.c.nat Obj.fire_mode = 0 ∧
    s.c.nat Obj.enc1_mode = 0 ∧
    s.c.pos.indexBase = none ∧
    s.c.live = [] :=
  ⟨having [(Obj.enc0_pitch, 5000000), (Obj.enc_filter, 0)], true, false, true, false, (awake.pos.enc0.sample 0 true false).1, 7, by decide +kernel⟩

theorem witness_PositionStepsComplete_2 : ∃ (s : State) (a b qa qb : Bool) (e : Encoder),
    s.c.pos.enc1.sample (s.c.nat Obj.enc_filter) a b = (e, qa, qb) ∧
    quadCount e qa qb (s.c.nat Obj.enc1_direction) = .forward ∧
    s.c.nat Obj.enc1_mode = 0 :=
  ⟨having [(Obj.enc_filter, 0)], true, false, true, false, (awake.pos.enc1.sample 0 true false).1, by decide +kernel⟩

theorem witness_PositionStepsComplete_3 : ∃ (s : State) (f : InFilter),
    s.c.pos.inZ.sample (s.c.nat Obj.enc_filter) true = (f, true) ∧
    s.c.indexOn = true ∧
    s.c.pos.z = false ∧
    s.c.pos.indexBase = none ∧
    s.c.pos.enc0.a = true ∧
    s.c.pos.enc0.b = true :=
  ⟨stateOf { puts awake [(Obj.index_period, 100), (Obj.enc_filter, 0)] with pos := { awake.pos with enc0 := { awake.pos.enc0 with a := true, b := true } } }, (awake.pos.inZ.sample 0 true).1, by decide +kernel⟩

theorem witness_PositionStepsComplete_4 : ∃ (s : State) (r : Req) (arg : Nat),
    s.c.reaches r Obj.validate_position (le 1 arg) ∧
    s.c.pos.enc0.faulty = false ∧
    s.c.pos.enc1.faulty = false ∧
    s.c.webStill = true :=
  ⟨stateOf { awake with pos := { awake.pos with slowSince := some 0 }, now := 2 ^ 40 }, req, 0, by unfold Ctl.reaches; decide +kernel⟩

theorem witness_PositionStepsComplete_5 : ∃ s : State,
    s.c.pos.observedAt + 8 ≤ s.c.now :=
  ⟨stateOf { awake with now := 100 }, by decide +kernel⟩

theorem witness_PositionStepsComplete_6 : ∃ (s : State) (input : Nat) (rising : Bool) (at250 : Nat),
    input < 2 ∧
    s.c.cueSelected input rising = true ∧
    s.c.pos.before = none :=
  ⟨having [], 1, true, 7, by decide +kernel⟩

theorem witness_PositionStepsComplete_7 : ∃ (s : State) (input raw : Nat),
    input < 4 ∧
    s.c.nat (Obj.ssi_period input) ≠ 0 ∧
    (kvGet ⟨none, 0⟩ s.c.fire.ssi input).at_ + 1000 * s.c.nat (Obj.ssi_period input) ≤ s.c.now ∧
    s.c.nat (Obj.ssi_code input) = 0 ∧
    s.c.nat (Obj.ssi_max_step input) = 0 ∧
    ((∀ a ∈ List.range 8, s.c.nat (Obj.ssi_input a) ≠ input)) :=
  ⟨stateOf { puts awake [(Obj.ssi_period 2, 1000), (Obj.ssi_bits 2, 12), (Obj.ssi_code 2, 0), (Obj.ssi_max_step 2, 0)] with now := 2 ^ 40 }, 2, 5000, by decide +kernel⟩

theorem witness_StrobesComplete_1 : ∃ (s : State) (p n tp : Nat) (x : Ticket),
    p < 32 ∧
    (s.c.pair p).armed = none ∧
    s.c.mayFire = true ∧
    s.c.nextStrobe p = some (x, n) ∧
    s.c.nat Obj.fire_mode = 0 ∧
    s.c.crossing (s.c.strobeTarget x n p) (s.c.now250 + windowBefore) = some tp :=
  ⟨stateOf ((puts strobeCtl [(Obj.chain_bar 0, 0), (Obj.head_state 0, 2)]).putO (Obj.capability 0) capRecord), 0, 0, 0, strobeTicket, by decide +kernel⟩

theorem witness_StrobesComplete_2 : ∃ (s : State) (p : Nat) (a : Armed) (x : Ticket),
    p < 32 ∧
    (s.c.pair p).armed = some a ∧
    s.c.strobePage a.ticket = some x ∧
    x.ended = false ∧
    s.c.flt.pairsLow = false ∧
    s.c.on Obj.position_valid = true ∧
    a.due = true ∧
    a.outcome = 0 ∧
    a.placed + windowAfter ≤ s.c.now250 :=
  ⟨stateOf { strobeCtl with now := 2 ^ 40, fire := { strobeCtl.fire with pairs := [(0, { PairState.reset with armed := some ⟨4, 0, 3, 100, 0, 1000, true⟩ })] } }, 0, ⟨4, 0, 3, 100, 0, 1000, true⟩, strobeTicket, by decide +kernel⟩

theorem witness_StrobesComplete_3 : ∃ s : State,
    s.c.nat Obj.overspeed_state = 1 ∧
    s.c.fire.lastOmitAt + 64 * 64 ≤ s.c.pp :=
  ⟨having [(Obj.overspeed_state, 1), (Obj.print_position, 5000)], by decide +kernel⟩

theorem witness_StrobesComplete_4 : ∃ s : State,
    s.c.nat Obj.overspeed_state = 1 ∧
    s.c.fire.episodeFrom + 64 * s.c.nat Obj.overspeed_limit < s.c.pp :=
  ⟨having [(Obj.overspeed_state, 1), (Obj.print_position, 5000000)], by decide +kernel⟩

theorem witness_StrobesComplete_5 : ∃ s : State,
    s.c.nat Obj.overspeed_state = 2 ∧
    s.c.nat Obj.hold_remaining = 0 :=
  ⟨having [(Obj.overspeed_state, 2), (Obj.hold_remaining, 0)], by decide +kernel⟩

theorem witness_RingmastersComplete_1 : ∃ (s : State) (rm : Nat),
    s.c.fire.checkAt + 1024 ≤ s.c.now ∧
    rm < 2 ∧
    s.c.nat (rmState rm) = 2 :=
  ⟨stateOf { puts awake [(rmState 1, 2)] with now := 5000 }, 1, by decide +kernel⟩

theorem witness_RingmastersComplete_2 : ∃ (s : State) (rm : Nat),
    rm < 2 ∧
    s.c.nat (rmState rm) = 2 ∧
    s.c.nat (rmClean rm) = 1024 ∧
    s.c.nat Obj.active_ringmaster = 1 - rm :=
  ⟨having [(rmState 1, 2), (rmClean 1, 1024), (Obj.active_ringmaster, 0)], 1, by decide +kernel⟩

theorem witness_RingmastersComplete_3 : ∃ (s : State) (rm : Nat),
    rm < 2 ∧
    s.c.nat (rmState rm) = 3 :=
  ⟨having [(rmState 1, 3)], 1, by decide +kernel⟩

theorem witness_RingmastersComplete_4 : ∃ s : State,
    s.c.changeWanted = true ∧
    s.c.quiet = true :=
  ⟨having [(rmState 1, 1), (Obj.active_ringmaster, 0), (Obj.request_switch, 2 ^ 24)], by decide +kernel⟩

theorem witness_RingmastersComplete_5 : ∃ (s : State) (x : Nat),
    s.c.fire.retakeAt = some x ∧
    s.c.changeWanted = true ∧
    x + s.c.nat Obj.retake_wait * 1000000 ≤ s.c.now :=
  ⟨stateOf { puts awake [(rmState 1, 1), (Obj.active_ringmaster, 0), (Obj.request_switch, 2 ^ 24)] with fire := { awake.fire with retakeAt := some 5 }, now := 2 ^ 50 }, 5, by decide +kernel⟩

theorem witness_RingmastersComplete_6 : ∃ (s : State) (r : Req) (arg : Nat),
    s.c.reaches r Obj.request_switch (le 1 arg) ∧
    s.c.nat Obj.active_ringmaster < 2 ∧
    s.c.nat (rmState (1 - s.c.nat Obj.active_ringmaster)) = 1 ∧
    s.c.quiet = true :=
  ⟨having [(rmState 1, 1), (Obj.active_ringmaster, 0)], req, 0, by unfold Ctl.reaches; decide +kernel⟩

theorem witness_RidesComplete_1 : ∃ (s : State) (w vout : Nat),
    s.c.voutOf 0 w = vout ∧
    s.c.nat (Obj.ride_state 0) = 1 ∧
    s.c.nat (Obj.pll_state 1) = 2 ∧
    vout ≤ s.c.nat Obj.vcore_run + 10 ∧
    s.c.nat Obj.vcore_run ≤ vout + 10 ∧
    s.c.cmdBusy Obj.open_admission = false :=
  ⟨having [(Obj.ride_state 0, 1), (Obj.pll_state 1, 2), (Obj.vcore_run, 850), (Obj.power_state, 1)], 3482, 850, by decide +kernel⟩

theorem witness_FurtherControlCases_18 : ∃ (s : State) (ride w vout : Nat),
    s.c.voutOf 0 w = vout ∧
    1 ≤ ride ∧
    ride ≤ 5 ∧
    s.c.nat (Obj.ride_state ride) = 1 ∧
    s.c.nat (pllKey ride) = 2 ∧
    vout ≤ s.c.nat Obj.vcore_run + 10 ∧
    s.c.nat Obj.vcore_run ≤ vout + 10 :=
  ⟨having [(Obj.ride_state 3, 1), (pllKey 3, 2), (Obj.vcore_run, 850), (Obj.ride_state 4, 1)], 3, 3523, 860, by decide +kernel⟩

theorem witness_FurtherControlCases_19 : ∃ (s : State) (ride w : Nat),
    6 ≤ ride ∧
    ride < 15 ∧
    s.c.nat (Obj.ride_state ride) = 1 ∧
    s.c.nat (pllKey ride) = 2 ∧
    ((∀ ch ∈ List.range 16, (s.c.mgr ch).stage ≠ 1)) :=
  ⟨having [(Obj.ride_state 8, 1), (pllKey 8, 2)], 8, 0, by decide +kernel⟩

theorem witness_RidesComplete_2 : ∃ (s : State) (ride : Nat),
    ride < 7 ∧
    s.c.nat (Obj.ride_state ride) ≠ 0 ∧
    s.c.rideNeeded ride = false ∧
    s.c.rideUsedAt ride + s.c.rideRest ride ≤ s.c.now :=
  ⟨stateOf { puts awake [(Obj.ride_state 0, 2), (pllKey 0, 2), (Obj.power_state, 2), (Obj.power_state_request, 1)] with now := 2 ^ 60 }, 0, by decide +kernel⟩

theorem witness_FurtherControlCases_20 : ∃ (s : State) (q : Nat),
    q < 8 ∧
    s.c.nat (Obj.ride_state (7 + q)) ≠ 0 ∧
    s.c.rideNeeded (7 + q) = false ∧
    s.c.rideUsedAt (7 + q) ≤ s.c.now :=
  ⟨stateOf { puts awake [(Obj.ride_state 8, 2), (pllKey 8, 2), (Obj.rx_state 4, 2), (Obj.tx_state 5, 2)] with now := 2 ^ 60 }, 1, by decide +kernel⟩

theorem witness_RidesComplete_3 : ∃ (s : State) (j : Nat),
    j < 6 ∧
    s.c.nat (Obj.ride_state j) = 1 ∧
    s.c.coreReady j = false ∧
    kvGet 0 s.c.pwr.rideAt j + 500000 ≤ s.c.now ∧
    s.c.isLatched faultVcoreScale = false :=
  ⟨stateOf { puts awake [(Obj.ride_state 2, 1), (Obj.vcore_run, 850), (Obj.vcore_now, 600)] with now := 2 ^ 40 }, 2, by decide +kernel⟩

theorem witness_PowerCommandsComplete_1 : ∃ (s : State) (x : PmbusReading),
    s.c.awake = true ∧
    x.regulator < 8 ∧
    s.c.nat (Obj.pmbus_address x.regulator) ≠ 0 ∧
    pmbusOk x = true ∧
    x.regulator ≠ 0 :=
  ⟨having [(Obj.pmbus_address 3, 64)], ⟨3, 0, 850, 1200, 100, 2⟩, by decide +kernel⟩

theorem witness_FurtherControlCases_21 : ∃ (s : State) (x : PmbusReading),
    s.c.awake = true ∧
    x.regulator = 0 ∧
    s.c.nat (Obj.pmbus_address 0) ≠ 0 ∧
    pmbusOk x = true :=
  ⟨having [(Obj.pmbus_address 0, 64), (Obj.vcore_run, 850), (Obj.ride_state 2, 1)], ⟨0, 1, 850, 1200, 100, 0⟩, by decide +kernel⟩

theorem witness_FurtherControlCases_22 : ∃ (s : State) (x : PmbusReading),
    s.c.awake = true ∧
    x.regulator < 8 ∧
    x.regulator ≠ 0 ∧
    s.c.nat (Obj.pmbus_address x.regulator) ≠ 0 ∧
    pmbusOk x = false ∧
    s.c.nat Obj.pmbus_errors < 2 ^ 32 - 1 :=
  ⟨having [(Obj.pmbus_address 3, 64)], ⟨3, 4, 850, 1200, 100, 2⟩, by decide +kernel⟩

theorem witness_PowerCommandsComplete_2 : ∃ (s : State) (r : Req) (arg : Nat),
    s.c.reaches r Obj.power_state_request (le 1 arg) ∧
    1 ≤ arg ∧
    arg ≤ 2 :=
  ⟨having [(Obj.vcore_run, 850), (Obj.vcore_now, 845)], req, 2, by unfold Ctl.reaches; decide +kernel⟩

theorem witness_FurtherControlCases_23 : ∃ (s : State) (r : Req),
    s.c.reaches r Obj.power_state_request (le 1 0) ∧
    s.c.sleepCode = St.OK :=
  ⟨having [(Obj.wake_enable, 1)], req, by unfold Ctl.reaches; decide +kernel⟩

theorem witness_PowerCommandsComplete_3 : ∃ (s : State) (e : WakeEvent),
    s.c.phase = .asleep ∧
    s.c.wakes (wakeSource e) = true ∧
    s.c.wakeSeen e = true :=
  ⟨stateOf { puts awake [(Obj.wake_enable, 2)] with phase := .asleep }, .pcie, by decide +kernel⟩

theorem witness_PowerCommandsComplete_4 : ∃ (s : State) (rose : Nat),
    s.c.phase = .held ∧
    s.c.pwr.rails < 8 ∧
    ((s.c.pwr.rails = 0 ∨ rose ≤ 3000000 ∧ s.c.pwr.railAt + rose + 100000 ≤ s.c.now)) :=
  ⟨stateOf { awake with phase := .held, now := 200000, pwr := { awake.pwr with rails := 3 } }, 5, by decide +kernel⟩

theorem witness_PowerFailuresComplete_1 : ∃ (s : State) (step : Nat),
    1 ≤ step ∧
    step ≤ 8 ∧
    step < s.c.pwr.rails :=
  ⟨stateOf { awake with pwr := { awake.pwr with rails := 9 } }, 8, by decide +kernel⟩

theorem witness_FurtherControlCases_24 : ∃ (s : State) (step : Nat),
    1 ≤ step ∧
    step ≤ 8 ∧
    step = s.c.pwr.rails ∧
    s.c.pwr.railAt + 3000000 ≤ s.c.now :=
  ⟨stateOf { awake with phase := .held, now := 2 ^ 40, pwr := { awake.pwr with rails := 3 } }, 3, by decide +kernel⟩

theorem witness_PowerFailuresComplete_2 : ∃ s : State,
    s.c.phase ≠ .asleep :=
  ⟨stateOf awake, by decide +kernel⟩

theorem witness_ResetsComplete_1 : ∃ s : State,
    s.c.attic.jobs = [] :=
  ⟨stateOf { awake with now := 77 }, by decide +kernel⟩

theorem witness_ResetsComplete_2 : ∃ (s : State) (r : Req) (arg : Nat),
    s.c.reaches r Obj.reset_controller (le 1 arg) ∧
    ((arg ≠ 0 ∨ s.c.ticketed = false)) ∧
    s.c.attic.jobs = [] :=
  ⟨stateOf awake, req, 0, by unfold Ctl.reaches; decide +kernel⟩

theorem witness_ResetsComplete_3 : ∃ (s : State) (a : AtticFound) (modes : List Nat),
    s.c.phase = .held ∧
    8 ≤ s.c.pwr.rails ∧
    s.c.refRuns 0 = true ∧
    a.answers = true ∧
    32 ≤ a.capacity ∧
    a.contents = none :=
  ⟨stateOf { puts awake [(Obj.input_state 0, 2)] with phase := .held, pwr := { awake.pwr with rails := 8 } }, ⟨true, 64, true, [1, 2, 3], none⟩, [], by decide +kernel⟩

theorem witness_AtticCommandsComplete_1 : ∃ (s : State) (r : Req) (arg : Nat),
    s.c.reaches r Obj.save_persistent (le 1 arg) ∧
    s.c.nat Obj.attic_state = 2 :=
  ⟨having [(Obj.attic_state, 2)], req, 0, by unfold Ctl.reaches; decide +kernel⟩

theorem witness_AtticCommandsComplete_2 : ∃ (s : State) (r : Req) (arg : Nat),
    s.c.reaches r Obj.restore_defaults (le 1 arg) ∧
    s.c.nat Obj.attic_state = 2 :=
  ⟨having [(Obj.attic_state, 2)], req, 0, by unfold Ctl.reaches; decide +kernel⟩

theorem witness_AtticCommandsComplete_3 : ∃ (s : State) (r : Req) (arg : Nat),
    s.c.reaches r Obj.save_care (le 1 arg) ∧
    s.c.nat Obj.attic_state = 2 :=
  ⟨having [(Obj.attic_state, 2)], req, 0, by unfold Ctl.reaches; decide +kernel⟩

theorem witness_AtticCommandsComplete_4 : ∃ (s : State) (r : Req) (arg : Nat),
    s.c.reaches r Obj.format_attic (le 1 arg) ∧
    s.c.nat Obj.attic_state ≠ 2 :=
  ⟨having [(Obj.attic_state, 4)], req, 0, by unfold Ctl.reaches; decide +kernel⟩

theorem witness_AtticCommandsComplete_6 : ∃ (s : State) (data : List Byte) (rest : List AtticJob),
    s.c.attic.jobs = .record regionPersistent 0 0 data Obj.save_persistent :: rest :=
  ⟨stateOf { puts awake [(Obj.attic_state, 2), (Obj.save_persistent, 2 ^ 24)] with attic := { awake.attic with jobs := [.record 4 0 0 [1, 2, 3] Obj.save_persistent] } }, [1, 2, 3], [], by decide +kernel⟩

theorem witness_FurtherControlCases_25 : ∃ (s : State) (region kind target : Nat) (data : List Byte) (cmd : Nat) (rest : List AtticJob),
    s.c.attic.jobs = .record region kind target data cmd :: rest ∧
    cmd ≠ 0 ∧
    s.c.nat Obj.attic_errors < 2 ^ 32 - 1 ∧
    wireObject cmd = false ∧
    cmd ≠ Obj.attic_errors :=
  ⟨stateOf { puts awake [(Obj.attic_state, 2), (Obj.save_care, 2 ^ 24)] with attic := { awake.attic with jobs := [.record 5 0 0 [1, 2, 3] Obj.save_care, .wipe] } }, 5, 0, 0, [1, 2, 3], Obj.save_care, [.wipe], by decide +kernel⟩

theorem witness_AtticCommandsComplete_7 : ∃ s : State,
    s.c.phase = .up ∧
    s.c.nat Obj.attic_state = 2 :=
  ⟨stateOf { puts awake [(Obj.attic_state, 2)] with attic := { awake.attic with slots := [(0x800, [1])] } }, by decide +kernel⟩

theorem witness_UsageCommandsComplete_1 : ∃ s : State,
    s.c.awake = true ∧
    s.c.retired = false ∧
    s.c.use.closing = none ∧
    s.c.nat Obj.period_start + s.c.use.length ≤ s.c.powered ∧
    s.c.storeFull = false :=
  ⟨stateOf { puts awake [(Obj.store_state, 0), (Obj.period_length, 3600)] with pwr := { awake.pwr with powered := 100000 } , use := { awake.use with length := 3600 } }, by decide +kernel⟩

theorem witness_FurtherControlCases_26 : ∃ s : State,
    s.c.awake = true ∧
    s.c.retired = false ∧
    s.c.use.closing = none ∧
    s.c.nat Obj.period_start + s.c.use.length ≤ s.c.powered ∧
    s.c.storeFull = true :=
  ⟨stateOf { puts awake [(Obj.store_state, 2)] with pwr := { awake.pwr with powered := 100000 } , use := { awake.use with length := 3600 } }, by decide +kernel⟩

theorem witness_FurtherControlCases_27 : ∃ (s : State) (u : UsePeriod),
    s.c.awake = true ∧
    s.c.retired = false ∧
    s.c.use.closing = some u ∧
    u.writing = false ∧
    s.c.closeWaits = false :=
  ⟨stateOf { awake with use := { awake.use with closing := some ⟨UseCounts.zero, [], [], 0, 5, 0, 100, 0, 0, 0, false, false⟩ } }, ⟨UseCounts.zero, [], [], 0, 5, 0, 100, 0, 0, 0, false, false⟩, by decide +kernel⟩

theorem witness_UsageCommandsComplete_2 : ∃ (s : State) (r : Req) (arg : Nat),
    s.c.reaches r Obj.close_period (le 1 arg) ∧
    s.c.storeFull = false ∧
    s.c.use.closing = none :=
  ⟨stateOf (puts awake [(Obj.store_state, 0), (Obj.head_state 3, 2), (Obj.serial 3, 77), (Obj.head_state 4, 2), (Obj.serial 4, 77)] |>.putO (Obj.capability 3) (List.replicate 128 0xFF)), req, 0, by unfold Ctl.reaches; decide +kernel⟩

theorem witness_UsageCommandsComplete_3 : ∃ (s : State) (r : Req) (arg : Nat),
    s.c.reaches r Obj.usage_tail (le 4 arg) ∧
    arg < 2 ^ 32 ∧
    s.c.nat Obj.usage_tail ≤ arg ∧
    arg ≤ s.c.nat Obj.usage_head :=
  ⟨stateOf { puts awake [(Obj.attic_state, 2), (Obj.usage_head, 9), (Obj.usage_tail, 1)] with attic := { awake.attic with slots := [(usageSlot 1, [0x55, 0x53, 1, 1] ++ le 4 1), (usageSlot 2, [0x55, 0x53, 1, 1] ++ le 4 2), (usageSlot 3, [0x55, 0x53, 1, 1] ++ le 4 3)] } }, req, 5, by unfold Ctl.reaches; decide +kernel⟩

theorem witness_UsageCommandsComplete_4 : ∃ (s : State) (r : Req) (v : List Byte),
    s.c.reaches r Obj.stage_service_key v ∧
    s.c.nat Obj.attic_state = 2 ∧
    s.c.nat Obj.service_key_state ≠ 2 ∧
    keyCheck (slice v 0 32) = fld v 32 4 :=
  ⟨having [(Obj.attic_state, 2), (Obj.lifecycle_state, 0)], req, zeros 32 ++ (sha256 (zeros 32)).take 4, by unfold Ctl.reaches; decide +kernel⟩

theorem witness_UsageCommandsComplete_5 : ∃ (s : State) (r : Req) (v : List Byte),
    s.c.reaches r Obj.set_family_key v ∧
    s.c.nat Obj.attic_state = 2 ∧
    fld v 2 2 ≠ 0xFFFF ∧
    ((∀ i ∈ List.range 4, i = fld v 0 1 ∨ kvGet [] s.c.keys.family i = [] ∨
      s.c.nat (Obj.key_family i) ≠ fld v 2 2)) ∧
    keyCheck (slice v 4 32) = fld v 36 4 :=
  ⟨having [(Obj.attic_state, 2)], req, [1, 0, 5, 0] ++ zeros 32 ++ (sha256 (zeros 32)).take 4, by unfold Ctl.reaches; decide +kernel⟩

theorem witness_UsageCommandsComplete_6 : ∃ (s : State) (r : Req) (arg : Nat),
    s.c.reaches r Obj.clear_family_key (le 1 arg) ∧
    s.c.nat Obj.attic_state = 2 :=
  ⟨having [(Obj.attic_state, 2)], req, 3, by unfold Ctl.reaches; decide +kernel⟩

theorem witness_TimeCommandsComplete_1 : ∃ (s : State) (r : Req) (v : List Byte) (tm : Nat),
    s.c.reaches r Obj.set_time v ∧
    tm = fld v 4 6 * 10 ^ 9 + fld v 0 4 % 2 ^ 30 ∧
    tm < 2 ^ 48 * 10 ^ 9 ∧
    ((s.c.nat Obj.clock_status = 0 ∨ fld v 10 1 = 1)) ∧
    s.c.clock.pulses = [] :=
  ⟨having [(Obj.clock_status, 0)], req, le 4 5 ++ le 6 77 ++ [0, 0], 77000000005, by unfold Ctl.reaches; decide +kernel⟩

theorem witness_TimeCommandsComplete_2 : ∃ (s : State) (r : Req) (v : List Byte),
    s.c.reaches r Obj.step_time v ∧
    s.c.nat Obj.clock_status ≠ 0 ∧
    (sfld v 0 8).natAbs ≤ s.c.nat Obj.step_limit ∧
    0 ≤ (s.c.localNs : Int) + sfld v 0 8 ∧
    (s.c.localNs : Int) + sfld v 0 8 < 2 ^ 48 * 10 ^ 9 ∧
    s.c.clock.pulses = [] :=
  ⟨having [(Obj.clock_status, 2), (Obj.step_limit, 1000)], req, le 8 500 ++ zeros 4, by unfold Ctl.reaches; decide +kernel⟩

theorem witness_FurtherControlCases_28 : ∃ (s : State) (r : Req) (v : List Byte),
    s.c.reaches r Obj.step_time v ∧
    s.c.nat Obj.clock_status ≠ 0 ∧
    s.c.nat Obj.step_limit < (sfld v 0 8).natAbs ∧
    fld v 8 1 ≠ 1 ∧
    s.c.nat Obj.steps_refused < 2 ^ 32 - 1 :=
  ⟨having [(Obj.clock_status, 2), (Obj.step_limit, 1000)], req, le 8 5000 ++ zeros 4, by unfold Ctl.reaches; decide +kernel⟩

theorem witness_TimeCommandsComplete_3 : ∃ (s : State) (r : Req) (arg : Nat),
    s.c.reaches r Obj.accept_step (le 1 arg) ∧
    s.c.nat Obj.clock_status = 5 :=
  ⟨having [(Obj.clock_status, 5)], req, 0, by unfold Ctl.reaches; decide +kernel⟩

theorem witness_TimeCommandsComplete_4 : ∃ (s : State) (r : Req) (q arg : Nat),
    q < 4 ∧
    s.c.reaches r (Obj.pulse_arm q) (le 1 arg) ∧
    s.c.nat (Obj.pulse_width q) < s.c.nat (Obj.pulse_period q) ∧
    s.c.nat (Obj.pulse_mode q) = 1 ∧
    s.c.localNs < s.c.nat (Obj.pulse_start q) :=
  ⟨having [(Obj.pulse_mode 2, 1), (Obj.pulse_start 2, 2 ^ 50), (Obj.pulse_period 2, 1000), (Obj.pulse_width 2, 500)], req, 2, 0, by unfold Ctl.reaches; decide +kernel⟩

theorem witness_TimeCommandsComplete_5 : ∃ (s : State) (q : Nat),
    q < 4 ∧
    s.c.awake = true ∧
    (s.c.pulse q).mode ≠ 0 ∧
    (s.c.pulse q).endAt = none ∧
    (s.c.pulse q).next ≤ s.c.localNs ∧
    s.c.nat (Obj.pulses_emitted q) < 2 ^ 32 - 1 :=
  ⟨stateOf { awake with clock := { awake.clock with pulses := [(2, ⟨2, 0, 1000, 500, true, 0, none, false⟩)] } }, 2, by decide +kernel⟩

theorem witness_FurtherControlCases_29 : ∃ (s : State) (q e : Nat),
    q < 4 ∧
    s.c.awake = true ∧
    (s.c.pulse q).mode = 1 ∧
    (s.c.pulse q).endAt = some e ∧
    e ≤ s.c.localNs ∧
    s.c.nat (Obj.pulse_state q) = 2 :=
  ⟨stateOf { puts awake [(Obj.pulse_state 2, 2)] with now := 900, clock := { awake.clock with sub := 2 ^ 42, pulses := [(2, ⟨1, 0, 1000, 500, true, 0, some 500, false⟩)] } }, 2, 500, by decide +kernel⟩

theorem witness_PtpStepsComplete_2 : ∃ (s : State) (offset delay : Int),
    s.c.awake = true ∧
    s.c.nat Obj.ptp_port_state = 9 ∧
    offset.natAbs ≤ s.c.nat Obj.slew_window ∧
    offset.natAbs ≤ s.c.nat Obj.step_limit :=
  ⟨having [(Obj.ptp_port_state, 9), (Obj.step_limit, 1000), (Obj.slew_window, 1000), (Obj.locked_threshold, 100), (Obj.clock_status, 2)], 50, 300, by decide +kernel⟩

theorem witness_FurtherControlCases_30 : ∃ (s : State) (offset delay : Int),
    s.c.awake = true ∧
    s.c.nat Obj.ptp_port_state = 9 ∧
    s.c.nat Obj.clock_status = 0 ∧
    s.c.nat Obj.step_limit < offset.natAbs ∧
    s.c.clock.pulses = [] ∧
    0 ≤ (s.c.localNs : Int) - offset ∧
    (s.c.localNs : Int) - offset < 2 ^ 48 * 10 ^ 9 :=
  ⟨stateOf { puts awake [(Obj.ptp_port_state, 9), (Obj.step_limit, 1000), (Obj.clock_status, 0)] with clock := { awake.clock with sub := 2 ^ 62 } }, 5000, 300, by decide +kernel⟩

theorem witness_FurtherControlCases_31 : ∃ (s : State) (offset delay : Int),
    s.c.awake = true ∧
    s.c.nat Obj.ptp_port_state = 9 ∧
    s.c.nat Obj.clock_status ≠ 0 ∧
    s.c.clock.ptp.accept = false ∧
    s.c.nat Obj.step_limit < offset.natAbs ∧
    s.c.nat Obj.steps_refused < 2 ^ 32 - 1 :=
  ⟨having [(Obj.ptp_port_state, 9), (Obj.step_limit, 1000), (Obj.clock_status, 3)], 5000, 300, by decide +kernel⟩

theorem witness_PtpStepsComplete_3 : ∃ s : State,
    s.c.awake = true ∧
    s.c.nat Obj.ptp_port_state = 9 ∧
    s.c.clock.ptp.heardAt + s.c.nat Obj.announce_timeout * logInterval (s.c.int Obj.log_announce_interval) ≤
      s.c.now :=
  ⟨stateOf { puts awake [(Obj.ptp_port_state, 9), (Obj.announce_timeout, 3), (Obj.clock_status, 3)] with now := 2 ^ 50 }, by decide +kernel⟩

theorem witness_PtpStepsComplete_4 : ∃ s : State,
    s.c.awake = true ∧
    s.c.nat Obj.ptp_port_state = 9 ∧
    s.c.clock.ptp.delayAt + logInterval (s.c.int Obj.log_delay_req_interval) ≤ s.c.now :=
  ⟨stateOf { puts awake [(Obj.ptp_port_state, 9), (Obj.fp_link_state 0, 1)] with now := 2 ^ 50 }, by decide +kernel⟩

theorem witness_PtpStepsComplete_5 : ∃ s : State,
    s.c.awake = true ∧
    s.c.nat Obj.ptp_port_state = 6 ∧
    s.c.clock.ptp.syncAt + logInterval (s.c.int Obj.log_sync_interval) ≤ s.c.now :=
  ⟨stateOf { puts awake [(Obj.ptp_port_state, 6), (Obj.fp_link_state 0, 1)] with now := 2 ^ 50 }, by decide +kernel⟩

theorem witness_PtpStepsComplete_6 : ∃ s : State,
    s.c.awake = true ∧
    s.c.nat Obj.ptp_port_state = 6 ∧
    s.c.clock.ptp.announceAt + logInterval (s.c.int Obj.log_announce_interval) ≤ s.c.now :=
  ⟨stateOf { puts awake [(Obj.ptp_port_state, 6), (Obj.fp_link_state 0, 1)] with now := 2 ^ 50 }, by decide +kernel⟩

theorem witness_LoopCommandsComplete_1 : ∃ (s : State) (k : Nat) (strip : List StripRow),
    k < 4 ∧
    s.c.nextBand k = some strip ∧
    s.c.bandReadsDue k (strip.map (s.c.bandRow k 0)) = false :=
  ⟨stateOf bandCtl, 1, (((List.range 512).map stripRow).drop 256).reverse, by decide +kernel⟩

theorem witness_LoopCommandsComplete_2 : ∃ (s : State) (b : Nat) (xs : List LoopChange) (rest : List LoopRequest),
    b < 8 ∧
    s.c.loop.requests = .nozzles b xs :: rest ∧
    xs ≠ [] ∧
    ((∀ x ∈ xs, s.c.lostChange x = 0)) ∧
    s.c.stageFull b xs.length = false ∧
    s.c.loop.outbox = [] ∧
    ((∀ x ∈ xs, x.target < 2 ^ 19)) :=
  ⟨stateOf (loopCtl [] [.nozzles 2 [changeTo 1 5 2], .nozzles 3 []]), 2, [changeTo 1 5 2], [.nozzles 3 []], by decide +kernel⟩

theorem witness_FurtherImageCases_1 : ∃ (s : State) (x : LoopChange) (g : Nat) (cal : Bool) (rest : List LoopRequest),
    s.c.loop.requests = .register x g cal :: rest ∧
    x.kind = kindTrim ∧
    x.target < 32 ∧
    s.c.generation x.target = g ∧
    s.c.loop.outbox = [] :=
  ⟨stateOf (loopCtl [] [.register (changeTo 4 5 77) 0 false]), changeTo 4 5 77, 0, false, [], by decide +kernel⟩

theorem witness_FurtherImageCases_2 : ∃ (s : State) (x : LoopChange) (g : Nat) (cal : Bool) (rest : List LoopRequest),
    s.c.loop.requests = .register x g cal :: rest ∧
    x.kind = kindOffset ∧
    x.target < 8 ∧
    s.c.generation (32 + x.target) ≠ g ∧
    s.c.nat Obj.discards < 2 ^ 32 - 1 :=
  ⟨stateOf (loopCtl [(Obj.loop_ring_base, 65536), (Obj.loop_ring_entries, 64)] [.register (changeTo 3 5 77) 4 false]), changeTo 3 5 77, 4, false, [], by decide +kernel⟩

theorem witness_LoopCommandsComplete_4 : ∃ (s : State) (r : Req) (p : Nat),
    p < 256 ∧
    s.c.reaches r Obj.appearance_clear (arg1 p) ∧
    fld (s.c.oct Obj.appearance_state) p 1 ≠ 2 ∧
    s.c.adm.waiting = none :=
  ⟨having [], req, 3, by unfold Ctl.reaches; decide +kernel⟩

theorem witness_PackerStepsComplete_1 : ∃ (s : State) (r : Req) (v : List Byte),
    s.c.reaches r Obj.capture v ∧
    s.c.captureFrozen (fld v 0 1) = false :=
  ⟨stateOf ((puts cellarCtl []).putO (Obj.crop_ring 1) (le 8 (2 ^ 22) ++ le 8 65536 ++ [0, 1] ++ zeros 6)), req, [1, 0, 0, 0] ++ le 8 256 ++ le 4 2 ++ le 4 0 ++ le 4 2, by unfold Ctl.reaches; decide +kernel⟩

theorem witness_PackerStepsComplete_2 : ∃ (s : State) (w : CaptureWait) (rows : List StripRow),
    s.c.recorder.capture = some w ∧
    s.c.captureRows w = some rows ∧
    s.c.packerMay = true ∧
    s.c.bulkMay = true ∧
    (rows.head?.map (s.c.inRing w.camera)) = some true ∧
    storeInside s.c :=
  ⟨stateOf (cutCtl { awake.recorder with capture := some ⟨1, 256, 2, 0, 2, 0⟩ }), ⟨1, 256, 2, 0, 2, 0⟩, [{ stripRow 1 with ring := some 1 }, { stripRow 2 with ring := some 2 }], by unfold storeInside; decide +kernel⟩

theorem witness_PackerStepsComplete_3 : ∃ (s : State) (w : CaptureWait),
    s.c.recorder.capture = some w ∧
    w.since + 10000000000 ≤ s.c.now :=
  ⟨stateOf { packCtl { awake.recorder with capture := some ⟨1, 256, 2, 0, 2, 0⟩ } with now := 2 ^ 40 }, ⟨1, 256, 2, 0, 2, 0⟩, by decide +kernel⟩

theorem witness_PackerStepsComplete_4 : ∃ (s : State) (w : CropWait) (rows : List StripRow),
    (s.c.recorder.crops.find? fun w => (s.c.cropRows w).isSome) = some w ∧
    s.c.cropRows w = some rows ∧
    s.c.packerMay = true ∧
    s.c.bulkMay = true ∧
    storeInside s.c :=
  ⟨stateOf (cutCtl { awake.recorder with crops := [⟨1, 4, 0, 2, 512, 2⟩] }), ⟨1, 4, 0, 2, 512, 2⟩, [{ stripRow 1 with ring := some 1 }, { stripRow 2 with ring := some 2 }], by unfold storeInside; decide +kernel⟩

theorem witness_PackerStepsComplete_5 : ∃ (s : State) (h : HeldCrate) (rest : List HeldCrate),
    s.c.recorder.held = h :: rest ∧
    s.c.crateMay h = true ∧
    s.c.nat Obj.crates_mismatched < 2 ^ 32 - 1 ∧
    storeInside s.c :=
  ⟨stateOf (packCtl { awake.recorder with held := [heldCrate 0 0, heldCrate 1 0], jobs := [⟨0, 3, 1, 4, false, 1, 256, [], 2, []⟩] }), heldCrate 0 0, [heldCrate 1 0], by unfold storeInside; decide +kernel⟩

theorem witness_PackerStepsComplete_6 : ∃ (s : State) (h : HeldCrate),
    s.c.recorder.held.find? s.c.recorder.overdue = some h ∧
    s.c.crateMay h = true ∧
    s.c.nat Obj.crates_unchecked < 2 ^ 32 - 1 ∧
    storeInside s.c :=
  ⟨stateOf (packCtl { awake.recorder with held := [heldCrate 0 0, heldCrate 2 2] }), heldCrate 0 0, by unfold storeInside; decide +kernel⟩

theorem witness_PackerStepsComplete_7 : ∃ (s : State) (f : FireRec),
    (s.c.recorder.fires.find? fun f => (s.c.fireOver f).isSome) = some f ∧
    f.openBands = [] ∧
    ((∀ h ∈ s.c.recorder.held, (h.fire && h.owner == f.ticket) = false)) ∧
    s.c.packerMay = true ∧
    storeInside s.c :=
  ⟨stateOf (packCtl { awake.recorder with fires := [fireOf 4] }), fireOf 4, by unfold storeInside; decide +kernel⟩

theorem witness_StreamCommandsComplete_1 : ∃ (s : State) (r : Req) (i : Nat) (v : List Byte),
    i < 4 ∧
    s.c.reaches r (Obj.stream_enable i) (le 1 1) ∧
    s.c.streamOn i = false ∧
    s.c.streamView i = some v ∧
    s.c.streamCode i = 0 :=
  ⟨stateOf (streamCtl [] Stream.reset), req, 2, recordView, by unfold Ctl.reaches; decide +kernel⟩

theorem witness_StreamCommandsComplete_2 : ∃ (s : State) (r : Req) (i : Nat),
    i < 4 ∧
    s.c.reaches r (Obj.stream_enable i) (le 1 0) ∧
    s.c.streamOn i = true :=
  ⟨stateOf (streamCtl [(Obj.stream_enable 2, 1)] Stream.reset), req, 2, by unfold Ctl.reaches; decide +kernel⟩

theorem witness_StreamCommandsComplete_3 : ∃ (s : State) (k : Nat) (w : Int) (v : List Byte),
    k < 4 ∧
    s.c.camState k = 2 ∧
    (s.c.cam k).record = v ∧
    (s.c.cam k).outOn = true ∧
    viewOn v = true ∧
    viewStream v < 4 ∧
    (s.c.cam k).recordAt < s.c.frameIndex (viewRate v) ∧
    s.c.viewRow0 k v = some w ∧
    s.c.streamOn (viewStream v) = true ∧
    s.c.nat (Obj.pictures_skipped (viewStream v)) < 2 ^ 32 - 1 :=
  ⟨stateOf (let c := streamCtl [(Obj.stream_enable 2, 1), (Obj.camera_state 1, 2)] Stream.reset; { c with clock := { c.clock with sub := 2 ^ 62 }, units := { c.units with cams := [(1, { Camera.reset with outOn := true, record := recordView, strip := (List.range 1000).map stripRow, rows := 1000 })] } }), 1, 479 * 256, recordView, by decide +kernel⟩

theorem witness_StreamCommandsComplete_4 : ∃ (s : State) (i : Nat) (f : RecFrame) (rest : List RecFrame) (v : List Byte),
    i < 4 ∧
    s.c.streamOn i = true ∧
    65536 ≤ s.c.ringFree i ∧
    s.c.indexFull i = false ∧
    s.c.rideRuns rideRecord = true ∧
    s.c.cellarUp = true ∧
    s.c.frozen 0 = false ∧
    s.c.frozen 1 = false ∧
    (s.c.stream i).waiting = f :: rest ∧
    s.c.streamView i = some v ∧
    s.c.streamTurn i f = true ∧
    (s.c.stream i).place < s.c.nat (Obj.out_ring_bytes i) ∧
    s.c.nat (Obj.pictures i) < 2 ^ 32 - 1 :=
  ⟨stateOf (streamCtl [(Obj.stream_enable 2, 1), (Obj.out_ring_base 2, 2 ^ 24), (Obj.index_ring_base 2, 2 ^ 22)] { Stream.reset with waiting := [⟨0, 1, 0, 0, 5, false, []⟩] }), 2, ⟨0, 1, 0, 0, 5, false, []⟩, [], recordView, by decide +kernel⟩

theorem witness_StreamCommandsComplete_5 : ∃ (s : State) (r : Req) (i place : Nat),
    i < 4 ∧
    s.c.reaches r (Obj.mark_long_term i) (le 1 place) ∧
    (s.c.stream i).longs.any (·.1 == place) = false :=
  ⟨stateOf (streamCtl [] Stream.reset), req, 2, 3, by unfold Ctl.reaches; decide +kernel⟩

theorem witness_StreamCommandsComplete_6 : ∃ (s : State) (r : Req) (i place : Nat),
    i < 4 ∧
    s.c.reaches r (Obj.release_long_term i) (le 1 place) :=
  ⟨stateOf (streamCtl [] { Stream.reset with longs := [(1, ⟨0, 0, 0, []⟩), (3, ⟨0, 0, 0, []⟩)] }), req, 2, 3, by unfold Ctl.reaches; decide +kernel⟩

theorem witness_StreamCommandsComplete_7 : ∃ (s : State) (r : Req) (i arg : Nat),
    i < 4 ∧
    s.c.reaches r (Obj.force_idr i) (le 1 arg) :=
  ⟨stateOf (streamCtl [] Stream.reset), req, 2, 0, by unfold Ctl.reaches; decide +kernel⟩

theorem witness_ReplayCommandsComplete_1 : ∃ (s : State) (r : Req) (v : List Byte),
    s.c.reaches r Obj.decode v ∧
    s.c.inCrates (fld v 0 8) (fld v 8 4) = true ∧
    s.c.replayRingOk (fld v 16 8) (fld v 24 1 * replaySlot (fld v 12 2) (fld v 14 2) 10) = true ∧
    s.c.rangeFrozen (fld v 0 8) (fld v 8 4) = false ∧
    s.c.rangeFrozen (fld v 16 8) (fld v 24 1 * replaySlot (fld v 12 2) (fld v 14 2) 10) = false ∧
    s.c.isoOthers 4 + mbUp ⟨fld v 12 2 * fld v 14 2 * fld v 25 1 * 9, 1⟩ ≤ s.c.nat Obj.iso_limit :=
  ⟨having [(Obj.crate_base, 65536), (Obj.crate_bytes, 2 ^ 20), (Obj.usable_bytes, 2 ^ 31), (Obj.iso_limit, 2 ^ 31), (Obj.mc_state 0, 2), (Obj.mc_state 1, 2)], req, le 8 65536 ++ le 4 64 ++ le 2 640 ++ le 2 480 ++ le 8 (2 ^ 24) ++ [2, 30] ++ zeros 6, by unfold Ctl.reaches; decide +kernel⟩

theorem witness_FurtherImageCases_3 : ∃ (s : State) (x : Replay) (concealed : Nat),
    s.c.recorder.replay = some x ∧
    x.frames ≤ (s.c.nat Obj.dec_head + 32 - s.c.nat Obj.dec_tail) % 32 :=
  ⟨stateOf (replayCtl [(Obj.dec_head, 2)] replayOf), replayOf, 0, by decide +kernel⟩

theorem witness_FurtherImageCases_4 : ∃ (s : State) (x : Replay) (concealed : Nat),
    s.c.decodes x ∧
    x.pictures = [] ∧
    nextStart (memRead s.mach.cellar (x.address + x.done) (x.length - x.done)) 0 = none :=
  ⟨stateOf (replayCtl [] replayOf), replayOf, 0, by decide +kernel⟩

theorem witness_FurtherImageCases_5 : ∃ (s : State) (x : Replay) (q : Sps) (d : DecPic) (concealed : Nat),
    s.c.decodes x ∧
    x.active = some q ∧
    mustOutput q x.pictures = true ∧
    nextOutput x.pictures = some d :=
  ⟨stateOf (replayCtl [] { replayOf with active := some spsOf, pictures := [decPic] }), { replayOf with active := some spsOf, pictures := [decPic] }, spsOf, decPic, 0, by decide +kernel⟩

theorem witness_ReplayCommandsComplete_2 : ∃ (s : State) (x : Replay) (q : Sps) (p : Pps) (h : Slice) (id concealed o : Nat) (discard : Bool) (nal : List Byte) (bs : List Bool),
    s.c.decodes x ∧
    x.pictures = [] ∧
    x.active = none ∧
    nextStart (memRead s.mach.cellar (x.address + x.done) (x.length - x.done)) 0 = some (o, nal) ∧
    nextStart nal 0 = none ∧
    idrSlice nal = some (discard, id, bs) ∧
    x.setsOf id = some (q, p) ∧
    readSlice q p 19 x.poc discard bs = some h ∧
    s.c.nat Obj.pictures_decoded < 2 ^ 32 - 1 :=
  ⟨{ State.reset with mach := ⟨replayCtl [] replayOf, idrCellar⟩ }, replayOf, spsOf, ppsOf, ⟨false, true, false, 0, [], []⟩, 0, 0, 0, false, [0x26, 1, 0xAC] ++ zeros 58, ((idrSlice ([0x26, 1, 0xAC] ++ zeros 58)).map (·.2.2)).getD [], by decide +kernel⟩

theorem witness_ReplayCommandsComplete_3 : ∃ (s : State) (r : Req) (arg : Nat),
    s.c.reaches r Obj.decode_stop (le 1 arg) ∧
    s.c.cmdBusy Obj.decode = true ∧
    s.c.recorder.replay.isSome = true :=
  ⟨stateOf (replayCtl [] replayOf), req, 0, by unfold Ctl.reaches; decide +kernel⟩

theorem witness_CameraCommandsComplete_1 : ∃ (s : State) (r : Req) (k : Nat),
    k < 4 ∧
    s.c.reaches r (Obj.camera_enable k) (le 1 1) ∧
    s.c.camOn k = false ∧
    s.c.camCode k (s.c.nat (Obj.measurement k)) (s.c.oct (Obj.crop_ring k)) (s.c.oct (Obj.record_view k))
      (s.c.oct (Obj.monitor_view k)) = 0 :=
  ⟨stateOf (camCtl [] Camera.reset), req, 1, by unfold Ctl.reaches; decide +kernel⟩

theorem witness_CameraCommandsComplete_2 : ∃ (s : State) (r : Req) (k : Nat),
    k < 4 ∧
    s.c.reaches r (Obj.camera_enable k) (le 1 0) ∧
    s.c.camOn k = true :=
  ⟨stateOf (camCtl [(Obj.camera_enable 1, 1), (Obj.camera_state 1, 3), (Obj.tx_state 4, 2), (Obj.measurement 1, 1), (Obj.align_state 1, 2)] (shot (exposure []))), req, 1, by unfold Ctl.reaches; decide +kernel⟩

theorem witness_CameraCommandsComplete_3 : ∃ (s : State) (r : Req) (k sub : Nat) (v : List Byte),
    k < 4 ∧
    2 ≤ sub ∧
    sub ≤ 4 ∧
    s.c.reaches r (Obj.measurement k + (sub - 1)) v ∧
    s.c.camOn k = false ∧
    (sub = 2 → s.c.viewStreams k = false) ∧
    ((sub = 2 ∨ sub = 4 → s.c.viewOk k (sub == 2) v = true)) ∧
    ((sub = 3 ∨ sub = 4 → Ctl.areasBreak s.c (s.c.putO (Obj.measurement k + (sub - 1)) v)
      (Obj.measurement k + (sub - 1)) = false)) :=
  ⟨stateOf (camCtl [(Obj.tile_width 4, 1000)] Camera.reset), req, 1, 4, monitorView, by unfold Ctl.reaches; decide +kernel⟩

theorem witness_CameraCommandsComplete_4 : ∃ (s : State) (r : Req) (k : Nat) (v : List Byte),
    k < 4 ∧
    s.c.reaches r (Obj.measurement k) v ∧
    ((s.c.camOn k = false ∨ fld v 0 1 = 0)) :=
  ⟨stateOf (camCtl [] Camera.reset), req, 1, [2], by unfold Ctl.reaches; decide +kernel⟩

theorem witness_CameraCommandsComplete_5 : ∃ (s : State) (r : Req) (i : Nat) (v : List Byte),
    i < 16 ∧
    s.c.reaches r (Obj.flat_field i) v :=
  ⟨stateOf (camCtl [(Obj.attic_state, 2)] Camera.reset), req, 4, zeros 33280, by unfold Ctl.reaches; decide +kernel⟩

theorem witness_CameraCommandsComplete_6 : ∃ (s : State) (f : CamFrame) (k tag : Nat) (p : List Byte),
    f.camera = k ∧
    camSends s.c f 0xC3 tag 0 p ∧
    statusPayloadOk p = true ∧
    s.c.camState k = 1 ∧
    s.c.bridgeFault k p = 0 ∧
    s.c.camLanesUp k = true :=
  ⟨stateOf (camCtl [(Obj.camera_state 1, 1), (Obj.rx_state 4, 5)] Camera.reset), camFrameOf 0xC3 5 0 (zeros 16), 1, 5, zeros 16, by decide +kernel⟩

theorem witness_FurtherImageCases_6 : ∃ (s : State) (f : CamFrame) (k tag : Nat) (p : List Byte),
    f.camera = k ∧
    camSends s.c f 0xC3 tag 0 p ∧
    statusPayloadOk p = true ∧
    1 ≤ s.c.camState k ∧
    s.c.camState k ≤ 3 ∧
    s.c.bridgeFault k p ≠ 0 :=
  ⟨stateOf (camCtl [(Obj.camera_state 1, 3), (Obj.align_state 1, 2)] (shot (exposure []))), camFrameOf 0xC3 5 0 ([128] ++ zeros 15), 1, 5, [128] ++ zeros 15, by decide +kernel⟩

theorem witness_CameraCommandsComplete_7 : ∃ (s : State) (k : Nat),
    k < 4 ∧
    2 ≤ s.c.camState k ∧
    s.c.camState k ≤ 3 ∧
    s.c.statusStale k = true :=
  ⟨stateOf { camCtl [(Obj.camera_state 1, 3), (Obj.align_state 1, 2)] (shot (exposure [])) with now := 2 ^ 40 }, 1, by decide +kernel⟩

theorem witness_CameraCommandsComplete_8 : ∃ (s : State) (k x : Nat),
    k < 4 ∧
    s.c.camState k = 4 ∧
    (s.c.cam k).clearAt = some x ∧
    x + 10000000 ≤ s.c.now ∧
    s.c.statusStale k = false ∧
    s.c.camLanesUp k = true :=
  ⟨stateOf { camCtl [(Obj.camera_state 1, 4), (Obj.rx_state 4, 5), (Obj.align_state 1, 2)] { Camera.reset with clearAt := some 5, statusAt := some (2 ^ 40) } with now := 2 ^ 40 }, 1, 5, by decide +kernel⟩

theorem witness_CameraCommandsComplete_9 : ∃ (s : State) (r : Req) (k : Nat) (v : List Byte),
    k < 4 ∧
    s.c.reaches r (Obj.cci_transfer k) v ∧
    ((s.c.camState k = 2 ∨ s.c.camState k = 3)) :=
  ⟨stateOf (camCtl [(Obj.camera_state 1, 3), (Obj.tx_state 4, 1)] Camera.reset), req, 1, [0, 0, 16, 1, 0, 0, 1, 0] ++ zeros 32, by unfold Ctl.reaches; decide +kernel⟩

theorem witness_CameraCommandsComplete_10 : ∃ (s : State) (f : CamFrame) (k tag : Nat) (p : List Byte),
    f.camera = k ∧
    camSends s.c f 0xC2 tag 0 p ∧
    p.length = 36 ∧
    fld p 2 2 = 0 ∧
    s.c.cmdBusy (Obj.cci_transfer k) = true ∧
    fld p 0 1 = 0 :=
  ⟨stateOf (camCtl [(Obj.cci_transfer 1, 2 ^ 24), (Obj.camera_state 1, 3)] Camera.reset), camFrameOf 0xC2 5 0 ([0, 5] ++ zeros 34), 1, 5, [0, 5] ++ zeros 34, by decide +kernel⟩

theorem witness_FurtherImageCases_7 : ∃ (s : State) (f : CamFrame) (k tag : Nat) (p : List Byte),
    f.camera = k ∧
    camSends s.c f 0xC2 tag 0 p ∧
    p.length = 36 ∧
    fld p 2 2 = 0 ∧
    s.c.cmdBusy (Obj.cci_transfer k) = true ∧
    fld p 0 1 = 1 :=
  ⟨stateOf (camCtl [(Obj.cci_transfer 1, 2 ^ 24), (Obj.camera_state 1, 3)] Camera.reset), camFrameOf 0xC2 5 0 ([1, 5] ++ zeros 34), 1, 5, [1, 5] ++ zeros 34, by decide +kernel⟩

theorem witness_CameraCommandsComplete_11 : ∃ (s : State) (k : Nat),
    k < 4 ∧
    s.c.cmdBusy (Obj.cci_transfer k) = true ∧
    (s.c.cam k).cciAt + 10000000 ≤ s.c.now :=
  ⟨stateOf { camCtl [(Obj.cci_transfer 1, 2 ^ 24)] Camera.reset with now := 2 ^ 40 }, 1, by decide +kernel⟩

theorem witness_CameraCommandsComplete_12 : ∃ (s : State) (k l : Nat),
    k < 4 ∧
    s.c.camState k = 2 ∧
    s.c.nat (Obj.idle_sleep k) ≠ 0 ∧
    s.c.cmdBusy (Obj.cci_transfer k) = false ∧
    (s.c.cam k).downAt + s.c.nat (Obj.idle_sleep k) * 1000000 ≤ s.c.now ∧
    s.c.bondLane k = some l ∧
    s.c.tx l = 2 :=
  ⟨stateOf { camCtl [(Obj.camera_state 1, 2), (Obj.tx_state 4, 2), (Obj.idle_sleep 1, 10)] Camera.reset with now := 2 ^ 40 }, 1, 4, by decide +kernel⟩

theorem witness_CameraCommandsComplete_13 : ∃ (s : State) (k : Nat) (v : List Byte) (w : Int),
    k < 4 ∧
    s.c.camState k = 2 ∧
    (s.c.cam k).monitor = v ∧
    (s.c.cam k).outOn = true ∧
    viewOn v = true ∧
    (s.c.cam k).monitorAt < s.c.frameIndex (viewRate v) ∧
    s.c.cellarUp = true ∧
    s.c.rangeFrozen (viewBase v + (s.c.cam k).frames % max 1 (viewFrames v) * monitorSlotBytes v) (monitorSlotBytes v) =
      false ∧
    s.c.viewRow0 k v = some w :=
  ⟨stateOf (let c := camCtl [(Obj.camera_state 1, 2)] { Camera.reset with outOn := true, monitor := monitorView, strip := (List.range 100).map stripRow }; { c with clock := { c.clock with sub := 2 ^ 62 } }), 1, monitorView, 63 * 256, by decide +kernel⟩

theorem witness_ExposuresComplete_1 : ∃ (s : State) (k x : Nat) (late : Bool),
    k < 4 ∧
    s.c.camState k = 3 ∧
    s.c.exposureCentre k 16 = some (x, late) ∧
    s.c.downAsleep k = false ∧
    s.c.downQuiet k = false ∧
    s.c.startsNow k x = true ∧
    s.c.nat (Obj.exposures k) < 2 ^ 32 - 1 :=
  ⟨stateOf (let c := camCtl [(Obj.camera_state 1, 3), (Obj.position_valid, 1)] { Camera.reset with number := 8 }; { c with now := 10 ^ 6, pos := { strobeCtl.pos with ticks := ⟨900, 1⟩ } }), 1, 0, false, by decide +kernel⟩

theorem witness_ExposuresComplete_2 : ∃ (s : State) (k n : Nat),
    k < 4 ∧
    cropInside s.c k :=
  ⟨stateOf (camCtl [(Obj.camera_state 1, 3)] { shot { exposure [⟨0, false, [(3, [1, 2, 3, 4, 5, 6, 7, 8])], 64, [], []⟩] with measured := some 7000 } with crop := le 8 (2 ^ 22) ++ le 8 65536 ++ [0, 1] ++ zeros 6 }), 1, 9, by unfold cropInside; decide +kernel⟩

theorem witness_FurtherImageCases_8 : ∃ (s : State) (g : CamFrame) (k tag aux : Nat) (b : List Byte),
    g.camera = k ∧
    camSends s.c g 0xC1 tag aux b ∧
    aux / 4 % 4096 = 0 ∧
    (s.c.cam k).csiSeq = none ∧
    (s.c.cam k).packet = none ∧
    bit aux 15 = true ∧
    bit aux 14 = true ∧
    b.length - aux % 4 < 4 ∧
    ((∀ e ∈ (s.c.cam k).exposures, e.tag = none)) ∧
    s.c.nat (Obj.packets_bad k) < 2 ^ 32 - 1 :=
  ⟨stateOf (camCtl [(Obj.camera_state 1, 3)] Camera.reset), camFrameOf 0xC1 77 (2 ^ 15 + 2 ^ 14 + 1) [1, 2, 3, 0], 1, 77, 2 ^ 15 + 2 ^ 14 + 1, [1, 2, 3, 0], by decide +kernel⟩

theorem witness_ExposuresComplete_3 : ∃ (s : State) (g : CamFrame) (k v n tag h : Nat) (b : List Byte) (e : Exposure),
    g.camera = k ∧
    camSends s.c g 0xC1 tag 0xC000 b ∧
    (s.c.cam k).csiSeq = none ∧
    (s.c.cam k).packet = none ∧
    4 ≤ b.length ∧
    csiHeader (fld b 0 4) = some h ∧
    v < 4 ∧
    n < 65536 ∧
    h = n * 256 + v * 64 ∧
    s.c.openFrame k v = none ∧
    (s.c.cam k).exposures = [e] ∧
    e.tag = none ∧
    e.number = n ∧
    e.outstanding v = true ∧
    s.c.frameLate k e = false :=
  ⟨stateOf (camCtl [(Obj.camera_state 1, 3), (Obj.frame_timeout 1, 500)] (shot (exposure []))), camFrameOf 0xC1 77 0xC000 (csiHead (9 * 256)), 1, 0, 9, 77, 9 * 256, csiHead (9 * 256), exposure [], by decide +kernel⟩

theorem witness_FurtherImageCases_9 : ∃ (s : State) (g : CamFrame) (k v tag aux h : Nat) (b : List Byte) (e : Exposure) (f : SensorFrame),
    g.camera = k ∧
    camSends s.c g 0xC1 tag aux b ∧
    aux / 4 = 0x3000 ∧
    (s.c.cam k).csiSeq = none ∧
    (s.c.cam k).packet = none ∧
    4 ≤ b.length ∧
    csiHeader (fld b 0 4) = some h ∧
    v < 4 ∧
    h = h / 256 * 256 + v * 64 + s.c.nat (Obj.data_type (4 * k + v)) ∧
    h < 2 ^ 24 ∧
    ((s.c.nat (Obj.data_type (4 * k + v)) = 0x2A ∨ s.c.nat (Obj.data_type (4 * k + v)) = 0x2C)) ∧
    (s.c.cam k).exposures = [e] ∧
    e.tag = none ∧
    s.c.openFrame k v = some (e, f) ∧
    e.frames = [f] ∧
    f.packets < s.c.nat (Obj.sensor_rows (4 * k + v)) ∧
    s.c.slowestRow k v e = none ∧
    h / 256 * 8 = s.c.nat (Obj.tile_width (4 * k + v)) * rawBits (s.c.nat (Obj.data_type (4 * k + v))) ∧
    b.length = h / 256 + 6 + aux % 4 ∧
    csiChecksum (slice b 4 (h / 256)) = fld b (4 + h / 256) 2 :=
  ⟨stateOf (camCtl [(Obj.camera_state 1, 3)] (shot (exposure [⟨0, true, [], 2, [], []⟩]))), camFrameOf 0xC1 77 0xC002 (csiRow ++ zeros 2), 1, 0, 77, 0xC002, 8 * 256 + 0x2A, csiRow ++ zeros 2, exposure [⟨0, true, [], 2, [], []⟩], ⟨0, true, [], 2, [], []⟩, by decide +kernel⟩

theorem witness_ExposuresComplete_4 : ∃ (s : State) (k v : Nat) (e : Exposure),
    k < 4 ∧
    v < 4 ∧
    (s.c.cam k).exposures = [e] ∧
    e.outstanding v = true ∧
    e.tag = none ∧
    s.c.frameLate k e = true ∧
    s.c.nat (Obj.rows_missing k) + s.c.nat (Obj.sensor_rows (4 * k + v)) < 2 ^ 32 :=
  ⟨stateOf { camCtl [(Obj.camera_state 1, 3), (Obj.frame_timeout 1, 5)] (shot (exposure [])) with now := 2 ^ 40 }, 1, 0, exposure [], by decide +kernel⟩

theorem witness_ExposuresComplete_5 : ∃ (s : State) (x : Ticket) (b line k : Nat),
    k < 4 ∧
    b < 8 ∧
    s.c.adm.tickets = [x] ∧
    s.c.inspectDue x b line k = true ∧
    s.c.cameraAt x line k ≤ s.c.pp ∧
    s.mach.bandStalls x.map b (line / 256) = false ∧
    s.c.cellarUp = true :=
  ⟨{ State.reset with mach := ⟨inspectCtl, pageCellar⟩ }, pageTicket, 0, 0, 1, by decide +kernel⟩

theorem witness_HeadCommandsComplete_1 : ∃ (s : State) (r : Req) (ch arg : Nat),
    ch < 16 ∧
    s.c.reaches r (Obj.discover_chain ch) (le 1 arg) ∧
    ((∀ h ∈ headsOfChain ch, s.c.headState h ≠ 2)) ∧
    ((∀ x ∈ s.c.adm.tickets, (s.c.chainBar ch).map (bit x.bars) ≠ some true)) :=
  ⟨stateOf (chainCtl [] [] ChainMgr.reset), req, 3, 0, by unfold Ctl.reaches; decide +kernel⟩

theorem witness_HeadCommandsComplete_2 : ∃ (s : State) (r : Req) (h arg : Nat),
    h < 256 ∧
    s.c.reaches r (Obj.head_in h) (le 1 arg) ∧
    s.c.headInCode h = St.OK :=
  ⟨stateOf (chainCtl [(Obj.head_state 0x34, 1)] [] ChainMgr.reset), req, 0x34, 0, by unfold Ctl.reaches; decide +kernel⟩

theorem witness_HeadCommandsComplete_3 : ∃ (s : State) (r : Req) (ch arg : Nat),
    ch < 16 ∧
    s.c.reaches r (Obj.heads_in ch) (le 1 arg) ∧
    s.c.chainBar ch ≠ none :=
  ⟨stateOf (chainCtl [] [] ChainMgr.reset), req, 3, 0, by unfold Ctl.reaches; decide +kernel⟩

theorem witness_HeadCommandsComplete_4 : ∃ (s : State) (r : Req) (h arg : Nat),
    h < 256 ∧
    s.c.reaches r (Obj.head_out h) (le 1 arg) ∧
    s.c.headState h = 2 :=
  ⟨stateOf (chainCtl [(Obj.head_state 0x34, 2)] [] ChainMgr.reset), req, 0x34, 0, by unfold Ctl.reaches; decide +kernel⟩

theorem witness_HeadCommandsComplete_5 : ∃ (s : State) (h n x : Nat),
    h < 256 ∧
    (s.c.headMgr h).leaving = some (n, x) ∧
    s.c.firedOut h = true :=
  ⟨stateOf (chainCtl [(Obj.head_state 0x34, 2), (Obj.head_out 0x34, 2 ^ 24)] [(0x34, { HeadMgr.reset with leaving := some (0, 0) })] ChainMgr.reset), 0x34, 0, 0, by decide +kernel⟩

theorem witness_HeadCommandsComplete_6 : ∃ (s : State) (r : Req) (h arg : Nat),
    h < 256 ∧
    s.c.reaches r (Obj.challenge_usage h) (le 1 arg) ∧
    recAuth (s.c.oct (Obj.capability h)) = true :=
  ⟨stateOf ((chainCtl [(Obj.head_state 0x34, 1)] [] ChainMgr.reset).putO (Obj.capability 0x34) capRecord), req, 0x34, 0, by unfold Ctl.reaches; decide +kernel⟩

theorem witness_FurtherLinkCases_1 : ∃ (s : State) (r : Req) (h arg : Nat),
    h < 256 ∧
    s.c.reaches r (Obj.challenge_usage h) (le 1 arg) ∧
    recAuth (s.c.oct (Obj.capability h)) = false :=
  ⟨stateOf (chainCtl [(Obj.head_state 0x34, 1)] [] ChainMgr.reset), req, 0x34, 0, by unfold Ctl.reaches; decide +kernel⟩

theorem witness_HeadCommandsComplete_7 : ∃ (s : State) (ch b g : Nat) (x : ShelfLine) (u : Ticket),
    ch < 16 ∧
    g < 4 ∧
    s.c.chainBar ch = some b ∧
    (s.c.care.shelf.find? fun y => y.bar == b && y.count == x.count) = some x ∧
    kvGet false x.sent (4 * ch + g) = false ∧
    ((s.c.chainState ch = 2 ∨ s.c.chainState ch = 3)) ∧
    s.c.strobePage x.ticket = some u ∧
    s.c.groupAt (u.place + 64 * x.line) b g ≤ s.c.pp + 48 * 64 :=
  ⟨stateOf (let c := chainCtl [(Obj.chain_state 3, 2), (Obj.head_state 0x34, 2)] [] ChainMgr.reset; { c.putO (Obj.capability 0x34) capRecord with adm := { c.adm with tickets := [strobeTicket] }, care := { c.care with shelf := [shelfLine] } }), 3, 2, 0, shelfLine, strobeTicket, by decide +kernel⟩

theorem witness_HeadMessagesComplete_1 : ∃ (s : State) (m : HeadFrame) (h : Nat) (b : List Byte),
    headSends s.c m 0x81 h 0 b ∧
    statusOk 0 b = true ∧
    s.c.headState h = 1 ∧
    bit (fld b 0 2) 11 = false ∧
    bit (fld b 0 2) 10 = false ∧
    bit (s.c.nat (Obj.status_flags h)) 13 = false :=
  ⟨stateOf (chainCtl [(Obj.head_state 0x34, 1), (Obj.status_flags 0x34, 0)] [] ChainMgr.reset), headFrame 0x81 0 0 ([0, 0x01] ++ le 2 300 ++ [1, 0, 2, 0, 3, 0, 4, 0] ++ zeros 12), 0x34, [0, 0x01] ++ le 2 300 ++ [1, 0, 2, 0, 3, 0, 4, 0] ++ zeros 12, by decide +kernel⟩

theorem witness_FurtherLinkCases_2 : ∃ (s : State) (m : HeadFrame) (h : Nat) (b : List Byte),
    headSends s.c m 0x81 h 0 b ∧
    statusOk 0 b = true ∧
    s.c.headState h = 2 ∧
    bit (fld b 0 2) 15 = true ∧
    bit (fld b 0 2) 11 = false ∧
    bit (fld b 0 2) 10 = false :=
  ⟨stateOf (chainCtl [(Obj.head_state 0x34, 2)] [] ChainMgr.reset), headFrame 0x81 0 0 ([0, 0x80] ++ le 2 300 ++ [1, 0, 2, 0, 3, 0, 4, 0] ++ zeros 12), 0x34, [0, 0x80] ++ le 2 300 ++ [1, 0, 2, 0, 3, 0, 4, 0] ++ zeros 12, by decide +kernel⟩

theorem witness_HeadMessagesComplete_2 : ∃ (s : State) (m : HeadFrame) (h aux : Nat),
    headSends s.c m 0x86 h aux [] ∧
    aux < 4 ∧
    ((s.c.headState h = 1 ∨ s.c.headState h = 2 ∨ s.c.headState h = 4)) ∧
    (s.c.headMgr h).missed = [] ∧
    s.c.nat (Obj.lines_missing h) < 2 ^ 32 - 1 :=
  ⟨stateOf (chainCtl [(Obj.head_state 0x34, 1)] [] ChainMgr.reset), headFrame 0x86 7 1 [], 0x34, 1, by decide +kernel⟩

theorem witness_HeadMessagesComplete_3 : ∃ (s : State) (m : HeadFrame) (ch : Nat) (b : List Byte),
    s.c.chainOfLane m.lane = some (ch, true) ∧
    frameOk m.bytes = true ∧
    frameType m.bytes = 0x83 ∧
    framePayload m.bytes = b ∧
    b.length = 16 ∧
    zeroAt b 11 5 = true ∧
    ((frameAddress m.bytes < 16 ∨ frameAddress m.bytes = 0x1F)) ∧
    (s.c.mgr ch).stage = 2 :=
  ⟨stateOf (chainCtl [] [] { ChainMgr.reset with stage := 2 }), headFrame 0x83 0 0 (le 8 77 ++ le 2 7 ++ zeros 6), 3, le 8 77 ++ le 2 7 ++ zeros 6, by decide +kernel⟩

theorem witness_HeadMessagesComplete_4 : ∃ (s : State) (m : HeadFrame) (h : Nat) (b : List Byte),
    headSends s.c m 0x82 h 0 b ∧
    b.length = 128 ∧
    (s.c.headMgr h).asked = .capability ∧
    recordOk b (s.c.nat (Obj.chain_mode (chainOf h)) == 1) = true ∧
    ((s.c.nat (Obj.expected_serial h) = 0 ∨ s.c.nat (Obj.expected_serial h) = fld b 4 8)) ∧
    recAuth b = true :=
  ⟨stateOf (chainCtl [(Obj.head_state 0x34, 6)] [(0x34, { HeadMgr.reset with asked := .capability })] ChainMgr.reset), headFrame 0x82 0 0 capRecord, 0x34, capRecord, by decide +kernel⟩

theorem witness_HeadMessagesComplete_5 : ∃ (s : State) (m : HeadFrame) (h : Nat),
    headSends s.c m 0x85 h 0 [] ∧
    (s.c.headMgr h).asked = .config 0 ∧
    (s.c.mgr (chainOf h)).stage ≠ 4 :=
  ⟨stateOf (chainCtl [] [(0x34, { HeadMgr.reset with asked := .config 0 })] ChainMgr.reset), headFrame 0x85 0 0 [], 0x34, by decide +kernel⟩

theorem witness_FurtherLinkCases_3 : ∃ (s : State) (m : HeadFrame) (h : Nat),
    headSends s.c m 0x85 h 0 [] ∧
    (s.c.headMgr h).asked = .config 1 ∧
    s.c.backFull h = false :=
  ⟨stateOf (chainCtl [(Obj.head_state 0x34, 1)] [(0x34, { HeadMgr.reset with asked := .config 1 })] ChainMgr.reset), headFrame 0x85 0 0 [], 0x34, by decide +kernel⟩

theorem witness_HeadMessagesComplete_6 : ∃ (s : State) (m : HeadFrame) (h : Nat) (b : List Byte),
    headSends s.c m 0x84 h 0 b ∧
    b.length = 112 ∧
    zeroAt b 28 4 = true ∧
    (s.c.headMgr h).usage = some 1 :=
  ⟨stateOf (chainCtl [(Obj.challenge_usage 0x34, 2 ^ 24)] [(0x34, { HeadMgr.reset with usage := some 1 })] ChainMgr.reset), headFrame 0x84 0 0 (List.replicate 28 1 ++ zeros 84), 0x34, List.replicate 28 1 ++ zeros 84, by decide +kernel⟩

theorem witness_HeadMessagesComplete_7 : ∃ (s : State) (h : Nat),
    h < 256 ∧
    (s.c.headMgr h).asked = .capability ∧
    (s.c.headMgr h).askedAt + 1000000 ≤ s.c.now ∧
    (s.c.mgr (chainOf h)).stage ≠ 4 :=
  ⟨stateOf { chainCtl [] [(0x34, { HeadMgr.reset with asked := .capability })] ChainMgr.reset with now := 2 ^ 40 }, 0x34, by decide +kernel⟩

theorem witness_FurtherLinkCases_4 : ∃ (s : State) (h : Nat),
    h < 256 ∧
    (s.c.headMgr h).asked = .nothing ∧
    (s.c.headMgr h).usage = some 1 ∧
    (s.c.headMgr h).usageAt + 2000000 ≤ s.c.now :=
  ⟨stateOf { chainCtl [(Obj.challenge_usage 0x34, 2 ^ 24)] [(0x34, { HeadMgr.reset with usage := some 1 })] ChainMgr.reset with now := 2 ^ 40 }, 0x34, by decide +kernel⟩

theorem witness_HeadMessagesComplete_8 : ∃ (s : State) (h : Nat),
    h < 256 ∧
    (s.c.headMgr h).statusAt + s.c.nat (Obj.head_timeout (chainOf h)) * 1000 ≤ s.c.now ∧
    ((s.c.headState h = 1 ∨ s.c.headState h = 2 ∨ s.c.headState h = 4 ∨ s.c.headState h = 6)) :=
  ⟨stateOf { chainCtl [(Obj.head_state 0x34, 2)] [] ChainMgr.reset with now := 2 ^ 40 }, 0x34, by decide +kernel⟩

theorem witness_HeadMessagesComplete_9 : ∃ (s : State) (ch : Nat),
    ch < 16 ∧
    s.c.chainState ch = 2 ∧
    (s.c.mgr ch).stage = 0 :=
  ⟨stateOf (chainCtl [(Obj.chain_state 3, 2)] [] ChainMgr.reset), 3, by decide +kernel⟩

theorem witness_FurtherLinkCases_5 : ∃ (s : State) (ch : Nat),
    ch < 16 ∧
    s.c.chainState ch = 1 ∧
    (s.c.mgr ch).stage = 2 ∧
    (s.c.mgr ch).discoverAt + 1000000 ≤ s.c.now ∧
    s.c.folded ch = false ∧
    (s.c.mgr ch).replies = [] :=
  ⟨stateOf { chainCtl [(Obj.chain_state 3, 1), (Obj.discover_chain 3, 2 ^ 24)] [] { ChainMgr.reset with stage := 2 } with now := 2 ^ 40 }, 3, by decide +kernel⟩

theorem witness_HeadMessagesComplete_10 : ∃ (s : State) (ch x : Nat),
    ch < 16 ∧
    (s.c.mgr ch).healFrom = some x ∧
    x + s.c.nat Obj.heal_hold * 1000000 ≤ s.c.now ∧
    s.c.breaks ch = [] :=
  ⟨stateOf { chainCtl [(Obj.chain_state 3, 3), (Obj.split_after 3, 4), (Obj.heal_hold, 1)] [] { ChainMgr.reset with healFrom := some 0 } with now := 2 ^ 40 }, 3, 0, by decide +kernel⟩

theorem witness_HeadMessagesComplete_11 : ∃ (s : State) (ch : Nat),
    ch < 16 ∧
    s.c.on Obj.hot_discovery = true ∧
    s.c.chainState ch = 2 ∧
    (s.c.mgr ch).stage = 0 ∧
    (s.c.mgr ch).discoverAt + 100000000 ≤ s.c.now :=
  ⟨stateOf { chainCtl [(Obj.chain_state 3, 2), (Obj.hot_discovery, 1)] [] { ChainMgr.reset with portUp := true } with now := 2 ^ 40 }, 3, by decide +kernel⟩

theorem witness_LaneTrainingCompletes_1 : ∃ (s : State) (q : Nat),
    q < 8 ∧
    s.c.nat (Obj.quad_state q) = 1 ∧
    16 ≤ kvGet 0 s.c.pwr.runs (12 + q) :=
  ⟨stateOf (let c := laneCtl [(Obj.quad_state 1, 1)] []; { c with pwr := { c.pwr with runs := [(13, 16)] } }), 1, by decide +kernel⟩

theorem witness_LaneTrainingCompletes_2 : ∃ (s : State) (l : Nat),
    l < 32 ∧
    s.c.rx l = 2 :=
  ⟨stateOf (laneCtl [(Obj.rx_state 6, 2)] []), 6, by decide +kernel⟩

theorem witness_LaneTrainingCompletes_3 : ∃ (s : State) (l hop : Nat) (ps : List Nat),
    l < 32 ∧
    hop < 256 ∧
    s.c.rx l = 3 ∧
    (alignWords ps).bind (fun a => lastHop a.1) = some hop :=
  ⟨stateOf (laneCtl [(Obj.rx_state 6, 3)] []), 6, 5, idles 5 4, by decide +kernel⟩

theorem witness_FurtherLinkCases_6 : ∃ (s : State) (l q : Nat),
    l < 32 ∧
    q < 256 ∧
    s.c.aligned l = true ∧
    ((∀ j ∈ s.c.lanesWith l, (s.c.lane j).retraining = false)) :=
  ⟨stateOf (laneCtl [(Obj.rx_state 6, 5)] []), 6, 0, by decide +kernel⟩

theorem witness_LaneTrainingCompletes_4 : ∃ (s : State) (l target q j : Nat),
    l < 32 ∧
    target < 255 ∧
    q < 128 ∧
    s.c.aligned l = true ∧
    s.c.ownerOf l target = some j ∧
    (s.c.lane j).applied.all (fun p => p.1 != bit q 6) = true :=
  ⟨stateOf (laneCtl [(Obj.rx_state 6, 5), (Obj.tx_state 6, 2), (Obj.tx_taps 6, 2 ^ 16)] []), 6, 0, 4, 6, by decide +kernel⟩

theorem witness_FurtherLinkCases_7 : ∃ (s : State) (l target q j : Nat),
    l < 32 ∧
    target < 255 ∧
    q < 128 ∧
    s.c.aligned l = true ∧
    s.c.ownerOf l target = none ∧
    ((∀ x ∈ s.c.lanesWith l, s.c.ownTarget x ≠ target)) ∧
    s.c.relayLane l = some j :=
  ⟨stateOf (laneCtl [(Obj.rx_state 6, 5), (Obj.hop_received 6, 2)] []), 6, 33, 4, 6, by decide +kernel⟩

theorem witness_FurtherLinkCases_8 : ∃ (s : State) (l target q : Nat),
    l < 32 ∧
    target < 255 ∧
    128 ≤ q ∧
    q < 256 ∧
    s.c.aligned l = true ∧
    s.c.ownerOf l target = none ∧
    l ∈ s.c.lanesWith l :=
  ⟨stateOf (laneCtl [(Obj.rx_state 6, 4)] []), 6, 2, 128, by decide +kernel⟩

theorem witness_LaneTrainingCompletes_5 : ∃ (s : State) (l q status : Nat),
    l < 32 ∧
    status < 4 ∧
    s.c.rx l = 4 ∧
    (s.c.lane l).request = some q ∧
    l ∈ s.c.lanesWith l :=
  ⟨stateOf (laneCtl [(Obj.rx_state 6, 4)] [(6, { Lane.reset with request := some 4 })]), 6, 4, 0, by decide +kernel⟩

theorem witness_LaneTrainingCompletes_6 : ∃ (s : State) (l : Nat),
    l < 32 ∧
    s.c.rx l = 4 ∧
    (s.c.lane l).trained = false ∧
    (s.c.lane l).alignedAt + 6000000 ≤ s.c.now ∧
    s.c.nat (Obj.train_timeouts l) < 2 ^ 32 - 1 :=
  ⟨stateOf { laneCtl [(Obj.rx_state 6, 4)] [] with now := 2 ^ 40 }, 6, by decide +kernel⟩

theorem witness_LaneEventsComplete_1 : ∃ (s : State) (l : Nat) (ps : List Nat),
    l < 32 ∧
    s.c.aligned l = true ∧
    ((s.c.takeSymbols l ps).lane l).rxCode.errors = 4 ∧
    s.c.nat (Obj.align_losses l) < 2 ^ 32 - 1 :=
  ⟨stateOf (laneCtl [(Obj.rx_state 6, 5)] []), 6, List.replicate 40 0, by decide +kernel⟩

theorem witness_LaneEventsComplete_2 : ∃ (s : State) (l : Nat) (k : Bool),
    l < 32 ∧
    2 ≤ s.c.rx l ∧
    s.c.rx l ≤ 6 ∧
    s.c.nat (Obj.los_events l) < 2 ^ 32 - 1 ∧
    s.c.nat (Obj.lol_events l) < 2 ^ 32 - 1 :=
  ⟨stateOf (laneCtl [(Obj.rx_state 6, 3)] []), 6, false, by decide +kernel⟩

theorem witness_LaneEventsComplete_3 : ∃ (s : State) (l : Nat) (ps : List Nat),
    l < 32 ∧
    s.c.rx l = 7 ∧
    s.c.nat (Obj.quad_state (l / 4)) = 2 ∧
    s.c.losClear l = true ∧
    (alignWords ps).isSome = true ∧
    s.c.nat (Obj.lane_down_reason l) = 4 :=
  ⟨stateOf (laneCtl [(Obj.rx_state 6, 7), (Obj.lane_down_reason 6, 4)] []), 6, idles 5 4, by decide +kernel⟩

theorem witness_FurtherLinkCases_9 : ∃ (s : State) (l : Nat) (ps : List Nat),
    l < 32 ∧
    s.c.rx l = 7 ∧
    s.c.nat (Obj.quad_state (l / 4)) = 2 ∧
    s.c.losClear l = true ∧
    (alignWords ps).isSome = true ∧
    s.c.nat (Obj.lane_down_reason l) ≠ 4 :=
  ⟨stateOf (laneCtl [(Obj.rx_state 6, 7), (Obj.chain_state 3, 3), (Obj.lane_down_reason 6, 2)] []), 6, idles 5 4, by decide +kernel⟩

theorem witness_LaneEventsComplete_4 : ∃ (s : State) (l : Nat),
    l < 32 ∧
    s.c.tx l = 2 ∧
    s.c.skipDue l = true ∧
    s.c.triggerNear l = false :=
  ⟨stateOf { laneCtl [(Obj.tx_state 6, 2)] [] with now := 2 ^ 40 }, 6, by decide +kernel⟩

theorem witness_LaneEventsComplete_5 : ∃ (s : State) (l held : Nat),
    l < 32 ∧
    s.c.aligned l = true ∧
    0 < held ∧
    held < 64 ∧
    s.c.camOfLane l = none :=
  ⟨stateOf (laneCtl [(Obj.rx_state 6, 5)] []), 6, 41, by decide +kernel⟩

theorem witness_FurtherLinkCases_10 : ∃ (s : State) (l held k : Nat),
    l < 32 ∧
    s.c.aligned l = true ∧
    0 < held ∧
    held < 64 ∧
    s.c.camOfLane l = some k :=
  ⟨stateOf (camCtl [(Obj.rx_state 4, 5)] Camera.reset), 4, 30, 1, by decide +kernel⟩

theorem witness_FurtherLinkCases_11 : ∃ (s : State) (l held : Nat),
    l < 32 ∧
    s.c.aligned l = true ∧
    ((held = 0 ∨ 64 ≤ held)) ∧
    s.c.nat (Obj.elastic_overruns l) < 2 ^ 32 - 1 :=
  ⟨stateOf (laneCtl [(Obj.rx_state 9, 5)] []), 9, 64, by decide +kernel⟩

theorem witness_LaneEventsComplete_6 : ∃ (s : State) (l : Nat),
    l < 32 ∧
    s.c.aligned l = true :=
  ⟨stateOf (laneCtl [(Obj.rx_state 6, 6)] [(6, { Lane.reset with cal := some (laneCal 2) })]), 6, by decide +kernel⟩

theorem witness_LaneEventsComplete_7 : ∃ (s : State) (l : Nat) (ps : List Nat),
    l < 32 ∧
    s.c.rx l = 1 ∧
    (s.c.lane l).before = 5 ∧
    (alignWords ps).isSome = true :=
  ⟨stateOf (laneCtl [(Obj.rx_state 6, 1)] [(6, { Lane.reset with before := 5 })]), 6, idles 5 4, by decide +kernel⟩

theorem witness_LaneEventsComplete_8 : ∃ (s : State) (l x : Nat),
    l < 32 ∧
    s.c.rx l = 1 ∧
    (s.c.lane l).before ≠ 0 ∧
    (s.c.lane l).signalAt = some x ∧
    x + 100000 ≤ s.c.now ∧
    s.c.nat (Obj.align_losses l) < 2 ^ 32 - 1 :=
  ⟨stateOf { laneCtl [(Obj.rx_state 6, 1)] [(6, { Lane.reset with before := 5, signalAt := some 7 })] with now := 2 ^ 40 }, 6, 7, by decide +kernel⟩

theorem witness_LaneCommandsComplete_1 : ∃ (s : State) (r : Req) (l arg : Nat),
    l < 32 ∧
    arg ≤ 1 ∧
    s.c.reaches r (Obj.tx_sleep l) (le 1 arg) ∧
    s.c.chainRuns l = false :=
  ⟨stateOf (laneCtl [(Obj.tx_state 6, 2)] []), req, 6, 1, by unfold Ctl.reaches; decide +kernel⟩

theorem witness_LaneCommandsComplete_2 : ∃ (s : State) (r : Req) (l arg : Nat),
    l < 32 ∧
    s.c.reaches r (Obj.lane_role l) (le 1 arg) ∧
    arg ≤ 3 ∧
    (arg = 1 → 160 ≤ s.c.nat (Obj.quad_rate (l / 4))) ∧
    ((arg = s.c.role l ∨ s.c.laneInUse l = false)) :=
  ⟨stateOf (laneCtl [] []), req, 9, 1, by unfold Ctl.reaches; decide +kernel⟩

theorem witness_LaneCommandsComplete_3 : ∃ (s : State) (r : Req) (q arg : Nat),
    q < 8 ∧
    s.c.reaches r (Obj.quad_rate q) (le 2 arg) ∧
    arg < 2 ^ 16 ∧
    ((arg < 160 → ∀ l ∈ lanesOfQuad q, s.c.role l ≠ 1)) ∧
    ((∀ l ∈ lanesOfQuad q, s.c.chainRuns l = false ∧ s.c.camRuns l = false)) :=
  ⟨stateOf (laneCtl [(Obj.rx_state 9, 5)] []), req, 2, 80, by unfold Ctl.reaches; decide +kernel⟩

theorem witness_LaneCommandsComplete_4 : ∃ (s : State) (r : Req) (l arg : Nat),
    l < 32 ∧
    s.c.reaches r (Obj.retrain l) (le 1 arg) ∧
    s.c.chainRuns l = false ∧
    s.c.camRuns l = false ∧
    s.c.cmdBusy (Obj.calibrate_slicer l) = false :=
  ⟨stateOf (laneCtl [(Obj.rx_state 6, 5)] []), req, 6, 0, by unfold Ctl.reaches; decide +kernel⟩

theorem witness_LaneCommandsComplete_5 : ∃ (s : State) (r : Req) (l arg j : Nat),
    l < 32 ∧
    s.c.reaches r (Obj.calibrate_slicer l) (le 1 arg) ∧
    (s.c.calSpare l arg).toOption = some j ∧
    j < 32 :=
  ⟨stateOf (laneCtl [(Obj.rx_state 9, 5), (Obj.lane_role 11, 3)] []), req, 9, 0xFF, 11, by unfold Ctl.reaches; decide +kernel⟩

theorem witness_LaneCommandsComplete_6 : ∃ (s : State) (l : Nat) (k : LaneCal),
    l < 32 ∧
    (s.c.lane l).cal = some k ∧
    k.stage = 1 ∧
    k.spare < 256 ∧
    s.c.rateOf k.spare = s.c.rateOf l :=
  ⟨stateOf (laneCtl [(Obj.rx_state 6, 5)] [(6, { Lane.reset with cal := some (laneCal 1) })]), 6, laneCal 1, by decide +kernel⟩

theorem witness_LaneCommandsComplete_7 : ∃ (s : State) (l : Nat) (k : LaneCal) (th : List (List Nat)) (dfe : List (List Nat × List Nat)),
    l < 32 ∧
    (s.c.lane l).cal = some k ∧
    k.stage = 2 :=
  ⟨stateOf (laneCtl [(Obj.rx_state 6, 6)] [(6, { Lane.reset with cal := some (laneCal 2) })]), 6, laneCal 2, [[1, 2, 3, 4]], [], by decide +kernel⟩

theorem witness_LaneCommandsComplete_8 : ∃ (s : State) (l : Nat) (k : LaneCal),
    l < 32 ∧
    (s.c.lane l).cal = some k ∧
    k.stage = 3 :=
  ⟨stateOf (laneCtl [(Obj.rx_state 6, 6), (Obj.calibrate_slicer 6, 2 ^ 24), (Obj.cal_spare 6, 11)] [(6, { Lane.reset with cal := some (laneCal 3) })]), 6, laneCal 3, by decide +kernel⟩

theorem witness_LaneCommandsComplete_9 : ∃ (s : State) (l : Nat) (k : LaneCal),
    l < 32 ∧
    (s.c.lane l).cal = some k ∧
    k.stage = 3 ∧
    k.loadedAt + 1000000 ≤ s.c.now :=
  ⟨stateOf { laneCtl [(Obj.rx_state 6, 6), (Obj.calibrate_slicer 6, 2 ^ 24), (Obj.cal_spare 6, 11)] [(6, { Lane.reset with cal := some (laneCal 3) })] with now := 2 ^ 40 }, 6, laneCal 3, by decide +kernel⟩

theorem witness_LaneCommandsComplete_10 : ∃ (s : State) (l n : Nat) (k : LaneCal),
    l < 32 ∧
    (s.c.lane l).cal = some k ∧
    ((k.stage = 2 ∨ k.stage = 3)) :=
  ⟨stateOf (laneCtl [(Obj.rx_state 6, 6), (Obj.calibrate_slicer 6, 2 ^ 24), (Obj.cal_spare 6, 11)] [(6, { Lane.reset with cal := some (laneCal 2) })]), 6, 7, laneCal 2, by decide +kernel⟩

theorem witness_LaneCommandsComplete_11 : ∃ (s : State) (r : Req) (l arg : Nat),
    l < 32 ∧
    s.c.reaches r (Obj.clear_counters l) (le 1 arg) :=
  ⟨stateOf (laneCtl [(Obj.groups_received 6, 5), (Obj.train_timeouts 6, 7)] []), req, 6, 0, by unfold Ctl.reaches; decide +kernel⟩

theorem witness_SessionsComplete_1 : ∃ (s : State) (f : Frame),
    s.c.awake = true ∧
    headerOk 0x01 f = true ∧
    f.payload = [] ∧
    f.path = 2 :=
  ⟨stateOf awake, openFrame 2 [], by decide +kernel⟩

theorem witness_FurtherLinkCases_12 : ∃ (s : State) (f : Frame),
    s.c.awake = true ∧
    headerOk 0x01 f = true ∧
    f.payload = [] ∧
    f.path < 2 ∧
    s.c.rxFull f.path = false ∧
    s.c.queuedAt f.path + 1400 ≤ 65536 ∧
    s.c.discoverPayload.length ≤ 1000 :=
  ⟨stateOf awake, openFrame 1 [], by decide +kernel⟩

theorem witness_SessionsComplete_2 : ∃ (s : State) (f : Frame) (n : Nat) (rest : List Nat),
    s.c.awake = true ∧
    headerOk 0x02 f = true ∧
    f.payload.length = 4 ∧
    fld f.payload 1 3 = 0 ∧
    f.path ≤ 2 ∧
    s.c.rxFull f.path = false ∧
    s.c.nat Obj.lifecycle_pending = 0xFF ∧
    ((fld f.payload 0 1 = 1 ∨ fld f.payload 0 1 = 2)) ∧
    (f.path = 2 → s.c.mailboxOpen = false) ∧
    s.c.freeSessions = n :: rest :=
  ⟨stateOf awake, openFrame 1 [2, 0, 0, 0], 2, [3, 4, 5, 6, 7, 8], by decide +kernel⟩

theorem witness_SessionsComplete_3 : ∃ (s : State) (f : Frame),
    admitted s.c 0x03 f f.payload.isEmpty :=
  ⟨having [(Obj.admission_state, 1), (Obj.session_state 1, 1)], frame 0 0 [], by unfold admitted; decide +kernel⟩

theorem witness_SessionsComplete_4 : ∃ (s : State) (f : Frame),
    admitted s.c 0x04 f f.payload.isEmpty :=
  ⟨stateOf awake, frame 1 0 [], by unfold admitted; decide +kernel⟩

theorem witness_SessionsComplete_5 : ∃ (s : State) (f : Frame),
    admitted s.c 0x05 f f.payload.isEmpty ∧
    s.c.nat Obj.lifecycle_state ≠ 4 ∧
    s.c.serviceKey ≠ none ∧
    s.c.ydp.lockoutEnd = none :=
  ⟨stateOf (keyCtl [] id), frame 1 0 [], by unfold admitted; decide +kernel⟩

theorem witness_SessionsComplete_6 : ∃ (s : State) (f : Frame) (b k : List Byte),
    admitted s.c 0x06 f (f.payload.length == 16) ∧
    s.c.ydp.lockoutEnd = none ∧
    s.c.validNonce f.session = some b ∧
    s.c.serviceKey = some k ∧
    f.payload = (hmac k (b ++ le 1 f.session ++ le 4 f.tag)).take 16 :=
  ⟨stateOf (keyCtl [(Obj.service_failures, 2)] challenged), frame 1 0 proof, nonce, List.replicate 32 1, by unfold admitted; decide +kernel⟩

theorem witness_FurtherLinkCases_13 : ∃ (s : State) (f : Frame) (b k : List Byte),
    admitted s.c 0x06 f (f.payload.length == 16) ∧
    s.c.ydp.lockoutEnd = none ∧
    s.c.validNonce f.session = some b ∧
    s.c.serviceKey = some k ∧
    f.payload ≠ (hmac k (b ++ le 1 f.session ++ le 4 f.tag)).take 16 ∧
    s.c.nat Obj.service_failures = 2 :=
  ⟨stateOf (keyCtl [(Obj.service_failures, 2)] challenged), frame 1 0 (zeros 16), nonce, List.replicate 32 1, by unfold admitted; decide +kernel⟩

theorem witness_SessionsComplete_7 : ∃ (s : State) (n : Nat),
    (s.c.sess n).isOpen = true ∧
    1 ≤ n ∧
    n ≤ 8 ∧
    (s.c.sess n).heardAt + s.c.nat Obj.session_timeout * 1000000 ≤ s.c.now :=
  ⟨stateOf { puts awake [(Obj.admission_state, 1), (Obj.session_state 1, 1)] with now := 2 ^ 50 }, 1, by decide +kernel⟩

theorem witness_SessionsComplete_8 : ∃ (s : State) (n : Nat) (x : Nonce),
    (s.c.sess n).nonce = some x ∧
    x.at_ + 10 ^ 10 ≤ s.c.now :=
  ⟨stateOf { sessCtl [] challenged with now := 2 ^ 50 }, 1, ⟨nonce, 0⟩, by decide +kernel⟩

theorem witness_SessionsComplete_9 : ∃ (s : State) (x : Nat),
    s.c.ydp.lockoutEnd = some x ∧
    x ≤ s.c.now :=
  ⟨stateOf { puts awake [(Obj.service_failures, 3)] with now := 2 ^ 50, ydp := { awake.ydp with lockoutEnd := some 5 } }, 5, by decide +kernel⟩

theorem witness_FurtherLinkCases_14 : ∃ (s : State) (f : Frame),
    admitted s.c 0x06 f (f.payload.length == 16) ∧
    s.c.ydp.lockoutEnd ≠ none :=
  ⟨stateOf { awake with ydp := { awake.ydp with lockoutEnd := some 5 } }, frame 1 0 (zeros 16), by unfold admitted; decide +kernel⟩

theorem witness_ControlAndEventsComplete_1 : ∃ (s : State) (r : Req),
    s.c.reaches r Obj.take_control (le 1 0) ∧
    s.c.nat Obj.controlling_session = 0 :=
  ⟨having [(Obj.controlling_session, 0)], req, by unfold Ctl.reaches; decide +kernel⟩

theorem witness_FurtherLinkCases_15 : ∃ (s : State) (r : Req),
    s.c.reaches r Obj.take_control (le 1 1) ∧
    s.c.nat Obj.controlling_session ≠ r.session :=
  ⟨having [(Obj.controlling_session, 2)], req, by unfold Ctl.reaches; decide +kernel⟩

theorem witness_FurtherLinkCases_16 : ∃ (s : State) (r : Req),
    s.c.reaches r Obj.take_control (le 1 0) ∧
    s.c.nat Obj.controlling_session ≠ 0 ∧
    s.c.nat Obj.controlling_session ≠ r.session :=
  ⟨having [(Obj.controlling_session, 2)], req, by unfold Ctl.reaches; decide +kernel⟩

theorem witness_ControlAndEventsComplete_2 : ∃ (s : State) (r : Req) (arg : Nat),
    s.c.reaches r Obj.release_control (le 1 arg) :=
  ⟨having [(Obj.admission_state, 1)], req, 0, by unfold Ctl.reaches; decide +kernel⟩

theorem witness_ControlAndEventsComplete_3 : ∃ (s : State) (r : Req) (m : Nat),
    m < 256 ∧
    s.c.reaches r Obj.hand_over (le 1 m) ∧
    (s.c.sess m).isOpen = true ∧
    m ≠ r.session :=
  ⟨stateOf (awake.setSess 3 { Session.closed with isOpen := true }), req, 3, by unfold Ctl.reaches; decide +kernel⟩

theorem witness_ControlAndEventsComplete_4 : ∃ (s : State) (r : Req) (m : Nat),
    1 ≤ m ∧
    m ≤ 8 ∧
    s.c.reaches r Obj.close_session (le 1 m) ∧
    (s.c.sess m).isOpen = true ∧
    m ≠ r.session ∧
    s.c.nat Obj.controlling_session ≠ m :=
  ⟨stateOf ((puts awake [(Obj.session_state 3, 1), (Obj.session_role 3, 1)]).setSess 3 { Session.closed with isOpen := true }), req, 3, by unfold Ctl.reaches; decide +kernel⟩

theorem witness_ControlAndEventsComplete_5 : ∃ (s : State) (f : Frame) (x : Flight),
    s.c.awake = true ∧
    headerOk 0x23 f = true ∧
    f.payload.length = 4 ∧
    f.path ≤ 2 ∧
    s.c.rxFull f.path = false ∧
    s.c.knows f.session f.tag = true ∧
    (s.c.sess f.session).flight = some x ∧
    x.sequence = fld f.payload 0 4 :=
  ⟨stateOf (sessCtl [(Obj.events_enable 1, 1)] fun x => { x with flight := some (flight 0) }), frame 1 0 (le 4 5), flight 0, by decide +kernel⟩

theorem witness_ControlAndEventsComplete_6 : ∃ (s : State) (n : Nat),
    (s.c.sess n).isOpen = true ∧
    (s.c.sess n).path ≤ 2 ∧
    s.c.on (Obj.events_enable n) = true ∧
    (s.c.sess n).queue ≠ [] ∧
    (s.c.sess n).flight = none ∧
    ((s.c.sess n).path = 2 → s.c.evtFull = false) :=
  ⟨stateOf (sessCtl [(Obj.events_enable 1, 1)] fun x => { x with queue := (flight 0).records, pendingLost := 70000, path := 2 }), 1, by decide +kernel⟩

theorem witness_ControlAndEventsComplete_7 : ∃ (s : State) (n : Nat) (x : Flight),
    (s.c.sess n).flight = some x ∧
    (s.c.sess n).path ≤ 2 ∧
    s.c.on (Obj.events_enable n) = true ∧
    x.sentAt + 20 * 10 ^ 6 ≤ s.c.now ∧
    x.resends < 5 :=
  ⟨stateOf { sessCtl [(Obj.events_enable 1, 1)] fun x => { x with flight := some (flight 4) } with now := 2 ^ 30 }, 1, flight 4, by decide +kernel⟩

theorem witness_FurtherLinkCases_17 : ∃ (s : State) (n : Nat) (x : Flight),
    1 ≤ n ∧
    n ≤ 8 ∧
    (s.c.sess n).flight = some x ∧
    s.c.on (Obj.events_enable n) = true ∧
    x.sentAt + 20 * 10 ^ 6 ≤ s.c.now ∧
    5 ≤ x.resends ∧
    s.c.nat (Obj.events_lost n) + x.records.length < 2 ^ 32 :=
  ⟨stateOf { sessCtl [(Obj.events_enable 1, 1)] fun x => { x with flight := some (flight 5) } with now := 2 ^ 30 }, 1, flight 5, by decide +kernel⟩

theorem witness_ControlAndEventsComplete_8 : ∃ (s : State) (v : Nat),
    s.c.awake = true ∧
    (v % 16 + 16 - s.c.ydp.evtTail) % 16 ≤ (s.c.ydp.evtHead + 16 - s.c.ydp.evtTail) % 16 :=
  ⟨stateOf { awake with ydp := { awake.ydp with evtHead := 6, evtTail := 3 } }, 21, by decide +kernel⟩

theorem witness_FurtherLinkCases_18 : ∃ (s : State) (n : Nat) (x : Flight) (b : List Byte),
    s.c.awake = true ∧
    s.c.ydp.evtHead = (s.c.ydp.evtTail + 1) % 16 ∧
    s.c.ydp.evtTail < 16 ∧
    kvGet [] s.c.ydp.evtRing (s.c.ydp.evtTail % 8) = b ∧
    fld b 3 1 = 0x22 ∧
    fld b 4 1 = n ∧
    (s.c.sess n).flight = some x ∧
    fld b 16 4 = x.sequence :=
  ⟨stateOf (let c := sessCtl [(Obj.events_enable 1, 1)] fun x => { x with flight := some (flight 0) }; { c with ydp := { c.ydp with evtHead := 4, evtTail := 3, evtRing := [(3, Sent.bytes ⟨0x22, 1, 0, 7, 0, (flight 0).payload⟩)] } }), 1, flight 0, Sent.bytes ⟨0x22, 1, 0, 7, 0, (flight 0).payload⟩, by decide +kernel⟩

theorem witness_YdpRequestsComplete_1 : ∃ (s : State) (f : Frame) (k : Nat),
    admitted s.c 0x10 f true ∧
    readList f.payload = some [k] ∧
    claimOf k = none ∧
    s.c.readCode f.session (s.c.sess f.session) k = St.OK ∧
    s.c.readLength (s.c.sess f.session) k ≤ 1024 ∧
    wireObject k = false ∧
    ((k / 256 < 0x1101 ∨ 0x1108 < k / 256)) :=
  ⟨stateOf awake, frame 1 0 ([1, 0, 0, 0, 0, 0x11, 2, 0]), Obj.session_timeout, by unfold admitted; decide +kernel⟩

theorem witness_FurtherLinkCases_19 : ∃ (s : State) (f : Frame) (k : Nat),
    admitted s.c 0x10 f true ∧
    readList f.payload = some [k] ∧
    s.c.readCode f.session (s.c.sess f.session) k ≠ St.OK :=
  ⟨stateOf awake, frame 1 0 ([1, 0, 0, 0, 5, 0, 2, 0]), 0x502, by unfold admitted; decide +kernel⟩

theorem witness_FurtherLinkCases_20 : ∃ (s : State) (f : Frame) (es : List Entry),
    admitted s.c 0x11 f true ∧
    writeList f.payload = some es ∧
    steady s.c ∧
    ((∃ e ∈ es, s.c.checkWrite f.session e.1 e.2 ≠ St.OK)) :=
  ⟨stateOf awake, frame 1 0 ([2, 0, 0, 0] ++ [0, 0x11, 2, 0, 4, 0, 0, 0] ++ le 4 5 ++ [0, 0x11, 4, 0, 1, 0, 0, 0] ++ le 4 1), [(Obj.session_timeout, le 4 5), (Obj.role_ceiling_mailbox, le 1 1)], by unfold admitted steady; decide +kernel⟩

theorem witness_YdpRequestsComplete_2 : ∃ (s : State) (f : Frame) (a b : Nat),
    admitted s.c 0x11 f true ∧
    writeList f.payload = some [(Obj.session_timeout, le 4 a), (Obj.role_ceiling_mailbox, le 1 b)] ∧
    steady s.c ∧
    s.c.checkWrite f.session Obj.session_timeout (le 4 a) = St.OK ∧
    s.c.checkWrite f.session Obj.role_ceiling_mailbox (le 1 b) = St.OK ∧
    a < 2 ^ 32 ∧
    b < 2 ^ 8 :=
  ⟨stateOf awake, frame 1 0 ([2, 0, 0, 0] ++ [0, 0x11, 2, 0, 4, 0, 0, 0] ++ le 4 500 ++ [0, 0x11, 4, 0, 1, 0, 0, 0] ++ le 4 1), 500, 1, by unfold admitted steady; decide +kernel⟩

theorem witness_YdpRequestsComplete_3 : ∃ (s : State) (f : Frame) (k : Nat) (row : ObjRow),
    admitted s.c 0x12 f true ∧
    describeList f.payload = some [(false, k)] ∧
    objOf k = some row ∧
    indexExists (k / 256) = true :=
  ⟨stateOf awake, frame 1 0 ([1, 0, 0, 0, 0, 0x11, 2, 0]), Obj.session_timeout, ⟨0x1100, 1, 0x02, 1, 1, "session_timeout", .u32, .rw, 2, true, false, .num 2000, .span 100 60000 1, "ms"⟩, by unfold admitted; decide +kernel⟩

theorem witness_YdpRequestsComplete_4 : ∃ (s : State) (f : Frame),
    admitted s.c 0x14 f (segWriteOk f.flags f.payload) ∧
    steady s.c ∧
    s.c.ydp.staging = none ∧
    segOffset f.payload = 0 ∧
    fld f.payload 12 2 < segTotal f.payload ∧
    segTotal f.payload ≤ 1048576 :=
  ⟨stateOf awake, frame 1 2 (segPart Obj.session_timeout 0 4 [1, 2]), by unfold admitted steady; decide +kernel⟩

theorem witness_FurtherLinkCases_21 : ∃ (s : State) (f : Frame) (g : Staging),
    admitted s.c 0x14 f (segWriteOk f.flags f.payload) ∧
    steady s.c ∧
    s.c.ydp.staging = some g ∧
    g.owner = f.session ∧
    g.writing = true ∧
    g.key = segKey f.payload ∧
    g.total = segTotal f.payload ∧
    g.data.length = segOffset f.payload ∧
    0 < segOffset f.payload ∧
    segOffset f.payload + fld f.payload 12 2 < segTotal f.payload ∧
    segTotal f.payload ≤ 1048576 :=
  ⟨stateOf (stagingCtl ⟨1, true, Obj.session_timeout, 4, [1], 0⟩), frame 1 2 (segPart Obj.session_timeout 1 4 [2]), ⟨1, true, Obj.session_timeout, 4, [1], 0⟩, by unfold admitted steady; decide +kernel⟩

theorem witness_FurtherLinkCases_22 : ∃ (s : State) (f : Frame) (g : Staging),
    admitted s.c 0x14 f (segWriteOk f.flags f.payload) ∧
    steady s.c ∧
    s.c.ydp.staging = some g ∧
    g.owner = f.session ∧
    g.writing = true ∧
    g.key = segKey f.payload ∧
    g.total = segTotal f.payload ∧
    g.data.length = segOffset f.payload ∧
    0 < segOffset f.payload ∧
    segOffset f.payload + fld f.payload 12 2 = segTotal f.payload ∧
    segTotal f.payload ≤ 1048576 ∧
    segKey f.payload = Obj.session_timeout ∧
    s.c.checkWrite f.session Obj.session_timeout (g.data ++ segChunk f.payload) = St.OK :=
  ⟨stateOf (stagingCtl ⟨1, true, Obj.session_timeout, 4, [1], 0⟩), frame 1 0 (segPart Obj.session_timeout 1 4 [2, 0, 0]), ⟨1, true, Obj.session_timeout, 4, [1], 0⟩, by unfold admitted steady; decide +kernel⟩

theorem witness_YdpRequestsComplete_5 : ∃ (s : State) (f : Frame) (g : Staging),
    admitted s.c 0x13 f (segReadOk f.payload) ∧
    s.c.ydp.staging = some g ∧
    g.owner = f.session ∧
    g.writing = false ∧
    g.key = segKey f.payload ∧
    0 < segOffset f.payload ∧
    segOffset f.payload < g.total :=
  ⟨stateOf (stagingCtl ⟨1, false, Obj.session_timeout, 4, [1, 2, 3, 4], 0⟩), frame 1 0 (le 2 0x1100 ++ [2, 0] ++ le 4 1 ++ le 2 2 ++ [0, 0]), ⟨1, false, Obj.session_timeout, 4, [1, 2, 3, 4], 0⟩, by unfold admitted; decide +kernel⟩

theorem witness_YdpRequestsComplete_6 : ∃ (s : State) (g : Staging),
    s.c.ydp.staging = some g ∧
    g.lastAt + 2 * 10 ^ 9 ≤ s.c.now :=
  ⟨stateOf { stagingCtl ⟨1, true, 5, 4, [1], 0⟩ with now := 2 ^ 40 }, ⟨1, true, 5, 4, [1], 0⟩, by decide +kernel⟩

theorem witness_YdpRequestsComplete_7 : ∃ (s : State) (f : Frame) (keys : List Nat),
    admitted s.c 0x20 f (subscribeOk f.payload) ∧
    readList (f.payload.drop 8) = some keys ∧
    0 < fld f.payload 4 2 ∧
    publishSize keys ≤ 1400 :=
  ⟨stateOf awake, frame 1 0 ([2, 0, 0, 0] ++ le 2 100 ++ [0, 0] ++ [1, 0, 0, 0, 0, 0x11, 2, 0]), [Obj.session_timeout], by unfold admitted; decide +kernel⟩

theorem witness_FurtherLinkCases_23 : ∃ (s : State) (f : Frame),
    admitted s.c 0x20 f (subscribeOk f.payload) ∧
    fld f.payload 4 2 = 0 :=
  ⟨stateOf (sessCtl [] fun x => { x with sets := [(2, some ⟨100, [5], 3, 0⟩)] }), frame 1 0 ([2, 0, 0, 0] ++ le 2 0 ++ [0, 0] ++ [1, 0, 0, 0, 0, 0x11, 2, 0]), by unfold admitted; decide +kernel⟩

theorem witness_YdpRequestsComplete_8 : ∃ (s : State) (n i : Nat) (p : PubSet),
    s.c.awake = true ∧
    (s.c.sess n).isOpen = true ∧
    (s.c.sess n).path ≤ 2 ∧
    kvGet none (s.c.sess n).sets i = some p ∧
    p.next ≤ s.c.localNs ∧
    ((∀ k ∈ p.keys, claimOf k = none)) :=
  ⟨stateOf (sessCtl [] fun x => { x with sets := [(2, some ⟨100, [Obj.session_timeout, 5], 3, 0⟩)] }), 1, 2, ⟨100, [Obj.session_timeout, 5], 3, 0⟩, by decide +kernel⟩

theorem witness_YdpRequestsComplete_9 : ∃ (s : State) (b : List Byte),
    s.c.awake = true ∧
    s.c.ydp.mbxBusy = false ∧
    fld (b.take 2048) 3 1 = 0x04 ∧
    admitted s.c 0x04 (ydpFrame 2 [] (b.take 2048)) (ydpFrame 2 [] (b.take 2048)).payload.isEmpty :=
  ⟨stateOf awake, [0x59, 0x44, 1, 4, 1, 0] ++ le 2 1 ++ le 4 7 ++ zeros 4, by unfold admitted; decide +kernel⟩

end Sys2Proof.Tests
end

section
/-! PROOF. One step with a command waiting: the front of the queue runs with the queue's rest (R11). -/

namespace Sys2Proof.Machine

/-- The equation of `step` for a queue that is not empty; later proofs cite it and leave `step` folded. -/
theorem step_of_pending_cons {s : State} {c : Instr} {rest : List Instr} (hq : s.pending = c :: rest) :
    step s = exec c (s.popped rest) := by
  rw [step, hq]

/-- Settles O46: the queue is not empty, so `step` runs its front on the popped state, which differs in the queue alone. -/
theorem stepRunsFrontCommand : Obligations.StepRunsFrontCommand := by
  intro s c rest hq
  exact step_of_pending_cons hq

end Sys2Proof.Machine
end

section
/-! PROOF. Slots are sealed, unsealed and cleared (R61, R62). -/

namespace Sys2Proof.Laws

open Sys2Proof.Machine Sys2Proof.Safety

/-! ### The objects of a slot -/

/-- An object of slot `n` has the slot's index. -/
theorem slotObject_index (n : Nat) {a : Nat} (ha : a < 256) : ((0x5000 + n) * 256 + a) / 256 = 0x5000 + n := by omega

/-- Objects of a slot at different subindices differ. -/
theorem slotObject_ne (n : Nat) {a b : Nat} (h : a ≠ b) : (0x5000 + n) * 256 + a ≠ (0x5000 + n) * 256 + b := by omega

/-- No object of a slot is one that serving a request changes. -/
theorem slotObject_not_wire {n k : Nat} (hn : n < 256) (hk : k / 256 = 0x5000 + n) : wireObject k = false := by
  simp only [wireObject, bellObject, Bool.or_eq_false_iff, decide_eq_false_iff_not, beq_eq_false_iff_ne]
  refine ⟨⟨⟨fun e => ?_, by omega⟩, by omega⟩, by omega⟩
  have : Obj.rings_total / 256 = 0x1900 := by decide
  rw [e] at hk
  omega

/-- A slot is EMPTY by default (R61). -/
theorem dfltOf_slot_state : ∀ n < 256, dfltOf (Obj.slot_state n) = .num 0 := by decide +kernel

/-- A command that ends at once changes no object but its own and the ring counters. -/
theorem val_cmdNow_other (c : Ctl) {k j : Nat} (n src u : Nat) (h : k ≠ j) (hj : bellObject j = false) :
    (c.cmdNow k n src u).val j = c.val j := by
  unfold Ctl.cmdNow Ctl.cmdDone Ctl.cmdRun
  rw [ring_val _ _ _ _ hj, Ctl.putN_put, Ctl.val_put_other _ _ h, Ctl.putN_put, Ctl.val_put_other _ _ h]

/-! ### The library's states afresh -/

section frame
variable {ps : List Part} {ks is_ : List Nat} (c : Ctl) (x : Kv Byte)

/-- The library's refreshing changes the states of arrays, curves and appearance places alone. -/
theorem refreshLibrary_unchanged (ha : Obj.appearance_state ∈ ks) (h1 : 0x4001 ∈ is_) (h3 : 0x4003 ∈ is_) :
    unchangedBut ps ks is_ ⟨c, x⟩ ⟨c.refreshLibrary, x⟩ := by
  have arrays : ∀ a < 64, Obj.array_state a / 256 ∈ is_ := fun a ha => by
    have : Obj.array_state a / 256 = 0x4001 := by unfold Obj.array_state; omega
    rwa [this]
  have curves : ∀ a < 128, Obj.curve_state a / 256 ∈ is_ := fun a ha => by
    have : Obj.curve_state a / 256 = 0x4003 := by unfold Obj.curve_state; omega
    rwa [this]
  unfold Ctl.refreshLibrary
  rw [Ctl.putO_put, un_put_key _ _ _ _ ha, un_forEach, un_forEach]
  · exact unchanged_refl _
  · intro d a ha
    rw [Ctl.putN_put, un_put_index _ _ _ _ (arrays a (List.mem_range.1 ha))]
    exact unchanged_refl _
  · intro d a ha
    rw [Ctl.putN_put, un_put_index _ _ _ _ (curves a (List.mem_range.1 ha))]
    exact unchanged_refl _

/-- The library's refreshing leaves the objects of the slots. -/
theorem refreshLibrary_slot {n k : Nat} (hn : n < 256) (hk : k / 256 = 0x5000 + n) : c.refreshLibrary.val k = c.val k := by
  have frame : unchangedBut [] [Obj.appearance_state] [0x4001, 0x4003] ⟨c, []⟩ ⟨c.refreshLibrary, []⟩ :=
    refreshLibrary_unchanged c [] (by simp) (by simp) (by simp)
  refine unchanged_val frame (slotObject_not_wire hn hk) (fun h => ?_) (fun h => ?_)
  · have : Obj.appearance_state / 256 = 0x6501 := by decide
    rw [List.mem_singleton.1 h] at hk
    omega
  · simp only [List.mem_cons, List.not_mem_nil, or_false] at h
    omega

/-! ### Sealing and unsealing (R61) -/

variable (n : Nat)

/-- A slot not yet SEALED whose hold is set becomes SEALED, and its tickets are counted afresh. -/
theorem resealed_of_hold (hh : c.on (Obj.seal_hold n) = true) (hs : c.nat (Obj.slot_state n) ≠ 2) :
    c.resealed n =
      ((c.putN (Obj.slot_state n) 2).setAdm { c.adm with sinceSeal := kvSet 0 c.adm.sinceSeal n 0 }).refreshLibrary := by
  have h : c.resealSlot n = c.putN (Obj.slot_state n) 2 := by simp [Ctl.resealSlot, hh]
  have h2 : (c.putN (Obj.slot_state n) 2).nat (Obj.slot_state n) = 2 := nat_put_eq ..
  unfold Ctl.resealed
  simp only [h, h2, if_neg (Ne.symm hs), if_neg hs]
  rfl

/-- A SEALED slot without tickets and without a hold becomes OPEN and is validated. -/
theorem resealed_of_release (ht : c.nat (Obj.tickets_outstanding n) = 0) (hh : c.on (Obj.seal_hold n) = false)
    (hs : c.nat (Obj.slot_state n) = 2) :
    c.resealed n = ((c.putN (Obj.slot_state n) 1).refreshLibrary).revalidate n := by
  have h : c.resealSlot n = c.putN (Obj.slot_state n) 1 := by simp [Ctl.resealSlot, ht, hh, hs]
  have h1 : (c.putN (Obj.slot_state n) 1).nat (Obj.slot_state n) = 1 := nat_put_eq ..
  unfold Ctl.resealed
  simp only [h, h1, hs, if_true]
  rfl

/-- Validation changes the slot's validation alone. -/
theorem revalidate_unchanged (h : Obj.validation n ∈ ks) : unchangedBut ps ks is_ ⟨c, x⟩ ⟨c.revalidate n, x⟩ := by
  unfold Ctl.revalidate
  split
  · rw [Ctl.putN_put, un_put_key _ _ _ _ h]
    exact unchanged_refl _
  · exact unchanged_refl _

theorem revalidate_val_other {k : Nat} (h : Obj.validation n ≠ k) : (c.revalidate n).val k = c.val k := by
  unfold Ctl.revalidate
  split
  · exact Ctl.val_put_other _ _ h
  · rfl

/-! ### A slot cleared -/

/-- clear_slot names objects of its own slot, and not its own command (R62). -/
theorem clearedKey_index {n k : Nat} (h : clearedKey n k = true) : k / 256 = 0x5000 + n := by
  simp only [clearedKey, Bool.and_eq_true, beq_iff_eq] at h
  exact h.1

theorem clearedKey_clear_slot (n : Nat) : clearedKey n (Obj.clear_slot n) = false := by
  have h : Obj.clear_slot n % 256 = 0x10 := Nat.mul_add_mod_of_lt (by decide)
  simp [clearedKey, h]

/-- The object that shows a slot's state is one that clear_slot resets. -/
theorem clearedKey_slot_state (n : Nat) : clearedKey n (Obj.slot_state n) = true := by
  have h : Obj.slot_state n % 256 = 1 := Nat.mul_add_mod_of_lt (by decide)
  simp only [clearedKey, slotObject_index n (show 1 < 256 by decide), h]
  simp

/-- Clearing a slot returns the objects it names to their defaults. -/
theorem val_emptySlot (k : Nat) : (c.emptySlot n).val k = if clearedKey n k then dfltOf k else c.val k := by
  unfold Ctl.emptySlot Ctl.val
  rw [kvGet_filter (dfltOf k) c.dict (fun j => !clearedKey n j) k]
  cases clearedKey n k <;> rfl

theorem emptySlot_unchanged (h : 0x5000 + n ∈ is_) : unchangedBut ps ks is_ ⟨c, x⟩ ⟨c.emptySlot n, x⟩ := by
  refine ⟨fun p _ => by cases p <;> simp [kept, Ctl.emptySlot, Ctl.sess], fun k _ _ hi => ?_⟩
  have : clearedKey n k = false := by
    unfold clearedKey
    have : k / 256 ≠ 0x5000 + n := fun e => hi (e ▸ h)
    simp [this]
  simp [val_emptySlot, this]

/-- The changes noted for the cycle belong to no part. -/
theorem noteChange_unchanged (y : Recheck) : unchangedBut ps ks is_ ⟨c, x⟩ ⟨c.noteChange y, x⟩ :=
  ⟨fun p _ => by cases p <;> simp [kept, Ctl.noteChange, Ctl.sess], fun _ _ _ _ => rfl⟩

end frame

theorem newCycle_unchanged {ps : List Part} {ks is_ : List Nat} (m : Mach) : unchangedBut ps ks is_ m m.newCycle :=
  ⟨fun p _ => by cases p <;> simp [kept, Mach.newCycle, Ctl.sess], fun _ _ _ _ => rfl⟩

/-- With no descriptor waiting there is nothing to check again: the cycle's changes are forgotten (R73). -/
theorem recheck_of_idle {m : Mach} (h : m.ctl.adm.waiting = none) : m.recheck = m.newCycle := by
  unfold Mach.recheck
  rw [h]

/-! ### The commands (R62) -/

section commands
variable (c : Ctl) (x : Kv Byte) {slot : Nat} (n : Nat)

/-- An object of a slot passes through the end of another command. -/
theorem val_cmdNow_slot {k j : Nat} (src u : Nat) (hn : slot < 256) (hj : j / 256 = 0x5000 + slot) (h : k ≠ j) :
    (c.cmdNow k n src u).val j = c.val j :=
  val_cmdNow_other c n src u h (bellObject_wire (slotObject_not_wire hn hj))

/-- seal_slot on a valid slot that is not SEALED seals it and sets its hold. -/
theorem sealSlot_effect (hn : slot < 256) (hm : n < 16) (hs : c.nat (Obj.slot_state slot) ≠ 2)
    (hv : c.nat (Obj.validation slot) = 0) :
    (c.sealSlot slot n).nat (Obj.seal_slot slot) = cmdWord 2 n 0 ∧ (c.sealSlot slot n).nat (Obj.slot_state slot) = 2 ∧
      (c.sealSlot slot n).on (Obj.seal_hold slot) = true ∧
      unchangedBut [.admission] [Obj.seal_slot slot, Obj.slot_state slot, Obj.seal_hold slot, Obj.appearance_state]
        [0x4001, 0x4003] ⟨c, x⟩ ⟨c.sealSlot slot n, x⟩ := by
  have hh : (c.putB (Obj.seal_hold slot) true).on (Obj.seal_hold slot) = true := on_put_eq ..
  have hs' : (c.putB (Obj.seal_hold slot) true).nat (Obj.slot_state slot) ≠ 2 := by
    rw [Ctl.putB_put, nat_put_ne _ _ (slotObject_ne slot (by decide))]; exact hs
  have e : c.sealSlot slot n =
      ((c.putB (Obj.seal_hold slot) true).resealed slot).cmdNow (Obj.seal_slot slot) n Src.ADMIT_CMD_DONE slot := by
    simp [Ctl.sealSlot, hv]
  rw [e, resealed_of_hold _ _ hh hs']
  refine ⟨nat_cmdNow _ _ _ _ _ (bellObject_wire (slotObject_not_wire hn (slotObject_index slot (by decide)))) hm, ?_, ?_, ?_⟩
  · rw [Ctl.nat_val, val_cmdNow_slot _ _ _ _ hn (slotObject_index slot (by decide)) (slotObject_ne slot (by decide)),
      refreshLibrary_slot _ hn (slotObject_index slot (by decide))]
    simp
  · rw [Ctl.on_val, val_cmdNow_slot _ _ _ _ hn (slotObject_index slot (by decide)) (slotObject_ne slot (by decide)),
      refreshLibrary_slot _ hn (slotObject_index slot (by decide))]
    simp [Ctl.val_put]
  · rw [un_cmdNow _ _ _ _ _ _ (by simp), unchanged_iff (refreshLibrary_unchanged _ x (by simp) (by simp) (by simp))]
    simp [unchanged_refl]

/-- unseal_slot on a SEALED slot without outstanding tickets opens it and clears its hold. -/
theorem unsealSlot_effect (hn : slot < 256) (hm : n < 16) (hs : c.nat (Obj.slot_state slot) = 2)
    (ht : c.nat (Obj.tickets_outstanding slot) = 0) :
    (c.unsealSlot slot n).nat (Obj.unseal_slot slot) = cmdWord 2 n 0 ∧ (c.unsealSlot slot n).nat (Obj.slot_state slot) = 1 ∧
      (c.unsealSlot slot n).on (Obj.seal_hold slot) = false ∧
      unchangedBut []
        [Obj.unseal_slot slot, Obj.slot_state slot, Obj.seal_hold slot, Obj.validation slot, Obj.appearance_state]
        [0x4001, 0x4003] ⟨c, x⟩ ⟨c.unsealSlot slot n, x⟩ := by
  have hh : (c.putB (Obj.seal_hold slot) false).on (Obj.seal_hold slot) = false := on_put_eq ..
  have hs' : (c.putB (Obj.seal_hold slot) false).nat (Obj.slot_state slot) = 2 := by
    rw [Ctl.putB_put, nat_put_ne _ _ (slotObject_ne slot (by decide))]; exact hs
  have ht' : (c.putB (Obj.seal_hold slot) false).nat (Obj.tickets_outstanding slot) = 0 := by
    rw [Ctl.putB_put, nat_put_ne _ _ (slotObject_ne slot (by decide))]; exact ht
  unfold Ctl.unsealSlot
  rw [resealed_of_release _ _ ht' hh hs']
  refine ⟨nat_cmdNow _ _ _ _ _ (bellObject_wire (slotObject_not_wire hn (slotObject_index slot (by decide)))) hm, ?_, ?_, ?_⟩
  · rw [Ctl.nat_val, val_cmdNow_slot _ _ _ _ hn (slotObject_index slot (by decide)) (slotObject_ne slot (by decide)),
      revalidate_val_other _ _ (slotObject_ne slot (by decide)),
      refreshLibrary_slot _ hn (slotObject_index slot (by decide))]
    simp
  · rw [Ctl.on_val, val_cmdNow_slot _ _ _ _ hn (slotObject_index slot (by decide)) (slotObject_ne slot (by decide)),
      revalidate_val_other _ _ (slotObject_ne slot (by decide)),
      refreshLibrary_slot _ hn (slotObject_index slot (by decide))]
    simp [Ctl.val_put]
  · rw [un_cmdNow _ _ _ _ _ _ (by simp), unchanged_iff (revalidate_unchanged _ x _ (by simp)),
      unchanged_iff (refreshLibrary_unchanged _ x (by simp) (by simp) (by simp))]
    simp [unchanged_refl]

/-- The controller that clear_slot leaves of one whose slot is not SEALED. -/
def clearedSlot (c : Ctl) (slot n : Nat) : Ctl :=
  (((c.emptySlot slot).cmdNow (Obj.clear_slot slot) n Src.ADMIT_CMD_DONE slot).noteChange (.slot slot))

/-- The owner of clear_slot on a slot that is not SEALED, while no descriptor waits. -/
theorem rechecked_clearSlot (hs : c.nat (Obj.slot_state slot) ≠ 2) (hw : c.adm.waiting = none) :
    rechecked (ownClearSlot slot) n ⟨c, x⟩ = (St.STARTED, (⟨clearedSlot (Mach.newCycle ⟨c, x⟩).ctl slot n, x⟩ : Mach).newCycle) := by
  have hs' : (Mach.newCycle ⟨c, x⟩).ctl.nat (Obj.slot_state slot) ≠ 2 := hs
  have hw' : (clearedSlot (Mach.newCycle ⟨c, x⟩).ctl slot n).adm.waiting = none := by
    show ((((Mach.newCycle ⟨c, x⟩).ctl.emptySlot slot).cmdNow _ n _ slot)).adm.waiting = none
    unfold Ctl.cmdNow Ctl.cmdDone
    rw [ring_adm]
    exact hw
  unfold rechecked ownClearSlot
  rw [if_neg hs']
  exact congrArg (Prod.mk St.STARTED) (recheck_of_idle (m := ⟨_, x⟩) hw')

theorem clearedSlot_unchanged : unchangedBut [] [] [0x5000 + slot] ⟨c, x⟩ ⟨clearedSlot c slot n, x⟩ := by
  have hi : Obj.clear_slot slot / 256 ∈ [0x5000 + slot] := by
    rw [slotObject_index slot (by decide)]; exact List.mem_singleton.2 rfl
  refine unchanged_trans (emptySlot_unchanged c x slot (by simp)) (unchanged_trans ?_ (noteChange_unchanged _ x _))
  unfold Ctl.cmdNow Ctl.cmdDone Ctl.cmdRun
  rw [un_ring, Ctl.putN_put, un_put_index _ _ _ _ hi, Ctl.putN_put, un_put_index _ _ _ _ hi]
  exact unchanged_refl _

/-- clear_slot returns the objects it names to their defaults. -/
theorem val_clearedSlot {k : Nat} (hn : slot < 256) (hk : clearedKey slot k = true) :
    (clearedSlot c slot n).val k = dfltOf k := by
  have hne : Obj.clear_slot slot ≠ k := fun e => by
    rw [← e, clearedKey_clear_slot] at hk
    exact Bool.noConfusion hk
  show ((c.emptySlot slot).cmdNow _ n _ slot).val k = _
  rw [val_cmdNow_slot _ _ _ _ hn (clearedKey_index hk) hne, val_emptySlot, if_pos hk]

end commands

end Sys2Proof.Laws

namespace Sys2Proof.Machine

open Sys2Proof.Safety Sys2Proof.Laws

/-- seal_slot completes on a valid OPEN slot (R62). -/
theorem sealSlot_completes (s : State) (r : Req) (slot arg : Nat) (hn : slot < 256)
    (hs : s.c.nat (Obj.slot_state slot) = 1) (hv : s.c.nat (Obj.validation slot) = 0) :
    completesCmd r (Obj.seal_slot slot) (arg1 arg) 2 (.sealSlot r slot arg) s [.admission]
      [Obj.slot_state slot, Obj.seal_hold slot, Obj.appearance_state] (is_ := [0x4001, 0x4003]) fun t =>
      t.c.nat (Obj.slot_state slot) = 2 ∧ t.c.on (Obj.seal_hold slot) := by
  intro hr
  have wire {a : Nat} (ha : a < 256) : wireObject ((0x5000 + slot) * 256 + a) = false :=
    slotObject_not_wire hn (slotObject_index slot ha)
  refine ctlRow_completes (fun n c => (St.STARTED, c.sealSlot slot n)) _ rfl hr fun c w _ hm => ?_
  have hs' : c.nat (Obj.slot_state slot) ≠ 2 := by rw [w.nat (wire (by decide)), hs]; decide
  have hv' : c.nat (Obj.validation slot) = 0 := by rw [w.nat (wire (by decide)), hv]
  obtain ⟨hword, hstate, hhold, frame⟩ := sealSlot_effect c s.mach.cellar r.session hn hm hs' hv'
  exact ⟨rfl, .inr (by decide), frame, fun d w' =>
    ⟨(w'.nat (wire (by decide))).trans hword, (w'.nat (wire (by decide))).trans hstate, (w'.on (wire (by decide))).trans hhold⟩⟩

/-- unseal_slot completes on a SEALED slot without outstanding tickets (R62). -/
theorem unsealSlot_completes (s : State) (r : Req) (slot arg : Nat) (hn : slot < 256)
    (hs : s.c.nat (Obj.slot_state slot) = 2) (ht : s.c.nat (Obj.tickets_outstanding slot) = 0) :
    completesCmd r (Obj.unseal_slot slot) (arg1 arg) 2 (.unsealSlot r slot arg) s []
      [Obj.slot_state slot, Obj.seal_hold slot, Obj.validation slot, Obj.appearance_state] (is_ := [0x4001, 0x4003]) fun t =>
      t.c.nat (Obj.slot_state slot) = 1 ∧ t.c.on (Obj.seal_hold slot) = false := by
  intro hr
  have wire {a : Nat} (ha : a < 256) : wireObject ((0x5000 + slot) * 256 + a) = false :=
    slotObject_not_wire hn (slotObject_index slot ha)
  refine ctlRow_completes (fun n c => (St.STARTED, c.unsealSlot slot n)) _ rfl hr fun c w _ hm => ?_
  have hs' : c.nat (Obj.slot_state slot) = 2 := (w.nat (wire (by decide))).trans hs
  have ht' : c.nat (Obj.tickets_outstanding slot) = 0 := (w.nat (wire (by decide))).trans ht
  obtain ⟨hword, hstate, hhold, frame⟩ := unsealSlot_effect c s.mach.cellar r.session hn hm hs' ht'
  exact ⟨rfl, .inr (by decide), frame, fun d w' =>
    ⟨(w'.nat (wire (by decide))).trans hword, (w'.nat (wire (by decide))).trans hstate, (w'.on (wire (by decide))).trans hhold⟩⟩

/-- clear_slot completes on a slot that is not SEALED, while no descriptor waits (R62). -/
theorem clearSlot_completes (s : State) (r : Req) (slot arg : Nat) (hn : slot < 256)
    (hr : s.c.reaches r (Obj.clear_slot slot) (arg1 arg)) (hs : s.c.nat (Obj.slot_state slot) ≠ 2)
    (hw : s.c.adm.waiting = none) :
    completes (.clearSlot r slot arg) s [] [] (is_ := [0x5000 + slot]) fun t =>
      answered t r (Obj.clear_slot slot) St.STARTED ∧ t.c.nat (Obj.slot_state slot) = 0 ∧
        ∀ k, clearedKey slot k = true → k ≠ Obj.clear_slot slot → t.c.val k = dfltOf k := by
  refine writeRow_completes (rechecked (ownClearSlot slot)) _ rfl hr fun c w _ _ => ?_
  have hs' : c.nat (Obj.slot_state slot) ≠ 2 := by
    rw [w.nat (slotObject_not_wire hn (slotObject_index slot (by decide)))]; exact hs
  have hw' : c.adm.waiting = none := by rw [w.adm]; exact hw
  rw [rechecked_clearSlot c s.mach.cellar r.session hs' hw']
  have cleared {d : Ctl} {k : Nat}
      (w' : Wired (Mach.newCycle ⟨clearedSlot (Mach.newCycle ⟨c, s.mach.cellar⟩).ctl slot r.session, s.mach.cellar⟩).ctl d)
      (hk : clearedKey slot k = true) : d.val k = dfltOf k :=
    (w'.val k (slotObject_not_wire hn (clearedKey_index hk))).trans (val_clearedSlot _ _ hn hk)
  refine ⟨rfl, .inr (by decide), ?_, fun d w' => ⟨?_, fun k hk _ => cleared w' hk⟩⟩
  · exact unchanged_trans (unchanged_trans (newCycle_unchanged _) (clearedSlot_unchanged _ _ _)) (newCycle_unchanged _)
  · rw [Ctl.nat_val, cleared w' (clearedKey_slot_state slot), dfltOf_slot_state slot hn]
    rfl

/-- Settles O1: each of the three slot commands completes. -/
theorem slotCommandsComplete : Obligations.SlotCommandsComplete :=
  ⟨sealSlot_completes, unsealSlot_completes, clearSlot_completes⟩

end Sys2Proof.Machine
end

section
/-! PROOF. A withdrawal that finds no page to withdraw (R82): pages of which a line has fired, and pages all of whose lines are
settled, are kept. -/

namespace Sys2Proof.Laws

open Sys2Proof.Machine Sys2Proof.Safety

/-- Serving a request leaves the live tickets. -/
theorem Wired.liveFrom {c d : Ctl} (h : Wired c d) (arg : Nat) : d.liveFrom arg = c.liveFrom arg := by
  unfold Ctl.liveFrom Ctl.live
  rw [h.adm]

/-- Where every page has begun or is settled, nothing is withdrawn. -/
theorem withdrawWhile_of_kept (c : Ctl) (limit : Nat) (kept : Bool) (ts : List Ticket)
    (h : ∀ t ∈ ts, (t.begun || t.complete) = true) : c.withdrawWhile limit kept ts = (0, c) := by
  induction ts generalizing kept with
  | nil => rfl
  | cons t r ih =>
    obtain ⟨ht, hr⟩ := List.forall_mem_cons.1 h
    rw [Ctl.withdrawWhile, if_pos ht, ih true hr]

/-- withdraw_from then fails WITHDRAW_NONE. -/
theorem ownWithdraw_of_kept (c : Ctl) (arg n : Nat) (h : ∀ t ∈ c.liveFrom arg, (t.begun || t.complete) = true) :
    ownWithdraw arg n c = (St.STARTED, c.cmdNowFail Obj.withdraw_from n 0x0239 Src.ADMIT_CMD_DONE) := by
  have hk := withdrawWhile_of_kept c c.stopPoint false (c.liveFrom arg).reverse fun t ht => h t (List.mem_reverse.1 ht)
  unfold ownWithdraw
  simp only [hk, if_true]

/-- A command answers one next state: two completions of it speak of the same one. -/
theorem completes_and {i : Instr} {s : State} {ps qs : List Part} {ks js is_ is' : List Nat} {P Q : State → Prop}
    (h : completes i s ps ks P is_) (g : completes i s qs js Q is') : ∃ t, P t ∧ Q t := by
  obtain ⟨t, ht, _, hP, _⟩ := h
  obtain ⟨u, hu, _, hQ, _⟩ := g
  obtain rfl : t = u := Host.Outcome.next.inj (ht.symm.trans hu)
  exact ⟨t, hP, hQ⟩

end Sys2Proof.Laws

namespace Sys2Proof.Machine

open Sys2Proof.Safety Sys2Proof.Laws

/-- withdraw_from fails WITHDRAW_NONE where every live page from the ticket on has begun or is settled; nothing else changes. -/
theorem withdrawFrom_fails_of_kept (s : State) (r : Req) (arg : Nat)
    (h : ∀ t ∈ s.c.liveFrom arg, (t.begun || t.complete) = true) :
    completesWrite r Obj.withdraw_from (le 4 arg) St.STARTED (.withdrawFrom r arg) s [] [] fun t =>
      t.c.nat Obj.withdraw_from = cmdWord 3 r.session 0x0239 := by
  intro hr
  refine ctlRow_completes (ownWithdraw arg) _ rfl hr fun c w _ hm => ?_
  rw [ownWithdraw_of_kept c arg r.session (by rw [w.liveFrom]; exact h)]
  refine ⟨rfl, .inr (by decide), ?_, fun d w' => ?_⟩
  · exact (un_cmdNowFail _ _ _ _ _ _ _ (by simp)).2 (unchanged_refl _)
  · exact (w'.nat (by decide)).trans (nat_cmdNowFail _ _ _ _ _ _ (by decide) hm)

/-- The last ticket of the counterexample: a page of 100 lines on bar 0 alone, every one of them omitted for want of its data (R78),
so that none has fired. Before it, 6000:03 stood at tick 9,000,000, where the last bar of an earlier page is reached. -/
def omittedPage : Ticket :=
  { number := 5, hostRef := 0, slot := 3, bars := 1, length := 100, width := 1, table := 0, desc := 0, pos := some 1000,
    earliest := 1000, window := 0, gapStart := 1000, gapStretch := 0, verified := false, overCap := false, cap := 0,
    pitch := 1200, reason := reasonData, flags := 16, omitted := 100, fired := [], settled := [(0, 100)],
    screened := [(0, 100)], firstEpoch := [], lastEpoch := [], detail := 0, printDone := [(0, 1)], ended := false,
    work := ⟨[], [], [], [], [], [], false, 0, 9000000, [], [], [], [], []⟩ }

/-- The controller awake, session 1 open in the highest role and holding control, and that page its only ticket. -/
def omittedPageCtl : Ctl :=
  ((({ Ctl.reset with phase := .up, adm := { Ctl.reset.adm with tickets := [omittedPage] } } : Ctl).setSess 1
    { Session.closed with isOpen := true, role := 3, tag := 7 }).putN Obj.controlling_session 1)

/-- Refutes O2: the third clause asks of the last ticket only that no line has fired, but `Ctl.withdrawWhile` keeps a page all of
whose lines are settled too. A page whose lines were all omitted has fired none and is settled, so the command fails
WITHDRAW_NONE where the clause says DONE. -/
theorem not_admissionCommandsComplete : ¬ Obligations.AdmissionCommandsComplete := by
  unfold Obligations.AdmissionCommandsComplete
  rintro ⟨-, -, withdrawn, -⟩
  let s : State := ⟨[], omittedPageCtl, []⟩
  let r : Req := ⟨1, 1, 7, 0, []⟩
  have reached : s.c.reaches r Obj.withdraw_from (le 4 5) := by unfold Ctl.reaches; decide +kernel
  have beyond : s.c.stopPoint ≤ omittedPage.work.before := by decide +kernel
  have done := withdrawn s r [] omittedPage rfl (by simp) rfl rfl beyond reached
  have failed := withdrawFrom_fails_of_kept s r 5 (by decide +kernel) reached
  obtain ⟨t, ⟨-, hdone, -⟩, -, hfailed⟩ := completes_and done failed
  exact absurd (hdone.symm.trans hfailed) (by decide)

end Sys2Proof.Machine
end

section
/-! PROOF. The last line of a page on a bar without nozzle groups: screened, it settles at once, the page is complete, and the
speed ceiling is recomputed (R86, R133). -/

namespace Sys2Proof.Laws

open Sys2Proof.Machine Sys2Proof.Safety

/-- SCREEN_LINE on a delivered line that is due, while the print ride runs: the line is screened, and the loop's records follow. -/
theorem exec_screenLine_due {s : State} {x : Ticket} {b n : Nat} {l : ContoneLine} (hx : s.c.nextScreen b = some (x, n))
    (hb : b < 8) (hl : s.c.contone x.number b n = some l) (hd : s.c.barAt (x.place + 64 * n) b ≤ s.c.pp + 48 * 64)
    (hr : s.c.rideRuns ridePrint = true) :
    exec (.screenLine b) s = nextMach s (s.mach.onCtl fun c => c.screen x b n l.samples).loopFlush := by
  show execScreenLine b s = _
  unfold execScreenLine
  simp only [hx, hl, hb, hd, hr, and_self, if_true]

/-- A command that completes leaves every number outside its frame as it was. -/
theorem nat_of_completes {i : Instr} {s : State} {m : Mach} {ps : List Part} {ks is_ : List Nat} {P : State → Prop} {k : Nat}
    (h : completes i s ps ks P is_) (hi : exec i s = nextMach s m) (hw : wireObject k = false) (hk : k ∉ ks)
    (hidx : k / 256 ∉ is_) : m.ctl.nat k = s.c.nat k := by
  obtain ⟨t, ht, -, -, frame⟩ := h
  obtain rfl : t = { s with mach := m } := Host.Outcome.next.inj (ht.symm.trans hi)
  rw [Ctl.nat_val, Ctl.nat_val]
  exact congrArg (fun v => v.int.toNat) (unchanged_val frame hw hk hidx)

end Sys2Proof.Laws

namespace Sys2Proof.Machine

open Sys2Proof.Safety Sys2Proof.Laws

/-- The page of the counterexample: two lines over bars 0 and 1, its cap 100,000 um/s. Bar 1 has fired both lines, and bar 0, further
along the web and without heads, has settled line 0. -/
def lastLinePage : Ticket :=
  { number := 4, hostRef := 0, slot := 3, bars := 3, length := 2, width := 1, table := 0, desc := 0, pos := some 1000,
    earliest := 1000, window := 0, gapStart := 1000, gapStretch := 0, verified := false, overCap := false, cap := 100000,
    pitch := 1200, reason := 0, flags := 0, omitted := 0, fired := [(0, 1), (1, 2)], settled := [(0, 1), (1, 2)],
    screened := [(0, 1), (1, 2)], firstEpoch := [], lastEpoch := [], detail := 0, printDone := [(0, 1), (1, 1)], ended := false,
    work := ⟨[], [], [], [], [], [], true, 0, 0, [], [], [], [], []⟩ }

/-- A like page far behind it, of which nothing is fetched yet: the horizon lies at its end. -/
def followingPage : Ticket :=
  { lastLinePage with
      number := 5, pos := some 10000000, earliest := 10000000, gapStart := 10000000, fired := [], settled := [], screened := [],
      printDone := [], work := { lastLinePage.work with struck := false } }

/-- The state with both pages and line 1 of bar 0 in the store, the print ride running. The ceiling is computed: the first page is
firing, so its cap binds (R85). -/
def lastLineState : State :=
  let c : Ctl := { Ctl.reset with
    phase := .up
    adm := { Ctl.reset.adm with tickets := [lastLinePage, followingPage], stopped := false }
    page := { Ctl.reset.page with lines := [⟨4, 0, 1, zeros 256⟩] } }
  let d := ((((c.putN (Obj.ride_state ridePrint) 2).putN Obj.print_position 2000).putN (Obj.bar_offset 0) 1000000).putN
    Obj.head_line_rate_max 100000).putN Obj.horizon_end 10000128
  ⟨[], d.receiling, []⟩

/-- Line 1 of bar 0 screened: the ceiling was the page's cap, and is now what the heads allow at this line pitch. -/
theorem lastLine_moves_ceiling :
    lastLineState.c.nat Obj.speed_ceiling = 100000 ∧
      (lastLineState.mach.onCtl fun c => c.screen lastLinePage 0 1 (zeros 256)).loopFlush.ctl.nat Obj.speed_ceiling = 2116666 := by
  decide +kernel

/-- Refutes O16: the third clause lets a line screened change no object but `pages_gapped`. On a bar without groups the line
settles at once (`Ctl.settleLine`), and where it is the last line of its page the ceiling is recomputed (`Ctl.ceilingAfter`, R86):
6000:01 goes from the page's cap to the term that binds next. -/
theorem not_fetchAndScreenComplete : ¬ Obligations.FetchAndScreenComplete := by
  unfold Obligations.FetchAndScreenComplete
  rintro ⟨-, -, screened⟩
  have next : lastLineState.c.nextScreen 0 = some (lastLinePage, 1) := by decide +kernel
  have stored : lastLineState.c.contone lastLinePage.number 0 1 = some ⟨4, 0, 1, zeros 256⟩ := by decide +kernel
  have due : lastLineState.c.barAt (lastLinePage.place + 64 * 1) 0 ≤ lastLineState.c.pp + 48 * 64 := by decide +kernel
  have runs : lastLineState.c.rideRuns ridePrint = true := by decide +kernel
  obtain ⟨pending, outs, outbox⟩ : (lastLineState.c.careBar 0).pending = [] ∧ (lastLineState.c.careBar 0).outs = [] ∧
      lastLineState.c.loop.outbox = [] := by decide +kernel
  have done := screened lastLineState lastLinePage 0 1 _ next (by decide) (by decide) stored due runs pending outs outbox
  have ran := exec_screenLine_due next (by decide) stored due runs
  have kept := nat_of_completes (k := Obj.speed_ceiling) done ran (by decide) (by decide) List.not_mem_nil
  obtain ⟨before, after⟩ := lastLine_moves_ceiling
  exact absurd (after.symm.trans (kept.trans before)) (by decide)

end Sys2Proof.Machine
end

section
/-! PROOF. What the two families of the screening chapter share: objects that serving a request leaves, the cellar's use, bytes of the
cellar read after a write (R33, R337, R351). -/

namespace Sys2Proof.Laws

open Sys2Proof.Machine Sys2Proof.Safety

/-! ### Controllers that show the same objects -/

/-- Two controllers show the same value of every object but those that serving a request may change. -/
def sameObjects (c d : Ctl) : Prop := ∀ k, wireObject k = false → d.val k = c.val k

theorem Wired.sameObjects {c d : Ctl} (h : Wired c d) : sameObjects c d := h.val

/-- The objects that serving a request may change lie below index 2512. -/
theorem wireObject_high {k : Nat} (h : 0x251200 ≤ k) : wireObject k = false := by
  simp only [wireObject, bellObject, Bool.or_eq_false_iff, decide_eq_false_iff_not, beq_eq_false_iff_ne]
  refine ⟨⟨⟨fun e => ?_, by omega⟩, by omega⟩, by omega⟩
  have : Obj.rings_total < 0x251200 := by decide
  omega

section same
variable {c d : Ctl} (h : sameObjects c d)
include h

theorem sameObjects.nat {k : Nat} (hk : wireObject k = false) : d.nat k = c.nat k := by
  rw [Ctl.nat_val, Ctl.nat_val, h k hk]

theorem sameObjects.usable : d.usable = c.usable := h.nat (by decide)

theorem sameObjects.cellarUp : d.cellarUp = c.cellarUp := by
  unfold Ctl.cellarUp
  rw [h.usable, h.nat (by decide : wireObject (Obj.ride_state 6) = false)]

theorem sameObjects.libraryAt (a : Nat) : d.libraryAt a = c.libraryAt a := by
  unfold Ctl.libraryAt
  rw [h.usable]

theorem sameObjects.loadOk (a n : Nat) : d.loadOk a n = c.loadOk a n := by
  unfold Ctl.loadOk Ctl.inCrates
  rw [h.nat (by decide : wireObject Obj.crate_base = false), h.nat (by decide : wireObject Obj.crate_bytes = false)]

theorem sameObjects.rangeFrozen (a n : Nat) : d.rangeFrozen a n = c.rangeFrozen a n := by
  have frozen : d.frozen = c.frozen := funext fun m => by
    unfold Ctl.frozen
    rw [h.nat (wireObject_high (by unfold Obj.mc_state; omega))]
  unfold Ctl.rangeFrozen
  rw [frozen]

end same

/-! ### Frames of the cellar -/

section cellar
variable {ps : List Part} {ks is_ : List Nat} (c : Ctl)

/-- The cellar's bytes may be replaced where the frame names them. -/
theorem un_cellar (a : Mach) (x y : Kv Byte) (h : Part.cellar ∈ ps) :
    unchangedBut ps ks is_ a ⟨c, y⟩ ↔ unchangedBut ps ks is_ a ⟨c, x⟩ := by
  have step : unchangedBut ps ks is_ ⟨c, x⟩ ⟨c, y⟩ := ⟨fun p hp => by cases p <;> simp_all [kept], fun _ _ _ _ => rfl⟩
  exact unchanged_iff step a

/-- While the cellar is up, its use changes only when it was used and the states of its controllers (R351). -/
theorem useCellar_unchanged (x : Kv Byte) (hu : c.cellarUp = true) (hp : Part.cellarCtl ∈ ps) (h0 : Obj.mc_state 0 ∈ ks)
    (h1 : Obj.mc_state 1 ∈ ks) : unchangedBut ps ks is_ ⟨c, x⟩ ⟨c.useCellar, x⟩ := by
  have ride : c.needRide rideCellar = c := by
    simp only [Ctl.cellarUp, Bool.and_eq_true, Bool.or_eq_true, beq_iff_eq] at hu
    refine if_neg fun stopped => ?_
    change c.nat (Obj.ride_state 6) = 0 ∨ c.nat (Obj.ride_state 6) = 3 at stopped
    omega
  unfold Ctl.useCellar
  rw [ride, un_forEach]
  · exact (un_setMem _ c x _ hp).2 (unchanged_refl _)
  · intro d m hm
    have shown : Obj.mc_state m ∈ ks := by
      rcases List.mem_cons.1 hm with rfl | hm
      · exact h0
      · exact List.mem_singleton.1 hm ▸ h1
    split
    · exact (un_put_key _ d x _ shown).2 (unchanged_refl _)
    · exact unchanged_refl _

variable {c}

/-- The least frame of a use of the cellar. -/
theorem useCellar_frame (hu : c.cellarUp = true) :
    unchangedBut [.cellarCtl] [Obj.mc_state 0, Obj.mc_state 1] [] ⟨c, []⟩ ⟨c.useCellar, []⟩ :=
  useCellar_unchanged c [] hu (by simp) (by simp) (by simp)

end cellar

/-! ### A command that ends at once -/

theorem cmdNow_adm (c : Ctl) (k n src u : Nat) : (c.cmdNow k n src u).adm = c.adm := by
  simp [Ctl.cmdNow, Ctl.cmdDone, Ctl.cmdRun]

theorem cmdNow_care (c : Ctl) (k n src u : Nat) : (c.cmdNow k n src u).care = c.care := by
  simp [Ctl.cmdNow, Ctl.cmdDone, Ctl.cmdRun]

/-! ### Fields of an argument -/

theorem leVal_lt (b : List Byte) : leVal b < 256 ^ b.length := by
  induction b with
  | nil => simp [leVal]
  | cons x r ih =>
    have := x.isLt
    simp only [leVal, List.length_cons, Nat.pow_succ]
    omega

/-- A field of `n` bytes is a number of `n` bytes. -/
theorem fld_lt (b : List Byte) (o n : Nat) : fld b o n < 256 ^ n :=
  Nat.lt_of_lt_of_le (leVal_lt _) (Nat.pow_le_pow_right (by decide) (List.length_take_le _ _))

/-! ### Bytes read after a write -/

theorem filter_filter_disjoint {α : Type} (l : List α) {p q : α → Bool} (h : ∀ e, q e = true → p e = false) :
    (l.filter q).filter p = [] := by
  rw [List.filter_eq_nil_iff]
  intro e he
  rw [h e (List.mem_filter.1 he).2]
  exact Bool.false_ne_true

/-- Inside the range of a write the store lists the cells written, and no others. -/
theorem memWrite_filter_inside (m : Kv Byte) {a p n : Nat} {b : List Byte} (h1 : a ≤ p) (h2 : p + n ≤ a + b.length) :
    (memWrite m a b).filter (fun e => decide (p ≤ e.1 ∧ e.1 < p + n)) =
      (memCells a b).filter (fun e => decide (p ≤ e.1 ∧ e.1 < p + n)) := by
  unfold memWrite
  rw [List.filter_append, List.filter_append, filter_filter_disjoint, filter_filter_disjoint, List.nil_append, List.append_nil]
  · intro e he
    simp only [decide_eq_true_eq, decide_eq_false_iff_not] at he ⊢
    omega
  · intro e he
    simp only [decide_eq_true_eq, decide_eq_false_iff_not] at he ⊢
    omega

/-- Bytes written are read back, in whole or in part, whatever the cellar held. -/
theorem memRead_memWrite (m : Kv Byte) {a p n : Nat} {b : List Byte} (h1 : a ≤ p) (h2 : p + n ≤ a + b.length) :
    memRead (memWrite m a b) p n = slice b (p - a) n := by
  have cells : memRead (memWrite m a b) p n = memRead (memCells a b) p n := by
    unfold memRead
    rw [memWrite_filter_inside m h1 h2]
  rw [cells, memRead_get (memCells_wf a b)]
  refine List.ext_getElem (by simp [slice]; omega) fun i hi _ => ?_
  have hn : i < n := by simpa using hi
  simp only [List.getElem_map, List.getElem_range, memGet, memCells_get, slice, List.getElem_take, List.getElem_drop]
  have at_ : p + i - a = p - a + i := by omega
  have inside : p - a + i < b.length := by omega
  rw [if_pos (by omega), at_, List.getD_eq_getElem?_getD, List.getElem?_eq_getElem inside, Option.getD_some]

theorem memGet_memWrite_outside (m : Kv Byte) {a x : Nat} {b : List Byte} (h : x < a ∨ a + b.length ≤ x) :
    memGet (memWrite m a b) x = memGet m x := by
  rw [memGet_memWrite, if_neg (by omega)]

end Sys2Proof.Laws
end

section
/-! PROOF. Curves and arrays of the screen library are loaded and cleared (R121 to R123). -/

namespace Sys2Proof.Laws

open Sys2Proof.Machine Sys2Proof.Safety

/-! ### The objects of the library -/

/-- An object of one curve or array, at an index from 4001 on: above the library's commands, below the slots. -/
abbrev itemObject (k : Nat) : Prop := 0x400100 ≤ k ∧ k < 0x500000

/-- A command of the library, at index 4000. -/
abbrev libraryCommand (k : Nat) : Prop := 0x400000 ≤ k ∧ k < 0x400100

theorem itemObject_array_state {n : Nat} (h : n < 256) : itemObject (Obj.array_state n) := by
  unfold Obj.array_state; omega

theorem itemObject_tone_curve {n : Nat} (h : n < 256) : itemObject (Obj.tone_curve n) := by
  unfold Obj.tone_curve; omega

theorem itemObject_curve_state {n : Nat} (h : n < 256) : itemObject (Obj.curve_state n) := by
  unfold Obj.curve_state; omega

theorem itemObject_wire {k : Nat} (h : itemObject k) : wireObject k = false := wireObject_high (by have := h.1; omega)

theorem libraryCommand_wire {k : Nat} (h : libraryCommand k) : wireObject k = false :=
  wireObject_high (by have := h.1; omega)

theorem libraryCommand_ne_item {k j : Nat} (h : libraryCommand k) (hj : itemObject j) : k ≠ j := by
  have := h.2
  have := hj.1
  omega

/-- The objects of the library are no validations of slots. -/
theorem not_validation {k : Nat} (h : k < 0x500000) : k ∉ validations := by
  intro hk
  obtain ⟨n, _, rfl⟩ := List.mem_map.1 hk
  unfold Obj.validation at h
  omega

/-! ### A change of the library -/

section change
variable {ps : List Part} {ks is_ : List Nat}

/-- A frame without the admission's part keeps the descriptor that waits. -/
theorem unchanged_waiting {a b : Mach} (h : unchangedBut ps ks is_ a b) (hp : Part.admission ∉ ps) :
    b.ctl.adm.waiting = a.ctl.adm.waiting := by
  have same : b.ctl.adm = { a.ctl.adm with changed := b.ctl.adm.changed } := h.1 .admission hp
  rw [same]

/-- A library change validates the slots afresh, and notes itself for the descriptor that waits (R123). -/
theorem libraryChanged_unchanged (m : Mach) (y : Recheck) (h : ∀ k ∈ validations, k ∈ ks) :
    unchangedBut ps ks is_ m (m.libraryChanged y) := by
  have slots : unchangedBut ps ks is_ m ⟨m.ctl.revalidateAll, m.cellar⟩ := by
    unfold Ctl.revalidateAll
    rw [un_forEach]
    · exact unchanged_refl _
    · intro d n hn
      exact revalidate_unchanged d m.cellar n (h _ (List.mem_map.2 ⟨n, hn, rfl⟩))
  exact unchanged_trans slots (noteChange_unchanged _ m.cellar y)

/-- Checked again with no descriptor waiting, an owner's machine only forgets the cycle's changes. -/
theorem rechecked_of_idle {own : Nat → Mach → Nat × Mach} {n st : Nat} {m m' : Mach} (h : own n m.newCycle = (st, m'))
    (idle : m'.ctl.adm.waiting = none) : rechecked own n m = (st, m'.newCycle) := by
  simp only [rechecked, h, recheck_of_idle idle]

/-- The write of a library object while no descriptor waits: what is left to show is that its owner brings about a machine `m1`
with the write's own effect, of which the change of the library then leaves all but the validations. -/
theorem libraryRow_completes {i : Instr} {s : State} {r : Req} {key : Nat} {b : List Byte} (own : Nat → Mach → Nat × Mach)
    (st : Nat) (y : Recheck) {P : State → Prop} (hi : exec i s = nextMach s (s.mach.writeRow r key b (rechecked own)))
    (hr : s.c.reaches r key b) (hw : s.c.adm.waiting = none) (hs : Part.sessions ∉ ps) (hv : ∀ k ∈ validations, k ∈ ks)
    (H : ∀ c, sameObjects s.c c → c.adm.waiting = none → r.session < 16 →
      ∃ m1, own r.session ⟨c, s.mach.cellar⟩ = (st, m1.libraryChanged y) ∧ m1.ctl.adm.waiting = none ∧
        unchangedBut ps ks is_ ⟨c, s.mach.cellar⟩ m1 ∧
        ∀ t : State, t.mach.cellar = m1.cellar →
          (∀ k, wireObject k = false → k < 0x500000 → t.c.val k = m1.ctl.val k) → P t) :
    completes i s ps ks (fun t => answered t r key st ∧ P t) is_ := by
  refine writeRow_completes (rechecked own) st hi hr fun c w _ hm => ?_
  have idle0 : c.adm.waiting = none := by rw [w.adm]; exact hw
  obtain ⟨m1, owned, idle, frame, effect⟩ := H (Mach.newCycle ⟨c, s.mach.cellar⟩).ctl w.val idle0 hm
  have later : unchangedBut ps ks is_ m1 (m1.libraryChanged y) := libraryChanged_unchanged m1 y hv
  have later0 : unchangedBut [] validations [] m1 (m1.libraryChanged y) := libraryChanged_unchanged m1 y fun _ h => h
  have bytes : (m1.libraryChanged y).cellar = m1.cellar := Mach.onCtl_cellar ..
  generalize m1.libraryChanged y = m2 at owned later later0 bytes
  have idle2 : m2.ctl.adm.waiting = none := (unchanged_waiting later0 List.not_mem_nil).trans idle
  rw [rechecked_of_idle (m := ⟨c, s.mach.cellar⟩) owned idle2]
  refine ⟨rfl, .inr hs, ?_, fun d w' => effect _ bytes fun k hw hk => ?_⟩
  · exact unchanged_trans (newCycle_unchanged _) (unchanged_trans frame (unchanged_trans later (newCycle_unchanged _)))
  · exact (w'.val k hw).trans (unchanged_val later0 hw (not_validation hk) List.not_mem_nil)

/-- A library command that ends at once, likewise: `c1` and `x1` are what its owner makes of controller and cellar. -/
theorem libraryCmd_completes {i : Instr} {s : State} {r : Req} {key : Nat} {b : List Byte} (own : Nat → Mach → Nat × Mach)
    (y : Recheck) {P : State → Prop} (hi : exec i s = nextMach s (s.mach.writeRow r key b (rechecked own)))
    (hr : s.c.reaches r key b) (hkey : libraryCommand key) (hw : s.c.adm.waiting = none) (hs : Part.sessions ∉ ps)
    (hv : ∀ k ∈ validations, k ∈ ks)
    (H : ∀ c, sameObjects s.c c → c.adm.waiting = none →
      ∃ c1 x1, own r.session ⟨c, s.mach.cellar⟩ =
          (St.STARTED, (⟨c1.cmdNow key r.session Src.CARE_CMD_DONE, x1⟩ : Mach).libraryChanged y) ∧
        c1.adm.waiting = none ∧ unchangedBut ps (key :: ks) is_ ⟨c, s.mach.cellar⟩ ⟨c1, x1⟩ ∧
        ∀ t : State, t.mach.cellar = x1 → (∀ k, itemObject k → t.c.val k = c1.val k) → P t) :
    completes i s ps (key :: ks) (fun t => answered t r key St.STARTED ∧ t.c.nat key = cmdWord 2 r.session 0 ∧ P t) is_ := by
  refine libraryRow_completes own _ y hi hr hw hs (fun k hk => List.mem_cons_of_mem _ (hv k hk)) fun c same idle hm => ?_
  obtain ⟨c1, x1, owned, idle1, frame, effect⟩ := H c same idle
  refine ⟨_, owned, (congrArg Admission.waiting (cmdNow_adm ..)).trans idle1, (un_cmdNow _ _ _ _ _ _ List.mem_cons_self).2 frame,
    fun t bytes shows => ⟨?_, effect t bytes fun k hk => ?_⟩⟩
  · rw [Ctl.nat_val, shows key (libraryCommand_wire hkey) (by have := hkey.2; omega), ← Ctl.nat_val]
    exact nat_cmdNow _ _ _ _ _ (bellObject_wire (libraryCommand_wire hkey)) hm
  · rw [shows k (itemObject_wire hk) hk.2]
    exact val_cmdNow_other _ _ _ _ (libraryCommand_ne_item hkey hk) (bellObject_wire (itemObject_wire hk))

end change

/-! ### Resident copies of an array -/

/-- Discarding the copies of an array changes the places and the object that shows them (R123). -/
theorem evict_unchanged {ps : List Part} {ks is_ : List Nat} (c : Ctl) (x : Kv Byte) (a : Nat) (hp : Part.admission ∈ ps)
    (hk : Obj.resident_arrays ∈ ks) : unchangedBut ps ks is_ ⟨c, x⟩ ⟨c.evict a, x⟩ := by
  unfold Ctl.evict
  rw [un_forEach]
  · exact unchanged_refl _
  · intro d p _
    split
    · exact (un_setAdm _ _ _ _ hp).2 ((un_put_key _ _ _ _ hk).2 (unchanged_refl _))
    · exact unchanged_refl _

theorem evict_waiting (c : Ctl) (a : Nat) : (c.evict a).adm.waiting = c.adm.waiting := by
  unfold Ctl.evict forEach
  refine List.foldlRecOn (motive := fun d : Ctl => d.adm.waiting = c.adm.waiting) _ _ rfl fun d hd p _ => ?_
  split
  · exact hd
  · exact hd

end Sys2Proof.Laws

namespace Sys2Proof.Machine

open Sys2Proof.Safety Sys2Proof.Laws

/-- A curve that no sealed slot uses takes the bytes written and is LOADED (R121). -/
theorem toneCurveWrite_completes (s : State) (r : Req) (curve : Nat) (value : List Byte) (hn : curve < 256)
    (hc : s.c.nat (Obj.curve_state curve) ≠ 2) (hw : s.c.adm.waiting = none) :
    completesWrite r (Obj.tone_curve curve) value St.OK (.toneCurveWrite r curve value) s []
      (Obj.curve_state curve :: validations) fun t =>
      t.c.oct (Obj.tone_curve curve) = value ∧ t.c.nat (Obj.curve_state curve) = 1 := by
  intro hr
  have hcurve := itemObject_tone_curve hn
  have hstate := itemObject_curve_state hn
  refine libraryRow_completes (fun _ m => ownToneCurve curve value m) _ (.curve curve) rfl hr hw (by simp) (by simp_all)
    fun c same idle _ => ?_
  have hc' : c.nat (Obj.curve_state curve) ≠ 2 := by rw [same.nat (itemObject_wire hstate)]; exact hc
  refine ⟨⟨(c.putO (Obj.tone_curve curve) value).putN (Obj.curve_state curve) 1, s.mach.cellar⟩, if_neg hc', idle, ?_,
    fun t _ shows => ⟨?_, ?_⟩⟩
  · simp [unchanged_refl]
  · rw [Ctl.oct_val, shows _ (itemObject_wire hcurve) hcurve.2]
    simp [Ctl.val_put]
  · rw [Ctl.nat_val, shows _ (itemObject_wire hstate) hstate.2]
    simp

/-- A curve that no sealed slot uses holds zeros once cleared, and is EMPTY (R123). -/
theorem curveClear_completes (s : State) (r : Req) (arg : Nat) (hn : arg < 256)
    (hc : s.c.nat (Obj.curve_state arg) ≠ 2) (hw : s.c.adm.waiting = none) :
    completesCmd r Obj.curve_clear (arg1 arg) 2 (.curveClear r arg) s []
      (Obj.tone_curve arg :: Obj.curve_state arg :: validations) fun t =>
      t.c.oct (Obj.tone_curve arg) = zeros 512 ∧ t.c.nat (Obj.curve_state arg) = 0 := by
  intro hr
  refine libraryCmd_completes (ownCurveClear arg) (.curve arg) rfl hr (by decide) hw (by simp)
    (by simp_all) fun c same idle => ?_
  have hc' : c.nat (Obj.curve_state arg) ≠ 2 := by rw [same.nat (itemObject_wire (itemObject_curve_state hn))]; exact hc
  refine ⟨(c.putO (Obj.tone_curve arg) (zeros 512)).putN (Obj.curve_state arg) 0, s.mach.cellar, if_neg hc', idle, ?_,
    fun t _ shows => ⟨?_, ?_⟩⟩
  · simp [unchanged_refl]
  · rw [Ctl.oct_val, shows _ (itemObject_tone_curve hn)]
    simp [Ctl.val_put]
  · rw [Ctl.nat_val, shows _ (itemObject_curve_state hn)]
    simp

/-- The owner of array_load whose checks all pass (R122). -/
theorem ownArrayLoad_of_checks {c : Ctl} {x : Kv Byte} {v b : List Byte} (n : Nat)
    (hb : memRead x (fld v 0 8) arrayBytes = b) (hl : c.loadOk (fld v 0 8) arrayBytes = true)
    (hs : c.nat (Obj.array_state (fld v 12 1)) ≠ 2) (hf : c.rangeFrozen (fld v 0 8) arrayBytes = false)
    (hg : c.rangeFrozen (c.libraryAt (fld v 12 1)) arrayBytes = false) (hc : crc32c b = fld v 8 4)
    (ho : orderBreak 65536 0 b = none) :
    ownArrayLoad v n ⟨c, x⟩ = (St.STARTED, (⟨((c.useCellar.evict (fld v 12 1)).putN (Obj.array_state (fld v 12 1)) 1).cmdNow
      Obj.array_load n Src.CARE_CMD_DONE, memWrite x (c.libraryAt (fld v 12 1)) b⟩ : Mach).libraryChanged (.array (fld v 12 1))) := by
  simp only [ownArrayLoad, hb, hl, hs, hf, hg, hc, ho, Bool.not_true, Bool.false_eq_true, if_false, Bool.or_self, ne_eq,
    not_true]

/-- An array of the crate region that passes its checks is stored in the library and LOADED (R122, R123). -/
theorem arrayLoad_completes (s : State) (r : Req) (value b : List Byte) (k : Nat) (hk : fld value 12 1 = k)
    (hb : memRead s.mach.cellar (fld value 0 8) 458752 = b) (hl : s.c.loadOk (fld value 0 8) 458752)
    (hs : s.c.nat (Obj.array_state k) ≠ 2) (hf : s.c.rangeFrozen (fld value 0 8) 458752 = false)
    (hg : s.c.rangeFrozen (s.c.libraryAt k) 458752 = false) (hc : crc32c b = fld value 8 4)
    (ho : orderBreak 65536 0 b = none) (hw : s.c.adm.waiting = none) (hu : s.c.cellarUp) :
    completesCmd r Obj.array_load value 2 (.arrayLoad r value) s [.cellar, .cellarCtl, .admission]
      (Obj.array_state k :: Obj.resident_arrays :: Obj.mc_state 0 :: Obj.mc_state 1 :: validations) fun t =>
      t.c.nat (Obj.array_state k) = 1 ∧ memRead t.mach.cellar (s.c.libraryAt k) 458752 = b ∧
        ∀ x, x < s.c.libraryAt k ∨ s.c.libraryAt k + 458752 ≤ x → memGet t.mach.cellar x = memGet s.mach.cellar x := by
  intro hr
  have hk256 : k < 256 := hk ▸ fld_lt value 12 1
  have hlen : b.length = 458752 := by rw [← hb]; exact memRead_length ..
  subst hk
  refine libraryCmd_completes (ownArrayLoad value) (.array (fld value 12 1)) rfl hr (by decide) hw
    (by simp) (by simp_all) fun c same idle => ?_
  have hu' : c.cellarUp = true := same.cellarUp.trans hu
  refine ⟨_, _, ownArrayLoad_of_checks r.session hb ?_ ?_ ?_ ?_ hc ho, ?_, ?_, fun t bytes shows => ⟨?_, ?_, fun x hx => ?_⟩⟩
  · exact (same.loadOk ..).trans hl
  · rw [same.nat (itemObject_wire (itemObject_array_state hk256))]; exact hs
  · exact (same.rangeFrozen ..).trans hf
  · rw [same.libraryAt, same.rangeFrozen]; exact hg
  · rw [Ctl.putN_put, Ctl.put_adm, evict_waiting]
    exact (unchanged_waiting (useCellar_frame hu') (by simp)).trans idle
  · refine (un_cellar _ _ s.mach.cellar _ (by simp)).2 ?_
    rw [Ctl.putN_put, un_put_key _ _ _ _ (by simp), unchanged_iff (evict_unchanged _ _ _ (by simp) (by simp))]
    exact useCellar_unchanged _ _ hu' (by simp) (by simp) (by simp)
  · rw [Ctl.nat_val, shows _ (itemObject_array_state hk256)]
    simp
  · rw [bytes, same.libraryAt, memRead_memWrite _ (Nat.le_refl _) (by omega)]
    simp [slice, ← hlen]
  · rw [bytes, same.libraryAt]
    exact memGet_memWrite_outside _ (by omega)

/-- An array that no sealed slot uses is EMPTY once cleared (R123). -/
theorem arrayClear_completes (s : State) (r : Req) (arg : Nat) (hn : arg < 64)
    (hc : s.c.nat (Obj.array_state arg) ≠ 2) (hw : s.c.adm.waiting = none) :
    completesCmd r Obj.array_clear (arg1 arg) 2 (.arrayClear r arg) s [.admission]
      (Obj.array_state arg :: Obj.resident_arrays :: validations) fun t => t.c.nat (Obj.array_state arg) = 0 := by
  intro hr
  have hstate : itemObject (Obj.array_state arg) := itemObject_array_state (by omega)
  refine libraryCmd_completes (ownArrayClear arg) (.array arg) rfl hr (by decide) hw (by simp)
    (by simp_all) fun c same idle => ?_
  have hc' : c.nat (Obj.array_state arg) ≠ 2 := by rw [same.nat (itemObject_wire hstate)]; exact hc
  refine ⟨(c.evict arg).putN (Obj.array_state arg) 0, s.mach.cellar, if_neg hc', ?_, ?_, fun t _ shows => ?_⟩
  · rw [Ctl.putN_put, Ctl.put_adm, evict_waiting]; exact idle
  · rw [Ctl.putN_put, un_put_key _ _ _ _ (by simp)]
    exact evict_unchanged _ _ _ (by simp) (by simp)
  · rw [Ctl.nat_val, shows _ hstate]
    simp

/-- Settles O10: each of the four library commands completes. -/
theorem libraryCommandsComplete : Obligations.LibraryCommandsComplete :=
  ⟨toneCurveWrite_completes, curveClear_completes, arrayLoad_completes, arrayClear_completes⟩

end Sys2Proof.Machine
end

section
/-! PROOF. The care table: entries written over it, what serving a request leaves of it, the commits of a load and of a frame, and
what they change (R124, R127, R129, R136). -/

namespace Sys2Proof.Laws

open Sys2Proof.Machine Sys2Proof.Safety

/-! ### Entries written over a table -/

theorem overlay_cons (t : Kv Nat) (e : Nat × Nat) (es : List (Nat × Nat)) :
    overlay t (e :: es) = overlay (kvSet 0 t e.1 e.2) es := rfl

theorem overlay_append (t : Kv Nat) (as bs : List (Nat × Nat)) : overlay t (as ++ bs) = overlay (overlay t as) bs :=
  List.foldl_append ..

theorem kvGet_overlay_absent (t : Kv Nat) (es : List (Nat × Nat)) {x : Nat} (h : ∀ e ∈ es, e.1 ≠ x) :
    kvGet 0 (overlay t es) x = kvGet 0 t x := by
  induction es generalizing t with
  | nil => rfl
  | cons e r ih =>
    obtain ⟨he, hr⟩ := List.forall_mem_cons.1 h
    rw [overlay_cons, ih _ hr, kvGet_set_other 0 0 t _ he]

/-- An entry is read from the table it was written over, if no entry for the same key says otherwise. -/
theorem kvGet_overlay_mem (t : Kv Nat) (es : List (Nat × Nat)) {x v : Nat} (hm : (x, v) ∈ es)
    (hu : ∀ e ∈ es, e.1 = x → e.2 = v) : kvGet 0 (overlay t es) x = v := by
  induction es generalizing t with
  | nil => cases hm
  | cons e r ih =>
    obtain ⟨he, hr⟩ := List.forall_mem_cons.1 hu
    rw [overlay_cons]
    by_cases hx : (x, v) ∈ r
    · exact ih _ hx hr
    · obtain rfl : (x, v) = e := (List.mem_cons.1 hm).resolve_right hx
      have absent : ∀ f ∈ r, f.1 ≠ x := fun f hf hfx => hx ((Prod.ext hfx (hr f hf hfx) : f = (x, v)) ▸ hf)
      rw [kvGet_overlay_absent _ _ absent, kvGet_set_same]

/-! ### What serving a request leaves of the table's rules -/

section wired
variable {c d : Ctl} (h : Wired c d)
include h

theorem Wired.chainBar (ch : Nat) : d.chainBar ch = c.chainBar ch := by
  unfold Ctl.chainBar
  rw [h.nat (wireObject_high (by unfold Obj.chain_bar; omega))]

theorem Wired.barOfNozzle (z : Nat) : d.barOfNozzle z = c.barOfNozzle z := h.chainBar _

theorem Wired.capability (n : Nat) : d.oct (Obj.capability n) = c.oct (Obj.capability n) :=
  h.oct (wireObject_high (by unfold Obj.capability; omega))

theorem Wired.recordKnown (n : Nat) : d.recordKnown n = c.recordKnown n := by
  unfold Ctl.recordKnown
  rw [h.capability]

theorem Wired.headMissing (n : Nat) : d.headMissing n = c.headMissing n := by
  unfold Ctl.headMissing
  rw [h.chn, h.nat (wireObject_high (by unfold Obj.head_state; omega))]

theorem Wired.sameSpot (t : Kv Nat) (z e role : Nat) : d.sameSpot t z e role = c.sameSpot t z e role := by
  simp only [Ctl.sameSpot, h.barOfNozzle]

theorem Wired.sameRow (z : Nat) : d.sameRow z = c.sameRow z := by
  funext y
  simp only [Ctl.sameRow, h.capability, h.recordKnown]

theorem Wired.orderFault (t : Kv Nat) (z : Nat) : d.orderFault t z = c.orderFault t z := by
  simp only [Ctl.orderFault, h.headMissing, h.recordKnown, h.capability, h.sameSpot, h.sameRow, h.barOfNozzle]

theorem Wired.admissible (t : Kv Nat) (f : Nat) (es : List (Nat × Nat)) : d.admissible t f es = c.admissible t f es := by
  induction f generalizing es with
  | zero => rfl
  | succ f ih => simp only [Ctl.admissible, h.orderFault, ih]

theorem Wired.retiredLocked (role z v : Nat) : d.retiredLocked role z v = c.retiredLocked role z v := by
  unfold Ctl.retiredLocked
  rw [h.care]

theorem Wired.loadCode (role : Nat) (es : List CareEntry) : d.loadCode role es = c.loadCode role es := by
  simp only [Ctl.loadCode, h.care, h.retiredLocked, h.orderFault]

theorem Wired.commitsOf (b : Nat) : d.commitsOf b = c.commitsOf b := by
  unfold Ctl.commitsOf Ctl.careBar
  rw [h.care]

theorem Wired.stageFull (b n : Nat) : d.stageFull b n = c.stageFull b n := by
  unfold Ctl.stageFull Ctl.stagedEntries
  rw [h.commitsOf, h.care]

theorem Wired.loadEntries (bytes : List Byte) (first n : Nat) : loadEntries d bytes first n = loadEntries c bytes first n := by
  induction n generalizing bytes first with
  | zero => rfl
  | succ n ih => simp only [Machine.loadEntries, ih, h.barOfNozzle]

end wired

/-! ### The bar of an entry -/

theorem chainBar_lt {c : Ctl} {ch b : Nat} (h : c.chainBar ch = some b) : b < 8 := by
  unfold Ctl.chainBar at h
  split at h
  · next hlt => exact Option.some.inj h ▸ hlt
  · cases h

/-- A nozzle with a role that breaks no rule of the running order lies on a bar (R127). -/
theorem orderFault_zero_bar {c : Ctl} {t : Kv Nat} {z : Nat} (h : c.orderFault t z = 0) (hr : nozRole (kvGet 0 t z) ≠ 0) :
    c.barOfNozzle z ≠ none := by
  intro hb
  simp only [Ctl.orderFault, hr, hb, if_false, if_true] at h
  repeat' split at h
  all_goals exact absurd h (by decide)

/-- A nozzle's entry that breaks no rule is stored at once, or belongs to one of the bars (R136). -/
theorem entry_placed {c : Ctl} {t : Kv Nat} {e : CareEntry} (hz : e.item < 2 ^ 19) (hb : e.bar = c.barOfNozzle e.item)
    (hv : kvGet 0 t e.item = e.value) (ho : e.loose = true ∨ c.orderFault t e.item = 0) :
    e.loose = true ∨ ∃ b < 8, e.bar = some b := by
  cases hbar : e.bar with
  | some b => exact .inr ⟨b, chainBar_lt (hb.symm.trans hbar), rfl⟩
  | none =>
    refine .inl (ho.elim id fun hfault => ?_)
    have unused : nozRole e.value = 0 := Decidable.byContradiction fun hrole =>
      orderFault_zero_bar hfault (by rwa [hv]) (hb.symm.trans hbar)
    have nozzle : e.nozzle = true := decide_eq_true hz
    simp [CareEntry.loose, nozzle, hbar, unused]

/-! ### What a commit writes -/

/-- A repeated update of which each round writes entries over the table writes them all, in order. -/
theorem forEach_written {α : Type} (f : Ctl → α → Ctl) (w : α → List (Nat × Nat)) (xs : List α)
    (h : ∀ d, ∀ a ∈ xs, (f d a).care.written = overlay d.care.written (w a)) (c : Ctl) :
    (forEach xs f c).care.written = overlay c.care.written (xs.flatMap w) := by
  unfold forEach
  induction xs generalizing c with
  | nil => rfl
  | cons a r ih =>
    rw [List.foldl_cons, ih fun d b hb => h d b (List.mem_cons_of_mem _ hb), h c a List.mem_cons_self,
      List.flatMap_cons, overlay_append]

section frame
variable {ps : List Part} {ks is_ : List Nat}

theorem stampEntries_unchanged (c : Ctl) (x : Kv Byte) (b s : Nat) (es : List (Nat × Nat)) (hl : Part.loop ∈ ps) :
    unchangedBut ps ks is_ ⟨c, x⟩ ⟨c.stampEntries b s es, x⟩ := by
  unfold Ctl.stampEntries
  rw [un_forEach]
  · exact unchanged_refl _
  · intro d e _
    split <;> exact (un_setLoop _ d x _ hl).2 (unchanged_refl _)

theorem stampEntries_care (c : Ctl) (b s : Nat) (es : List (Nat × Nat)) : (c.stampEntries b s es).care = c.care :=
  (stampEntries_unchanged (ps := [.loop]) (ks := []) (is_ := []) c [] b s es (by simp)).1 .care (by simp)

theorem writeEntries_unchanged (c : Ctl) (x : Kv Byte) (b : Nat) {es : List (Nat × Nat)} (hz : ∀ e ∈ es, e.1 < 2 ^ 19)
    (hc : Part.care ∈ ps) : unchangedBut ps ks is_ ⟨c, x⟩ ⟨c.writeEntries b es, x⟩ := by
  unfold Ctl.writeEntries
  rw [un_forEach]
  · exact unchanged_refl _
  · intro d e he
    rw [if_pos (hz e he)]
    exact (un_setCare _ d x _ hc).2 (unchanged_refl _)

theorem writeEntries_written (c : Ctl) (b : Nat) {es : List (Nat × Nat)} (hz : ∀ e ∈ es, e.1 < 2 ^ 19) :
    (c.writeEntries b es).care.written = overlay c.care.written es := by
  unfold Ctl.writeEntries
  rw [forEach_written _ (fun e => [e])]
  · rw [List.flatMap_singleton']
  · intro d e he
    rw [if_pos (hz e he)]
    rfl

theorem pending_commits_care {b : Nat} (hb : b < 8) : Obj.pending_commits b ∈ careObjects :=
  List.mem_append_right _ (List.mem_flatten.2 ⟨_, List.mem_map.2 ⟨b, List.mem_range.2 hb, rfl⟩, by simp⟩)

theorem bar_reach_care {b : Nat} (hb : b < 8) : Obj.bar_reach b ∈ careObjects :=
  List.mem_append_right _ (List.mem_flatten.2 ⟨_, List.mem_map.2 ⟨b, List.mem_range.2 hb, rfl⟩, by simp⟩)

theorem showPending_unchanged (c : Ctl) (x : Kv Byte) {b : Nat} (hb : b < 8) (hk : ∀ k ∈ careObjects, k ∈ ks) :
    unchangedBut ps ks is_ ⟨c, x⟩ ⟨c.showPending b, x⟩ := by
  have free : Obj.staging_free ∈ careObjects := by simp [careObjects]
  unfold Ctl.showPending
  rw [Ctl.putN_put, un_put_key _ _ _ _ (hk _ free), Ctl.putN_put, un_put_key _ _ _ _ (hk _ (pending_commits_care hb))]
  exact unchanged_refl _

/-- A commit of nozzles' entries changes the care table, the stamps of columns, and what shows the pending commits (R136, R283). -/
theorem commit_unchanged (c : Ctl) (x : Kv Byte) {b : Nat} {es : List (Nat × Nat)} (page : Bool) (hb : b < 8)
    (hz : ∀ e ∈ es, e.1 < 2 ^ 19) (hc : Part.care ∈ ps) (hl : Part.loop ∈ ps) (hk : ∀ k ∈ careObjects, k ∈ ks) :
    unchangedBut ps ks is_ ⟨c, x⟩ ⟨c.commit b es page, x⟩ := by
  unfold Ctl.commit
  rw [unchanged_iff (showPending_unchanged _ x hb hk), un_setCareBar _ _ _ _ _ hc,
    unchanged_iff (writeEntries_unchanged _ x b hz hc)]
  exact stampEntries_unchanged c x b _ es hl

theorem commit_written (c : Ctl) (b : Nat) {es : List (Nat × Nat)} (page : Bool) (hz : ∀ e ∈ es, e.1 < 2 ^ 19) :
    (c.commit b es page).care.written = overlay c.care.written es := by
  have written := writeEntries_written (c.stampEntries b (c.nextStamp b) es) b hz
  rw [stampEntries_care] at written
  exact written

theorem refreshGeometry_unchanged (c : Ctl) (x : Kv Byte) (hk : ∀ k ∈ careObjects, k ∈ ks) :
    unchangedBut ps ks is_ ⟨c, x⟩ ⟨c.refreshGeometry, x⟩ := by
  have rate : Obj.head_line_rate_max ∈ careObjects := by simp [careObjects]
  unfold Ctl.refreshGeometry
  rw [un_forEach]
  · rw [Ctl.putN_put, un_put_key _ _ _ _ (hk _ rate)]
    exact unchanged_refl _
  · intro d b hb
    rw [Ctl.putN_put, un_put_key _ _ _ _ (hk _ (bar_reach_care (List.mem_range.1 hb)))]
    exact unchanged_refl _

theorem refreshGeometry_care (c : Ctl) : c.refreshGeometry.care = c.care :=
  (refreshGeometry_unchanged (ps := []) (is_ := []) c [] fun _ h => h).1 .care List.not_mem_nil

end frame

/-! ### The commits of a load (R129) -/

/-- What a load does to bar `b`: its entries of that bar made one commit, if there are any. -/
def commitBarLoad (es : List CareEntry) (c : Ctl) (b : Nat) : Ctl :=
  if (loadOf es b).isEmpty then c else c.commit b (loadOf es b) (c.nat Obj.commit_boundary == 1)

theorem commitLoad_eq (c : Ctl) (es : List CareEntry) :
    c.commitLoad es =
      (forEach (List.range 8) (commitBarLoad es) (forEach (es.filter (·.loose)) Ctl.storeLoose c)).refreshGeometry := rfl

/-- The entries that a load writes over the table: those stored at once, then those of each bar's commit. -/
def loadWrites (es : List CareEntry) : List (Nat × Nat) :=
  ((es.filter (·.loose)).flatMap fun e => [(e.item, e.value)]) ++ (List.range 8).flatMap (loadOf es)

section load
variable {es : List CareEntry}

theorem loadOf_from {b : Nat} {x : Nat × Nat} (h : x ∈ loadOf es b) : ∃ e ∈ es, (e.item, e.value) = x := by
  obtain ⟨e, he, rfl⟩ := List.mem_map.1 h
  exact ⟨e, (List.mem_filter.1 he).1, rfl⟩

theorem loadWrites_from {x : Nat × Nat} (h : x ∈ loadWrites es) : ∃ e ∈ es, (e.item, e.value) = x := by
  rcases List.mem_append.1 h with h | h
  · obtain ⟨e, he, hx⟩ := List.mem_flatMap.1 h
    exact ⟨e, (List.mem_filter.1 he).1, (List.mem_singleton.1 hx).symm⟩
  · obtain ⟨b, _, hx⟩ := List.mem_flatMap.1 h
    exact loadOf_from hx

theorem loadWrites_mem {e : CareEntry} (he : e ∈ es) (h : e.loose = true ∨ ∃ b < 8, e.bar = some b) :
    (e.item, e.value) ∈ loadWrites es := by
  by_cases hl : e.loose = true
  · exact List.mem_append_left _ (List.mem_flatMap.2 ⟨e, List.mem_filter.2 ⟨he, hl⟩, List.mem_singleton_self _⟩)
  · obtain ⟨b, hb, hbar⟩ := h.resolve_left hl
    refine List.mem_append_right _ (List.mem_flatMap.2 ⟨b, List.mem_range.2 hb, ?_⟩)
    exact List.mem_map.2 ⟨e, List.mem_filter.2 ⟨he, by simp [hbar, hl]⟩, rfl⟩

variable (hz : ∀ e ∈ es, e.item < 2 ^ 19)
include hz

theorem loadOf_nozzles {b : Nat} : ∀ e ∈ loadOf es b, e.1 < 2 ^ 19 := by
  intro x hx
  obtain ⟨e, he, rfl⟩ := loadOf_from hx
  exact hz e he

theorem commitLoad_written (c : Ctl) : (c.commitLoad es).care.written = overlay c.care.written (loadWrites es) := by
  have stored : ∀ d : Ctl, ∀ e ∈ es.filter (·.loose), (d.storeLoose e).care.written = overlay d.care.written [(e.item, e.value)] :=
    fun _ _ _ => rfl
  have committed : ∀ d : Ctl, ∀ b ∈ List.range 8, (commitBarLoad es d b).care.written = overlay d.care.written (loadOf es b) := by
    intro d b _
    unfold commitBarLoad
    split
    · next h => rw [List.isEmpty_iff.1 h]; rfl
    · exact commit_written d b _ (loadOf_nozzles hz)
  rw [commitLoad_eq, refreshGeometry_care, forEach_written _ _ _ committed, forEach_written _ _ _ stored, loadWrites,
    overlay_append]

theorem commitLoad_unchanged {ps : List Part} {ks is_ : List Nat} (c : Ctl) (x : Kv Byte) (hc : Part.care ∈ ps)
    (hl : Part.loop ∈ ps) (hk : ∀ k ∈ careObjects, k ∈ ks) : unchangedBut ps ks is_ ⟨c, x⟩ ⟨c.commitLoad es, x⟩ := by
  rw [commitLoad_eq, unchanged_iff (refreshGeometry_unchanged _ x hk), un_forEach, un_forEach]
  · exact unchanged_refl _
  · exact fun d e _ => (un_setCare _ d x _ hc).2 (unchanged_refl _)
  · intro d b hb
    unfold commitBarLoad
    split
    · exact unchanged_refl _
    · exact commit_unchanged d x _ (List.mem_range.1 hb) (loadOf_nozzles hz) hc hl hk

/-- After a load each of its entries stands in the table as written, where no two disagree on a nozzle. -/
theorem commitLoad_reads (c : Ctl) (hs : ∀ e ∈ es, ∀ f ∈ es, e.item = f.item → e.value = f.value) {e : CareEntry}
    (he : e ∈ es) (h : e.loose = true ∨ ∃ b < 8, e.bar = some b) :
    kvGet 0 (c.commitLoad es).care.written e.item = e.value := by
  rw [commitLoad_written hz]
  refine kvGet_overlay_mem _ _ (loadWrites_mem he h) fun x hx hxe => ?_
  obtain ⟨f, hf, rfl⟩ := loadWrites_from hx
  exact hs f hf e he hxe

end load

end Sys2Proof.Laws
end

section
/-! PROOF. The nozzle table through its window, loaded and exported (R127 to R129). -/

namespace Sys2Proof.Laws

open Sys2Proof.Machine Sys2Proof.Safety

/-! ### A frame that carries a session's request -/

/-- A row's frame under `reaches` runs its handler once, keeps the answer and sends it: everything else is as the handler left it,
but for what serving a request may change. -/
theorem rowFrame_served {m : Mach} {r : Req} {key : Nat} {b : List Byte} (op : Nat) (serve : Mach → Answer)
    (h : m.ctl.reaches r key b) :
    ∃ d, m.rowFrame r op serve = ⟨d, (serve (m.onCtl fun _ => Ctl.at_ m.ctl r)).2.2.cellar⟩ ∧
      Wired (serve (m.onCtl fun _ => Ctl.at_ m.ctl r)).2.2.ctl d ∧
      ((serve (m.onCtl fun _ => Ctl.at_ m.ctl r)).2.2.ctl.knows r.session r.tag = true →
        (d.sess r.session).stored = some ⟨op, r.session, r.seq, r.tag, (serve (m.onCtl fun _ => Ctl.at_ m.ctl r)).1,
          (serve (m.onCtl fun _ => Ctl.at_ m.ctl r)).2.1⟩) := by
  obtain ⟨awake, knows, path, room, seq, -⟩ := h
  have up : m.ctl.phase ≠ .asleep := fun e => by simp [Ctl.awake, e] at awake
  have known : (m.ctl.arrived r.path r.seq).knows r.session r.tag = true := by rw [(arrived_wired ..).knows]; exact knows
  have inOrder : r.seq = (((m.ctl.arrived r.path r.seq).sess r.session).lastSeq + 1) % 65536 := by rw [arrived_sess]; exact seq
  have fresh : r.seq ≠ ((m.ctl.arrived r.path r.seq).sess r.session).lastSeq := by omega
  have arrives : m.rowFrame r op serve =
      (m.onCtl (·.arrived r.path r.seq)).request r.path r.peer op r.session r.seq r.tag serve := by
    simp only [Mach.rowFrame, Mach.arrive, if_neg up, awake, room, Bool.not_true, Bool.false_eq_true, if_false]
  rw [arrives]
  unfold Mach.request
  simp only [Mach.onCtl_ctl, known, Bool.not_true, Bool.false_eq_true, if_false, fresh, and_false, ← inOrder, ne_eq, not_true]
  refine ⟨_, rfl, ?_, fun hkn => ?_⟩
  · exact (keep_wired _ _ _ _ _).trans (reply_wired _ _ _ path)
  · rw [reply_stored]
    exact keep_stored _ hkn

/-- A frame's single entry that passes checks 4 to 10 is given to its owner, whose code is answered (R47). -/
theorem serveAll_single {n key : Nat} {b : List Byte} (own : List Entry → Mach → List (Nat × Nat) × Mach) {m : Mach}
    (h : m.ctl.checkWrite n key b = St.OK) :
    serveAll n own [(key, b)] m = (St.OK, writePayload (own [(key, b)] m).1, (own [(key, b)] m).2) := by
  simp [serveAll, h]

/-- A row whose frame of one entry its owner takes as a whole: what is left to show of its completion is the owner's effect, the
machine `m1`, on any controller that serving the request may have made of the present one. -/
theorem wholeRow_completes {ps : List Part} {ks is_ : List Nat} {i : Instr} {s : State} {r : Req} {key : Nat} {b : List Byte}
    (own : List Entry → Mach → List (Nat × Nat) × Mach) (st : Nat) {P : State → Prop}
    (hi : exec i s = nextMach s (s.mach.rowFrame r 0x11 (serveAll r.session own [(key, b)])))
    (hr : s.c.reaches r key b) (hs : Part.sessions ∉ ps)
    (H : ∀ c, Wired s.c c → ∃ m1, own [(key, b)] ⟨c, s.mach.cellar⟩ = ([(key, st)], m1) ∧
      unchangedBut ps ks is_ ⟨c, s.mach.cellar⟩ m1 ∧ ∀ d, Wired m1.ctl d → P ⟨s.pending, ⟨d, m1.cellar⟩⟩) :
    completes i s ps ks (fun t => answered t r key st ∧ P t) is_ := by
  have w := reaches_wired hr
  obtain ⟨m1, owned, frame, effect⟩ := H _ w
  obtain ⟨d, ran, wired, stored⟩ := rowFrame_served 0x11 (serveAll r.session own [(key, b)]) hr
  obtain ⟨-, knows, -, -, -, passes⟩ := hr
  have served : serveAll r.session own [(key, b)] (s.mach.onCtl fun _ => Ctl.at_ s.mach.ctl r) =
      (St.OK, writePayload [(key, st)], m1) := by
    have owned' : own [(key, b)] (s.mach.onCtl fun _ => Ctl.at_ s.mach.ctl r) = ([(key, st)], m1) := owned
    rw [serveAll_single own (m := s.mach.onCtl fun _ => Ctl.at_ s.mach.ctl r) passes, owned']
  rw [served] at ran wired stored
  have known : m1.ctl.knows r.session r.tag = true := by
    rw [unchanged_knows frame hs, w.knows]; exact knows
  refine ⟨⟨s.pending, ⟨d, m1.cellar⟩⟩, hi.trans (congrArg (nextMach s) ran), rfl, ⟨stored known, effect d wired⟩, ?_⟩
  exact unchanged_trans (unchanged_trans (wired_unchanged w _) frame) (wired_unchanged wired _)

/-! ### A frame of one nozzle word (R127, R136) -/

section single
variable {c : Ctl} {e : CareEntry}

/-- An entry of a bar is not stored at once. -/
theorem bar_not_loose {b : Nat} (hb : e.bar = some b) : e.loose = false := by
  simp [CareEntry.loose, hb]

/-- A nozzle's entry that is stored at once, or breaks no order rule, is answered OK. -/
theorem careCodes_single {role : Nat} (hz : e.item < 2 ^ 19) (hr : c.retiredLocked role e.item e.value = false)
    (ha : c.admissible c.care.written 2 [(e.item, e.value)] = [(e.item, e.value)]) :
    c.careCodes role [e] = [(e, St.OK)] := by
  have nozzle : e.nozzle = true := decide_eq_true hz
  cases hl : e.loose <;> simp [Ctl.careCodes, nozzle, hr, hl, ha]

theorem recordOrder_ok : c.recordOrder [(e, St.OK)] = c := by
  have found : [(e, St.OK)].find? (fun x => x.2 == St.ORDER_INVALID) = none := by simp
  simp only [Ctl.recordOrder, found]

/-- An accepted entry makes a commit on its own bar where that bar has room, as a load of it alone would. -/
theorem commitBar_accepted {b : Nat} (hf : e.bar = some b → c.stageFull b 1 = false) :
    c.commitBar [(e, St.OK)] b = ([(e, St.OK)], commitBarLoad [e] c b) := by
  by_cases hb : e.bar = some b
  · simp [Ctl.commitBar, commitBarLoad, loadOf, hb, bar_not_loose hb, hf hb]
  · simp [Ctl.commitBar, commitBarLoad, loadOf, hb]

theorem commitBarLoad_other {b : Nat} (hb : e.bar ≠ some b) : commitBarLoad [e] c b = c := by
  simp [commitBarLoad, loadOf, hb]

/-- Over different bars, of which the entry's own has room. -/
theorem commitBars_accepted (bs : List Nat) (hn : bs.Nodup) (hf : ∀ b ∈ bs, e.bar = some b → c.stageFull b 1 = false) :
    forEach bs (fun (a : List (CareEntry × Nat) × Ctl) b => a.2.commitBar a.1 b) ([(e, St.OK)], c) =
      ([(e, St.OK)], forEach bs (commitBarLoad [e]) c) := by
  unfold forEach
  induction bs generalizing c with
  | nil => rfl
  | cons b r ih =>
    obtain ⟨hb, hr⟩ := List.nodup_cons.1 hn
    rw [List.foldl_cons, List.foldl_cons, commitBar_accepted (hf b List.mem_cons_self)]
    refine ih hr fun b' hb' hbar => ?_
    have other : e.bar ≠ some b := fun same => hb (Option.some.inj (same.symm.trans hbar) ▸ hb')
    rw [commitBarLoad_other other]
    exact hf b' (List.mem_cons_of_mem _ hb') hbar

/-- A frame of one accepted nozzle word does what a load of that word does (R129, R136). -/
theorem careFrame_single {role : Nat} (hz : e.item < 2 ^ 19) (hr : c.retiredLocked role e.item e.value = false)
    (ha : c.admissible c.care.written 2 [(e.item, e.value)] = [(e.item, e.value)])
    (hf : ∀ b, e.bar = some b → c.stageFull b 1 = false) :
    c.careFrame role [e] = ([(e.key, St.OK)], c.commitLoad [e]) := by
  have room : ∀ b ∈ List.range 8, e.bar = some b →
      (forEach ([e].filter (·.loose)) Ctl.storeLoose c).stageFull b 1 = false := by
    intro b _ hb
    rw [List.filter_cons_of_neg (by rw [bar_not_loose hb]; exact Bool.false_ne_true)]
    exact hf b hb
  simp only [Ctl.careFrame, careCodes_single hz hr ha, recordOrder_ok, commitBars_accepted _ List.nodup_range room,
    commitLoad_eq, List.map_cons, List.map_nil]

/-- An entry alone that the loop of R127 accepts breaks no rule. -/
theorem admissible_single {t : Kv Nat} {z v : Nat} (h : c.admissible t 2 [(z, v)] = [(z, v)]) :
    c.orderFault (overlay t [(z, v)]) z = 0 := by
  refine Decidable.byContradiction fun hfault => ?_
  simp [Ctl.admissible, hfault] at h

end single

theorem fld_le {v : Nat} (h : v < 2 ^ 32) : fld (le 4 v) 0 8 = v := by
  simp [fld, slice, le, leVal]
  omega

/-- The entry of a word written through the window (R128). -/
theorem careEntry_window (c : Ctl) (window v : Nat) {i : Nat} (hi : i < 32) :
    c.careEntry window (0x350001 + i) v = some ⟨0x350001 + i, window + i, c.barOfNozzle (window + i), v⟩ := by
  have index : (0x350001 + i) / 256 = 0x3500 := by omega
  have place : window + (0x350001 + i) % 256 - 1 = window + i := by omega
  simp only [Ctl.careEntry, index, place, if_true]

/-! ### The entries of a load (R129) -/

theorem loadEntries_mem {c : Ctl} {b : List Byte} {first n : Nat} {e : CareEntry} (h : e ∈ loadEntries c b first n) :
    ∃ i < n, e = ⟨0, first + i, c.barOfNozzle (first + i), fld (b.drop (4 * i)) 0 4⟩ := by
  induction n generalizing b first with
  | zero => cases h
  | succ n ih =>
    rcases List.mem_cons.1 h with rfl | h
    · exact ⟨0, Nat.succ_pos n, rfl⟩
    · obtain ⟨i, hi, rfl⟩ := ih h
      refine ⟨i + 1, Nat.succ_lt_succ hi, ?_⟩
      rw [List.drop_drop, show first + 1 + i = first + (i + 1) by omega, show 4 + 4 * i = 4 * (i + 1) by omega]

theorem loadEntries_single_valued {c : Ctl} {b : List Byte} {first n : Nat} :
    ∀ e ∈ loadEntries c b first n, ∀ f ∈ loadEntries c b first n, e.item = f.item → e.value = f.value := by
  intro e he f hf heq
  obtain ⟨i, _, rfl⟩ := loadEntries_mem he
  obtain ⟨j, _, rfl⟩ := loadEntries_mem hf
  obtain rfl : i = j := Nat.add_left_cancel heq
  rfl

/-- Each entry of a load without a code is stored at once or breaks no rule. -/
theorem loadCode_zero {c : Ctl} {role : Nat} {es : List CareEntry} (h : c.loadCode role es = 0) :
    ∀ e ∈ es, e.loose = true ∨ c.orderFault (overlay c.care.written (es.map fun e => (e.item, e.value))) e.item = 0 := by
  intro e he
  refine Decidable.byContradiction fun hbad => ?_
  rw [not_or] at hbad
  have bad : (es.any fun e =>
      !e.loose && c.orderFault (overlay c.care.written (es.map fun e => (e.item, e.value))) e.item != 0) = true :=
    List.any_eq_true.2 ⟨e, he, by simp [hbad]⟩
  simp only [Ctl.loadCode, bad, if_true] at h
  repeat' split at h
  all_goals exact absurd h (by decide)

theorem loadEntries_nozzles {c : Ctl} {b : List Byte} {first n : Nat} (h : first + n ≤ 524288) :
    ∀ e ∈ loadEntries c b first n, e.item < 2 ^ 19 := by
  intro e he
  obtain ⟨i, hi, rfl⟩ := loadEntries_mem he
  show first + i < 524288
  omega

/-- Each entry of a load without a code is stored at once or belongs to a bar. -/
theorem loadEntries_placed {c : Ctl} {b : List Byte} {first n role : Nat} (h : first + n ≤ 524288)
    (hc : c.loadCode role (loadEntries c b first n) = 0) :
    ∀ e ∈ loadEntries c b first n, e.loose = true ∨ ∃ b < 8, e.bar = some b := by
  intro e he
  have bar : e.bar = c.barOfNozzle e.item := by
    obtain ⟨i, _, rfl⟩ := loadEntries_mem he
    rfl
  refine entry_placed (loadEntries_nozzles h e he) bar ?_ (loadCode_zero hc e he)
  refine kvGet_overlay_mem _ _ (List.mem_map.2 ⟨e, he, rfl⟩) fun x hx hxe => ?_
  obtain ⟨f, hf, rfl⟩ := List.mem_map.1 hx
  exact loadEntries_single_valued f hf e he hxe

/-! ### The bytes that export_table stores (R129) -/

theorem le_length (n v : Nat) : (le n v).length = n := by
  induction n generalizing v with
  | zero => rfl
  | succ n ih => rw [le, List.length_cons, ih]

theorem exportBytes_length (t : Kv Nat) (first n : Nat) : (exportBytes t first n).length = 4 * n := by
  induction n generalizing first with
  | zero => rfl
  | succ n ih => rw [exportBytes, List.length_append, le_length, ih]; omega

theorem slice_exportBytes (t : Kv Nat) (first : Nat) {n i : Nat} (hi : i < n) :
    slice (exportBytes t first n) (4 * i) 4 = le 4 (kvGet 0 t (first + i)) := by
  induction n generalizing first i with
  | zero => omega
  | succ n ih =>
    cases i with
    | zero => exact List.take_left' (le_length ..)
    | succ i =>
      have later := ih (first + 1) (Nat.lt_of_succ_lt_succ hi)
      rw [show first + (i + 1) = first + 1 + i by omega, ← later]
      unfold slice
      rw [exportBytes, show 4 * (i + 1) = (le 4 (kvGet 0 t first)).length + 4 * i by rw [le_length]; omega,
        List.drop_length_add_append]

end Sys2Proof.Laws

namespace Sys2Proof.Machine

open Sys2Proof.Safety Sys2Proof.Laws

/-- The owner of load_table whose checks all pass (R129). -/
theorem ownLoadTable_of_checks {c : Ctl} {x : Kv Byte} {v : List Byte} {es : List CareEntry} (n : Nat)
    (h1 : 1 ≤ fld v 12 4) (h2 : fld v 12 4 ≤ 262144) (h3 : fld v 8 4 + fld v 12 4 ≤ 524288)
    (hl : c.loadOk (fld v 0 8) (4 * fld v 12 4) = true) (hf : c.rangeFrozen (fld v 0 8) (4 * fld v 12 4) = false)
    (hs : fld v 12 4 ≤ c.nat Obj.staging_free)
    (he : loadEntries c (memRead x (fld v 0 8) (4 * fld v 12 4)) (fld v 8 4) (fld v 12 4) = es)
    (hc : c.loadCode (c.sess n).role es = 0) (hb : ∀ b ∈ List.range 8, loadOf es b = [] ∨ c.commitsOf b < 16) :
    ownLoadTable v n ⟨c, x⟩ = (St.STARTED, ⟨(c.useCellar.commitLoad es).cmdNow Obj.load_table n Src.CARE_CMD_DONE, x⟩) := by
  have range : ¬ (fld v 12 4 < 1 ∨ 262144 < fld v 12 4 ∨ 524288 < fld v 8 4 + fld v 12 4) := by omega
  have staged : ¬ c.nat Obj.staging_free < fld v 12 4 := by omega
  have room : (List.range 8).any (fun b => !(loadOf es b).isEmpty && decide (16 ≤ c.commitsOf b)) = false := by
    rw [List.any_eq_false]
    intro b hb8
    rcases hb b hb8 with h | h
    · simp [h]
    · simp [Nat.not_le.2 h]
  simp only [ownLoadTable, range, hl, hf, staged, he, hc, room, if_false, Bool.not_true, Bool.false_eq_true, ne_eq, not_true]
  rfl

/-- The owner of export_table whose checks all pass (R129). -/
theorem ownExportTable_of_checks {c : Ctl} {x : Kv Byte} {v : List Byte} (n : Nat) (h1 : 1 ≤ fld v 12 4)
    (h2 : fld v 12 4 ≤ 262144) (h3 : fld v 8 4 + fld v 12 4 ≤ 524288)
    (hl : c.loadOk (fld v 0 8) (4 * fld v 12 4) = true) (hf : c.rangeFrozen (fld v 0 8) (4 * fld v 12 4) = false) :
    ownExportTable v n ⟨c, x⟩ = (St.STARTED, ⟨c.useCellar.cmdNow Obj.export_table n Src.CARE_CMD_DONE,
      memWrite x (fld v 0 8) (exportBytes c.care.written (fld v 8 4) (fld v 12 4))⟩) := by
  have range : ¬ (fld v 12 4 < 1 ∨ 262144 < fld v 12 4 ∨ 524288 < fld v 8 4 + fld v 12 4) := by omega
  simp only [ownExportTable, range, hl, hf, if_false, Bool.not_true, Bool.false_eq_true]

/-- A nozzle word that breaks no order rule is written through the window into the table (R127, R128). -/
theorem nozzleEntryWrite_completes (s : State) (r : Req) (i v z : Nat) (hi : i < 32) (hv : v < 2 ^ 32)
    (hr : s.c.reaches r (0x350001 + i) (le 4 v)) (hz : (s.c.sess r.session).nozzleWindow + i = z)
    (hl : s.c.retiredLocked (s.c.sess r.session).role z v = false) (hz19 : z < 2 ^ 19)
    (ha : s.c.admissible s.c.care.written 2 [(z, v)] = [(z, v)])
    (hf : ∀ b ∈ s.c.barOfNozzle z, s.c.stageFull b 1 = false) :
    completes (.nozzleEntryWrite r [(i, v)]) s [.care, .loop] careObjects fun t =>
      answered t r (0x350001 + i) St.OK ∧ kvGet 0 t.c.care.written z = v := by
  refine wholeRow_completes (ownNozzles r.session) _ rfl hr (by simp) fun c w => ?_
  let e : CareEntry := ⟨0x350001 + i, z, c.barOfNozzle z, v⟩
  have ha' : c.admissible c.care.written 2 [(z, v)] = [(z, v)] := by rw [w.admissible, w.care]; exact ha
  have entry : c.careEntry (c.sess r.session).nozzleWindow (0x350001 + i) (fld (le 4 v) 0 8) = some e := by
    rw [fld_le hv, careEntry_window _ _ _ hi, w.nozzleWindow, hz]
  have accepted : c.careFrame (c.sess r.session).role [e] = ([(0x350001 + i, St.OK)], c.commitLoad [e]) := by
    refine careFrame_single hz19 ?_ ha' fun b hb => ?_
    · rw [w.retiredLocked, w.role]; exact hl
    · rw [w.stageFull]; exact hf b ((w.barOfNozzle z).symm.trans hb)
  have nozzle : ∀ f ∈ [e], f.item < 2 ^ 19 := List.forall_mem_singleton.2 hz19
  have placed : e.loose = true ∨ ∃ b < 8, e.bar = some b :=
    entry_placed hz19 rfl (kvGet_set_same ..) (.inr (admissible_single ha'))
  refine ⟨⟨c.commitLoad [e], s.mach.cellar⟩, ?_, ?_, fun d w' => ?_⟩
  · simp only [ownNozzles, List.filterMap_cons, entry, List.filterMap_nil, accepted]
  · exact commitLoad_unchanged nozzle c _ (by simp) (by simp) fun _ h => h
  · rw [w'.care]
    exact commitLoad_reads (e := e) nozzle c (by simp) (by simp) placed

/-- A range of the table is written from the cellar (R129). -/
theorem loadTable_completes (s : State) (r : Req) (value : List Byte) (a first count : Nat) (es : List CareEntry)
    (h0 : fld value 0 8 = a) (h8 : fld value 8 4 = first) (h12 : fld value 12 4 = count) (h1 : 1 ≤ count)
    (h2 : count ≤ 262144) (h3 : first + count ≤ 524288) (hl : s.c.loadOk a (4 * count))
    (hf : s.c.rangeFrozen a (4 * count) = false) (hs : count ≤ s.c.nat Obj.staging_free)
    (he : loadEntries s.c (memRead s.mach.cellar a (4 * count)) first count = es)
    (hc : s.c.loadCode (s.c.sess r.session).role es = 0)
    (hb : ∀ b ∈ List.range 8, loadOf es b = [] ∨ s.c.commitsOf b < 16) (hu : s.c.cellarUp) :
    completesCmd r Obj.load_table value 2 (.loadTable r value) s [.care, .loop, .cellarCtl]
      (Obj.mc_state 0 :: Obj.mc_state 1 :: careObjects) fun t => ∀ e ∈ es, kvGet 0 t.c.care.written e.item = e.value := by
  intro hr
  subst h0 h8 h12
  have single : ∀ e ∈ es, ∀ f ∈ es, e.item = f.item → e.value = f.value := he ▸ loadEntries_single_valued
  have nozzles : ∀ e ∈ es, e.item < 2 ^ 19 := he ▸ loadEntries_nozzles h3
  have placed : ∀ e ∈ es, e.loose = true ∨ ∃ b < 8, e.bar = some b := by
    subst he
    exact loadEntries_placed h3 hc
  refine writeRow_completes (ownLoadTable value) _ rfl hr fun c w _ hm => ?_
  have same := w.sameObjects
  have owned := ownLoadTable_of_checks (c := c) (x := s.mach.cellar) (v := value) (es := es) r.session h1 h2 h3
    ((same.loadOk ..).trans hl) ((same.rangeFrozen ..).trans hf) (by rw [w.nat (by decide)]; exact hs)
    ((w.loadEntries ..).trans he) (by rw [w.loadCode, w.role]; exact hc) (by simpa only [w.commitsOf] using hb)
  rw [owned]
  have up : c.cellarUp = true := same.cellarUp.trans hu
  refine ⟨rfl, .inr (by decide), ?_, fun d w' => ⟨?_, fun e hme => ?_⟩⟩
  · rw [un_cmdNow _ _ _ _ _ _ (by simp),
      unchanged_iff (commitLoad_unchanged nozzles _ _ (by simp) (by simp) (by simp_all))]
    exact useCellar_unchanged _ _ up (by simp) (by simp) (by simp)
  · exact (w'.nat (by decide)).trans (nat_cmdNow _ _ _ _ _ (by decide) hm)
  · rw [w'.care, cmdNow_care]
    exact commitLoad_reads nozzles _ single hme (placed e hme)

/-- A range of the table is stored in the crate region, and nothing beside it (R129). -/
theorem exportTable_completes (s : State) (r : Req) (value : List Byte) (a first count : Nat) (h0 : fld value 0 8 = a)
    (h8 : fld value 8 4 = first) (h12 : fld value 12 4 = count) (h1 : 1 ≤ count) (h2 : count ≤ 262144)
    (h3 : first + count ≤ 524288) (hl : s.c.loadOk a (4 * count)) (hf : s.c.rangeFrozen a (4 * count) = false)
    (hu : s.c.cellarUp) :
    completesCmd r Obj.export_table value 2 (.exportTable r value) s [.cellar, .cellarCtl] [Obj.mc_state 0, Obj.mc_state 1]
      fun t => (∀ i < count, memRead t.mach.cellar (a + 4 * i) 4 = le 4 (kvGet 0 s.c.care.written (first + i))) ∧
        ∀ x, x < a ∨ a + 4 * count ≤ x → memGet t.mach.cellar x = memGet s.mach.cellar x := by
  intro hr
  subst h0 h8 h12
  refine writeRow_completes (ownExportTable value) _ rfl hr fun c w _ hm => ?_
  have same := w.sameObjects
  rw [ownExportTable_of_checks r.session h1 h2 h3 ((same.loadOk ..).trans hl) ((same.rangeFrozen ..).trans hf), w.care]
  have up : c.cellarUp = true := same.cellarUp.trans hu
  refine ⟨rfl, .inr (by decide), ?_, fun d w' => ⟨?_, fun i hi => ?_, fun x hx => ?_⟩⟩
  · rw [un_cmdNow _ _ _ _ _ _ (by simp), un_cellar _ _ s.mach.cellar _ (by simp)]
    exact useCellar_unchanged _ _ up (by simp) (by simp) (by simp)
  · exact (w'.nat (by decide)).trans (nat_cmdNow _ _ _ _ _ (by decide) hm)
  · rw [memRead_memWrite _ (by omega) (by rw [exportBytes_length]; omega), Nat.add_sub_cancel_left]
    exact slice_exportBytes _ _ hi
  · exact memGet_memWrite_outside _ (by rw [exportBytes_length]; exact hx)

/-- Settles O11: each of the three commands of the nozzle table completes. -/
theorem careTableCommandsComplete : Obligations.CareTableCommandsComplete :=
  ⟨nozzleEntryWrite_completes, loadTable_completes, exportTable_completes⟩

end Sys2Proof.Machine
end

section
/-! PROOF. What frames sent to heads change, and a CONFIG or a challenge sent while another of its kind is out: the CONFIG leaves
the first one's wait as it stands, the challenge goes behind the first and is sent once that one ends (R168, R174, R179; log entries
147 and 148). -/

namespace Sys2Proof.Laws

open Sys2Proof.Machine Sys2Proof.Safety

/-! ### What a frame sent to a head changes (R150 to R152) -/

section send
variable {ps : List Part} {ks is_ : List Nat} (c : Ctl) (x : Kv Byte)

theorem sendNow_unchanged (l : Nat) (y : Sending) (hu : Part.units ∈ ps) :
    unchangedBut ps ks is_ ⟨c, x⟩ ⟨c.sendNow l y, x⟩ := by
  cases y with
  | sets s n => exact (un_emit _ _ x _).2 ((un_setLane _ c x _ _ hu).2 (unchanged_refl _))
  | frame b => exact (un_emit _ _ x _).2 ((un_setLane _ c x _ _ hu).2 (unchanged_refl _))

theorem sendHeld_unchanged (l : Nat) (hu : Part.units ∈ ps) : unchangedBut ps ks is_ ⟨c, x⟩ ⟨c.sendHeld l, x⟩ := by
  unfold Ctl.sendHeld
  split
  · exact unchanged_refl _
  · rw [un_forEach _ _ _ _ _ fun d y _ => sendNow_unchanged d x l y hu, un_setLane _ _ _ _ _ hu]
    exact unchanged_refl _

/-- What a lane sends leaves all but the lanes as it was. -/
theorem send_unchanged (l : Nat) (y : Sending) (hu : Part.units ∈ ps) : unchangedBut ps ks is_ ⟨c, x⟩ ⟨c.send l y, x⟩ := by
  unfold Ctl.send
  split
  · exact unchanged_refl _
  · split
    · exact (un_setLane _ c x _ _ hu).2 (unchanged_refl _)
    · exact unchanged_trans (sendHeld_unchanged c x l hu) (sendNow_unchanged _ x l y hu)

variable (hc : Part.chains ∈ ps) (hu : Part.units ∈ ps)
include hc hu

theorem sendSeq_unchanged (ch : Nat) (lanes : List Nat) (type address aux : Nat) (payload : List Byte) :
    unchangedBut ps ks is_ ⟨c, x⟩ ⟨c.sendSeq ch lanes type address aux payload, x⟩ := by
  unfold Ctl.sendSeq
  rw [un_forEach]
  · exact unchanged_refl _
  · exact fun d l _ => unchanged_trans ((un_setMgr _ d x _ _ hc).2 (unchanged_refl _)) (send_unchanged _ x l _ hu)

/-- A CONFIG asked of a head changes its chain and the lanes alone. -/
theorem askConfig_unchanged (h why : Nat) : unchangedBut ps ks is_ ⟨c, x⟩ ⟨c.askConfig h why, x⟩ :=
  (un_setHeadMgr _ _ x _ _ hc).2 (sendSeq_unchanged c x hc hu _ _ _ _ _ _)

/-- So does a challenge sent to it, which also takes free values for its nonce. -/
theorem sendChallenge_unchanged (h why : Nat) : unchangedBut ps ks is_ ⟨c, x⟩ ⟨c.sendChallenge h why, x⟩ := by
  have drawn : Wired c { c with free := c.free + 16 } := ⟨rfl, fun _ _ => rfl, fun _ => rfl⟩
  exact (un_setHeadMgr _ _ x _ _ hc).2
    (unchanged_trans (wired_unchanged drawn x) (sendSeq_unchanged _ x hc hu _ _ _ _ _ _))

end send

/-! ### What is kept of a head -/

theorem headMgr_setHeadMgr (c : Ctl) (h : Nat) (m : HeadMgr) : (c.setHeadMgr h m).headMgr h = m := kvGet_set_same ..

/-- Controllers with the same chains keep the same of each head. -/
theorem headMgr_of_chn {c d : Ctl} (h : d.chn = c.chn) (n : Nat) : d.headMgr n = c.headMgr n := by
  unfold Ctl.headMgr
  rw [h]

theorem cmdDone_chn (c : Ctl) (k src u : Nat) : (c.cmdDone k src u).chn = c.chn := by simp [Ctl.cmdDone]

/-- A CONFIG sent while another is out leaves what is kept of its head, that one's wait included (log entry 147). -/
theorem askConfig_headMgr_of_waiting {c : Ctl} {h w : Nat} (why : Nat) (hw : (c.headMgr h).asked = .config w) :
    (c.askConfig h why).headMgr h = c.headMgr h := by
  unfold Ctl.askConfig
  rw [headMgr_setHeadMgr]
  simp only [hw]

theorem sendChallenge_usage (c : Ctl) (h why : Nat) : ((c.sendChallenge h why).headMgr h).usage = some why := by
  unfold Ctl.sendChallenge
  rw [headMgr_setHeadMgr]

/-! ### Serving a request leaves what head_in is judged by (R174) -/

/-- No object of a head is one that serving a request changes. -/
theorem headObject_not_wire (h a : Nat) : wireObject ((0x3200 + h) * 256 + a) = false := wireObject_high (by omega)

section wired
variable {c d : Ctl} (w : Wired c d)
include w

theorem Wired.headOrderBad (h : Nat) : d.headOrderBad h = c.headOrderBad h := by
  simp only [Ctl.headOrderBad, w.care, w.orderFault]

theorem Wired.cmdBusy {k : Nat} (hk : wireObject k = false) : d.cmdBusy k = c.cmdBusy k := by
  simp only [Ctl.cmdBusy, Ctl.cmdState, w.nat hk]

theorem Wired.live : d.live = c.live := by
  unfold Ctl.live
  rw [w.adm]

theorem Wired.headInCode (h : Nat) : d.headInCode h = c.headInCode h := by
  have slots : ∀ n a, d.nat ((0x5000 + n) * 256 + a) = c.nat ((0x5000 + n) * 256 + a) := fun n a =>
    w.nat (wireObject_high (by omega))
  have limits : ∀ n b, d.nat (Obj.drop_limit n b) = c.nat (Obj.drop_limit n b) := fun n b =>
    w.nat (wireObject_high (by unfold Obj.drop_limit; omega))
  simp only [Ctl.headInCode, Ctl.headState, w.capability, w.chainBar, w.live, w.headOrderBad, slots, limits,
    w.nat (headObject_not_wire h _), w.on (headObject_not_wire h _), w.cmdBusy (headObject_not_wire h _),
    w.nat (show wireObject Obj.unauth_policy = false by decide)]

end wired

/-! ### Frames from heads (R150, R155) -/

/-- A good frame of the type and layout that a row awaits is given to its head. -/
theorem headFrame_of_sends {c : Ctl} {m : HeadFrame} {type h aux : Nat} {b : List Byte} {ok : Bool} (f : Nat → Ctl → Ctl)
    (hs : headSends c m type h aux b) (ht : 0x0A < type) (hok : ok = true) : c.headFrame m type ok f = f h c := by
  obtain ⟨good, rfl, address, -, -, sender⟩ := hs
  obtain ⟨⟨ch, primary⟩, lane, rfl⟩ := Option.map_eq_some_iff.1 sender
  have foreign : ¬ (1 ≤ frameType m.bytes ∧ frameType m.bytes ≤ 0x0A) := by omega
  simp [Ctl.headFrame, lane, good, foreign, hok, address]

/-! ### A challenge that ends while others wait (R179) -/

/-- The controller that keeps a usage record of a head and shows its judgement. -/
def keptUsage (c : Ctl) (h : Nat) (r : List Byte) : Ctl :=
  (c.putO (Obj.head_usage_record h) r).putN (Obj.auth_state h) (c.judgeUsage h r)

theorem usageIn_eq {c : Ctl} {h why : Nat} (r : List Byte) (hu : (c.headMgr h).usage = some why) :
    c.usageIn h r = (keptUsage c h r).afterUsage h why := by
  unfold Ctl.usageIn
  rw [hu]
  rfl

section due
variable {c : Ctl} {h w : Nat} {ws : List Nat} (hd : (c.headMgr h).due = w :: ws)
include hd

/-- A challenge by command that ends with others waiting behind it: the command is DONE and the next challenge goes out. -/
theorem afterUsage_of_due : c.afterUsage h 1 =
    ((c.setHeadMgr h { c.headMgr h with usage := none, due := ws }).sendChallenge h w).cmdDone
      (Obj.challenge_usage h) Src.CHAIN_CMD_DONE h := by
  simp [Ctl.afterUsage, hd]

/-- The next challenge is then the one outstanding. -/
theorem afterUsage_usage_of_due : ((c.afterUsage h 1).headMgr h).usage = some w := by
  rw [afterUsage_of_due hd, headMgr_of_chn (cmdDone_chn ..)]
  exact sendChallenge_usage ..

theorem afterUsage_unchanged_of_due {ps : List Part} {ks is_ : List Nat} (x : Kv Byte) (hc : Part.chains ∈ ps)
    (hu : Part.units ∈ ps) (hk : Obj.challenge_usage h ∈ ks) : unchangedBut ps ks is_ ⟨c, x⟩ ⟨c.afterUsage h 1, x⟩ := by
  rw [afterUsage_of_due hd, un_cmdDone _ _ _ _ _ hk, unchanged_iff (sendChallenge_unchanged _ x hc hu h w)]
  exact (un_setHeadMgr _ c x _ _ hc).2 (unchanged_refl _)

end due

end Sys2Proof.Laws

namespace Sys2Proof.Machine

open Sys2Proof.Safety Sys2Proof.Laws

/-- The controller of the counterexamples: awake, session 1 open in the highest role and holding control. Chain 3 hangs at lane 6,
serves bar 2 and is SERVING; head 0x34, at its position 4, is in state `st`. -/
def servingCtl (st : Nat) : Ctl :=
  let c := (({ Ctl.reset with phase := .up } : Ctl).setSess 1
    { Session.closed with isOpen := true, role := 3, tag := 7 }).putN Obj.controlling_session 1
  ((((c.putN (Obj.primary_lane 3) 6).putN (Obj.chain_bar 3) 2).putN (Obj.chain_state 3) 2).putN (Obj.tx_state 6) 2).putN
    (Obj.head_state 0x34) st

/-! ### head_in while a CONFIG is out -/

/-- head_in of a head of which a CONFIG is awaited starts, and leaves what is kept of the head: that CONFIG's wait, its reason and
the time it was asked at (R174, log entry 147). -/
theorem headIn_keeps_wait (s : State) (r : Req) (h arg why : Nat) (hh : h < 256) (hi : s.c.headInCode h = St.OK)
    (hw : (s.c.headMgr h).asked = .config why) :
    completesCmd r (Obj.head_in h) (le 1 arg) 1 (.headIn r h arg) s [.chains, .units] [] fun t =>
      t.c.headMgr h = s.c.headMgr h := by
  intro hr
  refine ctlRow_completes (ownHeadIn h) _ (if_pos hh) hr fun c w _ _ => ?_
  have kept : c.headMgr h = s.c.headMgr h := headMgr_of_chn w.chn h
  have started : ownHeadIn h r.session c = (St.STARTED, c.startIn h r.session) := if_pos ((w.headInCode h).trans hi)
  rw [started]
  refine ⟨rfl, .inr (by simp), ?_, fun d w' => ⟨?_, ?_⟩⟩
  · rw [Ctl.startIn, unchanged_iff (askConfig_unchanged _ _ (by simp) (by simp) _ _), un_cmdRun _ _ _ _ (by simp)]
    exact unchanged_refl _
  · have wire := headObject_not_wire h 0x0E
    have asked : unchangedBut [.chains, .units] [] [] ⟨c.cmdRun (Obj.head_in h) r.session, []⟩ ⟨c.startIn h r.session, []⟩ :=
      askConfig_unchanged _ _ (by simp) (by simp) _ _
    rw [w'.nat wire, unchanged_nat asked wire (by simp) (by simp)]
    exact nat_put_eq ..
  · have waiting : ((c.cmdRun (Obj.head_in h) r.session).headMgr h).asked = .config why := by rw [← hw, ← kept]; rfl
    exact (headMgr_of_chn w'.chn h).trans ((askConfig_headMgr_of_waiting 1 waiting).trans kept)

/-- Head 0x34 is DISCOVERED and was sent a CONFIG, as a write of its row_groups sends one (`ownRowGroups`). -/
def configuredState : State := ⟨[], (servingCtl 1).askConfig 0x34 2, []⟩

/-- Refutes O35: the second clause says that head_in awaits a CONFIG_ACK of its own. Where a write of row_groups already awaits one,
head_in sends its CONFIG and leaves that wait as it stands (`Ctl.askConfig`, log entry 147): `asked` still says `.config 2`. -/
theorem not_headCommandsComplete : ¬ Obligations.HeadCommandsComplete := by
  unfold Obligations.HeadCommandsComplete
  rintro ⟨-, headIn, -⟩
  let r : Req := ⟨1, 1, 7, 0, []⟩
  have reached : configuredState.c.reaches r (Obj.head_in 0x34) (le 1 0) := by unfold Ctl.reaches; decide +kernel
  have fits : configuredState.c.headInCode 0x34 = St.OK := by decide +kernel
  have waiting : (configuredState.c.headMgr 0x34).asked = .config 2 := by decide +kernel
  have claimed := headIn configuredState r 0x34 0 (by decide) fits reached
  have actual := headIn_keeps_wait configuredState r 0x34 0 2 (by decide) fits waiting reached
  obtain ⟨t, ⟨-, -, asked, -⟩, -, -, kept⟩ := completes_and claimed actual
  rw [kept, waiting] at asked
  exact absurd asked (by decide)

/-! ### A usage record while a further challenge waits -/

/-- The record that ends a challenge by command while others wait behind it: the first of these is the one outstanding then (R179, log
entry 148). -/
theorem usageRecord_sends_next (s : State) (m : HeadFrame) (h : Nat) (b : List Byte) (w : Nat) (ws : List Nat)
    (hs : headSends s.c m 0x84 h 0 b) (hb : b.length = 112) (hz : zeroAt b 28 4) (hu : (s.c.headMgr h).usage = some 1)
    (hd : (s.c.headMgr h).due = w :: ws) :
    completes (.usageRecord m) s [.chains, .units]
      [Obj.head_usage_record h, Obj.auth_state h, Obj.challenge_usage h] fun t => (t.c.headMgr h).usage = some w := by
  have ok : ((framePayload m.bytes).length == 112 && frameAux m.bytes == 0 && zeroAt (framePayload m.bytes) 28 4) = true := by
    obtain ⟨-, -, -, aux, payload, -⟩ := hs
    simp [aux, payload, hb, hz]
  obtain ⟨-, -, -, -, rfl, -⟩ := id hs
  have next : ((keptUsage s.c h (framePayload m.bytes)).headMgr h).due = w :: ws := hd
  have ran := (headFrame_of_sends (fun h c => c.usageIn h (framePayload m.bytes)) hs (by decide) ok).trans (usageIn_eq _ hu)
  refine event_completes (congrArg (nextCtl s) ran) (afterUsage_usage_of_due next) ?_
  rw [unchanged_iff (afterUsage_unchanged_of_due next _ (by simp) (by simp) (by simp))]
  simp [keptUsage, unchanged_refl]

/-- Head 0x34 is RUNNING, signs (its record has USAGE_AUTH) and was challenged by challenge_usage; then the billing period closed, whose
challenge waits behind. -/
def challengedState : State :=
  let c := (servingCtl 2).putO (Obj.capability 0x34) (zeros 28 ++ [2] ++ zeros 99)
  ⟨[], (c.askUsage 0x34 1).askUsage 0x34 2, []⟩

/-- Refutes O36: the sixth clause says that no challenge is outstanding once the record of challenge_usage is taken in. Where the
close of a billing period challenged the head meanwhile, its challenge waited (`Ctl.askUsage`, log entry 148) and goes out with that
record (`Ctl.afterUsage`): `usage` says `some 2`. -/
theorem not_headMessagesComplete : ¬ Obligations.HeadMessagesComplete := by
  unfold Obligations.HeadMessagesComplete
  rintro ⟨-, -, -, -, -, usageRecord, -⟩
  let m : HeadFrame := ⟨6, frameBytes 0x84 4 0 0 (zeros 112)⟩
  have sent : headSends challengedState.c m 0x84 0x34 0 (zeros 112) := by decide +kernel
  obtain ⟨outstanding, due⟩ : (challengedState.c.headMgr 0x34).usage = some 1 ∧ (challengedState.c.headMgr 0x34).due = [2] := by
    decide +kernel
  have claimed := usageRecord challengedState m 0x34 _ sent (by decide) (by decide) outstanding
  have actual := usageRecord_sends_next challengedState m 0x34 _ 2 [] sent (by decide) (by decide) outstanding due
  obtain ⟨t, ⟨-, -, -, ended⟩, outstanding⟩ := completes_and claimed actual
  exact absurd (ended.symm.trans outstanding) (by decide)

end Sys2Proof.Machine
end

section
/-! PROOF. The position validated while a camera waits with its measurement in force: the camera streams and its alignment starts to
search (R212, R262, R274). -/

namespace Sys2Proof.Machine

open Sys2Proof.Safety Sys2Proof.Laws

/-- The controller with camera 0 STREAMING, its measurement in force and its alignment LOCKED, over a web that has stood still since
the start, 1 s ago. -/
def measuringCtl : Ctl :=
  let c : Ctl := { servingCtl 2 with
    now := 10 ^ 9
    pos := { Ctl.reset.pos with slowSince := some 0 }
    units := { Ctl.reset.units with cams := [(0, { Camera.reset with measure := 1, outOn := true })] } }
  ((c.putB Obj.position_valid true).putN (Obj.camera_state 0) 3).putN (Obj.align_state 0) 2

/-- The encoder was lost by TRANSITIONS: camera 0 waits IDLE, its outputs as they were. -/
def encoderLostState : State := ⟨[], measuringCtl.loseEncoder 1, []⟩

/-- The next request of session 1. -/
def nextRequest : Req := ⟨1, 1, 7, 0, []⟩

/-- The machine that validate_position leaves. -/
def revalidated : Mach := encoderLostState.mach.ctlRow nextRequest Obj.validate_position (le 1 0) ownValidatePosition

/-- While the encoder is lost the alignment is OFF; with the position valid again it is SEARCHING. -/
theorem validation_starts_alignment :
    encoderLostState.c.nat (Obj.align_state 0) = 0 ∧ revalidated.ctl.nat (Obj.align_state 0) = 1 := by
  decide +kernel

/-- Refutes O18: of the cameras the fourth clause lets `camera_state` alone change. A camera that waits IDLE streams again with the
position valid (`Ctl.camsFollow`, R262), and where its measurement is in force its alignment starts (`Ctl.loopFollow`, R274):
6510:01 goes from OFF to SEARCHING. -/
theorem not_positionStepsComplete : ¬ Obligations.PositionStepsComplete := by
  unfold Obligations.PositionStepsComplete
  rintro ⟨-, -, -, validated, -⟩
  have reached : encoderLostState.c.reaches nextRequest Obj.validate_position (le 1 0) := by unfold Ctl.reaches; decide +kernel
  obtain ⟨sound0, sound1, still⟩ : encoderLostState.c.pos.enc0.faulty = false ∧ encoderLostState.c.pos.enc1.faulty = false ∧
      encoderLostState.c.webStill = true := by decide +kernel
  have done := validated encoderLostState _ 0 sound0 sound1 still reached
  have ran : exec (.validatePosition nextRequest 0) encoderLostState = nextMach encoderLostState revalidated := rfl
  have kept := nat_of_completes (k := Obj.align_state 0) done ran (by decide) (by decide) List.not_mem_nil
  obtain ⟨before, after⟩ := validation_starts_alignment
  exact absurd (after.symm.trans (kept.trans before)) (by decide)

end Sys2Proof.Machine
end

section
/-! PROOF. What a strobe line's outcome brings beside its own counters: a line fired is a strobe of the heads that received it (R474),
and a page's last line, withheld, leaves the ceiling to the terms that remain (R86, R230, R233). -/

namespace Sys2Proof.Laws

open Sys2Proof.Machine Sys2Proof.Safety

/-- A command that completes leaves every part outside its frame. -/
theorem kept_of_completes {i : Instr} {s : State} {m : Mach} {ps : List Part} {ks is_ : List Nat} {P : State → Prop} {p : Part}
    (h : completes i s ps ks P is_) (hi : exec i s = nextMach s m) (hp : p ∉ ps) : kept s.mach m p := by
  obtain ⟨t, ht, -, -, frame, -⟩ := h
  obtain rfl : t = { s with mach := m } := Host.Outcome.next.inj (ht.symm.trans hi)
  exact frame p hp

/-- STROBE_FIRE 40 ns after the edge of a line frozen FIRED, its page live, the position valid and the pairs not held low. -/
theorem exec_strobeFire_fired {s : State} {p : Nat} {a : Armed} {x : Ticket} (hp : p < 32) (ha : (s.c.pair p).armed = some a)
    (hx : s.c.strobePage a.ticket = some x) (live : x.ended = false) (high : s.c.flt.pairsLow = false)
    (valid : s.c.on Obj.position_valid = true) (due : a.due = true) (fired : a.outcome = 0)
    (passed : a.placed + windowAfter ≤ s.c.now250) :
    exec (.strobeFire p) s = nextCtl s (s.c.strobeOutcome p x a.line 0 a.placed) := by
  show execStrobeFire p s = _
  unfold execStrobeFire
  simp only [ha, hx, live, high, valid, hp, due, fired, passed, Bool.not_true, Bool.or_self, Bool.false_eq_true, if_true, if_false,
    and_self]

/-- RETAKE_WAIT_EXPIRY once the wait is over and a change is wanted. -/
theorem exec_retakeWaitExpiry_due {s : State} {x : Nat} (hx : s.c.fire.retakeAt = some x) (wanted : s.c.changeWanted = true)
    (due : x + s.c.nat Obj.retake_wait * 1000000 ≤ s.c.now) : exec .retakeWaitExpiry s = nextMach s (s.mach.onCtl Ctl.changeOver) := by
  show execRetakeWaitExpiry s = _
  unfold execRetakeWaitExpiry
  simp only [hx, wanted, ms, due, decide_true, Bool.and_self, if_true]
  rfl

end Sys2Proof.Laws

namespace Sys2Proof.Machine

open Sys2Proof.Safety Sys2Proof.Laws

/-- The page of both counterexamples: two lines on bar 2, its cap 100,000 um/s. Line 0 has fired, and line 1 is screened. -/
def lastStrobePage : Ticket :=
  { lastLinePage with bars := 4, fired := [(2, 1)], settled := [(2, 1)], screened := [(2, 2)], printDone := [(2, 1)] }

/-- Head 0x34 of bar 2 is RUNNING, its record of one row, in group 0. Pair 8 has frozen line 1 as FIRED, with its edge at 20 ms; the
page of `followingPage` lies ahead. -/
def frozenLineCtl (now : Nat) : Ctl :=
  let c := (servingCtl 2).putO (Obj.capability 0x34) (zeros 4 ++ le 8 77 ++ le 2 64 ++ le 1 1 ++ zeros 113)
  let d : Ctl := { c with
    now := now
    adm := { c.adm with tickets := [lastStrobePage, { followingPage with bars := 4 }], stopped := false }
    fire := { c.fire with pairs := [(8, ⟨4, 1, some ⟨4, 1, 1, 80000000, 0, 1064, true⟩, none, 1, 0⟩)] } }
  (((d.putB Obj.position_valid true).putN Obj.print_position 1064).putN Obj.high_water 1064).putN Obj.horizon_end 10000128

/-! ### A line fired -/

/-- The edge was 50 ns ago, and head 0x34 has received the line. -/
def firedLineState : State :=
  let c := frozenLineCtl 20000050
  ⟨[], { c with care := { c.care with store := [⟨0x34, 0, 1, 4, true, [1, 0, 0, 0, 0, 0, 0], false⟩] } }, []⟩

/-- The line fired is the first strobe of head 0x34 in its period. -/
theorem firedLine_counts_strobe :
    firedLineState.c.use.counts.strobes = [] ∧
      (firedLineState.c.strobeOutcome 8 lastStrobePage 1 0 80000000).use.counts.strobes = [(0x34, 1)] := by
  decide +kernel

/-- Refutes O19: the second clause keeps the usage sequencer's counts. A line fired is a strobe of every RUNNING head that received it
(`Ctl.strikeHeads`, R474), so the counts of the open period change. -/
theorem not_strobesComplete : ¬ Obligations.StrobesComplete := by
  unfold Obligations.StrobesComplete
  rintro ⟨-, fires, -⟩
  obtain ⟨armed, page, high, valid, passed⟩ :
      (firedLineState.c.pair 8).armed = some ⟨4, 1, 1, 80000000, 0, 1064, true⟩ ∧
      firedLineState.c.strobePage 4 = some lastStrobePage ∧ firedLineState.c.flt.pairsLow = false ∧
      firedLineState.c.on Obj.position_valid = true ∧ 80000000 + windowAfter ≤ firedLineState.c.now250 := by decide +kernel
  have done := fires firedLineState 8 _ _ (by decide) armed page rfl high valid rfl rfl passed
  have ran := exec_strobeFire_fired (by decide) armed page rfl high valid rfl rfl passed
  have counts : (firedLineState.c.strobeOutcome 8 lastStrobePage 1 0 80000000).use = firedLineState.c.use :=
    kept_of_completes (p := .usage) done ran (by decide)
  obtain ⟨before, after⟩ := firedLine_counts_strobe
  exact absurd (after.symm.trans ((congrArg (·.counts.strobes) counts).trans before)) (by decide)

/-! ### A line withheld -/

/-- Ringmaster B, preferred and STANDBY, has waited 10 ms for a quiet interval; the edge of line 1 lies 20 ns ahead. The ceiling is
computed: the page is firing, so its cap binds (R85). -/
def retakeState : State :=
  let c := (((frozenLineCtl 19999980).putN Obj.preferred_ringmaster 1).putN Obj.rm_state_b 1).putN Obj.head_line_rate_max 100000
  ⟨[], (c.setFire { c.fire with retakeAt := some 9999980 }).receiling, []⟩

/-- The line withheld was the last of its page: the ceiling was the page's cap, and is now what the heads allow at this line pitch. -/
theorem withheldLine_moves_ceiling :
    retakeState.c.nat Obj.speed_ceiling = 100000 ∧ (retakeState.mach.onCtl Ctl.changeOver).ctl.nat Obj.speed_ceiling = 2116666 := by
  decide +kernel

/-- Refutes O20: the fifth clause lets a change-over that withholds lines change their counters and the objects of the switch alone.
Where a line withheld is the last of its page the ceiling is recomputed (`Ctl.ceilingAfter`, R86): 6000:01 goes from the page's cap to
the term that binds next. -/
theorem not_ringmastersComplete : ¬ Obligations.RingmastersComplete := by
  unfold Obligations.RingmastersComplete
  rintro ⟨-, -, -, -, expires, -⟩
  obtain ⟨waits, wanted, due⟩ : retakeState.c.fire.retakeAt = some 9999980 ∧ retakeState.c.changeWanted = true ∧
      9999980 + retakeState.c.nat Obj.retake_wait * 1000000 ≤ retakeState.c.now := by decide +kernel
  have done := expires retakeState _ waits wanted due
  have ran := exec_retakeWaitExpiry_due waits wanted due
  have kept := nat_of_completes (k := Obj.speed_ceiling) done ran (by decide) (by decide) List.not_mem_nil
  obtain ⟨before, after⟩ := withheldLine_moves_ceiling
  exact absurd (after.symm.trans (kept.trans before)) (by decide)

end Sys2Proof.Machine
end

section
/-! PROOF. A stale request of the loop is discarded, and the loop's waiting records follow into its ring (R293, R296): each as long as it
is, so that one longer than an entry of 64 bytes reaches past the ring's end. -/

namespace Sys2Proof.Laws

open Sys2Proof.Machine Sys2Proof.Safety

/-- LOOP_ACTION_ENTRY on a registration of a bar's offset under a generation that no longer stands: the request is discarded with reason
19, and the loop's records follow. -/
theorem exec_loopActionEntry_stale {s : State} {x : LoopChange} {g : Nat} {cal : Bool} {rest : List LoopRequest}
    (hr : s.c.loop.requests = .register x g cal :: rest) (offset : x.kind = kindOffset) (stale : s.c.generation (32 + x.target) ≠ g) :
    exec .loopActionEntry s =
      nextMach s (Mach.loopFlush ⟨(s.c.setLoop { s.c.loop with requests := rest }).discarded x 19, s.mach.cellar⟩) := by
  have later : (s.c.setLoop { s.c.loop with requests := rest }).generation (32 + x.target) ≠ g := stale
  show execLoopActionEntry s = _
  unfold execLoopActionEntry
  rw [hr]
  simp only [Ctl.takeRegister, offset, if_true, if_pos later]

/-- A command that completes gives the state that runs from it. -/
theorem holds_of_completes {i : Instr} {s : State} {m : Mach} {ps : List Part} {ks is_ : List Nat} {P : State → Prop}
    (h : completes i s ps ks P is_) (hi : exec i s = nextMach s m) : P { s with mach := m } := by
  obtain ⟨t, ht, -, holds, -⟩ := h
  obtain rfl : t = { s with mach := m } := Host.Outcome.next.inj (ht.symm.trans hi)
  exact holds

end Sys2Proof.Laws

namespace Sys2Proof.Machine

open Sys2Proof.Safety Sys2Proof.Laws

/-- A change of the offset of bar 2 from 0 to 5. -/
def offsetChange : LoopChange :=
  { kind := kindOffset, target := 2, old := 0, new := 5, evidence := 5, samples := 1, basis := 0, bar := 2, camera := 0, ticket := 4,
    epoch := 1, first := 0, width := 1 }

/-- The loop ring is one entry at 65,536; a record of 65 bytes waits for it. The oldest request is an offset under generation 4, which is
not the bar's. -/
def longRecordState : State :=
  let c := ((servingCtl 2).putN Obj.loop_ring_base 65536).putN Obj.loop_ring_entries 1
  ⟨[], c.setLoop { c.loop with requests := [.register offsetChange 4 false], outbox := [zeros 64 ++ [1]] }, []⟩

/-- The machine that the discard leaves. -/
def longRecordFlushed : Mach :=
  Mach.loopFlush ⟨(longRecordState.c.setLoop { longRecordState.c.loop with requests := [] }).discarded offsetChange 19, []⟩

/-- The ring ends at 65,600, where the last byte of the record comes to lie. -/
theorem longRecord_passes_ring :
    loopRing longRecordState.c = (65536, 65600) ∧ memGet longRecordState.mach.cellar 65600 = 0 ∧
      memGet longRecordFlushed.cellar 65600 = 1 := by
  decide +kernel

/-- Refutes O44: the second clause keeps the cellar outside the loop ring whatever waits in `Loop.outbox`. `Mach.putRecord` writes a
record as long as it is, and the clause has no premise that the waiting records fit their entries, nor that none waits, as the first
clause has: one of 65 bytes changes the byte beyond the ring. The records that the loop makes are of 64 bytes
(`Ctl.loopRecord`): the state is one that `State` allows and the clause does not shut out. -/
theorem not_furtherImageCases : ¬ Obligations.FurtherImageCases := by
  unfold Obligations.FurtherImageCases
  rintro ⟨-, discards, -⟩
  obtain ⟨requests, stale, few⟩ :
      longRecordState.c.loop.requests = [.register offsetChange 4 false] ∧
      longRecordState.c.generation (32 + offsetChange.target) ≠ 4 ∧ longRecordState.c.nat Obj.discards < 2 ^ 32 - 1 := by
    decide +kernel
  obtain ⟨ring, before, after⟩ := longRecord_passes_ring
  have done := discards longRecordState offsetChange 4 false [] requests rfl (by decide) stale few
  have ran : exec .loopActionEntry longRecordState = nextMach longRecordState longRecordFlushed :=
    exec_loopActionEntry_stale requests rfl stale
  obtain ⟨-, -, -, kept⟩ := holds_of_completes done ran
  have outside : ∀ r ∈ [loopRing longRecordState.c], 65600 < r.1 ∨ r.2 ≤ 65600 := by simp [ring]
  exact absurd (after.symm.trans ((kept 65600 outside).trans before)) (by decide)

end Sys2Proof.Machine
end

section
/-! PROOF. Calibrations on command (R298 to R300, R303): what their owners and steps read that serving a request leaves, the gains given
to the tiles of a camera, a wait that ends, and the six commands. -/

namespace Sys2Proof.Laws

open Sys2Proof.Machine Sys2Proof.Safety

/-! ### What serving a request leaves of a camera's field (R250, R251) -/

section wired
variable {c d : Ctl} (h : Wired c d)
include h

theorem Wired.camState (k : Nat) : d.camState k = c.camState k := h.nat (wireObject_high (by unfold Obj.camera_state; omega))

theorem Wired.tileEnabled (t : Nat) : d.on (Obj.tile_enable t) = c.on (Obj.tile_enable t) :=
  h.on (wireObject_high (by unfold Obj.tile_enable; omega))

theorem Wired.tiles (k : Nat) : d.tiles k = c.tiles k := by
  simp only [Ctl.tiles, h.tileEnabled]

theorem Wired.seam (t : Nat) : d.nat (Obj.seam t) = c.nat (Obj.seam t) := h.nat (wireObject_high (by unfold Obj.seam; omega))

theorem Wired.ownedEnd (k v : Nat) : d.ownedEnd k v = c.ownedEnd k v := by
  unfold Ctl.ownedEnd
  rw [h.tiles, h.nat (wireObject_high (by unfold Obj.tile_x; omega)), h.nat (wireObject_high (by unfold Obj.tile_width; omega))]
  simp only [h.seam]

theorem Wired.stitched (k : Nat) : d.stitched k = c.stitched k := by
  unfold Ctl.stitched
  rw [h.tiles, funext (h.ownedEnd k)]
  simp only [h.seam]

theorem Wired.columnOf (k x : Nat) : d.columnOf k x = c.columnOf k x := by
  unfold Ctl.columnOf
  rw [h.int (wireObject_high (by unfold Obj.image_origin; omega)), h.nat (wireObject_high (by unfold Obj.image_pitch_x; omega)),
    h.nat (by decide : wireObject Obj.column_pitch = false)]

theorem Wired.fieldOf (k : Nat) : d.fieldOf k = c.fieldOf k := by
  simp only [Ctl.fieldOf, h.columnOf, h.stitched]

theorem Wired.camMeasures (k : Nat) : d.camMeasures k = c.camMeasures k := by
  simp only [Ctl.camMeasures, Ctl.cam, h.camState, h.units]

theorem Wired.barSeen (b : Nat) : d.barSeen b = c.barSeen b := by
  unfold Ctl.barSeen Ctl.careBar
  rw [funext h.camMeasures, funext h.fieldOf, h.care, h.nat (wireObject_high (by unfold Obj.bar_columns; omega))]

theorem Wired.printRuns : d.rideRuns ridePrint = c.rideRuns ridePrint := by
  unfold Ctl.rideRuns
  rw [h.nat (by decide)]

theorem Wired.atticReady : d.atticReady = c.atticReady := by
  unfold Ctl.atticReady
  rw [h.nat (by decide)]

end wired

/-- A ride that runs is not started (R401). -/
theorem needRide_of_runs {c : Ctl} {j : Nat} (h : c.rideRuns j = true) : c.needRide j = c := by
  simp only [Ctl.rideRuns, Bool.or_eq_true, beq_iff_eq] at h
  exact if_neg (by omega)

/-! ### Gains given to the tiles of a camera (R265, R299) -/

section give
variable (c : Ctl) (t cmd : Nat) (v : List Byte)

/-- A tile given its gains: they show in its flat_field, its camera has a bank more, and a READY attic has their record to write. -/
theorem giveFlat_cases : ∃ y, c.giveFlat t v cmd = (c.putO (Obj.flat_field t) v).setCam (t / 4) y ∨
    ∃ j, c.giveFlat t v cmd = ((c.putO (Obj.flat_field t) v).setCam (t / 4) y).atticWrite j := by
  have written (d : Ctl) (j : AtticJob) : (if d.atticReady then d.atticWrite j else d) = d ∨
      ∃ j', (if d.atticReady then d.atticWrite j else d) = d.atticWrite j' := by
    by_cases ready : d.atticReady = true
    · exact .inr ⟨j, if_pos ready⟩
    · exact .inl (if_neg ready)
  exact ⟨_, written _ _⟩

theorem giveFlat_val (k : Nat) : (c.giveFlat t v cmd).val k = (c.putO (Obj.flat_field t) v).val k := by
  obtain ⟨y, e | ⟨j, e⟩⟩ := giveFlat_cases c t cmd v <;> rw [e] <;> rfl

theorem giveFlat_loop : (c.giveFlat t v cmd).loop = c.loop := by
  obtain ⟨y, e | ⟨j, e⟩⟩ := giveFlat_cases c t cmd v <;> rw [e] <;> rfl

theorem giveFlat_unchanged {ps : List Part} {ks is_ : List Nat} (x : Kv Byte) (hu : Part.units ∈ ps) (ha : Part.attic ∈ ps)
    (hk : Obj.flat_field t ∈ ks) : unchangedBut ps ks is_ ⟨c, x⟩ ⟨c.giveFlat t v cmd, x⟩ := by
  have given (y : Camera) : unchangedBut ps ks is_ ⟨c, x⟩ ⟨(c.putO (Obj.flat_field t) v).setCam (t / 4) y, x⟩ :=
    (un_setCam _ _ _ _ _ hu).2 ((un_put_key _ _ _ _ hk).2 (unchanged_refl _))
  obtain ⟨y, e | ⟨j, e⟩⟩ := giveFlat_cases c t cmd v <;> rw [e]
  · exact given y
  · exact (un_setJobs _ _ _ _ ha).2 (given y)

end give

/-- The gains `v` of the tiles `ts` of camera `k` given one tile after the other, as `execCalFlatDone` gives them. -/
def giveFlats (k : Nat) (v : Nat → List Byte) (ts : List Nat) (c : Ctl) : Ctl :=
  forEach ts (fun d t => d.giveFlat (4 * k + t) (v t) 0) c

section gives
variable (k : Nat) (v : Nat → List Byte)

theorem giveFlats_cons (t : Nat) (ts : List Nat) (c : Ctl) :
    giveFlats k v (t :: ts) c = giveFlats k v ts (c.giveFlat (4 * k + t) (v t) 0) := rfl

theorem giveFlats_loop (ts : List Nat) (c : Ctl) : (giveFlats k v ts c).loop = c.loop := by
  induction ts generalizing c with
  | nil => rfl
  | cons t r ih => rw [giveFlats_cons, ih, giveFlat_loop]

theorem giveFlats_val_other {j : Nat} (ts : List Nat) (c : Ctl) (h : ∀ t ∈ ts, Obj.flat_field (4 * k + t) ≠ j) :
    (giveFlats k v ts c).val j = c.val j := by
  induction ts generalizing c with
  | nil => rfl
  | cons t r ih =>
    obtain ⟨ht, hr⟩ := List.forall_mem_cons.1 h
    rw [giveFlats_cons, ih _ hr, giveFlat_val]
    exact Ctl.val_put_other _ _ ht

/-- Each tile holds its own gains in the end: tiles have flat_fields of their own. -/
theorem giveFlats_val_mem {t : Nat} (ts : List Nat) (c : Ctl) (h : t ∈ ts) :
    (giveFlats k v ts c).val (Obj.flat_field (4 * k + t)) = .oct (v t) := by
  induction ts generalizing c with
  | nil => cases h
  | cons u r ih =>
    rw [giveFlats_cons]
    by_cases hr : t ∈ r
    · exact ih _ hr
    · obtain rfl : t = u := (List.mem_cons.1 h).resolve_right hr
      have others : ∀ w ∈ r, Obj.flat_field (4 * k + w) ≠ Obj.flat_field (4 * k + t) := by
        intro w hw same
        obtain rfl : w = t := by unfold Obj.flat_field at same; omega
        exact hr hw
      rw [giveFlats_val_other k v r _ others, giveFlat_val]
      exact Ctl.val_put_same ..

theorem giveFlats_unchanged {ps : List Part} {ks is_ : List Nat} (ts : List Nat) (c : Ctl) (x : Kv Byte) (hu : Part.units ∈ ps)
    (ha : Part.attic ∈ ps) (hk : ∀ t ∈ ts, Obj.flat_field (4 * k + t) ∈ ks) :
    unchangedBut ps ks is_ ⟨c, x⟩ ⟨giveFlats k v ts c, x⟩ := by
  unfold giveFlats
  rw [un_forEach]
  · exact unchanged_refl _
  · exact fun d t ht => giveFlat_unchanged d _ _ _ _ hu ha (hk t ht)

end gives

/-! ### Commands that begin and that end later -/

theorem nat_cmdQueue (c : Ctl) (k n : Nat) : (c.cmdQueue k n).nat k = cmdWord 4 n 0 := by
  rw [Ctl.cmdQueue, Ctl.putN_put, nat_put_eq, Val.int_num, Int.toNat_natCast]

theorem nat_cmdRun (c : Ctl) (k n : Nat) : (c.cmdRun k n).nat k = cmdWord 1 n 0 := by
  rw [Ctl.cmdRun, Ctl.putN_put, nat_put_eq, Val.int_num, Int.toNat_natCast]

/-- A command that ends DONE keeps its starter. -/
theorem nat_cmdDone (c : Ctl) {k : Nat} (src u : Nat) (h : bellObject k = false) :
    (c.cmdDone k src u).nat k = cmdWord 2 (c.cmdStarter k) 0 := by
  unfold Ctl.cmdDone
  rw [nat_ring _ _ _ _ h, Ctl.putN_put, nat_put_eq, Val.int_num, Int.toNat_natCast]

/-- A command that ends FAILED keeps its starter. -/
theorem nat_cmdFail (c : Ctl) {k : Nat} (code src u : Nat) (h : bellObject k = false) :
    (c.cmdFail k code src u).nat k = cmdWord 3 (c.cmdStarter k) code := by
  unfold Ctl.cmdFail
  rw [nat_ring _ _ _ _ h, Ctl.putN_put, nat_put_eq, Val.int_num, Int.toNat_natCast]

@[simp] theorem cmdDone_loop (c : Ctl) (k src u : Nat) : (c.cmdDone k src u).loop = c.loop := by
  rw [Ctl.cmdDone, ring_loop, Ctl.putN_put, Ctl.put_loop]

@[simp] theorem cmdFail_loop (c : Ctl) (k code src u : Nat) : (c.cmdFail k code src u).loop = c.loop := by
  rw [Ctl.cmdFail, ring_loop, Ctl.putN_put, Ctl.put_loop]

theorem setJobs_jobs (c : Ctl) (js : List AtticJob) : (c.setJobs js).attic.jobs = js := rfl

/-- The starter of a command is read from the command's object. -/
theorem cmdStarter_of_val {c d : Ctl} {k : Nat} (h : d.val k = c.val k) : d.cmdStarter k = c.cmdStarter k := by
  rw [Ctl.cmdStarter, Ctl.cmdStarter, Ctl.nat_val, Ctl.nat_val, h]

/-- A calibration that is busy and has waited its limit: it is dropped with its marks, and its command fails (R298). -/
theorem expireCal_due {c : Ctl} {key since : Nat} (f : Loop → Loop) (busy : c.cmdBusy key = true)
    (due : since + c.nat Obj.cal_wait_limit * 1000000 ≤ c.now) :
    c.expireCal key since f = (((c.setLoop (f c.loop)).dropMarks).usedRide ridePrint).cmdFail key St.CAL_NO_GAP Src.CAL_CMD_DONE := by
  have late : (c.cmdBusy key && decide (since + c.nat Obj.cal_wait_limit * ms ≤ c.now)) = true := by
    rw [busy, Bool.true_and]
    exact decide_eq_true due
  exact if_pos late

/-- Marks dropped leave all but the care's shelf. -/
theorem dropMarks_unchanged {ps : List Part} {ks is_ : List Nat} (c : Ctl) (x : Kv Byte) (h : Part.care ∈ ps) :
    unchangedBut ps ks is_ ⟨c, x⟩ ⟨c.dropMarks, x⟩ := (un_setCare _ _ _ _ h).2 (unchanged_refl _)

/-- The end of a ride's use leaves all but the power's times. -/
theorem usedRide_unchanged {ps : List Part} {ks is_ : List Nat} (c : Ctl) (x : Kv Byte) (j : Nat) (h : Part.power ∈ ps) :
    unchangedBut ps ks is_ ⟨c, x⟩ ⟨c.usedRide j, x⟩ := (un_setPwr _ _ _ _ h).2 (unchanged_refl _)

end Sys2Proof.Laws

namespace Sys2Proof.Machine

open Sys2Proof.Safety Sys2Proof.Laws

/-! ### Flat field (R299) -/

/-- The owner of cal_flat_field on an IDLE camera, of enabled tiles. -/
theorem ownCalFlat_of_up {c : Ctl} {v : List Byte} (n : Nat) (up : c.camState (fld v 0 1) = 2)
    (enabled : ∀ k ∈ List.range 4, bit (fld v 1 1) k = true → k ∈ c.tiles (fld v 0 1)) :
    ownCalFlat v n c = (St.STARTED, (c.cmdQueue Obj.cal_flat_field n).setLoop
      { c.loop with flat := some ⟨fld v 0 1, fld v 1 1, fld v 2 2, c.now, [], []⟩ }) := by
  have passes : ¬ ((c.camState (fld v 0 1) ≠ 2 ∧ c.camState (fld v 0 1) ≠ 3) ∨
      (List.range 4).any (fun t => bit (fld v 1 1) t && !(c.tiles (fld v 0 1)).contains t) = true) := by
    rintro (⟨down, -⟩ | missing)
    · exact down up
    · obtain ⟨t, ht, bad⟩ := List.any_eq_true.1 missing
      rw [Bool.and_eq_true, Bool.not_eq_true', List.contains_eq_mem, decide_eq_false_iff_not] at bad
      exact bad.2 (enabled t ht bad.1)
  exact if_neg passes

/-- cal_flat_field on a camera that is up queues a calibration of its tiles (R298, R299). -/
theorem calFlatField_completes (s : State) (r : Req) (value : List Byte) (up : s.c.camState (fld value 0 1) = 2)
    (enabled : ∀ k ∈ List.range 4, bit (fld value 1 1) k = true → k ∈ s.c.tiles (fld value 0 1)) :
    completesCmd r Obj.cal_flat_field value 4 (.calFlatField r value) s [.loop] [] fun t =>
      t.c.loop.flat = some ⟨fld value 0 1, fld value 1 1, fld value 2 2, s.c.now, [], []⟩ := by
  intro hr
  refine ctlRow_completes (ownCalFlat value) _ rfl hr fun c w _ _ => ?_
  rw [ownCalFlat_of_up r.session ((w.camState _).trans up) (by rw [w.tiles]; exact enabled)]
  refine ⟨rfl, .inr (by decide), ?_, fun d w' => ⟨?_, ?_⟩⟩
  · exact (un_setLoop _ _ _ _ (by simp)).2 ((un_put_key _ _ _ _ (by simp)).2 (unchanged_refl _))
  · exact (w'.nat (by decide)).trans ((Ctl.setLoop_nat_of ..).trans (nat_cmdQueue ..))
  · exact (congrArg Loop.flat w'.loop).trans (by rw [Ctl.setLoop_loop, w.now])

/-- CAL_FLAT_DONE on a calibration whose rows are in and whose gains all fit: they are given to its tiles. -/
theorem exec_calFlatDone_full {s : State} {g : FlatCal} (hg : s.c.loop.flat = some g) (full : s.c.flatFull g = true)
    (fits : ∀ k ∈ (List.range 4).filter (bit g.mask), (s.c.flatGains g k).isSome = true) :
    exec .calFlatDone s = nextCtl s ((giveFlats g.camera (fun t => (s.c.flatGains g t).getD []) ((List.range 4).filter (bit g.mask))
      (s.c.setLoop { s.c.loop with flat := none })).cmdDone Obj.cal_flat_field Src.CAL_CMD_DONE) := by
  have none_out : ((List.range 4).filter (bit g.mask)).any (fun t => (s.c.flatGains g t).isNone) = false := by
    rw [List.any_eq_false]
    intro t ht out
    rw [Option.isNone_iff_eq_none] at out
    have := fits t ht
    rw [out] at this
    exact Bool.false_ne_true this
  show execCalFlatDone s = _
  simp only [execCalFlatDone, hg, full, none_out, Bool.not_true, Bool.false_eq_true, if_false]
  rfl

/-- Once every row is in and every gain fits, the gains are given to the tiles and the command is DONE (R299). -/
theorem calFlatDone_completes (s : State) (g : FlatCal) (hg : s.c.loop.flat = some g) (full : s.c.flatFull g) (_ : g.camera < 4)
    (fits : ∀ k ∈ (List.range 4).filter (bit g.mask), (s.c.flatGains g k).isSome = true) :
    completes .calFlatDone s [.loop, .attic, .units]
      (Obj.cal_flat_field :: (List.range 4).map fun k => Obj.flat_field (4 * g.camera + k)) fun t =>
      t.c.loop.flat = none ∧ t.c.nat Obj.cal_flat_field = cmdWord 2 (s.c.cmdStarter Obj.cal_flat_field) 0 ∧
        ∀ k ∈ (List.range 4).filter (bit g.mask), some (t.c.oct (Obj.flat_field (4 * g.camera + k))) = s.c.flatGains g k := by
  have ne_command (t : Nat) : Obj.flat_field (4 * g.camera + t) ≠ Obj.cal_flat_field := by
    unfold Obj.flat_field Obj.cal_flat_field; omega
  have no_counter (t : Nat) : bellObject (Obj.flat_field (4 * g.camera + t)) = false :=
    bellObject_wire (wireObject_high (by unfold Obj.flat_field; omega))
  refine event_completes (exec_calFlatDone_full hg full fits) ⟨?_, ?_, fun k hk => ?_⟩ ?_
  · dsimp only [State.c]
    rw [cmdDone_loop, giveFlats_loop, Ctl.setLoop_loop]
  · refine (nat_cmdDone _ _ _ (by decide)).trans ?_
    rw [cmdStarter_of_val (giveFlats_val_other _ _ _ _ fun t _ => ne_command t), cmdStarter_of_val (Ctl.setLoop_val_of ..)]
  · obtain ⟨b, hb⟩ := Option.isSome_iff_exists.1 (fits k hk)
    unfold Ctl.cmdDone
    rw [oct_ring _ _ _ _ (no_counter k), Ctl.putN_put, oct_put_ne _ _ (ne_command k).symm, Ctl.oct_val, giveFlats_val_mem _ _ _ _ hk, hb]
    rfl
  · rw [un_cmdDone _ _ _ _ _ (by simp), unchanged_iff (giveFlats_unchanged _ _ _ _ _ (by simp) (by simp) fun t ht => ?_)]
    · exact (un_setLoop _ _ _ _ (by simp)).2 (unchanged_refl _)
    · exact List.mem_cons_of_mem _ (List.mem_map.2 ⟨t, (List.mem_filter.1 ht).1, rfl⟩)

/-! ### Fire registration (R300) -/

/-- cal_registration on bars of which a measuring camera sees one queues a calibration (R298, R300). -/
theorem calRegistration_completes (s : State) (r : Req) (value : List Byte) (b : Nat) (hb : b ∈ barsOf (fld value 0 1))
    (seen : s.c.barSeen b) (runs : s.c.rideRuns ridePrint) :
    completesCmd r Obj.cal_registration value 4 (.calRegistration r value) s [.loop] [] fun t => t.c.loop.reg.isSome := by
  intro hr
  refine ctlRow_completes (ownCalRegistration value) _ rfl hr fun c w _ _ => ?_
  have covered : (barsOf (fld value 0 1)).any c.barSeen = true := List.any_eq_true.2 ⟨b, hb, (w.barSeen b).trans seen⟩
  have owned : ownCalRegistration value r.session c = (St.STARTED, (c.cmdQueue Obj.cal_registration r.session).setLoop
      { c.loop with
        reg := some ⟨fld value 0 1, fld value 1 1, fld value 2 1, fld value 3 1 == 1, c.now, none, 0, [], [], [], [], []⟩ }) := by
    have still (l : Loop) : ((c.cmdQueue Obj.cal_registration r.session).setLoop l).rideRuns ridePrint = c.rideRuns ridePrint := by
      unfold Ctl.rideRuns
      rw [Ctl.setLoop_nat_of, Ctl.cmdQueue, Ctl.putN_put, nat_put_ne _ _ (by decide)]
    simp only [ownCalRegistration, covered, Bool.not_true, Bool.false_eq_true, if_false]
    rw [needRide_of_runs ((still _).trans (w.printRuns.trans runs))]
  rw [owned]
  refine ⟨rfl, .inr (by decide), ?_, fun d w' => ⟨?_, ?_⟩⟩
  · exact (un_setLoop _ _ _ _ (by simp)).2 ((un_put_key _ _ _ _ (by simp)).2 (unchanged_refl _))
  · exact (w'.nat (by decide)).trans ((Ctl.setLoop_nat_of ..).trans (nat_cmdQueue ..))
  · dsimp only [State.c]
    rw [w'.loop, Ctl.setLoop_loop]
    rfl

/-- A gap that qualifies becomes the zone of the calibration that waits for one, and the calibration runs (R300). -/
theorem chooseGap_of_gap {c : Ctl} {g : RegCal} {x : Ticket} (gap : c.markGap c.live = some x) :
    c.chooseGap g = (c.setLoop { c.loop with
        reg := some { g with zone := some (markTicket g.bars x), after := x.number }
        zones := zoneOf (markTicket g.bars x) :: c.loop.zones.take 63 }).cmdRun Obj.cal_registration
      (c.cmdStarter Obj.cal_registration) := by
  unfold Ctl.chooseGap
  rw [gap]
  rfl

/-- CAL_MARK_ZONE on a calibration without a zone chooses a gap while the print ride runs. -/
theorem exec_calMarkZone_waiting {s : State} {g : RegCal} (hg : s.c.loop.reg = some g) (hz : g.zone = none)
    (runs : s.c.rideRuns ridePrint = true) : exec .calMarkZone s = nextCtl s (s.c.chooseGap g) := by
  show execCalMarkZone s = _
  simp only [execCalMarkZone, hg, hz, runs, if_true]

/-- A gap between two placed pages that is long enough becomes the mark zone, and the calibration runs (R300). -/
theorem calMarkZone_completes (s : State) (g : RegCal) (x : Ticket) (hg : s.c.loop.reg = some g) (hz : g.zone = none)
    (runs : s.c.rideRuns ridePrint) (gap : s.c.markGap s.c.live = some x) :
    completes .calMarkZone s [.loop] [Obj.cal_registration] fun t =>
      t.c.nat Obj.cal_registration = cmdWord 1 (s.c.cmdStarter Obj.cal_registration) 0 ∧
        t.c.loop.reg = some { g with zone := some (markTicket g.bars x), after := x.number } := by
  have ran := exec_calMarkZone_waiting hg hz runs
  rw [chooseGap_of_gap gap] at ran
  refine event_completes ran ⟨nat_cmdRun .., rfl⟩ ?_
  exact (un_cmdRun _ _ _ _ (by simp)).2 ((un_setLoop _ _ _ _ (by simp)).2 (unchanged_refl _))

/-! ### Waits and records (R298, R303) -/

/-- CAL_WAIT_EXPIRY with a flat field calibration alone: it alone may expire. -/
theorem exec_calWaitExpiry_flat {s : State} {g : FlatCal} (hg : s.c.loop.flat = some g) (alone : s.c.loop.reg = none)
    (busy : s.c.cmdBusy Obj.cal_flat_field = true) (due : g.since + s.c.nat Obj.cal_wait_limit * 1000000 ≤ s.c.now) :
    exec .calWaitExpiry s = nextCtl s ((((s.c.setLoop { s.c.loop with flat := none }).dropMarks).usedRide ridePrint).cmdFail
      Obj.cal_flat_field St.CAL_NO_GAP Src.CAL_CMD_DONE) := by
  show execCalWaitExpiry s = _
  simp only [execCalWaitExpiry, hg, expireCal_due _ busy due]
  have alone' : ((((s.c.setLoop { s.c.loop with flat := none }).dropMarks).usedRide ridePrint).cmdFail Obj.cal_flat_field
      St.CAL_NO_GAP Src.CAL_CMD_DONE).loop.reg = none := by
    rw [cmdFail_loop]
    exact alone
  rw [alone']

/-- A flat field calibration that has waited past 6530:03 fails CAL_NO_GAP (R298). -/
theorem calWaitExpiry_completes (s : State) (g : FlatCal) (hg : s.c.loop.flat = some g) (alone : s.c.loop.reg = none)
    (busy : s.c.cmdBusy Obj.cal_flat_field) (due : g.since + s.c.nat Obj.cal_wait_limit * 1000000 ≤ s.c.now) :
    completes .calWaitExpiry s [.loop, .care, .power] [Obj.cal_flat_field] fun t =>
      t.c.loop.flat = none ∧ t.c.nat Obj.cal_flat_field = cmdWord 3 (s.c.cmdStarter Obj.cal_flat_field) St.CAL_NO_GAP := by
  refine event_completes (exec_calWaitExpiry_flat hg alone busy due) ⟨?_, ?_⟩ ?_
  · dsimp only [State.c]
    rw [cmdFail_loop]
    rfl
  · refine (nat_cmdFail _ _ _ _ (by decide)).trans ?_
    exact congrArg (cmdWord 3 · St.CAL_NO_GAP) (cmdStarter_of_val rfl)
  · rw [un_cmdFail _ _ _ _ _ _ (by simp), unchanged_iff (usedRide_unchanged _ _ _ (by simp)),
      unchanged_iff (dropMarks_unchanged _ _ (by simp)), un_setLoop _ _ _ _ (by simp)]
    exact unchanged_refl _

/-- clear_cal_records runs while the READY attic voids the calibration region (R303). -/
theorem clearCalRecords_completes (s : State) (r : Req) (arg : Nat) (ready : s.c.atticReady) :
    completesCmd r Obj.clear_cal_records (arg1 arg) 1 (.clearCalRecords r arg) s [.attic] [] fun t =>
      t.c.attic.jobs = s.c.attic.jobs ++ [.void regionCalibration Obj.clear_cal_records] := by
  intro hr
  refine ctlRow_completes ownClearCal _ rfl hr fun c w _ _ => ?_
  have ready' : c.atticReady = true := w.atticReady.trans ready
  have owned : ownClearCal r.session c =
      (St.STARTED, (c.cmdRun Obj.clear_cal_records r.session).atticWrite (.void regionCalibration Obj.clear_cal_records)) := by
    simp only [ownClearCal, ready', Bool.not_true, Bool.false_eq_true, if_false]
  rw [owned]
  refine ⟨rfl, .inr (by decide), ?_, fun d w' => ⟨?_, ?_⟩⟩
  · exact (un_setJobs _ _ _ _ (by simp)).2 ((un_cmdRun _ _ _ _ (by simp)).2 (unchanged_refl _))
  · exact (w'.nat (by decide)).trans ((Ctl.setJobs_nat_of ..).trans (nat_cmdRun ..))
  · dsimp only [State.c]
    rw [w'.attic, Ctl.atticWrite, setJobs_jobs, Ctl.cmdRun, Ctl.putN_put, Ctl.put_attic, w.attic]

/-- Settles O12: each of the six calibration commands completes. -/
theorem calibrationsComplete : Obligations.CalibrationsComplete :=
  ⟨calFlatField_completes, calFlatDone_completes, calRegistration_completes, calMarkZone_completes, calWaitExpiry_completes,
    clearCalRecords_completes⟩

end Sys2Proof.Machine
end

section
/-! PROOF. A band is measured while a record longer than an entry of the loop ring waits (R280, R296): the loop's records follow the
measurement into the ring. -/

namespace Sys2Proof.Laws

open Sys2Proof.Machine Sys2Proof.Safety

/-- LOOP_BAND_MEASURE on a band whose rows and reads are in: it is measured, and the loop's records follow. -/
theorem exec_loopBandMeasure_due {s : State} {k : Nat} {strip : List StripRow} (hk : k < 4) (band : s.c.nextBand k = some strip)
    (reads : s.c.bandReadsDue k (strip.map (s.c.bandRow k 0)) = false) :
    exec (.loopBandMeasure k) s = nextMach s (s.mach.onCtl fun c => c.measureBand k strip).loopFlush := by
  show execLoopBandMeasure k s = _
  simp only [execLoopBandMeasure, if_neg (Nat.not_le.2 hk), band, reads, Bool.false_eq_true, if_false]

end Sys2Proof.Laws

namespace Sys2Proof.Machine

open Sys2Proof.Safety Sys2Proof.Laws

/-- Row `i` of a strip whose row 0 alone is of the measurement stream, with one pixel. -/
def sparseStripRow (i : Nat) : StripRow := ⟨i * 256, 0, 0, none, if i = 0 then [some ⟨50, 0, 0⟩] else [], [], []⟩

/-- The 256 rows of camera 1's first band are in, and no page lies under them. As in `longRecordState`, the loop ring is one entry at
65,536 and a record of 65 bytes waits for it. -/
def bandLongRecordState : State :=
  let c := longRecordState.c.putN (Obj.align_state 1) 1
  ⟨[], { c with
    loop := { c.loop with requests := [] }
    units := { c.units with
      cams := [(1, { Camera.reset with strip := ((List.range 256).map sparseStripRow).reverse, rows := 256 })] } }, []⟩

/-- The machine that the measurement of the band leaves. -/
def bandLongRecordFlushed : Mach :=
  (bandLongRecordState.mach.onCtl fun c => c.measureBand 1 [sparseStripRow 0]).loopFlush

/-- The band is due: its rows are in, and no read of the contone under them is outstanding. -/
theorem bandLongRecord_due :
    bandLongRecordState.c.nextBand 1 = some [sparseStripRow 0] ∧
      bandLongRecordState.c.bandReadsDue 1 ([sparseStripRow 0].map (bandLongRecordState.c.bandRow 1 0)) = false := by
  decide +kernel

/-- The ring ends at 65,600, where the last byte of the record comes to lie. -/
theorem bandLongRecord_passes_ring :
    loopRing bandLongRecordState.c = (65536, 65600) ∧ memGet bandLongRecordState.mach.cellar 65600 = 0 ∧
      memGet bandLongRecordFlushed.cellar 65600 = 1 := by
  decide +kernel

/-- Refutes O29: the first clause keeps the cellar outside the loop ring whatever waits in `Loop.outbox`. `Mach.putRecord` writes a
record as long as it is, and the clause has no premise that the waiting records fit their entries, nor that none waits, as the second
clause has: one of 65 bytes changes the byte beyond the ring. The records that the loop makes are of 64 bytes (`Ctl.loopRecord`): the
state is one that `State` allows and the clause does not shut out. -/
theorem not_loopCommandsComplete : ¬ Obligations.LoopCommandsComplete := by
  unfold Obligations.LoopCommandsComplete
  rintro ⟨measures, -⟩
  obtain ⟨band, reads⟩ := bandLongRecord_due
  obtain ⟨ring, before, after⟩ := bandLongRecord_passes_ring
  have done := measures bandLongRecordState 1 _ (by decide) band reads
  have ran : exec (.loopBandMeasure 1) bandLongRecordState = nextMach bandLongRecordState bandLongRecordFlushed :=
    exec_loopBandMeasure_due (by decide) band reads
  obtain ⟨-, kept⟩ := holds_of_completes done ran
  have outside : ∀ r ∈ [loopRing bandLongRecordState.c], 65600 < r.1 ∨ r.2 ≤ 65600 := by simp [ring]
  exact absurd (after.symm.trans ((kept 65600 outside).trans before)) (by decide)

end Sys2Proof.Machine
end

section
/-! PROOF. Items of the packer (R321 to R324): their bytes fill exactly the span of the store that holds them, and what an item, the
end of a job and an image packed change. -/

namespace Sys2Proof.Laws

open Sys2Proof.Machine Sys2Proof.Safety

/-! ### Bytes of a length -/

@[simp] theorem padTo_length (n : Nat) (b : List Byte) : (padTo n b).length = n := by
  simp [padTo, zeros]

/-- Bytes written over bytes keep their number where they lie inside. -/
theorem splice_length {b v : List Byte} {o : Nat} (h : o + v.length ≤ b.length) : (splice b o v).length = b.length := by
  simp only [splice, List.length_append, List.length_take, List.length_drop]
  omega

theorem timeBytes_length (ns : Nat) : (timeBytes ns).length = 10 := by
  simp [timeBytes, le_length]

theorem le_roundUp (v : Nat) {k : Nat} (h : 0 < k) : v ≤ roundUp v k := by
  have whole := Nat.div_add_mod' (v + k - 1) k
  have rest := Nat.mod_lt (v + k - 1) h
  unfold roundUp
  omega

/-! ### The recorder through updates -/

section recorder
variable (c : Ctl)

@[simp] theorem setRec_recorder (r : Recorder) : (c.setRec r).recorder = r := rfl
@[simp] theorem put_recorder (k : Nat) (v : Val) : (c.put k v).recorder = c.recorder := (rfl)

@[simp] theorem ring_recorder (n u o : Nat) : (c.ring n u o).recorder = c.recorder := by
  rw [Ctl.recorder, ring_units, Ctl.recorder]

@[simp] theorem bumpBy_recorder (k n : Nat) : (c.bumpBy k n).recorder = c.recorder := by rw [bumpBy_rest]; rfl

@[simp] theorem bump_recorder (k : Nat) : (c.bump k).recorder = c.recorder := bumpBy_recorder c k 1

@[simp] theorem cmdRun_recorder (k n : Nat) : (c.cmdRun k n).recorder = c.recorder := rfl

@[simp] theorem cmdDone_recorder (k src u : Nat) : (c.cmdDone k src u).recorder = c.recorder := by simp [Ctl.cmdDone]

@[simp] theorem cmdFail_recorder (k code src u : Nat) : (c.cmdFail k code src u).recorder = c.recorder := by
  simp [Ctl.cmdFail]

@[simp] theorem showFree_recorder : c.showFree.recorder = c.recorder := rfl

theorem Wired.recorder {c d : Ctl} (h : Wired c d) : d.recorder = c.recorder := congrArg Units.record h.units

/-- What asks nothing of the units leaves the recorder. -/
theorem recorder_of_unchanged {ps : List Part} {ks is_ : List Nat} {a b : Mach} (h : unchangedBut ps ks is_ a b)
    (hp : Part.units ∉ ps) : b.ctl.recorder = a.ctl.recorder := congrArg Units.record (h.1 .units hp)

end recorder

/-! ### Crates placed, and the bytes of an item (R321, R322) -/

/-- Crates are placed between the given offset and the room's end, each before the end of all. -/
theorem placeCrates_within {room : Nat} (crates : List (Nat × List Byte)) {o : Nat} (h : o ≤ room) :
    o ≤ (placeCrates room crates o).2 ∧ (placeCrates room crates o).2 ≤ room ∧
      ∀ x ∈ (placeCrates room crates o).1, x.2.1 + x.2.2.length ≤ (placeCrates room crates o).2 := by
  induction crates generalizing o with
  | nil => exact ⟨Nat.le_refl _, h, by simp [placeCrates]⟩
  | cons e r ih =>
    have up := le_roundUp (o + e.2.length) (show 0 < 64 by decide)
    rw [placeCrates]
    split
    · exact ⟨Nat.le_refl _, h, by simp⟩
    · obtain ⟨low, high, inside⟩ := ih (Nat.not_lt.1 ‹_›)
      exact ⟨by dsimp only; omega, high, List.forall_mem_cons.2 ⟨Nat.le_trans up low, inside⟩⟩

/-- Crates spliced in keep the number of bytes where each lies inside. -/
theorem spliced_length (placed : List (Nat × Nat × List Byte)) {b : List Byte}
    (h : ∀ x ∈ placed, x.2.1 + x.2.2.length ≤ b.length) :
    (placed.foldl (fun b x => splice b x.2.1 x.2.2) b).length = b.length := by
  induction placed generalizing b with
  | nil => rfl
  | cons x r ih =>
    obtain ⟨hx, hr⟩ := List.forall_mem_cons.1 h
    have kept := splice_length hx
    rw [List.foldl_cons, ih (by rw [kept]; exact hr), kept]

/-- An item has as many bytes as its size says. -/
theorem itemBytes_length (p : ItemPlan) (address : Nat) {placed : List (Nat × Nat × List Byte)} {size : Nat}
    (h : ∀ x ∈ placed, x.2.1 + x.2.2.length ≤ size) : (p.bytes address placed size).length = size := by
  unfold ItemPlan.bytes
  dsimp only
  rw [spliced_length placed (by rw [padTo_length]; exact h), padTo_length]

/-- An entry of the item ring has 64 bytes. -/
theorem ringEntry_length (p : ItemPlan) (flags address size ns : Nat) : (p.ringEntry flags address size ns).length = 64 := by
  simp [ItemPlan.ringEntry, le_length, timeBytes_length, zeros]

/-- The span for the next item lies in the store. -/
theorem storeSpan_inside {c : Ctl} (need : Nat) (h : storeInside c) :
    (c.storeSpan need).1 + (c.storeSpan need).2 ≤ c.nat Obj.store_bytes := by
  obtain ⟨next, items⟩ := h
  unfold Ctl.storeSpan
  dsimp only
  cases hs : c.recorder.store with
  | nil => dsimp only; split <;> dsimp only <;> omega
  | cons e r =>
    have first : e.1 + e.2 ≤ c.nat Obj.store_bytes := items e (by rw [hs]; exact List.mem_cons_self)
    dsimp only
    split
    · dsimp only; omega
    · split <;> dsimp only <;> omega

/-! ### When the packer may write (R321) -/

/-- The packer may write an item, and what the store holds lies in it. -/
def packerReady (c : Ctl) : Prop := c.packerMay = true ∧ storeInside c

/-- The objects that say where the packer writes and whether it may. -/
def packerReads : List Nat :=
  [Obj.store_base, Obj.store_bytes, Obj.item_ring_base, Obj.item_entries, Obj.item_head, Obj.item_tail, Obj.usable_bytes,
    Obj.ride_state 6, Obj.mc_state 0, Obj.mc_state 1]

/-- The packer finds the same: the objects it reads, and what the store holds. -/
def samePacker (c d : Ctl) : Prop :=
  (∀ k ∈ packerReads, d.nat k = c.nat k) ∧ d.recorder.store = c.recorder.store ∧ d.recorder.next = c.recorder.next

/-- Where a frame names none of those objects, the store is left to show. -/
theorem samePacker_of_unchanged {ps : List Part} {ks : List Nat} {a b : Mach} (h : unchangedBut ps ks [] a b)
    (hk : ∀ k ∈ packerReads, k ∉ ks) (store : b.ctl.recorder.store = a.ctl.recorder.store)
    (next : b.ctl.recorder.next = a.ctl.recorder.next) : samePacker a.ctl b.ctl := by
  have wire : ∀ k ∈ packerReads, wireObject k = false := by decide
  refine ⟨fun k hkr => ?_, store, next⟩
  rw [Ctl.nat_val, Ctl.nat_val, unchanged_val h (wire k hkr) (hk k hkr) List.not_mem_nil]

section same
variable {c d : Ctl} (h : samePacker c d)
include h

theorem samePacker.ranges : packRanges d = packRanges c := by
  obtain ⟨objects, -, -⟩ := h
  simp only [packerReads, List.forall_mem_cons] at objects
  simp only [packRanges, objects]

theorem samePacker.ready (hc : packerReady c) : packerReady d := by
  obtain ⟨objects, store, next⟩ := h
  simp only [packerReads, List.forall_mem_cons] at objects
  have usable : d.usable = c.usable := by simp only [Ctl.usable, objects]
  have may : d.packerMay = c.packerMay := by
    simp only [Ctl.packerMay, Ctl.packerOn, Ctl.itemRoom, Ctl.cellarUp, Ctl.frozen, usable, objects]
  have inside : storeInside d ↔ storeInside c := by simp only [storeInside, objects, store, next]
  exact ⟨may.trans hc.1, inside.2 hc.2⟩

end same

/-- A recorder that holds the same store is as good to the packer. -/
theorem samePacker_setRec (c : Ctl) {r : Recorder} (store : r.store = c.recorder.store) (next : r.next = c.recorder.next) :
    samePacker c (c.setRec r) := ⟨fun _ _ => rfl, store, next⟩

/-! ### What packing changes (R321 to R324) -/

/-- The packer comes from `m` to `n`: parts and objects beside its own are as they were, and so are the cellar's bytes outside the store
and the item ring. -/
structure packsTo (m n : Mach) : Prop where
  frame : unchangedBut packParts packObjects [] m n
  outside : ∀ x, (∀ r ∈ packRanges m.ctl, x < r.1 ∨ r.2 ≤ x) → memGet n.cellar x = memGet m.cellar x

/-- Of the recorder, too, all but the jobs and what the store holds is as it was. -/
structure postsTo (m n : Mach) : Prop extends packsTo m n where
  recorder : n.ctl.recorder =
    { m.ctl.recorder with jobs := n.ctl.recorder.jobs, store := n.ctl.recorder.store, next := n.ctl.recorder.next }

/-- An object that packing does not name reads as before. -/
theorem packsTo.nat {m n : Mach} (h : packsTo m n) {k : Nat} (hw : wireObject k = false) (hk : k ∉ packObjects) :
    n.ctl.nat k = m.ctl.nat k := by
  rw [Ctl.nat_val, Ctl.nat_val, unchanged_val h.frame hw hk List.not_mem_nil]

/-- Packing moves neither the store nor the item ring. -/
theorem packsTo.ranges {m n : Mach} (h : packsTo m n) : packRanges n.ctl = packRanges m.ctl := by
  unfold packRanges
  rw [h.nat (k := Obj.store_base) (by decide) (by decide), h.nat (k := Obj.store_bytes) (by decide) (by decide),
    h.nat (k := Obj.item_ring_base) (by decide) (by decide), h.nat (k := Obj.item_entries) (by decide) (by decide)]

theorem packsTo.trans {a b c : Mach} (h : packsTo a b) (g : packsTo b c) : packsTo a c :=
  ⟨unchanged_trans h.frame g.frame, fun x hx => (g.outside x (by rwa [h.ranges])).trans (h.outside x hx)⟩

theorem postsTo.refl (m : Mach) : postsTo m m := ⟨⟨unchanged_refl _, fun _ _ => rfl⟩, rfl⟩

theorem postsTo.trans {a b c : Mach} (h : postsTo a b) (g : postsTo b c) : postsTo a c :=
  ⟨h.topacksTo.trans g.topacksTo, by rw [g.recorder, h.recorder]⟩

/-- A change of the controller alone within the frame. -/
theorem packsTo_of_ctl {m : Mach} {d : Ctl} (frame : unchangedBut packParts packObjects [] m ⟨d, m.cellar⟩) :
    packsTo m ⟨d, m.cellar⟩ := ⟨frame, fun _ _ => rfl⟩

theorem postsTo_of_ctl {m : Mach} {d : Ctl} (frame : unchangedBut packParts packObjects [] m ⟨d, m.cellar⟩)
    (recorder : d.recorder = m.ctl.recorder) : postsTo m ⟨d, m.cellar⟩ :=
  ⟨packsTo_of_ctl frame, by simp only [recorder]⟩

/-- Of the recorder itself packing may change anything. -/
theorem packsTo_setRec (m : Mach) (r : Recorder) : packsTo m (m.onCtl fun c => c.setRec r) :=
  packsTo_of_ctl ((un_setRec _ _ _ _ (by decide)).2 (unchanged_refl _))

/-! ### An item posted (R321, R327) -/

/-- While the packer has bases and may write, the cellar is up and the item ring has an entry free. -/
theorem packerMay_on {c : Ctl} (may : c.packerMay = true) (on : c.packerOn = true) :
    c.cellarUp = true ∧ 0 < c.nat Obj.item_entries := by
  simp only [Ctl.packerMay, on, Ctl.itemRoom, Bool.not_true, Bool.false_or, Bool.and_eq_true, decide_eq_true_eq] at may
  obtain ⟨⟨⟨room, up⟩, -⟩, -⟩ := may
  exact ⟨up, by omega⟩

/-- The bytes of an item and of its ring entry lie in the store and in the item ring. -/
theorem itemWrites_outside (m : Kv Byte) {c : Ctl} {span size head : Nat} {item entry : List Byte} (hi : item.length = size)
    (he : entry.length = 64) (fits : span + size ≤ c.nat Obj.store_bytes) (entries : 0 < c.nat Obj.item_entries) {x : Nat}
    (hx : ∀ r ∈ packRanges c, x < r.1 ∨ r.2 ≤ x) :
    memGet (memWrite (memWrite m (c.nat Obj.store_base + span) item)
      (c.nat Obj.item_ring_base + head % c.nat Obj.item_entries * 64) entry) x = memGet m x := by
  have place := Nat.mod_lt head entries
  simp only [packRanges, List.forall_mem_cons] at hx
  obtain ⟨store, ring, -⟩ := hx
  rw [memGet_memWrite_outside _ (by omega), memGet_memWrite_outside _ (by omega)]

/-- What the objects show of an item stored. -/
theorem itemCounted_unchanged (c : Ctl) (x : Kv Byte) (r : Recorder) (head lost : Nat) (up : c.cellarUp = true) :
    unchangedBut packParts packObjects [] ⟨c, x⟩
      ⟨((c.useCellar.setRec r).showFree.putN Obj.item_head head).bumpBy Obj.fire_lines_lost lost, x⟩ := by
  rw [un_bumpBy _ _ _ _ (.inl (by decide)), Ctl.putN_put, un_put_key _ _ _ _ (by decide), Ctl.showFree, Ctl.putN_put,
    un_put_key _ _ _ _ (by decide), un_setRec _ _ _ _ (by decide)]
  exact useCellar_unchanged c x up (by decide) (by decide) (by decide)

/-- An item that is dropped counts, and nothing else. -/
theorem dropItem_postsTo {m : Mach} {d : Ctl} (frame : unchangedBut packParts packObjects [] m ⟨d, m.cellar⟩)
    (recorder : d.recorder = m.ctl.recorder) : postsTo m ⟨d.bump Obj.items_dropped, m.cellar⟩ :=
  postsTo_of_ctl ((un_bump _ _ _ (by decide)).2 frame) ((bump_recorder ..).trans recorder)

/-- An item posted by a packer that is ready is stored inside the store and entered in the ring, or dropped. -/
theorem postItem_postsTo {m : Mach} (p : ItemPlan) (ready : packerReady m.ctl) : postsTo m (m.postItem p) := by
  obtain ⟨may, inside⟩ := ready
  unfold Mach.postItem
  dsimp only
  split
  · exact dropItem_postsTo (unchanged_refl _) rfl
  · next on =>
    obtain ⟨up, entries⟩ := packerMay_on may (by simpa using on)
    split
    · exact dropItem_postsTo ((un_ring ..).2 (unchanged_refl _)) (ring_recorder ..)
    · next room =>
      generalize placeCrates (2 ^ 60) p.crates p.cratesOffset = full at room ⊢
      have span := storeSpan_inside full.2 inside
      obtain ⟨-, fits, within⟩ := placeCrates_within p.crates (Nat.not_lt.1 room)
      refine ⟨⟨?_, fun x hx => ?_⟩, ?_⟩
      · rw [un_cellar _ _ m.cellar _ (by decide), un_ring]
        split
        · exact (un_ring ..).2 (itemCounted_unchanged _ _ _ _ _ up)
        · exact itemCounted_unchanged _ _ _ _ _ up
      · exact itemWrites_outside _ (itemBytes_length p _ within) (ringEntry_length ..) (by omega) entries hx
      · rw [ring_recorder]
        split <;> simp

/-! ### Jobs (R323, R328, R329) -/

/-- A job whose crates are all settled is posted, and a capture ends with it. -/
theorem finishJob_postsTo {m : Mach} (n : Nat) (ready : packerReady m.ctl) : postsTo m (m.finishJob n) := by
  unfold Mach.finishJob
  dsimp only
  split
  · exact postsTo.refl m
  · next j _ =>
    split
    · exact postsTo.refl m
    · have unlisted : postsTo m (m.onCtl fun c => c.setRec
          { m.ctl.recorder with jobs := m.ctl.recorder.jobs.filter fun x => x.number != n }) := ⟨packsTo_setRec _ _, rfl⟩
      have posted := unlisted.trans (postItem_postsTo j.plan ((samePacker_setRec _ rfl rfl).ready ready))
      split
      · exact posted.trans (postsTo_of_ctl ((un_cmdDone _ _ _ _ _ (by decide)).2 (unchanged_refl _)) (cmdDone_recorder ..))
      · exact posted

/-- A crate packed changes the jobs or the crates held. -/
theorem packCrate_eq (r : Recorder) (job entry band : Nat) (rows : List (List Byte)) :
    ∃ jobs held, r.packCrate job entry band rows = { r with jobs := jobs, held := held } := by
  unfold Recorder.packCrate
  dsimp only
  split
  · exact ⟨_, _, rfl⟩
  · exact ⟨_, _, rfl⟩

/-- So do crates packed one after the other. -/
theorem packCrates_eq (f : Recorder → Nat → Recorder)
    (h : ∀ r e, ∃ jobs held, f r e = { r with jobs := jobs, held := held }) (es : List Nat) (r : Recorder) :
    ∃ jobs held, forEach es f r = { r with jobs := jobs, held := held } := by
  unfold forEach
  induction es generalizing r with
  | nil => exact ⟨_, _, rfl⟩
  | cons e es ih =>
    obtain ⟨jobs, held, first⟩ := h r e
    obtain ⟨jobs', held', rest⟩ := ih { r with jobs := jobs, held := held }
    exact ⟨jobs', held', by rw [List.foldl_cons, first, rest]⟩

section image
variable (m : Mach) (kind camera ticket : Nat) (lost : Bool) (image : List (List Byte)) (headers : List Byte) (rowBytes : Nat)

/-- An image packed takes a number for its job and leaves the store and what waits; the job ends at once where none of its crates is
held. -/
theorem packImage_eq : ∃ r : Recorder,
    r.jobNumber = m.ctl.recorder.jobNumber + 1 ∧ r.crops = m.ctl.recorder.crops ∧ r.capture = m.ctl.recorder.capture ∧
      samePacker m.ctl (m.ctl.setRec r) ∧ m.packImage kind camera ticket lost image headers rowBytes =
        (m.onCtl fun c => c.setRec r).finishJob m.ctl.recorder.jobNumber := by
  unfold Mach.packImage
  dsimp only
  generalize hf : (fun (r : Recorder) (e : Nat) => r.packCrate m.ctl.recorder.jobNumber e _ _) = f
  have packed (r : Recorder) (e : Nat) : ∃ jobs held, f r e = { r with jobs := jobs, held := held } := by
    subst hf
    exact packCrate_eq ..
  obtain ⟨jobs, held, crates⟩ := packCrates_eq f packed (List.range _) _
  rw [crates]
  refine ⟨_, ?_, ?_, ?_, ?_, rfl⟩
  · rfl
  · rfl
  · rfl
  · exact samePacker_setRec _ rfl rfl

variable {m}

/-- An image packed by a packer that is ready. -/
theorem packImage_packsTo (ready : packerReady m.ctl) :
    packsTo m (m.packImage kind camera ticket lost image headers rowBytes) ∧
      (m.packImage kind camera ticket lost image headers rowBytes).ctl.recorder.jobNumber = m.ctl.recorder.jobNumber + 1 ∧
      (m.packImage kind camera ticket lost image headers rowBytes).ctl.recorder.crops = m.ctl.recorder.crops ∧
      (m.packImage kind camera ticket lost image headers rowBytes).ctl.recorder.capture = m.ctl.recorder.capture := by
  obtain ⟨r, number, crops, capture, same, e⟩ := packImage_eq m kind camera ticket lost image headers rowBytes
  have posted : postsTo (m.onCtl fun c => c.setRec r) _ := finishJob_postsTo m.ctl.recorder.jobNumber (same.ready ready)
  rw [e, posted.recorder]
  exact ⟨(packsTo_setRec m r).trans posted.topacksTo, number, crops, capture⟩

end image

/-- A held crate settled is held no more; a job that waited for it alone is posted (R323). -/
theorem settleCrate_packsTo {m : Mach} (h : HeldCrate) (bytes : List Byte) (ready : packerReady m.ctl) :
    packsTo m (m.settleCrate h bytes) ∧
      (m.settleCrate h bytes).ctl.recorder.held = m.ctl.recorder.held.filter fun x => x != h := by
  unfold Mach.settleCrate
  dsimp only
  split
  · exact ⟨(packsTo_setRec m _).trans (packsTo_setRec _ _), rfl⟩
  · have posted := finishJob_postsTo (m := (m.onCtl fun c => c.setRec
      { c.recorder with held := c.recorder.held.filter fun x => x != h }).onCtl fun c => c.setRec
        { c.recorder with jobs := c.recorder.jobs.map fun j =>
            if j.number = h.owner then { j with crates := kvSet [] j.crates h.entry bytes } else j }) h.owner
      ((samePacker_setRec _ rfl rfl).ready ready)
    exact ⟨((packsTo_setRec m _).trans (packsTo_setRec _ _)).trans posted.topacksTo, by rw [posted.recorder]; rfl⟩

/-! ### A ride that starts (R401, R412) -/

section ride
variable {ps : List Part} {ks is_ : List Nat} (c : Ctl) (x : Kv Byte) (j : Nat)

theorem setRide_unchanged (v : Nat) (hk : Obj.ride_state j ∈ ks) : unchangedBut ps ks is_ ⟨c, x⟩ ⟨c.setRide j v, x⟩ := by
  unfold Ctl.setRide
  split
  · exact unchanged_refl _
  · rw [un_ring, Ctl.putN_put, un_put_key _ _ _ _ hk]
    exact unchanged_refl _

theorem askCore_unchanged : unchangedBut ps ks is_ ⟨c, x⟩ ⟨c.askCore j, x⟩ := by
  unfold Ctl.askCore
  split
  · exact (un_emit _ c x _).2 (unchanged_refl _)
  · exact unchanged_refl _

theorem pllStarts_unchanged (hp : Part.power ∈ ps) (hk : pllKey j ∈ ks) :
    unchangedBut ps ks is_ ⟨c, x⟩ ⟨c.pllStarts j, x⟩ := by
  unfold Ctl.pllStarts
  split
  · exact (un_setPwr _ _ x _ hp).2 ((un_put_key _ c x _ hk).2 (unchanged_refl _))
  · exact unchanged_refl _

/-- A ride needed starts: its state, its PLL and the power's times change. -/
theorem needRide_unchanged (hp : Part.power ∈ ps) (h0 : Obj.ride_state j ∈ ks) (h1 : pllKey j ∈ ks) :
    unchangedBut ps ks is_ ⟨c, x⟩ ⟨c.needRide j, x⟩ := by
  unfold Ctl.needRide
  split
  · refine (un_setPwr _ _ x _ hp).2 ?_
    have asked : unchangedBut ps ks is_ ⟨c, x⟩ ⟨(c.setRide j 1).askCore j, x⟩ :=
      unchanged_trans (setRide_unchanged c x j 1 h0) (askCore_unchanged _ x j)
    split
    · exact unchanged_trans asked (pllStarts_unchanged _ x j hp h1)
    · exact asked
  · exact unchanged_refl _

/-- The least frame of a ride that starts. -/
theorem needRide_frame : unchangedBut [.power] [Obj.ride_state j, pllKey j] [] ⟨c, []⟩ ⟨c.needRide j, []⟩ :=
  needRide_unchanged c [] j (by simp) (by simp) (by simp)

@[simp] theorem needRide_recorder : (c.needRide j).recorder = c.recorder := recorder_of_unchanged (needRide_frame c j) (by decide)

/-- The record ride shows in two objects alone. -/
theorem needRecord_nat {k : Nat} (hw : wireObject k = false) (hk : k ∉ [Obj.ride_state 5, pllKey 5]) :
    (c.needRide rideRecord).nat k = c.nat k := unchanged_nat (needRide_frame c rideRecord) hw hk List.not_mem_nil

end ride

end Sys2Proof.Laws
end

section
/-! PROOF. The packer's steps: captures, crops, checks of crates, the fire record (R323, R325 to R329). -/

namespace Sys2Proof.Laws

open Sys2Proof.Machine Sys2Proof.Safety

/-- Rows of a crop ring packed by a packer that is ready. -/
theorem packRows_packsTo {m : Mach} (kind k ticket x w : Nat) (rows : List StripRow) (ready : packerReady m.ctl) :
    packsTo m (m.packRows kind k ticket x w rows) ∧
      (m.packRows kind k ticket x w rows).ctl.recorder.jobNumber = m.ctl.recorder.jobNumber + 1 ∧
      (m.packRows kind k ticket x w rows).ctl.recorder.crops = m.ctl.recorder.crops ∧
      (m.packRows kind k ticket x w rows).ctl.recorder.capture = m.ctl.recorder.capture :=
  packImage_packsTo kind k ticket _ _ _ _ ready

/-- A step that changes the recorder and a few objects of the packer's own, and then packs. -/
theorem packs_completes {i : Instr} {s : State} {n : Mach} {f : Ctl → Ctl} {ks0 ks : List Nat} {P : State → Prop}
    (ran : exec i s = nextMach s n) (before : unchangedBut [.units] ks0 [] s.mach (s.mach.onCtl f))
    (same : samePacker s.c (f s.c)) (packed : packsTo (s.mach.onCtl f) n) (h0 : ∀ k ∈ ks0, k ∈ ks)
    (hk : ∀ k ∈ packObjects, k ∈ ks) (holds : keptOutside (packRanges s.c) s ⟨s.pending, n⟩ → P ⟨s.pending, n⟩) :
    completes i s packParts ks P := by
  refine ⟨⟨s.pending, n⟩, ran, rfl, holds fun x hx => ?_, ?_⟩
  · exact packed.outside x (by rwa [show packRanges (s.mach.onCtl f).ctl = packRanges s.c from same.ranges])
  · exact unchanged_trans (unchanged_mono before (by decide) h0 (by simp))
      (unchanged_mono packed.frame (fun _ h => h) hk (by simp))

/-! ### Captures (R329) -/

/-- The controller once a capture's rows are in: it waits no longer, and its command runs. -/
def captureTaken (c : Ctl) : Ctl :=
  (c.setRec { c.recorder with capture := none }).cmdRun Obj.capture (c.cmdStarter Obj.capture)

theorem captureTaken_recorder (c : Ctl) : (captureTaken c).recorder = { c.recorder with capture := none } := cmdRun_recorder ..

theorem captureTaken_unchanged (c : Ctl) (x : Kv Byte) :
    unchangedBut [.units] [Obj.capture] [] ⟨c, x⟩ ⟨captureTaken c, x⟩ :=
  (un_cmdRun _ _ _ _ (by simp)).2 ((un_setRec _ _ _ _ (by simp)).2 (unchanged_refl _))

/-- CAPTURE_PACK on a capture whose rows are in, the first of them still in the ring. -/
theorem exec_capturePack_ready {s : State} {w : CaptureWait} {rows : List StripRow} (hw : s.c.recorder.capture = some w)
    (hr : s.c.captureRows w = some rows) (may : s.c.packerMay = true) (bulk : s.c.bulkMay = true)
    (first : rows.head?.map (s.c.inRing w.camera) = some true) :
    exec .capturePack s = nextMach s ((s.mach.onCtl captureTaken).packRows 3 w.camera 0 w.column w.columns rows) := by
  show execCapturePack s = _
  simp only [execCapturePack, hw, hr, may, bulk, first, Bool.not_true, Bool.or_self, Option.getD_some, Bool.false_eq_true, if_false]
  rfl

/-- CAPTURE_TIMEOUT 10 s after the command. -/
theorem exec_captureTimeout_due {s : State} {w : CaptureWait} (hw : s.c.recorder.capture = some w)
    (due : w.since + 10000000000 ≤ s.c.now) : exec .captureTimeout s = nextCtl s s.c.captureGone := by
  show execCaptureTimeout s = _
  simp only [execCaptureTimeout, hw]
  exact if_pos due

/-! ### Crops (R328) -/

/-- What CROP_CUT leaves of a crop whose rows are in: without one of them in the ring the item is dropped, else they are packed. -/
def cropCut (m : Mach) (w : CropWait) (rows : List StripRow) : Mach :=
  let m1 := m.onCtl fun c => c.setRec { c.recorder with crops := c.recorder.crops.filter fun x => x != w }
  if (rows.filter (m.ctl.inRing w.camera)).isEmpty then m1.onCtl fun c => c.bump Obj.items_dropped
  else m1.packRows 2 w.camera w.ticket w.column w.columns rows

theorem exec_cropCut_ready {s : State} {w : CropWait} {rows : List StripRow}
    (hw : (s.c.recorder.crops.find? fun w => (s.c.cropRows w).isSome) = some w) (hr : s.c.cropRows w = some rows)
    (may : s.c.packerMay = true) (bulk : s.c.bulkMay = true) : exec .cropCut s = nextMach s (cropCut s.mach w rows) := by
  show execCropCut s = _
  simp only [execCropCut, hw, hr, may, bulk, Bool.not_true, Bool.or_self, Option.getD_some, Bool.false_eq_true, if_false, cropCut]
  split <;> rfl

/-! ### Checks (R323) -/

/-- The controller once a crate did not come back as its rows. -/
def mismatchCounted (c : Ctl) : Ctl := (c.bump Obj.crates_mismatched).ring Src.PACK_MISMATCH 0xFFFF Obj.crates_mismatched

theorem mismatchCounted_recorder (c : Ctl) : (mismatchCounted c).recorder = c.recorder :=
  (ring_recorder ..).trans (bump_recorder ..)

theorem mismatchCounted_unchanged (c : Ctl) (x : Kv Byte) :
    unchangedBut [.units] [Obj.crates_mismatched] [] ⟨c, x⟩ ⟨mismatchCounted c, x⟩ :=
  (un_ring ..).2 ((un_bump _ _ _ (by simp)).2 (unchanged_refl _))

/-- The counters of the packer's checks hold 32 bits. -/
theorem crateCounters_u32 : ∀ k ∈ [Obj.crates_mismatched, Obj.crates_unchecked], (objOf k).map (·.ty) = some .u32 := by
  decide +kernel

/-- A 32-bit counter below its top counts. -/
theorem bump_nat_u32 {c : Ctl} {k : Nat} (h : (objOf k).map (·.ty) = some .u32) (room : c.nat k < 2 ^ 32 - 1) :
    (c.bump k).nat k = c.nat k + 1 := by
  obtain ⟨row, found, u32⟩ := Option.map_eq_some_iff.1 h
  exact bump_nat c found (by rw [u32]; exact Nat.add_lt_of_lt_sub room)

theorem mismatchCounted_nat {c : Ctl} (room : c.nat Obj.crates_mismatched < 2 ^ 32 - 1) :
    (mismatchCounted c).nat Obj.crates_mismatched = c.nat Obj.crates_mismatched + 1 :=
  (nat_ring _ _ _ _ (by decide)).trans (bump_nat_u32 (crateCounters_u32 _ (by simp)) room)

/-- PACK_CRATE_CHECK on the oldest crate held: its crate as packed, or STORED and the mismatch counted. -/
theorem exec_packCrateCheck_oldest {s : State} {h : HeldCrate} {rest : List HeldCrate} (held : s.c.recorder.held = h :: rest)
    (may : s.c.crateMay h = true) :
    exec .packCrateCheck s = nextMach s
      (if h.checks = true then s.mach.settleCrate h (crateOf 1 h.rows.length h.payload)
        else (s.mach.onCtl mismatchCounted).settleCrate h (storedCrate h.rows)) := by
  show execPackCrateCheck s = _
  simp only [execPackCrateCheck, held, may, Bool.not_true, Bool.false_eq_true, if_false]
  split <;> rfl

/-- CRATE_UNCHECKED on the first crate that is two bands behind. -/
theorem exec_crateUnchecked_overdue {s : State} {h : HeldCrate} (found : s.c.recorder.held.find? s.c.recorder.overdue = some h)
    (may : s.c.crateMay h = true) :
    exec .crateUnchecked s =
      nextMach s ((s.mach.onCtl fun c => c.bump Obj.crates_unchecked).settleCrate h (storedCrate h.rows)) := by
  show execCrateUnchecked s = _
  simp only [execCrateUnchecked, found, may, if_true]

/-- A crate's check may go on where the packer may write (R324). -/
theorem packerMay_of_crateMay {c : Ctl} {h : HeldCrate} (may : c.crateMay h = true) : c.packerMay = true := by
  simp only [Ctl.crateMay, Bool.and_eq_true] at may
  exact may.1

/-! ### The fire record (R325 to R327) -/

/-- FIRE_RECORD_COMPLETE on the first record whose ticket is over, with every band packed and no crate held. -/
theorem exec_fireRecordComplete_over {s : State} {f : FireRec}
    (found : (s.c.recorder.fires.find? fun f => (s.c.fireOver f).isSome) = some f) (packed : f.openBands = [])
    (settled : ∀ h ∈ s.c.recorder.held, (h.fire && h.owner == f.ticket) = false) (may : s.c.packerMay = true) :
    exec .fireRecordComplete s = nextMach s ((s.mach.onCtl fun c =>
      c.setRec { c.recorder with fires := c.recorder.fires.filter fun x => x.ticket != f.ticket }).postItem
        (s.c.firePlan f ((s.c.fireOver f).getD false))) := by
  have none_held : s.c.recorder.held.any (fun h => h.fire && h.owner == f.ticket) = false :=
    List.any_eq_false.2 fun h hh => by rw [settled h hh]; exact Bool.false_ne_true
  show execFireRecordComplete s = _
  simp only [execFireRecordComplete, found, packed, ne_eq, not_true_eq_false, none_held, may, Bool.not_true, Bool.or_self,
    Bool.false_eq_true, if_false]

end Sys2Proof.Laws

namespace Sys2Proof.Machine

open Sys2Proof.Safety Sys2Proof.Laws

/-! ### The packer's steps complete -/

/-- A camera's ring and the store need a FROZEN controller as before: serving a request leaves them. -/
theorem captureFrozen_of_wired {c d : Ctl} (w : Wired c d) (k : Nat) : d.captureFrozen k = c.captureFrozen k := by
  have same := w.sameObjects
  unfold Ctl.captureFrozen
  rw [w.oct (wireObject_high (by unfold Obj.crop_ring; omega)), w.nat (by decide : wireObject Obj.store_base = false),
    w.nat (by decide : wireObject Obj.store_bytes = false)]
  simp only [same.rangeFrozen]

/-- A capture whose controllers are not FROZEN waits for its rows, and the record ride is needed (R329). -/
theorem capture_completes (s : State) (r : Req) (v : List Byte) (free : s.c.captureFrozen (fld v 0 1) = false) :
    completesCmd r Obj.capture v 4 (.capture r v) s [.units, .power] [Obj.ride_state 5, pllKey 5] fun t =>
      t.c.recorder.capture = some ⟨fld v 0 1, fld v 4 8, fld v 12 4, fld v 16 4, fld v 20 4, s.c.now⟩ := by
  intro hr
  refine ctlRow_completes (ownCapture v) _ rfl hr fun c w _ _ => ?_
  have owned : ownCapture v r.session c = (St.STARTED, ((c.cmdQueue Obj.capture r.session).setRec { c.recorder with
      capture := some ⟨fld v 0 1, fld v 4 8, fld v 12 4, fld v 16 4, fld v 20 4, c.now⟩ }).needRide rideRecord) :=
    if_neg (by rw [captureFrozen_of_wired w, free]; exact Bool.false_ne_true)
  rw [owned]
  refine ⟨rfl, .inr (by decide), ?_, fun d w' => ⟨?_, ?_⟩⟩
  · rw [unchanged_iff (needRide_unchanged _ _ rideRecord (by simp) (by simp) (by simp)), un_setRec _ _ _ _ (by simp),
      Ctl.cmdQueue, Ctl.putN_put, un_put_key _ _ _ _ (by simp)]
    exact unchanged_refl _
  · rw [w'.nat (by decide), needRecord_nat _ (by decide) (by decide), Ctl.setRec_nat_of, nat_cmdQueue]
  · dsimp only [State.c]
    rw [w'.recorder, needRide_recorder, setRec_recorder, w.now]

/-- A capture whose rows are in is packed, and waits no longer (R329). -/
theorem capturePack_completes (s : State) (w : CaptureWait) (rows : List StripRow) (hw : s.c.recorder.capture = some w)
    (hr : s.c.captureRows w = some rows) (may : s.c.packerMay) (bulk : s.c.bulkMay)
    (first : (rows.head?.map (s.c.inRing w.camera)) = some true) (inside : storeInside s.c) :
    completes .capturePack s packParts packObjects fun t =>
      t.c.recorder.capture = none ∧ t.c.recorder.jobNumber = s.c.recorder.jobNumber + 1 ∧
        keptOutside (packRanges s.c) s t := by
  have before := captureTaken_unchanged s.c s.mach.cellar
  have recorder := captureTaken_recorder s.c
  have same : samePacker s.c (captureTaken s.c) :=
    samePacker_of_unchanged before (by decide) (by simp only [recorder]) (by simp only [recorder])
  have ran := exec_capturePack_ready hw hr may bulk first
  obtain ⟨packed, number, -, waits⟩ :=
    packRows_packsTo (m := s.mach.onCtl captureTaken) 3 w.camera 0 w.column w.columns rows (same.ready ⟨may, inside⟩)
  exact packs_completes ran before same packed (by decide) (fun _ h => h)
    fun outside => ⟨waits.trans (congrArg Recorder.capture recorder), number.trans (congrArg (·.jobNumber + 1) recorder), outside⟩

/-- A capture whose rows do not come within 10 s is GONE (R329). -/
theorem captureTimeout_completes (s : State) (w : CaptureWait) (hw : s.c.recorder.capture = some w)
    (due : w.since + 10000000000 ≤ s.c.now) :
    completes .captureTimeout s [.units] [Obj.capture] fun t =>
      t.c.recorder = { s.c.recorder with capture := none } ∧
        t.c.nat Obj.capture = cmdWord 3 (s.c.cmdStarter Obj.capture) St.CAPTURE_GONE := by
  refine event_completes (exec_captureTimeout_due hw due) ⟨cmdFail_recorder .., nat_cmdFail _ _ _ _ (by decide)⟩ ?_
  exact (un_cmdFail _ _ _ _ _ _ (by simp)).2 ((un_setRec _ _ _ _ (by simp)).2 (unchanged_refl _))

/-- A crop whose rows are in is packed, or dropped with its rows (R328). -/
theorem cropCut_completes (s : State) (w : CropWait) (rows : List StripRow)
    (hw : (s.c.recorder.crops.find? fun w => (s.c.cropRows w).isSome) = some w) (hr : s.c.cropRows w = some rows)
    (may : s.c.packerMay) (bulk : s.c.bulkMay) (inside : storeInside s.c) :
    completes .cropCut s packParts packObjects fun t =>
      t.c.recorder.crops = s.c.recorder.crops.filter (fun x => x != w) ∧ keptOutside (packRanges s.c) s t := by
  have before : unchangedBut [.units] [] [] s.mach (s.mach.onCtl fun c =>
      c.setRec { c.recorder with crops := c.recorder.crops.filter fun x => x != w }) :=
    (un_setRec _ _ _ _ (by simp)).2 (unchanged_refl _)
  have same := samePacker_of_unchanged before (by simp) rfl rfl
  have ran := exec_cropCut_ready hw hr may bulk
  unfold cropCut at ran
  split at ran
  · exact packs_completes ran before same (packsTo_of_ctl ((un_bump _ _ _ (by decide)).2 (unchanged_refl _))) (by simp)
      (fun _ h => h) fun outside => ⟨congrArg Recorder.crops (bump_recorder ..), outside⟩
  · obtain ⟨packed, -, crops, -⟩ := packRows_packsTo 2 w.camera w.ticket w.column w.columns rows (same.ready ⟨may, inside⟩)
    exact packs_completes ran before same packed (by simp) (fun _ h => h) fun outside => ⟨crops, outside⟩

/-- The oldest crate held is checked and settled, STORED and counted where it does not come back (R323). -/
theorem packCrateCheck_completes (s : State) (h : HeldCrate) (rest : List HeldCrate) (held : s.c.recorder.held = h :: rest)
    (may : s.c.crateMay h) (room : s.c.nat Obj.crates_mismatched < 2 ^ 32 - 1) (inside : storeInside s.c) :
    completes .packCrateCheck s packParts (Obj.crates_mismatched :: packObjects) fun t =>
      t.c.recorder.held = rest.filter (fun x => x != h) ∧
        t.c.nat Obj.crates_mismatched = s.c.nat Obj.crates_mismatched + (if h.checks = true then 0 else 1) ∧
          keptOutside (packRanges s.c) s t := by
  have ready : packerReady s.c := ⟨packerMay_of_crateMay may, inside⟩
  have left : s.c.recorder.held.filter (fun x => x != h) = rest.filter fun x => x != h := by
    rw [held]
    exact List.filter_cons_of_neg (by simp)
  have ran := exec_packCrateCheck_oldest held may
  split at ran
  · next comes_back =>
    obtain ⟨packed, held'⟩ := settleCrate_packsTo (m := s.mach) h (crateOf 1 h.rows.length h.payload) ready
    refine packs_completes (f := id) ran (unchanged_refl (ks := []) _) ⟨fun _ _ => rfl, rfl, rfl⟩ packed (by simp)
      (fun _ => List.mem_cons_of_mem _) fun outside => ⟨held'.trans left, ?_, outside⟩
    rw [if_pos comes_back]
    exact packed.nat (by decide) (by decide)
  · next differs =>
    have before := mismatchCounted_unchanged s.c s.mach.cellar
    have recorder := mismatchCounted_recorder s.c
    have same := samePacker_of_unchanged before (by decide) (by simp only [recorder]) (by simp only [recorder])
    obtain ⟨packed, held'⟩ := settleCrate_packsTo (m := s.mach.onCtl mismatchCounted) h (storedCrate h.rows) (same.ready ready)
    refine packs_completes ran before same packed (by simp) (fun _ => List.mem_cons_of_mem _)
      fun outside => ⟨held'.trans ?_, ?_, outside⟩
    · rw [← left]
      exact congrArg (fun r : Recorder => r.held.filter _) recorder
    · rw [if_neg differs]
      exact (packed.nat (by decide) (by decide)).trans (mismatchCounted_nat room)

/-- A crate two bands behind is settled STORED and counted, without a check (R323). -/
theorem crateUnchecked_completes (s : State) (h : HeldCrate) (found : s.c.recorder.held.find? s.c.recorder.overdue = some h)
    (may : s.c.crateMay h) (room : s.c.nat Obj.crates_unchecked < 2 ^ 32 - 1) (inside : storeInside s.c) :
    completes .crateUnchecked s packParts (Obj.crates_unchecked :: packObjects) fun t =>
      t.c.recorder.held = s.c.recorder.held.filter (fun x => x != h) ∧
        t.c.nat Obj.crates_unchecked = s.c.nat Obj.crates_unchecked + 1 ∧ keptOutside (packRanges s.c) s t := by
  have before : unchangedBut [.units] [Obj.crates_unchecked] [] s.mach (s.mach.onCtl fun c => c.bump Obj.crates_unchecked) :=
    (un_bump _ _ _ (by simp)).2 (unchanged_refl _)
  have recorder := bump_recorder s.c Obj.crates_unchecked
  have same := samePacker_of_unchanged before (by decide) (congrArg Recorder.store recorder) (congrArg Recorder.next recorder)
  obtain ⟨packed, held⟩ := settleCrate_packsTo (m := s.mach.onCtl fun c => c.bump Obj.crates_unchecked) h (storedCrate h.rows)
    (same.ready ⟨packerMay_of_crateMay may, inside⟩)
  refine packs_completes (exec_crateUnchecked_overdue found may) before same packed (by simp) (fun _ => List.mem_cons_of_mem _)
    fun outside => ⟨held.trans (congrArg (fun r : Recorder => r.held.filter _) recorder), ?_, outside⟩
  exact (packed.nat (by decide) (by decide)).trans (bump_nat_u32 (crateCounters_u32 _ (by simp)) room)

/-- A fire record whose ticket is over, with every band packed and every crate settled, is posted (R325 to R327). -/
theorem fireRecordComplete_completes (s : State) (f : FireRec)
    (found : (s.c.recorder.fires.find? fun f => (s.c.fireOver f).isSome) = some f) (packed : f.openBands = [])
    (settled : ∀ h ∈ s.c.recorder.held, (h.fire && h.owner == f.ticket) = false) (may : s.c.packerMay) (inside : storeInside s.c) :
    completes .fireRecordComplete s packParts packObjects fun t =>
      t.c.recorder.fires = s.c.recorder.fires.filter (fun x => x.ticket != f.ticket) ∧ keptOutside (packRanges s.c) s t := by
  have before : unchangedBut [.units] [] [] s.mach (s.mach.onCtl fun c =>
      c.setRec { c.recorder with fires := c.recorder.fires.filter fun x => x.ticket != f.ticket }) :=
    (un_setRec _ _ _ _ (by simp)).2 (unchanged_refl _)
  have same := samePacker_of_unchanged before (by simp) rfl rfl
  have posted := postItem_postsTo (s.c.firePlan f ((s.c.fireOver f).getD false)) (same.ready ⟨may, inside⟩)
  exact packs_completes (exec_fireRecordComplete_over found packed settled may) before same posted.topacksTo (by simp)
    (fun _ h => h) fun outside => ⟨congrArg Recorder.fires posted.recorder, outside⟩

/-- Settles O30: each of the seven steps of the packer completes. -/
theorem packerStepsComplete : Obligations.PackerStepsComplete :=
  ⟨capture_completes, capturePack_completes, captureTimeout_completes, cropCut_completes, packCrateCheck_completes,
    crateUnchecked_completes, fireRecordComplete_completes⟩

end Sys2Proof.Machine
end

section
/-! PROOF. Replays (R318 to R320): what starting and ending one changes, the way through the byte stream to a lone last IDR slice, and the
slot that a picture put out is written to. -/

namespace Sys2Proof.Laws

open Sys2Proof.Machine Sys2Proof.Safety

/-! ### What serving a request leaves of a replay's checks (R261, R318, R353) -/

section wired
variable {c d : Ctl} (h : Wired c d)
include h

theorem Wired.inCrates (a n : Nat) : d.inCrates a n = c.inCrates a n := by
  unfold Ctl.inCrates
  rw [h.nat (by decide : wireObject Obj.crate_base = false), h.nat (by decide : wireObject Obj.crate_bytes = false)]

theorem Wired.isoOthers (k : Nat) : d.isoOthers k = c.isoOthers k := by
  have enabled : d.camOn = c.camOn := funext fun j => h.on (wireObject_high (by unfold Obj.camera_enable; omega))
  have demand : ∀ j, d.nat (Obj.iso_demand j) = c.nat (Obj.iso_demand j) := fun j =>
    h.nat (wireObject_high (by unfold Obj.iso_demand; omega))
  simp only [Ctl.isoOthers, enabled, demand, h.units]

/-- The areas and their objects lie above what serving a request may change (R352). -/
theorem Wired.areaOf {k : Nat} (hk : k ∈ areaKeys) : d.areaOf k = c.areaOf k := by
  have wire : ∀ k ∈ areaKeys, wireObject k = false := by decide
  have bytes : ∀ u, d.nat (Obj.out_ring_bytes u) = c.nat (Obj.out_ring_bytes u) := fun u =>
    h.nat (wireObject_high (by unfold Obj.out_ring_bytes; omega))
  have entries : ∀ u, d.nat (Obj.index_entries u) = c.nat (Obj.index_entries u) := fun u =>
    h.nat (wireObject_high (by unfold Obj.index_entries; omega))
  simp only [Ctl.areaOf, h.nat (wire k hk), h.oct (wire k hk), bytes, entries,
    h.nat (by decide : wireObject Obj.loop_ring_entries = false), h.nat (by decide : wireObject Obj.store_bytes = false),
    h.nat (by decide : wireObject Obj.item_entries = false)]

theorem Wired.replayRingOk (base size : Nat) : d.replayRingOk base size = c.replayRingOk base size := by
  have free : (areaKeys.all fun k => (d.areaOf k).1 == 0 || !overlaps (base, size) (d.areaOf k)) =
      areaKeys.all fun k => (c.areaOf k).1 == 0 || !overlaps (base, size) (c.areaOf k) := by
    rw [Bool.eq_iff_iff, List.all_eq_true, List.all_eq_true]
    exact forall₂_congr fun k hk => by rw [h.areaOf hk]
  unfold Ctl.replayRingOk Ctl.generalEnd
  rw [free, h.sameObjects.usable, h.nat (by decide : wireObject Obj.pool_area_bytes = false),
    h.nat (by decide : wireObject Obj.crate_base = false), h.nat (by decide : wireObject Obj.crate_bytes = false)]

end wired

/-! ### A replay starts and ends (R261, R318) -/

section iso
variable {ps : List Part} {ks is_ : List Nat} (c : Ctl) (x : Kv Byte) (i v : Nat)

/-- A commitment set shows in iso_committed (R261). -/
theorem setIso_unchanged (hp : Part.units ∈ ps) (hk : Obj.iso_committed ∈ ks) :
    unchangedBut ps ks is_ ⟨c, x⟩ ⟨c.setIso i v, x⟩ := by
  unfold Ctl.setIso Ctl.showIso
  rw [Ctl.putN_put, un_put_key _ _ _ _ hk]
  exact (un_setUnits _ c x _ hp).2 (unchanged_refl _)

@[simp] theorem setIso_recorder : (c.setIso i v).recorder = c.recorder := rfl

theorem setIso_nat {k : Nat} (h : Obj.iso_committed ≠ k) : (c.setIso i v).nat k = c.nat k := nat_put_ne _ _ h

end iso

/-- The controller that begins replay `x` with a commitment of `v` MB/s. -/
def replayBegun (c : Ctl) (x : Replay) (v n : Nat) : Ctl :=
  ((((c.cmdRun Obj.decode n).setReplay (some x)).putN Obj.decoder_state 1).setIso 4 v).needRide rideRecord

/-- The controller that has ended its replay, before the command shows it. -/
def replayDropped (c : Ctl) : Ctl := (((c.setReplay none).putN Obj.decoder_state 0).setIso 4 0).usedRide rideRecord

section begun
variable (c : Ctl) (m : Kv Byte) (x : Replay) (v n : Nat)

theorem replayBegun_unchanged : unchangedBut [.units, .power]
    [Obj.decode, Obj.decoder_state, Obj.iso_committed, Obj.ride_state 5, pllKey 5] [] ⟨c, m⟩ ⟨replayBegun c x v n, m⟩ := by
  unfold replayBegun Ctl.setReplay
  rw [unchanged_iff (needRide_unchanged _ m rideRecord (by decide) (by decide) (by decide)),
    unchanged_iff (setIso_unchanged _ m 4 v (by decide) (by decide)), Ctl.putN_put, un_put_key _ _ _ _ (by decide),
    un_setRec _ _ _ _ (by decide), un_cmdRun _ _ _ _ (by decide)]
  exact unchanged_refl _

theorem replayBegun_replay : (replayBegun c x v n).recorder.replay = some x := by
  unfold replayBegun
  rw [needRide_recorder, setIso_recorder, Ctl.putN_put, put_recorder]
  rfl

theorem replayBegun_state : (replayBegun c x v n).nat Obj.decoder_state = 1 := by
  unfold replayBegun
  rw [needRecord_nat _ (by decide) (by decide), setIso_nat _ _ _ (by decide), Ctl.putN_put, nat_put_eq]
  rfl

theorem replayBegun_word : (replayBegun c x v n).nat Obj.decode = cmdWord 1 n 0 := by
  unfold replayBegun
  rw [needRecord_nat _ (by decide) (by decide), setIso_nat _ _ _ (by decide), Ctl.putN_put, nat_put_ne _ _ (by decide),
    Ctl.setReplay, Ctl.setRec_nat_of, nat_cmdRun]

end begun

section dropped
variable (c : Ctl)

/-- A replay over without an error leaves its command DONE (R318). -/
theorem replayOver_done : c.replayOver 0 = (replayDropped c).cmdDone Obj.decode Src.REC_CMD_DONE := by
  unfold Ctl.replayOver replayDropped
  exact if_pos rfl

theorem replayDropped_recorder : (replayDropped c).recorder = { c.recorder with replay := none } := rfl

theorem replayDropped_unchanged (m : Kv Byte) : unchangedBut [.units, .power] [Obj.decoder_state, Obj.iso_committed] []
    ⟨c, m⟩ ⟨replayDropped c, m⟩ := by
  unfold replayDropped Ctl.setReplay
  rw [unchanged_iff (usedRide_unchanged _ m rideRecord (by decide)),
    unchanged_iff (setIso_unchanged _ m 4 0 (by decide) (by decide)), Ctl.putN_put, un_put_key _ _ _ _ (by decide),
    un_setRec _ _ _ _ (by decide)]
  exact unchanged_refl _

theorem replayDropped_state : (replayDropped c).nat Obj.decoder_state = 0 := by
  have ended : ((c.setReplay none).putN Obj.decoder_state 0).nat Obj.decoder_state = 0 := nat_put_eq ..
  exact (setIso_nat _ _ _ (by decide)).trans ended

/-- A command of its own shows nothing of it. -/
theorem replayDropped_starter : (replayDropped c).cmdStarter Obj.decode = c.cmdStarter Obj.decode :=
  cmdStarter_of_val (unchanged_val (replayDropped_unchanged c []) (by decide) (by decide) List.not_mem_nil)

end dropped

/-- A command that ends at once shows nothing of other objects. -/
theorem nat_cmdNow_other (c : Ctl) {k j : Nat} (n src u : Nat) (h : k ≠ j) (hj : bellObject j = false) :
    (c.cmdNow k n src u).nat j = c.nat j := by
  rw [Ctl.nat_val, Ctl.nat_val, val_cmdNow_other _ _ _ _ h hj]

@[simp] theorem cmdNow_recorder (c : Ctl) (k n src u : Nat) : (c.cmdNow k n src u).recorder = c.recorder :=
  (cmdDone_recorder ..).trans (cmdRun_recorder ..)

end Sys2Proof.Laws

namespace Sys2Proof.Machine

open Sys2Proof.Safety Sys2Proof.Laws

/-! ### The commands (R318) -/

/-- The replay that the argument of decode asks for. -/
def askedReplay (v : List Byte) : Replay :=
  { address := fld v 0 8, length := fld v 8 4, maxWidth := fld v 12 2, maxHeight := fld v 14 2, base := fld v 16 8,
    frames := fld v 24 1, rate := fld v 25 1, done := 0, spss := [], ppss := [], active := none, started := false,
    needIdr := false, skipRasl := false, fresh := true, poc := 0, pictures := [], tag := [], slot := 0, count := 0, lastAt := 0,
    prev := none }

/-- The owner of decode whose checks all pass begins it. -/
theorem ownDecode_of_checks {c : Ctl} {v : List Byte} (n : Nat) (crates : c.inCrates (fld v 0 8) (fld v 8 4) = true)
    (ring : c.replayRingOk (fld v 16 8) (fld v 24 1 * replaySlot (fld v 12 2) (fld v 14 2) 10) = true)
    (served : c.rangeFrozen (fld v 0 8) (fld v 8 4) = false)
    (written : c.rangeFrozen (fld v 16 8) (fld v 24 1 * replaySlot (fld v 12 2) (fld v 14 2) 10) = false)
    (budget : c.isoOthers 4 + mbUp ⟨fld v 12 2 * fld v 14 2 * fld v 25 1 * 9, 1⟩ ≤ c.nat Obj.iso_limit) :
    ownDecode v n c =
      (St.STARTED, replayBegun c (askedReplay v) (mbUp ⟨fld v 12 2 * fld v 14 2 * fld v 25 1 * 9, 1⟩) n) := by
  simp only [ownDecode, crates, ring, served, written, if_neg (Nat.not_lt.2 budget), Bool.not_true, Bool.or_self,
    Bool.false_eq_true, if_false]
  rfl

/-- decode begins a replay of a stream in the crate region (R318). -/
theorem decode_completes (s : State) (r : Req) (v : List Byte) (crates : s.c.inCrates (fld v 0 8) (fld v 8 4))
    (ring : s.c.replayRingOk (fld v 16 8) (fld v 24 1 * replaySlot (fld v 12 2) (fld v 14 2) 10))
    (served : s.c.rangeFrozen (fld v 0 8) (fld v 8 4) = false)
    (written : s.c.rangeFrozen (fld v 16 8) (fld v 24 1 * replaySlot (fld v 12 2) (fld v 14 2) 10) = false)
    (budget : s.c.isoOthers 4 + mbUp ⟨fld v 12 2 * fld v 14 2 * fld v 25 1 * 9, 1⟩ ≤ s.c.nat Obj.iso_limit) :
    completesCmd r Obj.decode v 1 (.decode r v) s [.units, .power]
      [Obj.decoder_state, Obj.iso_committed, Obj.ride_state 5, pllKey 5] fun t =>
      t.c.nat Obj.decoder_state = 1 ∧
        (t.c.recorder.replay.map fun x => (x.address, x.length, x.base, x.frames, x.rate, x.done)) =
          some (fld v 0 8, fld v 8 4, fld v 16 8, fld v 24 1, fld v 25 1, 0) := by
  intro hr
  refine ctlRow_completes (ownDecode v) _ rfl hr fun c w _ _ => ?_
  have same := w.sameObjects
  have owned := ownDecode_of_checks (c := c) (v := v) r.session ((w.inCrates ..).trans crates)
    ((w.replayRingOk ..).trans ring) ((same.rangeFrozen ..).trans served) ((same.rangeFrozen ..).trans written)
    (by rw [w.isoOthers, w.nat (by decide)]; exact budget)
  rw [owned]
  refine ⟨rfl, .inr (by decide), replayBegun_unchanged .., fun d w' => ⟨?_, ?_, ?_⟩⟩
  · exact (w'.nat (by decide)).trans (replayBegun_word ..)
  · exact (w'.nat (by decide)).trans (replayBegun_state ..)
  · dsimp only [State.c]
    rw [w'.recorder, replayBegun_replay]
    rfl

/-- decode_stop ends the decode that runs, DONE (R318). -/
theorem decodeStop_completes (s : State) (r : Req) (arg : Nat) (busy : s.c.cmdBusy Obj.decode)
    (runs : s.c.recorder.replay.isSome) :
    completesWrite r Obj.decode_stop (le 1 arg) St.STARTED (.decodeStop r arg) s [.units, .power]
      [Obj.decode, Obj.decoder_state, Obj.iso_committed] fun t =>
      t.c.recorder.replay = none ∧ t.c.nat Obj.decoder_state = 0 ∧
        t.c.nat Obj.decode = cmdWord 2 (s.c.cmdStarter Obj.decode) 0 := by
  intro hr
  refine ctlRow_completes ownDecodeStop _ rfl hr fun c w _ _ => ?_
  have recorder : c.recorder = s.c.recorder := w.recorder
  have owned : ownDecodeStop r.session c = (St.STARTED,
      ((replayDropped c).cmdDone Obj.decode Src.REC_CMD_DONE).cmdNow Obj.decode_stop r.session Src.REC_CMD_DONE) := by
    have stops : (c.recorder.replay.isSome && c.cmdBusy Obj.decode) = true := by
      rw [recorder, w.cmdBusy (by decide), runs, busy]
      rfl
    simp only [ownDecodeStop, stops, if_true, replayOver_done]
  rw [owned]
  refine ⟨rfl, .inr (by decide), ?_, fun d w' => ⟨?_, ?_, ?_⟩⟩
  · rw [un_cmdNow _ _ _ _ _ _ (by decide), un_cmdDone _ _ _ _ _ (by decide)]
    exact unchanged_mono (replayDropped_unchanged c _) (fun _ h => h) (by decide) (fun _ h => h)
  · dsimp only [State.c]
    rw [w'.recorder]
    exact congrArg Recorder.replay ((cmdNow_recorder ..).trans ((cmdDone_recorder ..).trans (replayDropped_recorder c)))
  · rw [w'.nat (by decide), nat_cmdNow_other _ _ _ _ (by decide) (by decide), Ctl.cmdDone, nat_ring _ _ _ _ (by decide),
      Ctl.putN_put, nat_put_ne _ _ (by decide), replayDropped_state]
  · rw [w'.nat (by decide), nat_cmdNow_other _ _ _ _ (by decide) (by decide), nat_cmdDone _ _ _ (by decide),
      replayDropped_starter, cmdStarter_of_val (w.val _ (by decide))]

end Sys2Proof.Machine
end

section
/-! PROOF. DECODE_PICTURE on a lone last IDR slice (R318 to R320): the picture is counted, and where it is put out at once its bytes fill
the next slot of the ring and no other. -/

namespace Sys2Proof.Laws

open Sys2Proof.Machine Sys2Proof.Safety

/-! ### The slot that a picture is put out to (R320) -/

theorem decodedHeader_length (count w h depth flags concealed : Nat) (tag : List Byte) :
    (decodedHeader count w h depth flags concealed tag).length = 64 := by
  simp [decodedHeader, le_length, zeros]

theorem frame_length (d : DecPic) (before : Option (List Byte)) :
    (d.frame before).length = decodedBytes d.width d.height d.depth := by
  simp [DecPic.frame]

/-- Of one picture held that one goes out next, or none. -/
theorem nextOutput_singleton {d e : DecPic} (h : nextOutput [d] = some e) : e = d := by
  by_cases waits : d.waits = true <;> by_cases due : d.due = true <;> simp [nextOutput, waitingPics, waits, due] at h <;>
    exact h.symm

/-- A cellar that is up stays up where its objects stay. -/
theorem cellarUp_of_unchanged {ps : List Part} {ks : List Nat} {a b : Mach} (h : unchangedBut ps ks [] a b)
    (usable : Obj.usable_bytes ∉ ks) (ride : Obj.ride_state 6 ∉ ks) : b.ctl.cellarUp = a.ctl.cellarUp := by
  have kept {k : Nat} (hw : wireObject k = false) (hk : k ∉ ks) : b.ctl.nat k = a.ctl.nat k := by
    rw [Ctl.nat_val, Ctl.nat_val, unchanged_val h hw hk List.not_mem_nil]
  unfold Ctl.cellarUp Ctl.usable
  rw [kept (k := Obj.usable_bytes) (by decide) usable, kept (k := Obj.ride_state 6) (by decide) ride]

/-- What a picture put out changes: the replay, what shows its ring, and the cellar. -/
abbrev putParts : List Part := [.units, .cellar, .cellarCtl]

/-- The objects that a picture put out may change. -/
abbrev putObjects : List Nat := [Obj.dec_head, Obj.decoder_state, Obj.mc_state 0, Obj.mc_state 1]

/-- A replay that holds one picture puts it out to its next slot, whose bytes it stays within, or keeps it. -/
theorem putOut_singleton {m : Mach} {r : Replay} {d : DecPic} (one : r.pictures = [d]) (up : m.ctl.cellarUp = true) :
    unchangedBut putParts putObjects [] m (m.putOut r) ∧
      ∀ x, x < (r.slotRange d.width d.height d.depth).1 ∨ (r.slotRange d.width d.height d.depth).2 ≤ x →
        memGet (m.putOut r).cellar x = memGet m.cellar x := by
  unfold Mach.putOut
  rw [one]
  split
  · exact ⟨(un_setRec _ _ _ _ (by simp)).2 (unchanged_refl _), fun _ _ => rfl⟩
  · next e out =>
    obtain rfl := nextOutput_singleton out
    dsimp only
    refine ⟨?_, fun x hx => memGet_memWrite_outside _ ?_⟩
    · rw [un_cellar _ _ m.cellar _ (by simp), un_ring, Ctl.putN_put, un_put_key _ _ _ _ (by simp), Ctl.putN_put,
        un_put_key _ _ _ _ (by simp), Ctl.setReplay, un_setRec _ _ _ _ (by simp)]
      exact useCellar_unchanged _ _ up (by simp) (by simp) (by simp)
    · have fits := le_roundUp (64 + decodedBytes e.width e.height e.depth) (show 0 < 4096 by decide)
      rw [List.length_append, decodedHeader_length, frame_length]
      simp only [Replay.slotRange, Nat.add_mul, Nat.one_mul] at hx
      unfold replaySlot at hx ⊢
      omega

/-! ### A picture decoded (R319) -/

/-- The controller that has counted a decoded picture, a concealed one as an error. -/
def pictureCounted (c : Ctl) (d : DecPic) : Ctl :=
  let c0 := if d.concealed = 0 then c else c.decodeError.bumpBy Obj.ctbs_concealed d.concealed
  { c0.bump Obj.pictures_decoded with free := c0.free + decodedBytes d.width d.height d.depth }

/-- The errors of a concealed picture are counted apart. -/
theorem concealed_unchanged (c : Ctl) (x : Kv Byte) (d : DecPic) :
    unchangedBut [] [Obj.decode_errors, Obj.ctbs_concealed] [] ⟨c, x⟩
      ⟨if d.concealed = 0 then c else c.decodeError.bumpBy Obj.ctbs_concealed d.concealed, x⟩ := by
  split
  · exact unchanged_refl _
  · rw [un_bumpBy _ _ _ _ (.inl (by simp)), Ctl.decodeError, un_ring, un_bump _ _ _ (by simp)]
    exact unchanged_refl _

theorem pictureCounted_unchanged (c : Ctl) (x : Kv Byte) (d : DecPic) :
    unchangedBut [] [Obj.pictures_decoded, Obj.decode_errors, Obj.ctbs_concealed] [] ⟨c, x⟩ ⟨pictureCounted c d, x⟩ := by
  have freed (e : Ctl) (n : Nat) : Wired e { e with free := n } := ⟨rfl, fun _ _ => rfl, fun _ => rfl⟩
  refine unchanged_trans ?_ (wired_unchanged (freed _ _) x)
  rw [un_bump _ _ _ (by simp)]
  exact unchanged_mono (concealed_unchanged c x d) (by simp) (by simp) (by simp)

theorem pictureCounted_nat {c : Ctl} (d : DecPic) (room : c.nat Obj.pictures_decoded < 2 ^ 32 - 1) :
    (pictureCounted c d).nat Obj.pictures_decoded = c.nat Obj.pictures_decoded + 1 := by
  have before := unchanged_nat (concealed_unchanged c [] d) (k := Obj.pictures_decoded) (by decide) (by decide) List.not_mem_nil
  have u64 : (objOf Obj.pictures_decoded).map (·.ty) = some .u64 := by decide +kernel
  obtain ⟨row, found, ty⟩ := Option.map_eq_some_iff.1 u64
  refine (bump_nat _ found ?_).trans (congrArg (· + 1) before)
  rw [before, ty, show Ty.u64.span = 2 ^ 64 from rfl]
  omega

/-- The first picture of a replay counts, and is put out to the next slot or kept. -/
theorem addDecoded_first {m : Mach} {q : Sps} {r : Replay} {d : DecPic} (first : r.pictures = []) (up : m.ctl.cellarUp = true)
    (room : m.ctl.nat Obj.pictures_decoded < 2 ^ 32 - 1) :
    unchangedBut putParts [Obj.dec_head, Obj.pictures_decoded, Obj.decoder_state, Obj.decode_errors, Obj.ctbs_concealed,
        Obj.mc_state 0, Obj.mc_state 1] [] m (m.addDecoded q r d) ∧
      (m.addDecoded q r d).ctl.nat Obj.pictures_decoded = m.ctl.nat Obj.pictures_decoded + 1 ∧
      ∀ x, x < (r.slotRange d.width d.height d.depth).1 ∨ (r.slotRange d.width d.height d.depth).2 ≤ x →
        memGet (m.addDecoded q r d).cellar x = memGet m.cellar x := by
  have counted := pictureCounted_unchanged m.ctl m.cellar d
  have added : m.addDecoded q r d =
      if mustOutput q [d] = true then Mach.putOut ⟨pictureCounted m.ctl d, m.cellar⟩ { r with pictures := [d], tag := [], needIdr := false }
      else ⟨(pictureCounted m.ctl d).setReplay (some { r with pictures := [d], tag := [], needIdr := false }), m.cellar⟩ := by
    unfold Mach.addDecoded
    rw [first]
    rfl
  have up' : (pictureCounted m.ctl d).cellarUp = true :=
    (cellarUp_of_unchanged counted (by decide) (by decide)).trans up
  have counted' := unchanged_mono (ps' := putParts) (ks' := [Obj.dec_head, Obj.pictures_decoded, Obj.decoder_state,
    Obj.decode_errors, Obj.ctbs_concealed, Obj.mc_state 0, Obj.mc_state 1]) (is' := []) counted (by simp) (by simp) (by simp)
  rw [added]
  split
  · obtain ⟨frame, outside⟩ := putOut_singleton (m := ⟨pictureCounted m.ctl d, m.cellar⟩)
      (r := { r with pictures := [d], tag := [], needIdr := false }) rfl up'
    refine ⟨unchanged_trans counted' (unchanged_mono frame (fun _ h => h) (by simp) (by simp)), ?_, outside⟩
    rw [Ctl.nat_val, unchanged_val frame (by decide) (by decide) List.not_mem_nil, ← Ctl.nat_val]
    exact pictureCounted_nat d room
  · exact ⟨(un_setRec _ _ _ _ (by simp)).2 counted', pictureCounted_nat d room, fun _ _ => rfl⟩

/-! ### A lone last IDR slice (R318, R319) -/

/-- What `idrSlice` reads of a NAL unit's bytes. -/
theorem idrSlice_some {nal : List Byte} {discard : Bool} {id : Nat} {bs : List Bool} (h : idrSlice nal = some (discard, id, bs)) :
    (nal.headD 0).toNat = 0x26 ∧ (nal.getD 1 0).toNat % 8 ≠ 0 ∧ bit (nal.getD 2 0).toNat 7 = true ∧
      ((readBits 1 ((msbBits (unemulated 0 (nal.drop 2))).drop 1)).bind fun d => (ue d.2).map fun i => (d.1 == 1, i)) =
        some (discard, id, bs) := by
  unfold idrSlice at h
  split at h
  · next head =>
    obtain ⟨type, layer, firstBit⟩ := head
    refine ⟨type, layer, firstBit, ?_⟩
    rw [← h]
    cases readBits 1 ((msbBits (unemulated 0 (nal.drop 2))).drop 1) with
    | none => rfl
    | some d => cases hd : ue d.2 <;> simp [hd]
  · cases h

/-- An IDR picture where none is held waits for none: it is decoded, within the slot the replay has next. -/
theorem takePicture_first (m : Mach) (q : Sps) (n layer : Nat) {r r1 : Replay} (h : Slice) (first : r.pictures = []) :
    ∃ r2 d, r2.pictures = [] ∧ r2.slotRange d.width d.height d.depth = r1.slotRange q.width q.height q.depth ∧
      m.takePicture q n 19 layer r r1 h = m.addDecoded q r2 d := by
  have marked : h.marks q.pocBits true [] = [] := rfl
  unfold Mach.takePicture
  rw [first]
  dsimp only
  simp only [show decide (16 ≤ 19) = true from rfl, show decide (19 ≤ 20) = true from rfl, Bool.true_and, Bool.true_or, marked,
    List.any_nil, Bool.not_true, Bool.false_and, Bool.or_self, Bool.false_eq_true, if_false, if_true]
  refine ⟨_, _, ?_, ?_, rfl⟩
  · rfl
  · rfl

/-- The first slice of an IDR picture, whose parameter sets are held and whose header is read, begins that picture. -/
theorem firstSlice_idr (m : Mach) {q : Sps} {p : Pps} (n layer : Nat) {r : Replay} (r1 : Replay) {h : Slice} {nal : List Byte}
    {discard : Bool} {id : Nat} {bs : List Bool} (slice : idrSlice nal = some (discard, id, bs)) (sets : r.setsOf id = some (q, p))
    (read : readSlice q p 19 r.poc discard bs = some h) :
    m.firstSlice n 19 layer r r1 ((msbBits (unemulated 0 (nal.drop 2))).drop 1) = m.takePicture q n 19 layer r r1 h := by
  obtain ⟨-, -, -, named⟩ := idrSlice_some slice
  have read' : readSlice q p 19 r.poc (discard || (19 : Nat) == 21) bs = some h := by
    rw [show ((19 : Nat) == 21) = false from rfl, Bool.or_false]
    exact read
  simp only [Mach.firstSlice, show (if 16 ≤ 19 then 1 else 0) = 1 from rfl, named, sets, read']

/-- Work on a byte stream whose next NAL unit is such a slice and its last takes that picture, past its bytes. -/
theorem readOn_idr (m : Mach) {q : Sps} {p : Pps} (concealed fuel : Nat) {r : Replay} {h : Slice} {nal : List Byte}
    {discard : Bool} {id o : Nat} {bs : List Bool}
    (found : nextStart (memRead m.cellar (r.address + r.done) (r.length - r.done)) 0 = some (o, nal)) (last : nextStart nal 0 = none)
    (slice : idrSlice nal = some (discard, id, bs)) (sets : r.setsOf id = some (q, p))
    (read : readSlice q p 19 r.poc discard bs = some h) :
    m.readOn concealed (fuel + 1) r =
      m.takePicture q concealed 19 ((nal.getD 1 0).toNat % 8) r { r with done := r.done + o + 3 + nal.length } h := by
  obtain ⟨type, layer, firstBit, -⟩ := idrSlice_some slice
  have long : ¬nal.length < 2 := fun short => layer (by simp [Nat.le_of_lt_succ short])
  rw [Mach.readOn]
  simp only [found, last, List.take_length, type, layer, firstBit, long, show bit 0x26 7 = false from rfl,
    firstSlice_idr m _ _ _ slice sets read, show (0x26 : Nat) / 2 % 64 = 19 from rfl, Nat.reduceLeDiff, Nat.reduceEqDiff,
    Bool.false_eq_true, or_self, or_true, and_self, if_false, if_true, show ((19 : Nat) == 19) = true from rfl,
    show ((19 : Nat) == 8) = false from rfl, show ((19 : Nat) == 9) = false from rfl, Bool.true_or, Bool.not_true, Bool.and_false,
    Bool.or_false]

/-- Where the ring has room, the rate allows and the cellar serves, the replay goes on. -/
theorem exec_decodePicture {s : State} {x : Replay} (concealed : Nat) (may : s.c.decodes x) (inactive : x.active = none) :
    exec (.decodePicture concealed) s = nextMach s (s.mach.readOn concealed (x.length + 1) x) := by
  obtain ⟨runs, room, due⟩ := may
  show execDecodePicture concealed s = _
  simp only [execDecodePicture, runs, if_neg (Nat.not_le.2 room), if_pos due, Mach.replay, inactive]

end Sys2Proof.Laws

namespace Sys2Proof.Machine

open Sys2Proof.Safety Sys2Proof.Laws

/-- A lone last IDR slice is decoded as a picture, within the slot the replay writes next (R319, R320). -/
theorem decodePicture_completes (s : State) (x : Replay) (q : Sps) (p : Pps) (h : Slice) (id concealed o : Nat) (discard : Bool)
    (nal : List Byte) (bs : List Bool) (may : s.c.decodes x) (first : x.pictures = []) (inactive : x.active = none)
    (found : nextStart (memRead s.mach.cellar (x.address + x.done) (x.length - x.done)) 0 = some (o, nal))
    (last : nextStart nal 0 = none) (slice : idrSlice nal = some (discard, id, bs)) (sets : x.setsOf id = some (q, p))
    (read : readSlice q p 19 x.poc discard bs = some h) (room : s.c.nat Obj.pictures_decoded < 2 ^ 32 - 1) :
    completes (.decodePicture concealed) s putParts [Obj.dec_head, Obj.pictures_decoded, Obj.decoder_state, Obj.decode_errors,
      Obj.ctbs_concealed, Obj.mc_state 0, Obj.mc_state 1] fun t =>
      t.c.nat Obj.pictures_decoded = s.c.nat Obj.pictures_decoded + 1 ∧
        keptOutside [x.slotRange q.width q.height q.depth] s t := by
  obtain ⟨r2, d, none_held, slot, taken⟩ :=
    takePicture_first s.mach q concealed ((nal.getD 1 0).toNat % 8) (r1 := { x with done := x.done + o + 3 + nal.length }) h first
  have up : s.c.cellarUp = true := may.2.2.2.2.1
  obtain ⟨frame, count, outside⟩ := addDecoded_first (q := q) (d := d) none_held up room
  have ran := exec_decodePicture concealed may inactive
  rw [readOn_idr s.mach concealed x.length found last slice sets read, taken] at ran
  rw [slot] at outside
  exact ⟨_, ran, rfl, ⟨count, fun a ha => outside a (ha _ List.mem_cons_self)⟩, frame⟩

/-- Settles O32: decode begins a replay, a lone last IDR slice is decoded within its slot, and decode_stop ends the command. -/
theorem replayCommandsComplete : Obligations.ReplayCommandsComplete :=
  ⟨decode_completes, decodePicture_completes, decodeStop_completes⟩

end Sys2Proof.Machine
end

section
/-! PROOF. ENCODE_PICTURE and a stream whose refs lie beyond the range of their object (R311, R316): the picture parameter set
that stands before an IDR picture names the references in bits of its own, and with enough of them the picture is longer than the
ring that it is written to. -/

namespace Sys2Proof.Laws

open Sys2Proof.Machine Sys2Proof.Safety

/-! ### The length of a parameter set (R311) -/

theorem emulated_length_ge (z : Nat) (b : List Byte) : b.length ≤ (emulated z b).length := by
  induction b generalizing z with
  | nil => exact Nat.zero_le _
  | cons x r ih =>
    rw [emulated]
    split
    · exact Nat.le_succ_of_le (Nat.succ_le_succ (ih _))
    · exact Nat.succ_le_succ (ih _)

/-- A NAL unit holds its bits. -/
theorem nalUnit_holds (type : Nat) (bits : List Bool) : bits.length ≤ 8 * (nalUnit type bits).length := by
  refine Nat.le_trans ?_ (Nat.mul_le_mul_left 8 (Nat.le_trans (emulated_length_ge 0 _) (List.length_append ▸ Nat.le_add_left _ _)))
  rw [List.length_map, List.length_range, List.length_append, List.length_singleton]
  omega

/-- An exponential Golomb number has a leading zero for each bit after its first. -/
theorem ueBits_length_ge (v : Nat) : 2 * Nat.log2 (v + 1) ≤ (ueBits v).length := by
  simp only [ueBits, uBits, List.length_append, List.length_replicate, List.length_map, List.length_range]
  omega

/-- A picture parameter set holds the number of its references. -/
theorem pps_holds (x : SetInfo) : 2 * Nat.log2 (x.refs - 1 + 1) ≤ 8 * x.pps.length := by
  refine Nat.le_trans (ueBits_length_ge _) (Nat.le_trans ?_ (nalUnit_holds 34 _))
  simp only [List.length_append]
  omega

/-! ### The bytes of a picture (R311, R316) -/

/-- Parameter sets stand before an IDR picture. -/
theorem codePicture_idr_holds (c : Ctl) (i : Nat) (v : List Byte) (f : RecFrame) (ticket qp0 qpMax budget : Nat) :
    (c.setInfo i v).pps.length ≤ (c.codePicture i v f ticket qp0 qpMax budget true).1.bytes.length := by
  simp only [Ctl.codePicture, SetInfo.bytes, if_true, List.length_append]
  omega

theorem indexEntry_length (offset bytes count : Nat) (f : RecFrame) (p : Coded) (capped marked : Bool) :
    (indexEntry offset bytes count f p capped marked).length = 32 := by
  simp [indexEntry, le_length]

/-- The first picture of a stream is an IDR; it is written to its ring, and its entry to the index ring. -/
theorem encode_first_cellar (c : Ctl) (i : Nat) (v : List Byte) (f : RecFrame) (first : (c.stream i).count = 0) :
    ∃ b e, (c.setInfo i v).pps.length ≤ b.length ∧ e.length = 32 ∧ ∀ m, (Mach.encode ⟨c, m⟩ i v f).cellar =
      memWrite (ringWrite m (c.nat (Obj.out_ring_base i)) (c.nat (Obj.out_ring_bytes i)) (c.stream i).place b)
        (c.nat (Obj.index_ring_base i) + c.nat (Obj.index_head i) % c.nat (Obj.index_entries i) * 32) e := by
  have idr : ((c.stream i).count == 0) = true := beq_iff_eq.2 first
  simp only [Mach.encode, idr, Bool.true_or]
  generalize coded : c.codePicture i v f _ _ _ _ true = p
  exact ⟨p.1.bytes, indexEntry .., coded ▸ codePicture_idr_holds .., indexEntry_length .., fun _ => rfl⟩

/-- More than two rings of bytes go on past the ring's end: the byte there is the same whatever it was. -/
theorem ringWrite_past_end (m n : Kv Byte) {base size place : Nat} {b : List Byte} (long : 2 * size < b.length) :
    memGet (ringWrite m base size place b) (base + size) = memGet (ringWrite n base size place b) (base + size) := by
  have inside : base ≤ base + size ∧ base + size < base + (b.drop (size - place)).length := by
    rw [List.length_drop]
    omega
  unfold ringWrite
  rw [memGet_memWrite, if_pos inside, memGet_memWrite, if_pos inside]

/-- Where the ring serves and a frame waits, it is the stream's turn, and its picture is coded. -/
theorem exec_encodePicture {s : State} {i : Nat} {f : RecFrame} {rest : List RecFrame} {v : List Byte} (hi : i < 4)
    (on : s.c.streamOn i = true) (free : 65536 ≤ s.c.ringFree i) (room : s.c.indexFull i = false)
    (ride : s.c.rideRuns rideRecord = true) (up : s.c.cellarUp = true) (zero : s.c.frozen 0 = false) (one : s.c.frozen 1 = false)
    (waits : (s.c.stream i).waiting = f :: rest) (view : s.c.streamView i = some v) (turn : s.c.streamTurn i f = true) :
    exec (.encodePicture i) s = nextMach s (s.mach.encode i v f) := by
  show execEncodePicture i s = _
  simp only [execEncodePicture, hi, on, free, room, ride, up, zero, one, waits, view, turn, and_self, if_true]

end Sys2Proof.Laws

namespace Sys2Proof.Machine

open Sys2Proof.Safety Sys2Proof.Laws

/-! ### A stream of too many references -/

/-- A frame of camera 1 that waits. -/
def waitingFrame : RecFrame := ⟨0, 1, 0, 0, 5, false, []⟩

/-- A record view of 640 x 480 at 30 frames a second that feeds stream 2. -/
def feedingView : List Byte :=
  [1, 0, 0, 2] ++ le 4 0 ++ le 4 640 ++ le 2 640 ++ le 2 480 ++ le 2 30 ++ le 1 2 ++ le 1 4 ++ zeros 12

/-- A controller whose stream 2 has its first frame waiting, a ring of 64 KiB at 2^24, and `refs` references. -/
def refsCtl (refs : Nat) : Ctl :=
  let numbers : List (Nat × Nat) := [(Obj.usable_bytes, 2 ^ 31), (Obj.ride_state 6, 2), (Obj.ride_state 5, 2), (Obj.mc_state 0, 2),
    (Obj.mc_state 1, 2), (Obj.stream_enable 2, 1), (Obj.out_ring_bytes 2, 65536), (Obj.out_ring_base 2, 2 ^ 24),
    (Obj.index_ring_base 2, 2 ^ 22), (Obj.index_entries 2, 4096), (Obj.profile 2, 1), (Obj.cap 2, 20000)]
  let c := ((numbers.foldl (fun c e => c.putN e.1 e.2) Ctl.reset).putO (Obj.record_view 1) feedingView).setStream 2
    { Stream.reset with waiting := [waitingFrame] }
  c.putN (Obj.refs 2) refs

/-- The picture parameter set of that stream holds its references. -/
theorem refsCtl_pps_holds (n : Nat) (v : List Byte) : 2 * n ≤ 8 * ((refsCtl (2 ^ n)).setInfo 2 v).pps.length := by
  have held := pps_holds ((refsCtl (2 ^ n)).setInfo 2 v)
  have refs : ((refsCtl (2 ^ n)).setInfo 2 v).refs = 2 ^ n := nat_put_eq ..
  rwa [refs, Nat.sub_add_cancel Nat.one_le_two_pow, Nat.log2_two_pow] at held

/-- The controller whose stream 2 has a number of references of 2^20 + 1 bits. -/
def manyRefsCtl : Ctl := refsCtl (2 ^ 2 ^ 20)

/-- A picture of that stream is due. -/
theorem manyRefsCtl_due : manyRefsCtl.streamOn 2 = true ∧ 65536 ≤ manyRefsCtl.ringFree 2 ∧ manyRefsCtl.indexFull 2 = false ∧
    manyRefsCtl.rideRuns rideRecord = true ∧ manyRefsCtl.cellarUp = true ∧ manyRefsCtl.frozen 0 = false ∧ manyRefsCtl.frozen 1 = false ∧
    (manyRefsCtl.stream 2).waiting = [waitingFrame] ∧ manyRefsCtl.streamView 2 = some feedingView ∧
    manyRefsCtl.streamTurn 2 waitingFrame = true ∧ manyRefsCtl.nat (Obj.pictures 2) = 0 := by
  decide +kernel

/-- Its first picture goes to the head of its ring, and the entry to the head of the index ring. -/
theorem manyRefsCtl_rings : (manyRefsCtl.stream 2).count = 0 ∧ (manyRefsCtl.stream 2).place = 0 ∧
    manyRefsCtl.nat (Obj.out_ring_base 2) = 2 ^ 24 ∧ manyRefsCtl.nat (Obj.out_ring_bytes 2) = 65536 ∧
    manyRefsCtl.nat (Obj.index_ring_base 2) = 2 ^ 22 ∧ manyRefsCtl.nat (Obj.index_entries 2) = 4096 ∧
    manyRefsCtl.nat (Obj.index_head 2) = 0 := by
  decide +kernel

/-- Its picture parameter set alone is longer than two of its rings. -/
theorem manyRefsCtl_pps : 2 * 65536 < (manyRefsCtl.setInfo 2 feedingView).pps.length := by
  have held : 2 * 2 ^ 20 ≤ 8 * (manyRefsCtl.setInfo 2 feedingView).pps.length := by
    rw [manyRefsCtl]
    exact refsCtl_pps_holds (2 ^ 20) feedingView
  omega

/-- The byte past the end of its ring is the same after its first picture, whatever it was. -/
theorem manyRefs_overwrites (m n : Kv Byte) :
    memGet (Mach.encode ⟨manyRefsCtl, m⟩ 2 feedingView waitingFrame).cellar (2 ^ 24 + 65536) =
      memGet (Mach.encode ⟨manyRefsCtl, n⟩ 2 feedingView waitingFrame).cellar (2 ^ 24 + 65536) := by
  obtain ⟨count, -, base, size, index, entries, head⟩ := manyRefsCtl_rings
  obtain ⟨b, e, long, short, written⟩ := encode_first_cellar manyRefsCtl 2 feedingView waitingFrame count
  have beyond : 2 ^ 22 + 0 % 4096 * 32 + e.length ≤ 2 ^ 24 + 65536 := by omega
  rw [written, written, base, size, index, entries, head, memGet_memWrite_outside _ (.inr beyond),
    memGet_memWrite_outside _ (.inr beyond)]
  exact ringWrite_past_end m n (Nat.lt_of_lt_of_le manyRefsCtl_pps long)

/-- Refutes O31 by its clause about ENCODE_PICTURE, which lets refs be any number that a state can hold: with 2^(2^20) references
the parameter sets of the first picture are longer than its ring, and a byte beyond the ring changes. No WRITE gives refs such a value:
6610:03 takes 1 to 4. -/
theorem not_streamCommandsComplete : ¬ Obligations.StreamCommandsComplete := by
  rintro ⟨-, -, -, encodes, -⟩
  obtain ⟨on, free, room, ride, up, zero, one, waits, view, turn, pictures⟩ := manyRefsCtl_due
  obtain ⟨-, place, base, size, index, entries, -⟩ := manyRefsCtl_rings
  have kept (m : Kv Byte) : memGet (Mach.encode ⟨manyRefsCtl, m⟩ 2 feedingView waitingFrame).cellar (2 ^ 24 + 65536) =
      memGet m (2 ^ 24 + 65536) := by
    have done := encodes ⟨[], ⟨manyRefsCtl, m⟩⟩ 2 waitingFrame [] feedingView (by decide) on free room ride up zero one waits view
      turn (by show (manyRefsCtl.stream 2).place < manyRefsCtl.nat (Obj.out_ring_bytes 2); rw [place, size]; decide)
      (by show manyRefsCtl.nat (Obj.pictures 2) < 2 ^ 32 - 1; rw [pictures]; decide)
    obtain ⟨-, -, -, -, outside⟩ := holds_of_completes done
      (exec_encodePicture (by decide) on free room ride up zero one waits view turn)
    refine outside _ fun range mem => .inr ?_
    dsimp only [State.c] at mem
    rw [base, size, index, entries] at mem
    simp only [List.mem_cons, List.not_mem_nil, or_false] at mem
    obtain rfl | rfl := mem <;> decide
  have changed := manyRefs_overwrites [] [(2 ^ 24 + 65536, 1)]
  rw [kept, kept] at changed
  exact absurd changed (by decide)

end Sys2Proof.Machine
end
